-- ==== Sys2Proof/Word.lean ====
section
/-! DEFINITION. The word types of the fabric and the plainest arithmetic on them. -/

namespace Sys2Proof

/-- A 32-bit register word of the management aperture (R9). -/
abbrev Word := BitVec 32

/-- A shared 8-bit error code (R440). -/
abbrev Code := BitVec 8

/-- A node ID: die in bits [9:7], NI index in bits [6:0] (R17). -/
abbrev NodeId := BitVec 10

/-- Bit `i` of a word. -/
def bit {w : Nat} (v : BitVec w) (i : Nat) : Bool := v.getLsbD i

/-- One when the flag is set, else zero. -/
def flag (b : Bool) : Nat := if b then 1 else 0

/-- Addition that stops at `2^w - 1`, the saturating counters of the register pages. -/
def satAdd {w : Nat} (v : BitVec w) (n : Nat) : BitVec w := BitVec.ofNat w (min (v.toNat + n) (2 ^ w - 1))

/-- The smallest natural number `q` with `d * q ≥ n`, for positive `d`. -/
def ceilDiv (n d : Nat) : Nat := (n + d - 1) / d

end Sys2Proof
end

