-- ==== Sys2Proof/Syntax.lean ====
section
/-! DEFINITION. The commands of the block: one constructor of `Instr` for each row of spec/opcode_table.json, with the
operands a command brings from outside (an index, a register word, a channel message, a frame, an error pattern). -/

namespace Sys2Proof

/-- A Hayloft master by the number of R278: 0 to 3 the MNIs, 4 the debug port, 5 Foreman, 6 Gleaner, 7 the schedule
loader. -/
abbrev Master := Fin 8

/-- A message of an attached-unit channel, with the fields of R242 and R484. `hdr` is taken in the layout of the
sidecar of R42, with the opcode in bits [123:116] of it (log 10). `unstable` says that the fields changed while the
message was offered, the other fields then holding the values of the transfer cycle (R243). -/
structure Msg where
  cls      : BitVec 4   := 0
  etag     : BitVec 16  := 0
  ptag     : BitVec 9   := 0
  blen     : BitVec 6   := 0
  lidx     : BitVec 6   := 0
  hdr      : BitVec 128 := 0
  bmask    : BitVec 64  := 0
  data     : BitVec 512 := 0
  psn      : Bool       := false
  status   : Code       := 0
  devload  : BitVec 2   := 0
  pbr      : BitVec 13  := 0
  qsel     : BitVec 8   := 0
  flow     : BitVec 13  := 0
  hold     : Bool       := false
  comb     : Bool       := false
  ra       : Bool       := false
  ansCnt   : BitVec 2   := 0
  sheaf    : BitVec 9   := 0
  node     : BitVec 11  := 0
  ldid     : BitVec 4   := 0
  src      : NodeId     := 0
  vn       : BitVec 3   := 0
  seq      : BitVec 16  := 0
  part     : BitVec 9   := 0
  ctrl     : BitVec 48  := 0
  unstable : Bool       := false
deriving DecidableEq, Repr, Inhabited

/-- A flit in the regions of R27. -/
structure Flit where
  hdr  : BitVec 128 := 0
  sc   : BitVec 128 := 0
  data : BitVec 512 := 0
  chk  : BitVec 64  := 0
deriving DecidableEq, Repr, Inhabited

/-- A bit-error pattern that strikes a flit on a link: the flit's regions are inverted where it has ones. The zero
pattern is an error-free arrival. -/
abbrev FlitErr := Flit

/-- A Skidway frame: its twelve slots and its frame control word (R287). -/
structure Frame where
  slots : List (Option Flit) := []
  fcw   : BitVec 256         := 0
deriving DecidableEq, Repr, Inhabited

/-- The kind of barrier (R222, R242). -/
inductive BarKind where
  | order | drain | rule
deriving DecidableEq, Repr

/-- The scope of a barrier (R222, R242, R485). -/
inductive BarScope where
  | queue | ni | die | undefined
deriving DecidableEq, Repr

/-- A clock that the monitors of R411 watch. -/
inductive ClockId where
  | fclk | mclk | tclk | eclk
  | phy (s : Fin 6)
  | unit (n : Fin 80)
deriving DecidableEq, Repr

/-- The structures Gleaner passes over, in the order of GLN_STAT.overrun (R363, R371). -/
inductive GlnTable where
  | routeStore | slot | injection | rule
deriving DecidableEq, Repr

/-- The read-only test instructions that R425 names. -/
inductive TestRead where
  | bypass | idcode | wrapper
deriving DecidableEq, Repr

/-- The content of the eFuse array that R430 and R496 name. -/
structure FuseImage where
  die     : BitVec 3         := 0
  repairs : BitVec 8         := 0
  maps    : List (BitVec 32) := []
  mfr     : BitVec 11        := 0
deriving DecidableEq, Repr, Inhabited

/-- A register page of the aperture (R474). -/
inductive Page where
  | global | time | foreman | gleaner | journal | tally | power | sched
  | ni (n : Fin 87)
  | router (k : Fin 56)
  | skidway (s : Fin 6)
  | cluster (c : Fin 8)
  | partition (p : Fin 512)
deriving DecidableEq, Repr

/-- The item of a ladder fault: its scope and number (R458, R459). -/
inductive FaultItem where
  | partition (p : BitVec 9)
  | tile (k : Fin 56)
  | time
  | schedule
  | bank (c : Fin 8)
deriving DecidableEq, Repr

/-- A waiting place of messages at a source NI: one of its injection queues (R183), or its list of responses and
control packets (R188 item 3). -/
inductive QRef where
  | queue (j : BitVec 8)
  | answers
deriving DecidableEq, Repr

/-- The commands. The operands `m` and `v` of a register row are the writing Hayloft master and the 32-bit word
written; a row that is the write of a 1 to one bit sets that bit of `v` whatever `v` holds. -/
inductive Instr where
  -- power, resets, fuses, test
  | pwrOkRise
  | pwrOkFall
  | coldResetAssert
  | coldResetRelease
  | warmResetAssert
  | warmResetRelease
  | warmResetCommand (m : Master) (v : Word)
  | tileReset (m : Master) (v : Word)
  | fuseDone (bad : Bool)
  | efuseProgram (pgm : Bool) (img : FuseImage)
  | testReadInstruction (t : TestRead)
  | testStateInstruction (drives : List (Nat × Word))
  -- fabric time
  | ppsEdge
  | phaseWindowEnd
  | holdoverEntry
  | servoEnWrite (m : Master) (v : Word)
  | rotAcq (m : Master) (v : Word)
  | setNow (m : Master) (v : Word)
  | freqWrite (m : Master) (v : Word)
  -- attached units
  | niAliveRise (n : Fin 80)
  | niAliveFall (n : Fin 80)
  | quiesceAckRise (n : Fin 80)
  | clockStopDetect (c : ClockId)
  | inboundRequestMessage (n : Fin 80) (msg : Msg)
  | inboundAnswerMessage (n : Fin 80) (msg : Msg)
  | barrierOrder (n : Fin 80) (msg : Msg)
  | barrierDrain (n : Fin 80) (msg : Msg)
  | barrierRule (n : Fin 80) (msg : Msg)
  | barrierComplete (n : Fin 80)
  | sidebandEventMessage (n : Fin 80) (msg : Msg)
  | mgtReqMessage (n : Fin 80) (msg : Msg)
  | outboundCreditReturn (n : Fin 80) (cls : BitVec 4)
  | outboundMessageTaken (n : Fin 80) (cls : BitVec 4)
  | apertureAccess (mni : Fin 4) (wr : Bool) (addr : BitVec 26) (size : BitVec 2) (wdata : Word)
  -- source NI
  | routeLookup (n : Fin 81) (q : QRef)
  | injectPacket (n : Fin 87)
  | schedInject (n : Fin 81)
  | throttleFrame
  | holdRelookup (n : Fin 80) (q : Fin 257)
  | holdExpire (n : Fin 80) (q : Fin 257)
  -- routers
  | routerFlitArrive (k : Fin 56) (i : Fin 8) (err : FlitErr) (laErr : Bool)
  | routerTraverse (k : Fin 56)
  | ageIncrement (k : Fin 56) (i : Fin 8) (vc : Fin 16)
  | creditArrive (k : Fin 56) (o : Fin 8)
  -- destination NI
  | destFlitArrive (n : Fin 87) (err : FlitErr)
  | granaryAdmit (n : Fin 87) (vc : Fin 16)
  | offerToUnit (n : Fin 80)
  | answerArrive (n : Fin 80)
  | backoffWaitEnd (n : Fin 80) (i : Fin 32)
  | ehRdRetry (n : Fin 80) (i : Fin 256)
  | txnTimeout (n : Fin 80) (posted : Bool) (i : Fin 512)
  | ledgerRelease (m : Master) (n : Fin 87) (v : Word)
  | ledgerSelect (m : Master) (n : Fin 87) (v : Word)
  -- arbitration and reservations
  | arbDraw (n : Fin 80)
  | arbQuotaWindowEnd (n : Fin 80)
  | arbRelArrive (n : Fin 80)
  | arbBreakPoint (n : Fin 80)
  | arbFreeze (m : Master) (n : Fin 87) (v : Word)
  | arbSeedWrite (m : Master) (n : Fin 87) (v : Word)
  | arbWinWrite (m : Master) (n : Fin 87) (v : Word)
  | rsvReqArrive (n : Fin 87)
  | rsvGrant (n : Fin 87)
  | rsvGrantExpire (n : Fin 87) (src : Fin 87)
  | rsvClrArrive (n : Fin 80)
  | rsvCtrlWrite (m : Master) (n : Fin 87) (v : Word)
  | wcbWindowClose (n : Fin 80) (line : Fin 32)
  -- Ehrup bridge
  | lniTakeEhWr
  | lniTakeEhRd
  | ehrupCommandTransfer
  | ehrupReturn (rtype : BitVec 2) (slot : BitVec 5) (word : Word) (fin : Bool) (flt : BitVec 2)
  | ehResultExpire (e : Fin 16)
  | ehrupTimeout (slot : Fin 32)
  -- Hayloft and pages
  | hayloftHangTimeout (m : Master)
  | registerWrite (m : Master) (addr : BitVec 26) (v : Word)
  | latchingRead (m : Master) (addr : BitVec 26)
  | pageLock (m : Master) (p : Page) (v : Word)
  | pageSoftReset (m : Master) (p : Page) (v : Word)
  | pageIrqTest (m : Master) (p : Page) (v : Word)
  | rsWindowRead (m : Master) (c : Fin 8) (e : BitVec 14)
  | rsStageWrite (m : Master) (c : Fin 8) (e : BitVec 14) (w : Fin 3) (v : Word)
  | rsCommit (m : Master) (c : Fin 8) (e : BitVec 14) (v : Word)
  | rsStatRead (m : Master) (c : Fin 8)
  | rsErrinjWrite (m : Master) (c : Fin 8) (v : Word)
  | ruleWindowRead (m : Master) (i : BitVec 13)
  | ruleStageWrite (m : Master) (i : BitVec 13) (w : Fin 3) (v : Word)
  | ruleCommit (m : Master) (i : BitVec 13) (v : Word)
  | ruleErrinjWrite (m : Master) (v : Word)
  | ruleRangeWrite (m : Master) (n : Fin 87) (tgt : Bool) (v : Word)
  | queueDescWrite (m : Master) (q : BitVec 14) (w : Fin 4) (v : Word)
  | slotTableWrite (m : Master) (addr : BitVec 26) (v : Word)
  -- schedules
  | swArm (m : Master) (v : Word)
  | swCancel (m : Master) (v : Word)
  | swMarkLoaded (m : Master) (v : Word)
  | swCommit
  | swSwitch
  | swSwitchEnd
  | schedLoadStart (m : Master) (v : Word)
  | schedLoadDone (image : List (BitVec 8)) (xcode : Code)
  | flowDemoteClear (m : Master) (w : Fin 128) (v : Word)
  -- Skidway
  | skwEnable (m : Master) (p : Fin 6) (v : Word)
  | skwRetrain (m : Master) (p : Fin 6) (v : Word)
  | skwClose (m : Master) (p : Fin 6) (v : Word)
  | skwTsClr (m : Master) (p : Fin 6) (v : Word)
  | skwLaneStep (m : Master) (p : Fin 6) (v : Word)
  | skwLinkUp (p : Fin 6)
  | skwLinkLoss (p : Fin 6)
  | skwPhyTrainTimeout (p : Fin 6)
  | skwAlignTimeout (p : Fin 6)
  | skwFrameSend (p : Fin 6)
  | skwFrameReceive (p : Fin 6) (f : Frame)
  | skwReplay (p : Fin 6)
  | param (p : Fin 6) (cdata : BitVec 64)
  | ready (p : Fin 6)
  | tsync (p : Fin 6) (cdata : BitVec 64)
  | laneProp (p : Fin 6) (cdata : BitVec 64)
  | laneAck (p : Fin 6) (cdata : BitVec 64)
  | laneGo (p : Fin 6) (cdata : BitVec 64)
  | laneAckDeadline (p : Fin 6)
  | close (p : Fin 6)
  | kniEnterPacket (p : Fin 6) (vn : Fin 8)
  | kniSchedInject (p : Fin 6)
  | kniSchedLate (p : Fin 6)
  -- modes and features
  | modeRequest (m : Master) (v : Word)
  | modeChangeDone
  | drainComplete
  | drainLimitExpire
  | frozenApply
  | featCommit (m : Master) (v : Word)
  -- partitions
  | partCreate (m : Master) (p : Fin 512) (v : Word)
  | partOpen (m : Master) (p : Fin 512) (v : Word)
  | partOpenScanDone (p : Fin 512)
  | partFreeze (m : Master) (p : Fin 512) (v : Word)
  | partThaw (m : Master) (p : Fin 512) (v : Word)
  | partResetDrain (m : Master) (p : Fin 512) (v : Word)
  | partDrainDone (p : Fin 512)
  | partResetSquash (m : Master) (p : Fin 512) (v : Word)
  | partSquashDone (p : Fin 512)
  | partDestroy (m : Master) (p : Fin 512) (v : Word)
  | partSave (m : Master) (p : Fin 512) (v : Word)
  | partSaveDone (p : Fin 512) (xcode : Code)
  | partRestore (m : Master) (p : Fin 512) (v : Word)
  | partRestoreDone (p : Fin 512) (image : List (BitVec 8)) (xcode : Code)
  -- Boom
  | boomQuiesce (m : Master) (d : Fin 64)
  | boomOff (m : Master) (d : Fin 64)
  | boomOpen (m : Master) (d : Fin 64)
  | boomForce (m : Master) (d : Fin 64)
  | boomFenceDone (d : Fin 64)
  | boomDrainDone (d : Fin 64)
  | boomQuiesceDone (d : Fin 64)
  | boomQackTimeout (d : Fin 64)
  | boomWakeDone (d : Fin 64)
  -- background engines
  | cruiseSweep
  | cruiseSweepDone
  | foremanEvaluate
  | foremanVariantArm
  | gleanerRead (t : GlnTable) (idx : Nat)
  | gleanerPassOverrun (t : GlnTable)
  | gleanerReportReread (c : Fin 8)
  | cdcAuditMeasure (n : Fin 81) (dir : Bool) (cycles : Nat)
  -- ladder and Journal
  | ladderFault (it : FaultItem)
  | escWindowExpire (it : FaultItem)
  | journalWrite
  | partitionEventSend (p : Fin 512)
  | jrnSel (m : Master) (v : Word)
  -- Tally
  | counterStageWrite (m : Master) (i : Fin 1272) (v : Word)
  | counterCommit (m : Master) (i : Fin 1272) (v : Word)
  | counterWindowRead (m : Master) (i : Fin 1272)
  | counterOverflow (i : Fin 1272) (add : Nat)
  | tallyFreeze (m : Master) (v : Word)
  | tallyUnfreeze (m : Master) (v : Word)
  | tallyClrAll (m : Master) (v : Word)
  | tallySnapshot (m : Master) (v : Word)
  | tallyCommandApply
  | tallySnapshotDone
  | probeRecordWrite (j : Fin 16)
  | probeCtrlWrite (m : Master) (j : Fin 16) (v : Word)
deriving DecidableEq, Repr

end Sys2Proof
end

