-- ==== Sys2Proof/Machine/Tbl.lean ====
section
/-! DEFINITION. Sparse tables: a list of key and value pairs in one canonical form (keys strictly rising, no entry
equal to the default of its key). Every table of the machine that has a reset content is one of these, so that equal
tables are equal data and a state stays small. -/

namespace Sys2Proof.Machine

/-- A sparse table keyed by a natural number. What an unlisted key reads as is a default function given at each use. -/
abbrev Tbl (α : Type) := List (Nat × α)

/-- The value of key `k`: that of the first entry with this key, else the default. -/
def Tbl.get {α : Type} (d : Nat → α) : Tbl α → Nat → α
  | [], k => d k
  | (a, v) :: t, k => if a = k then v else Tbl.get d t k

/-- The table without any entry of key `k`. -/
def Tbl.erase {α : Type} (k : Nat) : Tbl α → Tbl α
  | [] => []
  | (a, v) :: t => if a = k then Tbl.erase k t else (a, v) :: Tbl.erase k t

/-- The table with an entry put before the first entry of a greater key. -/
def Tbl.insert {α : Type} (k : Nat) (v : α) : Tbl α → Tbl α
  | [] => [(k, v)]
  | (a, w) :: t => if k < a then (k, v) :: (a, w) :: t else (a, w) :: Tbl.insert k v t

/-- The table after key `k` is written: the default value removes the entry. -/
def Tbl.set {α : Type} [DecidableEq α] (d : Nat → α) (k : Nat) (v : α) (t : Tbl α) : Tbl α :=
  if v = d k then Tbl.erase k t else Tbl.insert k v (Tbl.erase k t)

/-- The table after key `k` is changed by a function of its value. -/
def Tbl.upd {α : Type} [DecidableEq α] (d : Nat → α) (k : Nat) (f : α → α) (t : Tbl α) : Tbl α :=
  Tbl.set d k (f (Tbl.get d t k)) t

/-- Keys strictly rising, every key above `b`, and no entry equal to its default. -/
def Tbl.wfFrom {α : Type} [DecidableEq α] (d : Nat → α) : Option Nat → Tbl α → Bool
  | _, [] => true
  | b, (a, v) :: t => (match b with | none => true | some x => decide (x < a)) && decide (v ≠ d a) &&
      Tbl.wfFrom d (some a) t

/-- The canonical form of a table. -/
def Tbl.wf {α : Type} [DecidableEq α] (d : Nat → α) (t : Tbl α) : Bool := Tbl.wfFrom d none t

/-- The entries whose key satisfies `p`. -/
def Tbl.keep {α : Type} (p : Nat → Bool) : Tbl α → Tbl α
  | [] => []
  | (a, v) :: t => if p a then (a, v) :: Tbl.keep p t else Tbl.keep p t

/-- Every listed entry changed by `f`; entries that become their default go. -/
def Tbl.mapWith {α : Type} [DecidableEq α] (d : Nat → α) (f : Nat → α → α) : Tbl α → Tbl α
  | [] => []
  | (a, v) :: t => if f a v = d a then Tbl.mapWith d f t else (a, f a v) :: Tbl.mapWith d f t

/-- Apply `f` to each of the first `n` natural numbers in rising order. -/
def forN {σ : Type} : Nat → (Nat → σ → σ) → σ → σ
  | 0, _, s => s
  | n + 1, f, s => f n (forN n f s)

/-- The first number below `n` that satisfies `p`, starting the search at `start` and wrapping. -/
def firstFrom (start n : Nat) (p : Nat → Bool) : Option Nat :=
  ((List.range n).map (fun i => (start + i) % n)).find? p

/-- Remove the first element that satisfies `p`. -/
def eraseFirst {α : Type} (p : α → Bool) : List α → List α
  | [] => []
  | x :: t => if p x then t else x :: eraseFirst p t

/-- Change the first element that satisfies `p`. -/
def modFirst {α : Type} (p : α → Bool) (f : α → α) : List α → List α
  | [] => []
  | x :: t => if p x then f x :: t else x :: modFirst p f t

/-- Replace bits `[hi:lo]` of a word by the low bits of `v`. -/
def putBits {w : Nat} (x : BitVec w) (hi lo v : Nat) : BitVec w :=
  let m : Nat := (2 ^ (hi + 1 - lo) - 1) <<< lo
  (x &&& ~~~ (BitVec.ofNat w m)) ||| BitVec.ofNat w ((v % 2 ^ (hi + 1 - lo)) <<< lo)

/-- Bits `[hi:lo]` of a word as a number. -/
def getBits {w : Nat} (x : BitVec w) (hi lo : Nat) : Nat := (x.toNat >>> lo) % 2 ^ (hi + 1 - lo)

/-- Bit `i` of a word set or cleared. -/
def putBit {w : Nat} (x : BitVec w) (i : Nat) (b : Bool) : BitVec w := putBits x i i (flag b)

end Sys2Proof.Machine
end

