-- ==== Sys2Proof/Machine/Types.lean ====
section
/-! DEFINITION. The plain-data types of the fabric's parts: packets, source and destination NI, router, route store
bank, Ehrup bridge, Journal and ladder. Each field names the rule of spec/ that gives it. -/

namespace Sys2Proof.Machine

/-! Packets -/

/-- A packet: its header (R29) and, for each flit, its sidecar (R40) and data. Check bits are made at injection. -/
structure Pkt where
  hdr  : BitVec 128                            := 0
  body : List (BitVec 128 × BitVec 512)        := []
  /-- The check bytes with which the flits of a packet came from a Skidway peer: bytes 2 to 7 are kept (R33). -/
  chks : List (BitVec 64)                      := []
deriving DecidableEq, Repr, Inhabited

/-- A lookup key (R65). -/
inductive Key where
  | addr (a : BitVec 52)
  | pbr  (id : BitVec 12)
  | node (n : NodeId)
deriving DecidableEq, Repr, Inhabited

/-- The block that sends a request on the fabric's own behalf (R442). -/
inductive Owner where
  | unit | sideband | boomEvt | partEvent (p : Nat) | partRing (p : Nat) | foremanLog | probe (j : Nat) | loader | image (p : Nat)
deriving DecidableEq, Repr, Inhabited

/-- The request belongs to the partition that its entry names: one of an attached unit, and those made for a partition. -/
def Owner.ofPart (o : Owner) : Bool :=
  match o with
  | .unit | .sideband | .partEvent _ | .partRing _ => true
  | .boomEvt | .foremanLog | .probe _ | .loader | .image _ => false

/-! Completion Ledger -/

/-- The states of a Ledger entry, numbered as R447 gives. -/
inductive LState where
  | free | notStarted | issued | partially | done | failed | stuck
deriving DecidableEq, Repr, Inhabited

/-- An injected packet of a Ledger entry (R76, R250): its first line (R500), the lines of the entry it stands for, the
answers it draws, and the Granary space reserved for them (R38). `open_` until it is answered or the entry is freed
(R84). -/
structure LPart where
  raddr    : BitVec 46 := 0
  lidx     : Nat       := 0
  lines    : Nat       := 1
  dst      : NodeId    := 0
  vn       : Nat       := 0
  need     : Nat       := 1
  answered : Nat       := 0
  rkey     : Nat       := 2
  rn       : Nat       := 0
  counted  : Bool      := true
  open_    : Bool      := true
deriving DecidableEq, Repr, Inhabited

/-- A Completion Ledger entry (R442 to R447), with what the NI keeps of the initiator's request to answer it. -/
structure LEntry where
  st       : LState     := .free
  code     : Code       := 0
  retained : Bool       := false
  late     : Bool       := false
  splitUnk : Bool       := false
  injected : Bool       := false
  etag     : BitVec 16  := 0
  part     : BitVec 9   := 0
  dst      : NodeId     := 0
  dstSet   : Bool       := false
  qsel     : BitVec 8   := 0xFF
  cls      : BitVec 4   := 0
  sched    : Bool       := false
  owner    : Owner      := .unit
  /-- Lines or answers that the request awaits in all. -/
  lines    : Nat        := 1
  answered : Nat        := 0
  ok       : Nat        := 0
  addr     : BitVec 52  := 0
  split    : BitVec 52  := 0
  /-- fc at which the transaction timer expires; none before the first injection (R445). -/
  timer    : Option Nat := none
  /-- fc in which the entry left NOT_STARTED (R400). -/
  leftFc   : Nat        := 0
  /-- Order of presentation among the NI's messages and barriers (R223, R225). -/
  ord      : Nat        := 0
  /-- Order in which the entry became free (R447); 0 when it has never been used. -/
  freed    : Nat        := 0
  /-- Channel class, opcode and HDR of the request, for its answers (R246). -/
  chan     : BitVec 4   := 0
  opc      : BitVec 8   := 0
  hdr      : BitVec 128 := 0
  /-- The request is one of the writes of R223. -/
  write    : Bool       := false
  parts    : List LPart := []
  /-- Outcome of each line that has one. -/
  codes    : List (Nat × Code) := []
  /-- A line that the initiator check split, with the split address (R325, R327). -/
  inl      : Option (Nat × Nat) := none
  /-- Members of a Sheaf group, 0 for another request; the strongest state of their answers (R256). -/
  sheaf    : Nat        := 0
  biState  : Nat        := 0
  firstBad : Code       := 0
  /-- The initiator has been reset: answers are not offered (R221). -/
  mute     : Bool       := false
  /-- MID of the EH_RD, and the fc at which it is injected again (R274). -/
  mid      : BitVec 8   := 0
  retryAt  : Option Nat := none
  /-- The queues whose stores a write-combining line holds, each with the order of presentation of its first and last store
  (R223). -/
  stores   : List (Nat × Nat × Nat) := []
  /-- Completions, and answers that stand for them, that wait for those of earlier parts: the first line of each (R248). -/
  heldIoc  : List (Nat × Pkt) := []
  flow     : Option (BitVec 12) := none
  /-- The destination PBR ID by which the unit asked for it to be routed (R65, R319). -/
  pbr      : BitVec 12  := 0
  /-- The first address that its check found it to access (R327). -/
  first    : Option Nat := none
  arb      : Bool       := false
  /-- Its last packet was injected with SCH = 1 (R180). -/
  injSch   : Bool       := false
  /-- Tally filters that its first packet matched (R379). -/
  filt     : BitVec 32  := 0
deriving DecidableEq, Repr, Inhabited

/-! Source NI -/

/-- A message or part of one waiting in an injection queue (R183, R187). Before its lookup `pkt` is none, and `addr`,
`lidx`, `lines` and `body` are those of the rest that is not yet cut (R76, R250). -/
structure QItem where
  tag     : BitVec 12 := 0
  cls     : BitVec 4  := 0
  opc     : BitVec 8  := 0
  key     : Key       := .node 0
  part    : BitVec 9  := 0
  anyPart : Bool      := false
  ra      : Bool      := false
  ord     : Nat       := 0
  addr    : BitVec 64 := 0
  lidx    : Nat       := 0
  lines   : Nat       := 1
  body    : List (BitVec 128 × BitVec 512) := []
  /-- Packets still to be built of a class without data, for the occupancy (R186). -/
  nfl     : Nat       := 1
  gran    : Option Nat := none
  flow    : Option (BitVec 12) := none
  /-- fc in which the message, or its last line so far, was taken (R160). -/
  taken   : Nat       := 0
  wcb     : Bool      := false
  hold    : Bool      := false
  sheaf   : Option (BitVec 8) := none
  owner   : Owner     := .unit
  qsel    : BitVec 8  := 0xFF
  /-- The built packet, whether its stream may be reordered and whether it was sprayed. -/
  pkt     : Option Pkt := none
  sprayed : Bool      := false
  /-- fc of the first refusal of a request held for a fenced target, and the mask of the last lookup (R398). -/
  held    : Option Nat := none
  mask    : BitVec 56 := 0
  /-- 0: no ring reservation, 1: RSV_REQ sent, 2: granted (R123). -/
  ring    : Nat       := 0
  /-- Ordinals of the write-combining lines that this message waits for (R220). -/
  hazard  : List Nat  := []
  /-- Of a write-combining line: whose stores it holds (R223, R224). -/
  stores  : List (Nat × Nat × Nat) := []
  /-- The lines after those kept by the initiator check, and the code they end with once those are built (R324). -/
  failN   : Nat       := 0
  failCode : Code     := 0
  /-- A repeated EH_RD (R274). -/
  retry   : Bool      := false
  /-- The Skidway receive pool that its flits leave as they are injected (R297). -/
  pool    : Option Nat := none
deriving DecidableEq, Repr, Inhabited

/-- A response or control packet waiting at an NI (R188 item 3), routed or not yet. -/
structure AItem where
  pkt    : Pkt    := {}
  routed : Bool   := false
  /-- Order of arrival; for an IOC, that of the last IOP its engine presented before it (R249). -/
  ord    : Nat    := 0
  /-- A request packet sent with the answers: RSV_REQ (R123). -/
  isReq  : Bool   := false
  /-- The read entry from which an EH_RSP with data is built when it is injected (R269). -/
  eh     : Option Nat := none
deriving DecidableEq, Repr, Inhabited

/-- The dynamic packet whose flits are leaving the NI (R43). -/
structure CurPkt where
  flits : List Flit := []
  vc    : Nat       := 0
  /-- The injection queue it left, and the Skidway receive pool its flits came from. -/
  q     : Option Nat := none
  pool  : Option Nat := none
deriving DecidableEq, Repr, Inhabited

/-- A write-combining line (R216 to R219). -/
structure WLine where
  tag    : BitVec 12  := 0
  key    : Key        := .node 0
  queue  : BitVec 8   := 0
  part   : BitVec 9   := 0
  dst    : NodeId     := 0
  line   : BitVec 46  := 0
  meta_  : BitVec 6   := 0
  bmask  : BitVec 64  := 0
  data   : BitVec 512 := 0
  alloc  : Nat        := 0
  ord    : Nat        := 0
  closed : Bool       := false
  joined : Bool       := false
  stores : List (Nat × Nat × Nat) := []
deriving DecidableEq, Repr, Inhabited

/-- A pending barrier (R222 to R226). -/
structure Barrier where
  kind  : BarKind  := .order
  scope : BarScope := .queue
  queue : BitVec 8 := 0
  etag  : BitVec 16 := 0
  ord   : Nat      := 0
  /-- The write-combining lines below this ordinal are the ones it closed (R223, R224). -/
  upto  : Nat      := 0
  /-- The oldest covered write that has ended with a code, by its ordinal (R223). -/
  bad   : Option (Nat × Code) := none
  /-- For DIE scope: the ordinal of the last packet checked by each target NI when the barrier was taken. -/
  marks : List (Nat × Nat × Nat) := []
deriving DecidableEq, Repr

/-- A sideband event waiting for injection (R260). -/
structure SbEvent where
  opc  : BitVec 8  := 0
  data : BitVec 32 := 0
  ord  : Nat       := 0
deriving DecidableEq, Repr, Inhabited

/-- A backoff entry (R203, R204). -/
structure Backoff where
  part  : BitVec 9 := 0
  node  : NodeId   := 0
  k     : Nat      := 0
  until_ : Nat     := 0
  waiting : Bool   := false
deriving DecidableEq, Repr, Inhabited

/-- What a source NI keeps of a requester and a target for ARB_REL (R198, R199). -/
structure HoldRec where
  part    : BitVec 9 := 0
  node    : NodeId   := 0
  hold    : Bool     := false
  /-- Order of presentation of the message that `hold` is from. -/
  holdOrd : Nat      := 0
  lastTag : BitVec 12 := 0
  granted : Bool     := false
  relTag  : Option (BitVec 12) := none
deriving DecidableEq, Repr, Inhabited

/-- A message offered to an attached unit (R239, R242). `npPkt` is the serial of the packet it belongs to. -/
structure OMsg where
  msg : Msg := {}
  pid : Nat := 0
deriving DecidableEq, Repr, Inhabited

/-! Destination NI -/

/-- A request packet held by a destination NI, in the Granary or the scheduled reservation (R110 to R114), or offered to
the unit and not yet answered. `body` is reduced to the permitted prefix (R326). -/
structure HPkt where
  pid     : Nat        := 0
  hdr     : BitVec 128 := 0
  body    : List (BitVec 128 × BitVec 512) := []
  sched   : Bool       := false
  /-- Outcome of the target check (R323), OK or PARTIAL, with the failure code of the rest and the split address. Another code
  is that of a packet which waits at the LNI for its answer (R269). -/
  verdict : Code       := 0
  failCode : Code      := 0
  split   : BitVec 52  := 0
  /-- Flits of the packet as it arrived, and the lines it asked for. -/
  total   : Nat        := 1
  asked   : Nat        := 1
  /-- Arbitration (R193): 0 not judged, 1 a contender's packet that waits, 2 accepted. -/
  arb     : Nat        := 0
  /-- Order of the first answer of the unit to it among what the unit presented (R260). -/
  ansOrd  : Option Nat := none
  /-- Lines offered, and lines that the unit has taken (R252). -/
  offered : Nat        := 0
  taken   : Nat        := 0
  /-- Per line, the answer's STATUS, sidecar and data once it has come. -/
  ans     : List (Nat × Code × BitVec 128 × BitVec 512) := []
  /-- Order of the target check, for the RULE barrier of DIE scope (R225). -/
  checkOrd : Nat       := 0
deriving DecidableEq, Repr, Inhabited

/-- A flit on a link, with the look-ahead sideband (R99): due fc, VC (16: scheduled bypass), output select. -/
structure Fly where
  flit : Flit := {}
  due  : Nat  := 0
  vc   : Nat  := 0
  la   : Nat  := 0
deriving DecidableEq, Repr, Inhabited

/-- A packet whose flits are still arriving, or waiting, on a VC of an NI (R43, R112). -/
structure Asm where
  hdr      : BitVec 128 := 0
  body     : List (BitVec 128 × BitVec 512) := []
  /-- The VC it came on. -/
  vc       : Nat := 0
  /-- It has its Granary space. -/
  admitted : Bool := false
  /-- Flits that have left the VC. -/
  moved    : Nat  := 0
  /-- The code of step 1 of R502. -/
  code     : Code := 0
  /-- The rules and the default bit in force when its check began (R321, R328), and the order of that check. -/
  rules    : List (Option (BitVec 128)) := []
  dflt     : Bool := false
  ckOrd    : Nat  := 0
  /-- fc in which its first flit arrived, and the order of that arrival among the packets on the VCs, rising. -/
  fc       : Nat  := 0
  ord      : Nat  := 0
  /-- The packet has ended: a flit of it found the scheduled reservation full (R178), or it was refused, and its flits are
  let out of their VC (R112). -/
  discard  : Bool := false
  /-- The checked packet, once every flit has arrived. -/
  pkt      : Option HPkt := none
deriving DecidableEq, Repr, Inhabited

/-- A monitor (R228). -/
structure Monitor where
  src  : NodeId    := 0
  part : BitVec 9  := 0
  base : BitVec 52 := 0
deriving DecidableEq, Repr, Inhabited

/-- A RSV_OWN entry (R231). -/
structure RsvOwn where
  node : NodeId   := 0
  part : BitVec 9 := 0
  slot : Nat      := 0
  used : Nat      := 0
deriving DecidableEq, Repr, Inhabited

/-- The states of the arbiter (R194). -/
inductive ArbState where
  | idle | window | held | yielding
deriving DecidableEq, Repr, Inhabited

/-- A requester (SRC, PART) of the shared-target arbiter (R193). -/
structure Requester where
  src  : NodeId   := 0
  part : BitVec 9 := 0
deriving DecidableEq, Repr, Inhabited

/-- The shared-target arbiter of a target NI (R194 to R201). -/
structure Arb where
  st       : ArbState := .idle
  openFc   : Nat := 0
  conts    : List Requester := []
  holder   : Requester := {}
  htag     : BitVec 12 := 0
  htagSet  : Bool := false
  boGiven  : Bool := false
  /-- Former holders that keep a tail, each with its TAG, the newest first (R201). -/
  tails    : List (Requester × BitVec 12) := []
  /-- The quota of the grant's entry as the draw that made it read it (R197, R202). -/
  quota    : Option (Nat × Nat) := none
  winStart : Nat := 0
  /-- LFSR state; none is the reset value 0x6A09_0000 + node ID (R196). -/
  lfsr     : Option (BitVec 32) := none
  /-- The fc of the last write of ARB_SEED, and the LFSR state before it (R202). -/
  seedWas  : Option (Nat × Nat) := none
  counts   : Tbl Nat := []
deriving DecidableEq, Repr, Inhabited

/-- A control slot of the ring-personality reservation: a queued RSV_REQ (R124). -/
structure RsvSlot where
  src   : NodeId   := 0
  vn    : Nat      := 0
  flits : Nat      := 0
  hdr   : BitVec 128 := 0
  sc    : BitVec 128 := 0
deriving DecidableEq, Repr, Inhabited

/-- A granted, unused reservation (R124). -/
structure RsvGrant where
  src   : NodeId := 0
  vn    : Nat    := 0
  flits : Nat    := 0
  due   : Nat    := 0
deriving DecidableEq, Repr, Inhabited

/-- The outbound tag of a line offered to an attached unit (R245). -/
structure PTag where
  pid  : Nat := 0
  line : Nat := 0
  left : Nat := 1
deriving DecidableEq, Repr, Inhabited

/-- A network interface. -/
structure Ni where
  /-- Ledger: keys 0 to 255 non-posted, 256 to 767 posted (R442). -/
  ledger  : Tbl LEntry := []
  freedN  : Nat := 0
  ordN    : Nat := 0
  queues  : Tbl (List QItem) := []
  qcred   : Tbl Int := []
  lastZero   : Nat := 255
  lastServed : Nat := 255
  /-- Dynamic packets whose flits are leaving, oldest first; the flits of a scheduled packet still to leave; one more
  than the fc in which a flit last left. -/
  cur     : List CurPkt := []
  schRest : List Flit := []
  /-- The queue whose scheduled packet is leaving (R184). -/
  schQ    : Option Nat := none
  sentFc  : Nat := 0
  answers : List AItem := []
  events  : List SbEvent := []
  wcb     : List WLine := []
  bars    : List Barrier := []
  own     : List RsvOwn := []
  backoff : List Backoff := []
  holds   : List HoldRec := []
  stream  : Tbl (BitVec 16) := []
  spray   : Tbl Nat := []
  lastRt  : Tbl (BitVec 36) := []
  thrRate : Nat := 256
  thrUsed : Nat := 0
  shUsed  : Tbl Nat := []
  /-- By channel class, the burst whose lines are still being taken: its tag and queue, none when the lines are dropped
  (R186, R250), and the lines to come. -/
  burst   : Tbl (Option (BitVec 12 × Nat) × Nat) := []
  /-- The channel has been started since the last reset (R241). -/
  started : Bool := false
  /-- The fc until which the pointers of its data crossings are resynchronised (R367, R408). -/
  syncFc  : Nat := 0
  /-- NI_ALIVE must be seen low before the channel can start again (R241). -/
  mustFall : Bool := false
  /-- By class, the inbound credits granted at the start, those that the unit holds, and the credits still to be returned,
  one in each unit cycle (R240, R241). -/
  inStart : Tbl Nat := []
  inCred  : Tbl Nat := []
  inRet   : List Nat := []
  outCred : Tbl Nat := []
  outq    : List OMsg := []
  attCred : Tbl Nat := []
  attBusy : Tbl Bool := []
  credFly : List (Nat × Nat) := []
  asm     : Tbl (List Asm) := []
  schAsm  : List Asm := []
  /-- The scheduled bypass register of the attachment (R101). -/
  byp     : List Fly := []
  /-- One more than the fc of the last move of a flit into the Granary (R112). -/
  admFc   : Nat := 0
  /-- A discard under way on a VC, or on the scheduled packet of flow `f` (16 + f) (R35, R51): 0 none; 1 the flits up to the
  next first flit; 2 + k the next k flits. -/
  discVc  : Tbl Nat := []
  gran    : List HPkt := []
  /-- Packets wholly offered to the unit whose answers are still awaited. -/
  work    : List HPkt := []
  /-- DEVLOAD of the most recent answer of the engine (R257). -/
  devD    : Nat := 0
  pidN    : Nat := 0
  ckN     : Nat := 0
  answersIn : List HPkt := []
  /-- Flits reserved for answers on VN2, VN4 and VN7 responses (key 8) (R38, R111). -/
  resv    : Tbl Nat := []
  ptags   : Tbl (Option PTag) := []
  mons    : List Monitor := []
  arb     : Arb := {}
  slots   : List RsvSlot := []
  grants  : List RsvGrant := []
  rsvOut  : List NodeId := []
  /-- Rules whose shadow copy differs from the pool: those held while the tile was not OPEN (R317). -/
  shadow  : Tbl (Option (BitVec 144)) := []
deriving DecidableEq, Repr, Inhabited

/-! Router -/

/-- A flit stored in a router input: when it was written, what R107 has added to its AGE, its look-ahead output (R99),
and, for a Sheaf flit, the outputs still to be served (R116). -/
structure VFlit where
  flit : Flit := {}
  fc   : Nat  := 0
  /-- The order of its arrival among the flits its input holds, rising. -/
  ord  : Nat  := 0
  add  : Nat  := 0
  la   : Nat  := 0
  /-- Header group 0 or 1 is uncorrectable: the flit is forwarded unchanged (R50). -/
  ue   : Bool := false
  sheaf : Option (BitVec 8) := none
deriving DecidableEq, Repr, Inhabited

/-- A dynamic VC of a router input (R101, R102): its flits, the output and downstream VC its packet has been granted, and
the AGE written into the packet's head flit as it left (R32, R107). -/
structure Vc where
  flits : List VFlit := []
  out   : Option (Nat × Nat) := none
  age   : Nat := 0
deriving DecidableEq, Repr, Inhabited

/-- The relay stage of a link of two link cycles (R104): the flits it holds (due: fc in which they may leave), the credits
it has of the far input, and the credits on their way to it. -/
structure Relay where
  flits : List Fly := []
  cred  : Tbl Nat := []
  fly   : List (Nat × Nat) := []
deriving DecidableEq, Repr, Inhabited

/-- A router (R96 to R109). -/
structure Rtr where
  vcs    : Tbl Vc := []
  byp    : Tbl (List VFlit) := []
  cred   : Tbl Nat := []
  busy   : Tbl Bool := []
  relay  : Tbl Relay := []
  lastVc : Tbl Nat := []
  lastIn : Tbl Nat := []
  /-- fc in which a flit last entered this router (R400, R418), and one more than the fc of its last router cycle (R99). -/
  lastFc : Nat := 0
  ranFc  : Nat := 0
deriving DecidableEq, Repr, Inhabited

/-! Tables with staging -/

/-- A staging buffer of three words, each tagged with the entry index it was written for (R90, R313). -/
structure Stage where
  w : Tbl (Option (Nat × Word)) := []
deriving DecidableEq, Repr, Inhabited

/-- The latch of a table window for one master (R89, R313): the entry and its corrected value with check bytes. -/
structure WinLatch where
  idx : Nat := 0
  val : BitVec 144 := 0
deriving DecidableEq, Repr, Inhabited

/-- A route-store bank or the rule pool: entries with their check bytes above bit 128, staging, error injection. -/
structure Pool where
  ent   : Tbl (BitVec 144) := []
  stage : Stage := {}
  inj   : BitVec 16 := 0
  latch : Tbl (Option WinLatch) := []
deriving DecidableEq, Repr, Inhabited

/-! Ehrup bridge -/

/-- A posted-write entry of the LNI (R269, R272): the words transferred so far, the fc of the last transfer, and whether
its request has ended with HANG_ABORT (R276). -/
structure EhWrite where
  id    : Nat := 0
  addr  : BitVec 32 := 0
  two   : Bool := false
  data  : BitVec 64 := 0
  hdr   : BitVec 128 := 0
  slot  : Option Nat := none
  sent  : Nat := 0
  sentFc : Nat := 0
  hang  : Bool := false
deriving DecidableEq, Repr, Inhabited

/-- A read entry of the LNI (R273). `done` is the fc in which its result was complete. One that has been delivered or has
expired while its slot still awaits a return is `gone` (R276). One whose EH_RSP waits for its injection is `answered`
(R269). -/
structure EhRead where
  hdr   : BitVec 128 := 0
  addr  : BitVec 32 := 0
  two   : Bool := false
  sent  : Bool := false
  sentFc : Nat := 0
  words : List Word := []
  flt   : Nat := 0
  done  : Option Nat := none
  code  : Code := 0
  hang  : Bool := false
  gone  : Bool := false
  answered : Bool := false
deriving DecidableEq, Repr, Inhabited

/-- The command path of Ehrup, which the LNI drives (R270). -/
structure EhCmd where
  cmd  : BitVec 2  := 0
  slot : BitVec 5  := 0
  a    : BitVec 30 := 0
  w8   : Bool      := false
  wsel : Bool      := false
  wdat : Word      := 0
deriving DecidableEq, Repr, Inhabited

/-- The Ehrup side of the LNI: its entries, the order in which their commands transfer (R271 item 7) as reads by slot and
writes by number, and the slots whose entries a reset lost, each with the returns still to come (R277). `took` is one above the fc in which it last took a packet (R269). -/
structure Lni where
  writes : List EhWrite := []
  reads  : Tbl (Option EhRead) := []
  order  : List (Bool × Nat) := []
  wn     : Nat := 0
  zombie : List (Nat × Nat) := []
  took   : Nat := 0
deriving DecidableEq, Repr, Inhabited

/-! Journal and ladder -/

/-- A Journal entry before it is laid out in its 64 bytes (R449). `seq` and `gap` are given at the ring. -/
structure JEntry where
  t     : BitVec 80  := 0
  code  : Code       := 0
  kind  : BitVec 8   := 0
  where_ : BitVec 16 := 0
  part  : Option (BitVec 9) := none
  init  : NodeId     := 0
  tgt   : NodeId     := 0
  tag   : BitVec 12  := 0
  detail : BitVec 16 := 0
  addr  : BitVec 64  := 0
  split : BitVec 64  := 0
  raw   : Option (BitVec 128) := none
  flow  : Option (BitVec 12) := none
  posted : Bool      := false
  injected : Bool    := false
  splitUnk : Bool    := false
  gap   : Bool       := false
  seq   : BitVec 32  := 0
deriving DecidableEq, Repr, Inhabited

/-- A fault waiting for the ladder, with the cause of R458. -/
structure DueFault where
  item  : FaultItem
  cause : Nat := 0
  who   : Nat := 0
deriving DecidableEq, Repr

/-- An open recovery window (R459). -/
structure EscWindow where
  item : FaultItem
  until_ : Nat := 0
deriving DecidableEq, Repr

/-! Hayloft -/

/-- An answer of Hayloft to a master: read data and code (R282, R486). -/
structure HlAnswer where
  data : Word := 0
  code : Code := 0
deriving DecidableEq, Repr, Inhabited

/-- A Hayloft access whose answer has not been returned: its master, the mc of its issue, whether it is held back behind
an earlier write (R281), and its answer once it has completed (R282). -/
structure HlPend where
  m    : Nat  := 0
  addr : Nat  := 0
  wr   : Bool := false
  v    : Word := 0
  mc   : Nat  := 0
  held : Bool := false
  ans  : Option HlAnswer := none
deriving DecidableEq, Repr, Inhabited

/-! Power -/

/-- The Boom states, numbered as R394 gives. -/
inductive BoomState where
  | open_ | fencing | draining | quiesced | isolated | off | waking
deriving DecidableEq, Repr, Inhabited

/-- The Boom state of a domain (R394 to R403). -/
structure Boom where
  st     : BoomState := .open_
  tgtOff : Bool := false
  fromOff : Bool := false
  /-- fc in which DRAINING was entered, mc in which QUIESCED was entered. -/
  drainFc : Nat := 0
  qMc    : Nat := 0
  tmoSeen : Bool := false
deriving DecidableEq, Repr, Inhabited

end Sys2Proof.Machine
end

