-- ==== Sys2Proof/Machine/Secded.lean ====
section
/-! DEFINITION. The extended Hamming code of R48 and R49, for the widths the spec uses: 96 bits in a flit group, 64 in a
half of a route-store entry or rule (R57), 32 in a slot word (R141) and 16 in an injection entry (R159). Data bit d
sits at the d-th position from 3 upwards that is not a power of two, so a narrower code is a prefix of the widest. -/

namespace Sys2Proof.Machine

/-- The parity of a number below 2^128. -/
def parity (x : Nat) : Nat :=
  let x := x ^^^ (x >>> 64)
  let x := x ^^^ (x >>> 32)
  let x := x ^^^ (x >>> 16)
  let x := x ^^^ (x >>> 8)
  let x := x ^^^ (x >>> 4)
  let x := x ^^^ (x >>> 2)
  let x := x ^^^ (x >>> 1)
  x % 2

/-- The codeword positions of the data bits, in order (R48 item 1). -/
def dataPositions : List Nat := (List.range 104).filter fun p => 3 ≤ p && p ∉ [4, 8, 16, 32, 64]

/-- The data bits that check bit `j` covers, worked out from the positions (R48 item 2). -/
def checkMaskSpec (j : Nat) : Nat :=
  (List.range 96).foldl (fun m d => if (dataPositions.getD d 0).testBit j then m + 2 ^ d else m) 0

/-- The same masks as numbers. -/
def checkMask : Nat → Nat
  | 0 => 0xAAAAAAAAAB55555556AAAD5B
  | 1 => 0xCCCCCCCCCD9999999B33366D
  | 2 => 0xF0F0F0F0F1E1E1E1E3C3C78E
  | 3 => 0xFF00FF01FE01FE03FC07F0
  | 4 => 0xFFFF0001FFFE0003FFF800
  | 5 => 0xFF00000001FFFFFFFC000000
  | _ => 0xFFFFFFFFFE00000000000000

/-- Check bits c_0 to c_(n−1) of the data bits `d` (R48 item 2). -/
def hamming (d : Nat) : Nat → Nat
  | 0 => 0
  | n + 1 => hamming d n + parity (d &&& checkMask n) * 2 ^ n

/-- The check byte of `d`: `n` Hamming bits and above them the overall parity (R48 items 3 and 4). -/
def checkByte (n d : Nat) : Nat :=
  let c := hamming d n
  c + ((parity d + parity c) % 2) * 2 ^ n

/-- The outcomes of R49. -/
inductive Ecc where
  | clean
  | fixed (d : Nat)
  | bad
deriving DecidableEq, Repr

/-- The check of data bits `d` against check byte `c`: `n` Hamming bits, last codeword position `last` (R49). -/
def eccCheck (n last d c : Nat) : Ecc :=
  let s := hamming d n ^^^ (c % 2 ^ n)
  let p := (parity d + parity (c % 2 ^ (n + 1))) % 2
  if s = 0 ∧ p = 0 then .clean
  else if p = 0 then .bad
  else if s = 0 then .fixed d
  else if s > last then .bad
  else if s = 2 ^ s.log2 then .fixed d
  else .fixed (d ^^^ 2 ^ (s - s.log2 - 2))

/-- Check bytes of a 128-bit entry, one for each half (R57). -/
def entryChecks (e : BitVec 128) : BitVec 16 :=
  BitVec.ofNat 16 (checkByte 7 (e.toNat % 2 ^ 64) + 256 * checkByte 7 (e.toNat / 2 ^ 64))

/-- A stored entry with its check bytes in bits [143:128]. -/
def storeEntry (e : BitVec 128) (flip : BitVec 16) : BitVec 144 := (entryChecks e ^^^ flip) ++ e

/-- The outcome of reading a stored entry: its bits corrected, or nothing when a half is uncorrectable; and whether a
single error was corrected (R57). -/
def readEntry (x : BitVec 144) : Option (BitVec 128) × Bool :=
  let n := x.toNat
  let lo := n % 2 ^ 64
  let hi := n / 2 ^ 64 % 2 ^ 64
  let a := eccCheck 7 71 lo (n / 2 ^ 128 % 256)
  let b := eccCheck 7 71 hi (n / 2 ^ 136)
  match a, b with
  | .bad, _ | _, .bad => (none, false)
  | .clean, .clean => (some (x.extractLsb' 0 128), false)
  | _, _ =>
    let l := match a with | .fixed d => d | _ => lo
    let h := match b with | .fixed d => d | _ => hi
    (some (BitVec.ofNat 128 (l + h * 2 ^ 64)), true)

/-- Check byte of a slot word (R141) and of an injection entry (R159). -/
def slotCheck (w : Word) : Nat := checkByte 6 w.toNat
/-- Check byte of the 16 entry bits of an injection word (R159). -/
def injCheck (w : Word) : Nat := checkByte 5 (w.toNat % 2 ^ 16)

/-! Flits -/

/-- The 768 protected bits of a flit (R27). -/
def flitBits (f : Flit) : Nat := f.hdr.toNat + f.sc.toNat * 2 ^ 128 + f.data.toNat * 2 ^ 256

/-- Check bytes of the groups below `n` of the protected bits (R28). -/
def groupChecks (x : Nat) : Nat → Nat
  | 0 => 0
  | g + 1 => groupChecks x g + checkByte 7 (x / 2 ^ (96 * g) % 2 ^ 96) * 2 ^ (8 * g)

/-- A flit with its check bytes encoded. -/
def mkFlit (hdr sc : BitVec 128) (data : BitVec 512) : Flit :=
  let f : Flit := { hdr := hdr, sc := sc, data := data }
  { f with chk := BitVec.ofNat 64 (groupChecks (flitBits f) 8) }

/-- A flit with check bytes 0 and 1 encoded anew, and the others as they came (R33). -/
def recoded (f : Flit) (chk : BitVec 64) : Flit := { f with chk := (chk >>> 16 <<< 16) ||| (f.chk &&& 0xFFFF) }

/-- The flits of a packet (R43). -/
def Pkt.flits (p : Pkt) : List Flit := p.body.zipIdx.map fun ((sc, d), i) =>
  match p.chks[i]? with
  | some c => recoded (mkFlit p.hdr sc d) c
  | none => mkFlit p.hdr sc d

/-- Check of group `g` of a flit (R49). -/
def groupCheck (f : Flit) (g : Nat) : Ecc :=
  eccCheck 7 103 ((flitBits f) / 2 ^ (96 * g) % 2 ^ 96) (f.chk.toNat / 2 ^ (8 * g) % 256)

/-- The flit whose protected bits are `x`, with check bytes `chk`. -/
def flitOf (x : Nat) (chk : BitVec 64) : Flit :=
  { hdr := BitVec.ofNat 128 x, sc := BitVec.ofNat 128 (x / 2 ^ 128), data := BitVec.ofNat 512 (x / 2 ^ 256), chk := chk }

/-- A flit with group `g` corrected where it has a single error; whether it had one; whether it is uncorrectable. -/
def fixGroup (f : Flit) (g : Nat) : Flit × Bool × Bool :=
  match groupCheck f g with
  | .clean => (f, false, false)
  | .bad => (f, false, true)
  | .fixed d =>
    let old := (flitBits f) / 2 ^ (96 * g) % 2 ^ 96
    let x := (flitBits f) ^^^ ((old ^^^ d) * 2 ^ (96 * g))
    let c := f.chk.toNat / 2 ^ (8 * g) % 256
    (flitOf x (f.chk ^^^ BitVec.ofNat 64 ((c ^^^ checkByte 7 d) * 2 ^ (8 * g))), true, false)

/-- All eight groups checked and corrected (R51): the flit, the groups corrected, the groups uncorrectable. -/
def fixFlit (f : Flit) : Flit × List Nat × List Nat :=
  (List.range 8).foldl (fun (f, ce, ue) g =>
    let (f', c, u) := fixGroup f g
    (f', if c then ce ++ [g] else ce, if u then ue ++ [g] else ue)) (f, [], [])

/-- A flit whose header is rewritten in flight: check bytes 0 and 1 take the contribution of the changed bits, so that
an error already present stays detectable (R50). -/
def rewriteHdr (f : Flit) (hdr : BitVec 128) : Flit :=
  let d := f.hdr ^^^ hdr
  let c := checkByte 7 (d.toNat % 2 ^ 96) + 256 * checkByte 7 (d.toNat / 2 ^ 96)
  { f with hdr := hdr, chk := f.chk ^^^ BitVec.ofNat 64 c }

/-- A flit whose sidecar is rewritten: the check bytes take the contribution of the changed bits. -/
def rewriteSc (f : Flit) (sc : BitVec 128) : Flit :=
  { f with sc := sc, chk := f.chk ^^^ BitVec.ofNat 64 (groupChecks (flitBits { sc := f.sc ^^^ sc }) 8) }

/-- A flit struck by a bit-error pattern on a link. -/
def strike (f e : Flit) : Flit :=
  { hdr := f.hdr ^^^ e.hdr, sc := f.sc ^^^ e.sc, data := f.data ^^^ e.data, chk := f.chk ^^^ e.chk }

end Sys2Proof.Machine
end

