-- ==== Sys2Proof/Config.lean ====
section
/-! DEFINITION. What the hardened instance fixes (its topology, R14 to R19 and R96 to R98, R121) and the free values
the manual leaves open. -/

namespace Sys2Proof.Config

/-- A value the manual leaves open, drawn afresh at each use (log 1). It has no body: nothing can evaluate it. -/
opaque freeValue : Nat → BitVec 64

/-- The kinds of NI (R16). -/
inductive NiKind where
  | pni | sni | mni | lni | kni
deriving DecidableEq, Repr

/-- The kind of NI `n` (R16). -/
def niKind (n : Nat) : NiKind :=
  if n < 64 then .pni else if n < 76 then .sni else if n < 80 then .mni else if n < 81 then .lni else .kni

/-- Whether NI `n` has a Completion Ledger, a write-combining buffer and monitors (R215, R228, R442). -/
def hasLedger (n : Nat) : Bool := n < 80

/-- The router to which NI `n` attaches (R16). -/
def niRouter (n : Nat) : Nat :=
  if n < 64 then 7 * (n / 8) + n % 8 / 2
  else if n < 72 then 7 * (n - 64) + 4
  else if n < 76 then 7 * (n - 72) + 5
  else if n < 80 then 7 * (n - 76 + 4) + 5
  else if n < 81 then 55
  else 7 * (n - 81) + 6

/-- The router port of NI `n`: outputs 0 and 1 of tiles 0 to 3, output 0 of tiles 4 to 6 (R64). -/
def niPort (n : Nat) : Nat := if n < 64 then n % 2 else 0

/-- The NI at the only NI port of tile 4, 5 or 6 of cluster `c`; router 48 has none (R16). -/
def tileNi (c t : Nat) : Option Nat :=
  if t = 4 then some (64 + c)
  else if t = 5 then some (72 + c)
  else if c < 6 then some (81 + c)
  else if c = 7 then some 80
  else none

/-- What a router port leads to. -/
inductive Port where
  | ni (n : Nat)
  | router (k : Nat)
  | none
deriving DecidableEq, Repr

/-- The cluster of the same half at distance `d` of cluster `c` (R98). -/
def halfCluster (c d : Nat) : Nat := c / 4 * 4 + (c + d) % 4

/-- The tile pairs of the cross-half links, as (d, tile in 0–3, tile in 4–7), in ascending order of d (R98). -/
def crossPairs : List (Nat × Nat × Nat) :=
  [(0, 0, 0), (0, 1, 1), (0, 3, 6), (0, 5, 5), (0, 6, 3),
   (1, 1, 2), (1, 2, 5), (1, 3, 1), (1, 4, 4), (1, 5, 3),
   (2, 0, 1), (2, 1, 0), (2, 4, 6), (2, 5, 4), (2, 6, 3),
   (3, 0, 2), (3, 2, 0), (3, 3, 6), (3, 4, 5), (3, 6, 4)]

/-- The routers that the cross-half links of tile `t` of cluster `c` meet, X1 first (R97, R98). -/
def crossLinks (c t : Nat) : List Nat :=
  crossPairs.filterMap fun (d, a, b) =>
    if c < 4 then (if a = t then some (7 * (4 + (c + d) % 4) + b) else none)
    else (if b = t then some (7 * ((c - d) % 4) + a) else none)

/-- The ports of tile `t` of cluster `c` in the order of R97, before router 48 is renumbered. -/
def tilePorts (c t : Nat) : List Port :=
  let T (u : Nat) : Port := .router (7 * c + u)
  let F (u : Nat) : Port := .router (7 * halfCluster c 1 + u)
  let B (u : Nat) : Port := .router (7 * halfCluster c 3 + u)
  let O : Port := .router (7 * halfCluster c 2 + t)
  let xs := (crossLinks c t).map Port.router
  let X (j : Nat) : Port := xs.getD (j - 1) .none
  let P (j : Nat) : Port := .ni (8 * c + 2 * t + j)
  let N : Port := match tileNi c t with | some n => .ni n | .none => .none
  match t with
  | 0 => [P 0, P 1, T 1, T 3, O, X 1, X 2, X 3]
  | 1 => [P 0, P 1, T 0, T 2, X 1, X 2, X 3, T 3]
  | 2 => if c < 4 then [P 0, P 1, T 1, T 5, O, T 6, X 1, X 2] else [P 0, P 1, T 5, T 1, O, T 6, X 1, X 2]
  | 3 => [P 0, P 1, T 0, B 6, T 1, X 1, X 2, X 3]
  | 4 => [N, F 4, B 4, T 5, T 6, X 1, X 2, X 3]
  | 5 => [N, F 6, O, T 4, T 2, X 1, X 2, X 3]
  | _ => [N, F 3, B 5, T 4, T 2, X 1, X 2, X 3]

/-- The ports of router `k`: router 48 has no NI port and its output 7 is unconnected (R64, R97). -/
def ports (k : Nat) : List Port :=
  if k = 48 then (tilePorts 6 6).drop 1 else tilePorts (k / 7) (k % 7)

/-- What output `o` of router `k` leads to. -/
def port (k o : Nat) : Port := (ports k).getD o .none

/-- The input of router `k` on which a flit from router `j` arrives: the port that leads back (R96). -/
def inputFrom (k j : Nat) : Nat := ((List.range 8).find? fun i => port k i = .router j).getD 0

/-- The order of the clusters in ring 0 and of the tiles in a cluster (R121). -/
def ringClusters : List Nat := [0, 1, 2, 3, 5, 6, 7, 4]
/-- The order of the tiles in a cluster of ring 0 (R121). -/
def ringTiles : List Nat := [3, 0, 1, 2, 5, 4, 6]

/-- The ring position of router `k` (R121). -/
def ringPos (k : Nat) : Nat := 7 * ringClusters.idxOf (k / 7) + ringTiles.idxOf (k % 7)

/-- The output of router `k` on ring 0 or ring 1 (R121). -/
def ringOut (k ring : Nat) : Nat :=
  let c := k / 7
  match k % 7, ring with
  | 3, 0 => 2
  | 3, _ => if c = 0 then 5 else if c = 5 then 7 else 3
  | 0, 0 => 2
  | 0, _ => 3
  | 1, 0 => 3
  | 1, _ => 2
  | 2, 0 => if c < 4 then 3 else 2
  | 2, _ => if c < 4 then 2 else 3
  | 5, 0 => 3
  | 5, _ => 4
  | 4, 0 => 4
  | 4, _ => 3
  | _, 0 => if c = 3 then 6 else if c = 4 then 5 else if k = 48 then 0 else 1
  | _, _ => if k = 48 then 2 else 3

/-- The ring that R122 chooses from router `k` to router `j`. -/
def ringChoice (k j : Nat) : Nat :=
  let p := ringPos k
  let q := ringPos j
  if (q + 56 - p) % 56 ≤ (p + 56 - q) % 56 then 0 else 1

/-- Granary size by NI kind (R110). -/
def granCap (n : Nat) : Nat :=
  match niKind n with | .pni | .sni => 1024 | .mni => 256 | .lni => 128 | .kni => 512

/-- Injection buffer size by NI kind (R205). -/
def injCap (n : Nat) : Nat :=
  match niKind n with | .pni | .sni => 256 | .mni => 128 | .lni => 64 | .kni => 0

end Sys2Proof.Config
end

