-- ==== Sys2Proof/Machine/Regs.lean ====
section
/-! DEFINITION. The register tables of the spec (R94, R95, R125, R127, R154, R155, R182, R205, R237, R263, R283, R284,
R311, R331, R332, R352, R370, R371, R388, R413, R438, R462 to R465, R477): each register's offset, reset value and
typed fields, and the aperture address of each. A field the tables mark RSV has no entry: it reads zero and ignores
writes (R10). -/

namespace Sys2Proof.Machine

/-- The field types of R10 that occur. -/
inductive FieldType where
  | rw | ro | w1c | w1s | wo | rwl
deriving DecidableEq, Repr

/-- A field: its type and its bits `[hi:lo]`. -/
structure Field where
  ty : FieldType
  hi : Nat
  lo : Nat
deriving DecidableEq, Repr

/-- A register of a page: `count` copies at `off`, `off + stride`, …, each with this reset value and these fields. -/
structure RegRow where
  off    : Nat
  count  : Nat
  stride : Nat
  reset  : Nat
  fields : List Field
deriving DecidableEq, Repr

/-- A row for one register. -/
def reg1 (off reset : Nat) (fields : List Field) : RegRow := ⟨off, 1, 4, reset, fields⟩

/-- The registers every page begins with (R465). -/
def commonRegs : List RegRow := [
  reg1 0x000 0x1 [⟨.ro, 7, 0⟩, ⟨.ro, 23, 8⟩, ⟨.ro, 31, 24⟩],  -- PAGE_ID
  reg1 0x004 0x20400 [⟨.ro, 31, 0⟩],  -- PAGE_VER
  reg1 0x008 0x0 [⟨.ro, 5, 0⟩, ⟨.ro, 17, 8⟩, ⟨.ro, 29, 18⟩],  -- PAGE_CAP0
  reg1 0x00C 0x0 [⟨.ro, 31, 0⟩],  -- PAGE_CAP1
  reg1 0x010 0x1 [⟨.rw, 0, 0⟩, ⟨.wo, 1, 1⟩, ⟨.w1s, 2, 2⟩],  -- PAGE_CTRL
  reg1 0x014 0x0 [⟨.ro, 2, 0⟩, ⟨.ro, 3, 3⟩, ⟨.w1c, 4, 4⟩],  -- PAGE_STAT
  reg1 0x018 0x0 [⟨.w1c, 31, 0⟩],  -- PAGE_ERR
  reg1 0x01C 0x0 [⟨.rw, 31, 0⟩],  -- PAGE_ERR_MASK
  reg1 0x020 0x0 [⟨.ro, 4, 0⟩, ⟨.ro, 7, 5⟩, ⟨.ro, 31, 8⟩],  -- PAGE_ERR_FIRST
  reg1 0x024 0x0 [⟨.w1c, 15, 0⟩, ⟨.w1c, 30, 30⟩, ⟨.ro, 31, 31⟩],  -- PAGE_IRQ_STAT
  reg1 0x028 0x0 [⟨.rw, 15, 0⟩, ⟨.rw, 30, 30⟩, ⟨.rw, 31, 31⟩],  -- PAGE_IRQ_EN
  reg1 0x02C 0x0 [⟨.wo, 15, 0⟩, ⟨.wo, 30, 30⟩],  -- PAGE_IRQ_TEST
  reg1 0x030 0x0 [⟨.ro, 31, 0⟩]]  -- PAGE_SEQ

/-- Registers of the GLOBAL page (R438, R477). -/
def globalRegs0 : List RegRow := [
  reg1 0x100 0x2 [⟨.ro, 3, 0⟩, ⟨.ro, 7, 4⟩, ⟨.ro, 8, 8⟩, ⟨.ro, 9, 9⟩, ⟨.ro, 10, 10⟩, ⟨.ro, 15, 12⟩, ⟨.w1c, 16, 16⟩],  -- MODE_STAT
  reg1 0x104 0x0 [⟨.wo, 3, 0⟩],  -- MODE_REQ
  reg1 0x108 0x0 [⟨.rw, 0, 0⟩],  -- MODE_CFG
  reg1 0x10C 0x100000 [⟨.rw, 23, 0⟩],  -- RCV_CTRL
  reg1 0x110 0x0 [⟨.wo, 0, 0⟩, ⟨.wo, 1, 1⟩, ⟨.wo, 13, 8⟩],  -- RST_CTRL
  reg1 0x114 0x0 [⟨.ro, 1, 0⟩, ⟨.ro, 15, 8⟩],  -- RST_STAT
  reg1 0x118 0x0 [⟨.ro, 2, 0⟩, ⟨.ro, 3, 3⟩, ⟨.ro, 4, 4⟩, ⟨.ro, 15, 8⟩],  -- FUSE_STAT
  reg1 0x120 0x1FFF [⟨.ro, 31, 0⟩],  -- FEAT_OFFER_LO
  reg1 0x124 0x0 [⟨.ro, 31, 0⟩],  -- FEAT_OFFER_HI
  reg1 0x128 0x0 [⟨.rw, 31, 0⟩],  -- FEAT_ACCEPT_LO
  reg1 0x12C 0x0 [⟨.rw, 31, 0⟩],  -- FEAT_ACCEPT_HI
  reg1 0x130 0x0 [⟨.wo, 0, 0⟩],  -- FEAT_COMMIT
  reg1 0x134 0x0 [⟨.ro, 0, 0⟩, ⟨.ro, 7, 4⟩, ⟨.w1c, 8, 8⟩],  -- FEAT_STAT
  reg1 0x138 0x10 [⟨.ro, 31, 0⟩],  -- FEAT_ACTIVE_LO
  reg1 0x13C 0x0 [⟨.ro, 31, 0⟩],  -- FEAT_ACTIVE_HI
  reg1 0x180 0x683857 [⟨.ro, 7, 0⟩, ⟨.ro, 15, 8⟩, ⟨.ro, 19, 16⟩, ⟨.ro, 22, 20⟩],  -- INST_CFG0
  reg1 0x184 0x2001000 [⟨.ro, 12, 0⟩, ⟨.ro, 25, 16⟩],  -- INST_CFG1
  reg1 0x188 0x20004000 [⟨.ro, 14, 0⟩, ⟨.ro, 29, 16⟩],  -- INST_CFG2
  reg1 0x18C 0xFF1004F8 [⟨.ro, 10, 0⟩, ⟨.ro, 20, 16⟩, ⟨.ro, 31, 24⟩],  -- INST_CFG3
  reg1 0x1A0 0x0 [⟨.ro, 7, 0⟩, ⟨.ro, 13, 8⟩, ⟨.ro, 23, 16⟩]]  -- IRQ_SUM0

/-- Registers of the GLOBAL page (R284, R332, R477). -/
def globalRegs1 : List RegRow := [
  ⟨0x1A4, 3, 0x4, 0x0, [⟨.ro, 31, 0⟩]⟩,  -- IRQ_SUM_NI
  ⟨0x1B0, 2, 0x4, 0x0, [⟨.ro, 31, 0⟩]⟩,  -- IRQ_SUM_RTR
  ⟨0x1C0, 16, 0x4, 0x0, [⟨.ro, 31, 0⟩]⟩,  -- IRQ_SUM_PART
  reg1 0x300 0x10000 [⟨.rw, 19, 0⟩],  -- HL_CTRL
  reg1 0x304 0x0 [⟨.ro, 7, 0⟩, ⟨.ro, 15, 8⟩, ⟨.ro, 23, 16⟩],  -- HL_STAT
  reg1 0x308 0x0 [⟨.ro, 25, 0⟩, ⟨.ro, 28, 26⟩, ⟨.ro, 29, 29⟩, ⟨.w1c, 31, 31⟩],  -- HL_MISS
  reg1 0x30C 0x0 [⟨.ro, 25, 0⟩, ⟨.ro, 28, 26⟩, ⟨.w1c, 31, 31⟩],  -- HL_HANG
  reg1 0x310 0x0 [⟨.ro, 23, 0⟩],  -- HL_PARK
  reg1 0x320 0x7F [⟨.rwl, 0, 0⟩, ⟨.rwl, 1, 1⟩, ⟨.rwl, 2, 2⟩, ⟨.rwl, 3, 3⟩, ⟨.rwl, 4, 4⟩, ⟨.rwl, 5, 5⟩, ⟨.rwl, 6, 6⟩],  -- RULE_DFLT
  reg1 0x324 0x0 [⟨.ro, 12, 0⟩, ⟨.ro, 19, 16⟩, ⟨.w1c, 24, 24⟩, ⟨.w1c, 25, 25⟩],  -- RULE_CSTAT
  reg1 0x328 0x0 [⟨.wo, 15, 0⟩]]  -- RULE_ERRINJ

/-- The registers of the GLOBAL page. -/
def globalRegs : List RegRow := globalRegs0 ++ globalRegs1

/-- Registers of the TIME page (R154). -/
def timeRegs0 : List RegRow := [
  reg1 0x100 0x6420 [⟨.rw, 0, 0⟩, ⟨.wo, 1, 1⟩, ⟨.wo, 2, 2⟩, ⟨.rw, 7, 4⟩, ⟨.rw, 15, 8⟩],  -- TIME_CTRL
  reg1 0x104 0x0 [⟨.rw, 31, 0⟩],  -- TIME_INC_FRAC
  reg1 0x108 0xA [⟨.rw, 7, 0⟩],  -- TIME_INC_NS
  reg1 0x10C 0x0 [⟨.ro, 15, 0⟩],  -- NOW_SUB
  reg1 0x110 0x0 [⟨.ro, 31, 0⟩],  -- NOW_LO
  reg1 0x114 0x0 [⟨.ro, 31, 0⟩],  -- NOW_HI
  reg1 0x118 0x0 [⟨.rw, 15, 0⟩],  -- SET_SUB
  reg1 0x11C 0x0 [⟨.rw, 31, 0⟩],  -- SET_LO
  reg1 0x120 0x0 [⟨.rw, 31, 0⟩],  -- SET_HI
  reg1 0x124 0x0 [⟨.ro, 15, 0⟩],  -- PPS_CAP_SUB
  reg1 0x128 0x0 [⟨.ro, 31, 0⟩],  -- PPS_CAP_LO
  reg1 0x12C 0x0 [⟨.ro, 31, 0⟩],  -- PPS_CAP_HI
  reg1 0x130 0x0 [⟨.ro, 31, 0⟩],  -- PPS_ERR
  reg1 0x134 0x0 [⟨.rw, 18, 0⟩],  -- FREQ
  reg1 0x138 0x0 [⟨.ro, 18, 0⟩],  -- RATE
  reg1 0x13C 0x30A0000 [⟨.rw, 9, 0⟩, ⟨.rw, 23, 16⟩, ⟨.rw, 27, 24⟩],  -- PPS_CFG
  reg1 0x140 0x0 [⟨.ro, 1, 0⟩, ⟨.ro, 3, 2⟩, ⟨.ro, 15, 8⟩, ⟨.ro, 31, 16⟩],  -- TIME_STAT
  reg1 0x144 0x0 [⟨.ro, 10, 0⟩, ⟨.ro, 31, 31⟩],  -- PHASE_ERR
  reg1 0x148 0x0 [⟨.ro, 21, 0⟩],  -- ROT_IDX
  reg1 0x14C 0x0 [⟨.ro, 31, 0⟩]]  -- ROT_SEC_LO

/-- Registers of the TIME page (R154). -/
def timeRegs1 : List RegRow := [
  reg1 0x150 0x0 [⟨.ro, 31, 0⟩]]  -- ROT_SEC_HI

/-- The registers of the TIME page. -/
def timeRegs : List RegRow := timeRegs0 ++ timeRegs1

/-- Registers of the FOREMAN page (R370). -/
def foremanRegs0 : List RegRow := [
  reg1 0x100 0x104000 [⟨.rw, 1, 0⟩, ⟨.rw, 15, 8⟩, ⟨.rw, 23, 16⟩],  -- FM_CTRL
  reg1 0x104 0x60C060C0 [⟨.rw, 7, 0⟩, ⟨.rw, 15, 8⟩, ⟨.rw, 23, 16⟩, ⟨.rw, 31, 24⟩],  -- FM_POL0
  reg1 0x108 0x200880 [⟨.rw, 7, 0⟩, ⟨.rw, 15, 8⟩, ⟨.rw, 24, 16⟩],  -- FM_POL1
  reg1 0x10C 0x10 [⟨.rw, 7, 0⟩],  -- FM_POL2
  reg1 0x110 0x40 [⟨.rw, 8, 0⟩],  -- FM_THR_LIM
  reg1 0x114 0x641000 [⟨.rw, 2, 0⟩, ⟨.rw, 6, 4⟩, ⟨.rw, 7, 7⟩, ⟨.rw, 15, 8⟩, ⟨.rw, 31, 16⟩],  -- FM_VAR
  reg1 0x118 0x0 [⟨.rw, 31, 0⟩],  -- FM_NI_EN0
  reg1 0x11C 0x0 [⟨.rw, 31, 0⟩],  -- FM_NI_EN1
  reg1 0x120 0x0 [⟨.rw, 22, 0⟩],  -- FM_NI_EN2
  reg1 0x124 0x0 [⟨.ro, 7, 0⟩, ⟨.ro, 15, 8⟩, ⟨.ro, 23, 16⟩, ⟨.ro, 24, 24⟩],  -- FM_STAT
  reg1 0x128 0x0 [⟨.rw, 31, 5⟩],  -- FM_LOG_LO
  reg1 0x12C 0x0 [⟨.rw, 19, 0⟩],  -- FM_LOG_HI
  reg1 0x130 0xA0000 [⟨.rw, 1, 0⟩, ⟨.rw, 15, 8⟩, ⟨.rw, 20, 16⟩],  -- FM_LOG_CFG
  reg1 0x134 0x0 [⟨.ro, 31, 0⟩],  -- FM_LOG_WIDX
  reg1 0x138 0x0 [⟨.ro, 7, 0⟩],  -- FM_LOG_STAT
  reg1 0x180 0x64 [⟨.rw, 9, 0⟩],  -- CRU_CTRL
  reg1 0x184 0x0 [⟨.ro, 31, 0⟩],  -- CRU_STAT
  reg1 0x188 0x0 [⟨.ro, 31, 0⟩],  -- CRU_TIME_LO
  reg1 0x18C 0x0 [⟨.ro, 31, 0⟩],  -- CRU_TIME_HI
  reg1 0x190 0x0 [⟨.ro, 7, 0⟩, ⟨.ro, 13, 8⟩]]  -- CRU_G

/-- Registers of the FOREMAN page (R370). -/
def foremanRegs1 : List RegRow := [
  reg1 0x1C0 0xC01 [⟨.rw, 0, 0⟩, ⟨.rw, 12, 8⟩],  -- CAL_CTRL
  reg1 0x1C4 0x0 [⟨.ro, 6, 0⟩, ⟨.ro, 7, 7⟩, ⟨.ro, 11, 8⟩, ⟨.w1c, 31, 31⟩],  -- CAL_AUD_FIRST
  ⟨0x1C8, 3, 0x4, 0x0, [⟨.w1c, 31, 0⟩]⟩,  -- CAL_AUD_FLAG
  reg1 0x1D4 0x0 [⟨.rw, 6, 0⟩, ⟨.rw, 7, 7⟩],  -- CAL_AUD_SEL
  reg1 0x1D8 0xF [⟨.ro, 3, 0⟩, ⟨.ro, 7, 4⟩],  -- CAL_AUD_MM
  ⟨0x800, 87, 0x4, 0x0, [⟨.ro, 7, 0⟩, ⟨.ro, 15, 8⟩, ⟨.ro, 23, 16⟩, ⟨.ro, 31, 24⟩]⟩,  -- CRU_NI
  ⟨0xA00, 56, 0x4, 0x0, [⟨.ro, 7, 0⟩, ⟨.ro, 15, 8⟩]⟩]  -- CRU_RTR

/-- The registers of the FOREMAN page. -/
def foremanRegs : List RegRow := foremanRegs0 ++ foremanRegs1

/-- Registers of the GLEANER page (R371). -/
def gleanerRegs : List RegRow := [
  reg1 0x100 0x3 [⟨.rw, 0, 0⟩, ⟨.rw, 1, 1⟩],  -- GLN_CTRL
  reg1 0x104 0x81008 [⟨.rw, 7, 0⟩, ⟨.rw, 15, 8⟩, ⟨.rw, 23, 16⟩],  -- GLN_PER
  reg1 0x108 0x0 [⟨.w1c, 3, 0⟩, ⟨.ro, 31, 16⟩],  -- GLN_STAT
  reg1 0x10C 0x0 [⟨.ro, 15, 0⟩, ⟨.ro, 31, 16⟩],  -- GLN_ERR
  reg1 0x110 0x0 [⟨.ro, 2, 0⟩, ⟨.ro, 5, 3⟩, ⟨.ro, 24, 6⟩, ⟨.w1c, 31, 31⟩],  -- GLN_UE_FIRST
  reg1 0x114 0x0 [⟨.ro, 15, 0⟩]]  -- GLN_SKIP

/-- Registers of the JOURNAL page (R463). -/
def journalRegs : List RegRow := [
  reg1 0x100 0x1 [⟨.rw, 0, 0⟩],  -- JRN_CTRL
  reg1 0x104 0x0 [⟨.ro, 31, 0⟩],  -- JRN_WIDX
  reg1 0x108 0x0 [⟨.rw, 31, 0⟩],  -- JRN_RIDX
  reg1 0x10C 0x0 [⟨.ro, 15, 0⟩],  -- JRN_STAT
  reg1 0x110 0x0 [⟨.wo, 11, 0⟩],  -- JRN_SEL
  ⟨0x120, 16, 0x4, 0x0, [⟨.ro, 31, 0⟩]⟩,  -- JRN_DATA
  reg1 0x180 0x3E8 [⟨.rw, 19, 0⟩],  -- ESC_WIN
  reg1 0x184 0x0 [⟨.ro, 7, 0⟩, ⟨.ro, 15, 8⟩, ⟨.ro, 23, 16⟩, ⟨.ro, 31, 24⟩],  -- ESC_STAT
  reg1 0x188 0x0 [⟨.ro, 1, 0⟩, ⟨.ro, 10, 2⟩, ⟨.w1c, 31, 31⟩]]  -- ESC_LAST

/-- Registers of the TALLY page (R388). -/
def tallyRegs0 : List RegRow := [
  reg1 0x100 0x0 [⟨.rw, 0, 0⟩, ⟨.wo, 1, 1⟩],  -- TLY_CTRL
  reg1 0x104 0x0 [⟨.wo, 0, 0⟩, ⟨.w1c, 1, 1⟩, ⟨.ro, 2, 2⟩],  -- TLY_SNAP
  reg1 0x108 0x0 [⟨.ro, 31, 0⟩],  -- TLY_SNAP_T_LO
  reg1 0x10C 0x0 [⟨.ro, 31, 0⟩],  -- TLY_SNAP_T_HI
  reg1 0x110 0x0 [⟨.ro, 0, 0⟩, ⟨.w1c, 1, 1⟩],  -- TLY_STAT
  reg1 0x118 0x0 [⟨.w1c, 31, 0⟩],  -- TLY_LOST0
  reg1 0x11C 0x0 [⟨.w1c, 23, 0⟩],  -- TLY_LOST1
  ⟨0x200, 40, 0x4, 0x0, [⟨.w1c, 31, 0⟩]⟩,  -- TLY_OVF
  ⟨0x400, 32, 0x20, 0xFF03FF, [⟨.rw, 9, 0⟩, ⟨.rw, 23, 16⟩, ⟨.rw, 25, 24⟩, ⟨.rw, 27, 26⟩, ⟨.rw, 28, 28⟩, ⟨.rw, 29, 29⟩, ⟨.rw, 30, 30⟩, ⟨.rw, 31, 31⟩]⟩,  -- TLY_F_W0
  ⟨0x404, 32, 0x20, 0x3FF0000, [⟨.rw, 9, 0⟩, ⟨.rw, 25, 16⟩]⟩,  -- TLY_F_W1
  ⟨0x408, 32, 0x20, 0x0, [⟨.rw, 8, 0⟩, ⟨.rw, 27, 16⟩]⟩,  -- TLY_F_W2
  ⟨0x40C, 32, 0x20, 0x0, [⟨.rw, 31, 6⟩]⟩,  -- TLY_F_W3
  ⟨0x410, 32, 0x20, 0x0, [⟨.rw, 19, 0⟩]⟩,  -- TLY_F_W4
  ⟨0x414, 32, 0x20, 0x0, [⟨.rw, 31, 6⟩]⟩,  -- TLY_F_W5
  ⟨0x418, 32, 0x20, 0x0, [⟨.rw, 19, 0⟩]⟩,  -- TLY_F_W6
  ⟨0x800, 16, 0x40, 0x4, [⟨.rw, 1, 0⟩, ⟨.rw, 2, 2⟩, ⟨.rw, 7, 3⟩, ⟨.rw, 8, 8⟩, ⟨.rw, 12, 9⟩]⟩,  -- PRB_CTRL
  ⟨0x804, 16, 0x40, 0x0, [⟨.rw, 6, 0⟩, ⟨.rw, 7, 7⟩, ⟨.rw, 10, 8⟩, ⟨.rw, 11, 11⟩]⟩,  -- PRB_WHERE
  ⟨0x808, 16, 0x40, 0x0, [⟨.rw, 31, 5⟩]⟩,  -- PRB_RING_LO
  ⟨0x80C, 16, 0x40, 0x0, [⟨.rw, 19, 0⟩]⟩,  -- PRB_RING_HI
  ⟨0x810, 16, 0x40, 0xA0000, [⟨.rw, 1, 0⟩, ⟨.rw, 15, 8⟩, ⟨.rw, 20, 16⟩]⟩]  -- PRB_RING_CFG

/-- Registers of the TALLY page (R388). -/
def tallyRegs1 : List RegRow := [
  ⟨0x814, 16, 0x40, 0x0, [⟨.ro, 31, 0⟩]⟩,  -- PRB_WIDX
  ⟨0x818, 16, 0x40, 0x0, [⟨.rw, 31, 0⟩]⟩,  -- PRB_RIDX
  ⟨0x81C, 16, 0x40, 0x0, [⟨.rw, 31, 0⟩]⟩,  -- PRB_LIMIT
  ⟨0x820, 16, 0x40, 0x0, [⟨.ro, 31, 0⟩]⟩,  -- PRB_CNT_LO
  ⟨0x824, 16, 0x40, 0x0, [⟨.ro, 15, 0⟩]⟩,  -- PRB_CNT_HI
  ⟨0x828, 16, 0x40, 0x0, [⟨.ro, 15, 0⟩, ⟨.ro, 16, 16⟩, ⟨.w1c, 17, 17⟩]⟩]  -- PRB_STAT

/-- The registers of the TALLY page. -/
def tallyRegs : List RegRow := tallyRegs0 ++ tallyRegs1

/-- Registers of the POWER page (R413). -/
def powerRegs : List RegRow := [
  reg1 0x100 0x0 [⟨.wo, 5, 0⟩, ⟨.wo, 10, 8⟩],  -- BOOM_CTRL
  reg1 0x104 0x0 [⟨.ro, 5, 0⟩, ⟨.ro, 11, 8⟩, ⟨.w1c, 31, 31⟩],  -- BOOM_ERR
  reg1 0x108 0x10000 [⟨.rw, 23, 0⟩],  -- PWR_HOLD
  reg1 0x10C 0x100 [⟨.rw, 11, 0⟩],  -- PWR_QUIET
  reg1 0x110 0x100000 [⟨.rw, 23, 0⟩],  -- PWR_QTMO
  reg1 0x114 0x4C0000 [⟨.rw, 1, 0⟩, ⟨.rw, 15, 8⟩, ⟨.rw, 25, 16⟩, ⟨.rw, 31, 31⟩],  -- PWR_NOTE
  reg1 0x118 0x100 [⟨.rw, 9, 0⟩],  -- CLK_MON
  reg1 0x11C 0x0 [⟨.w1c, 0, 0⟩, ⟨.w1c, 1, 1⟩, ⟨.w1c, 2, 2⟩, ⟨.w1c, 3, 3⟩, ⟨.w1c, 9, 4⟩],  -- CLK_STAT
  reg1 0x120 0x0 [⟨.w1c, 31, 0⟩],  -- UCLK_STOP0
  reg1 0x124 0x0 [⟨.w1c, 31, 0⟩],  -- UCLK_STOP1
  reg1 0x128 0x0 [⟨.w1c, 15, 0⟩],  -- UCLK_STOP2
  reg1 0x130 0x0 [⟨.w1c, 31, 0⟩],  -- XING_OVR0
  reg1 0x134 0x0 [⟨.w1c, 23, 0⟩],  -- XING_OVR1
  reg1 0x138 0x0 [⟨.ro, 15, 0⟩, ⟨.ro, 31, 16⟩],  -- PWR_CNT
  ⟨0x140, 8, 0x4, 0x0, [⟨.ro, 2, 0⟩, ⟨.ro, 6, 4⟩, ⟨.ro, 10, 8⟩, ⟨.ro, 14, 12⟩, ⟨.ro, 18, 16⟩, ⟨.ro, 22, 20⟩, ⟨.ro, 26, 24⟩, ⟨.ro, 30, 28⟩, ⟨.ro, 3, 3⟩, ⟨.ro, 7, 7⟩, ⟨.ro, 11, 11⟩, ⟨.ro, 15, 15⟩, ⟨.ro, 19, 19⟩, ⟨.ro, 23, 23⟩, ⟨.ro, 27, 27⟩, ⟨.ro, 31, 31⟩]⟩]  -- BOOM_STATE

/-- Registers of the SCHED page (R155, R182). -/
def schedRegs0 : List RegRow := [
  reg1 0x100 0x0 [⟨.wo, 0, 0⟩, ⟨.wo, 1, 1⟩, ⟨.rw, 3, 2⟩, ⟨.wo, 4, 4⟩],  -- SW_CTRL
  reg1 0x104 0x0 [⟨.rw, 15, 0⟩],  -- SW_TGT_SUB
  reg1 0x108 0x0 [⟨.rw, 31, 0⟩],  -- SW_TGT_LO
  reg1 0x10C 0x0 [⟨.rw, 31, 0⟩],  -- SW_TGT_HI
  reg1 0x110 0x0 [⟨.ro, 2, 0⟩, ⟨.ro, 3, 3⟩, ⟨.ro, 7, 4⟩, ⟨.w1c, 8, 8⟩, ⟨.ro, 11, 9⟩],  -- SW_STAT
  reg1 0x114 0x0 [⟨.ro, 21, 0⟩],  -- SW_IDX
  reg1 0x118 0x0 [⟨.ro, 31, 0⟩],  -- SW_SEC_LO
  reg1 0x11C 0x0 [⟨.ro, 31, 0⟩],  -- SW_SEC_HI
  reg1 0x120 0x23C346 [⟨.rwl, 21, 0⟩],  -- ROT_PER_SEC
  reg1 0x140 0x0 [⟨.rw, 31, 3⟩],  -- LOAD_ADDR_LO
  reg1 0x144 0x0 [⟨.rw, 19, 0⟩],  -- LOAD_ADDR_HI
  reg1 0x148 0x0 [⟨.wo, 0, 0⟩, ⟨.rw, 1, 1⟩, ⟨.rw, 6, 4⟩, ⟨.rw, 9, 8⟩],  -- LOAD_CTRL
  reg1 0x14C 0x0 [⟨.ro, 0, 0⟩, ⟨.w1c, 1, 1⟩, ⟨.ro, 15, 8⟩, ⟨.ro, 23, 16⟩, ⟨.ro, 26, 24⟩],  -- LOAD_STAT
  reg1 0x150 0x0 [⟨.ro, 23, 0⟩],  -- LOAD_WHERE
  reg1 0x154 0x0 [⟨.ro, 31, 0⟩],  -- IMG_CRC
  reg1 0x158 0x0 [⟨.ro, 2, 0⟩, ⟨.ro, 3, 3⟩, ⟨.ro, 6, 4⟩, ⟨.ro, 7, 7⟩, ⟨.ro, 15, 8⟩, ⟨.ro, 19, 16⟩],  -- VAR_STAT
  reg1 0x160 0x3031612 [⟨.ro, 7, 0⟩, ⟨.ro, 15, 8⟩, ⟨.ro, 23, 16⟩, ⟨.ro, 31, 24⟩],  -- BOUND_SKW
  reg1 0x164 0x4090603 [⟨.ro, 7, 0⟩, ⟨.ro, 15, 8⟩, ⟨.ro, 23, 16⟩, ⟨.ro, 31, 24⟩],  -- BOUND_STG
  reg1 0x168 0x0 [⟨.ro, 15, 0⟩, ⟨.ro, 27, 16⟩],  -- DEM_CNT
  reg1 0x170 0x0 [⟨.rw, 11, 0⟩]]  -- FLOW_SEL

/-- Registers of the SCHED page (R155, R182). -/
def schedRegs1 : List RegRow := [
  ⟨0x180, 8, 0x4, 0x0, [⟨.ro, 31, 0⟩]⟩,  -- FLOW_DATA
  ⟨0x400, 56, 0x4, 0x0, [⟨.rw, 7, 0⟩, ⟨.rw, 15, 8⟩]⟩,  -- RTR_OFF
  ⟨0x500, 87, 0x4, 0x0, [⟨.rw, 7, 0⟩, ⟨.rw, 15, 8⟩]⟩,  -- NI_OFF
  ⟨0x800, 128, 0x4, 0x0, [⟨.w1c, 31, 0⟩]⟩]  -- FLOW_DEM

/-- The registers of the SCHED page. -/
def schedRegs : List RegRow := schedRegs0 ++ schedRegs1

/-- Registers of the NI page (R94, R127, R205). -/
def niRegs0 : List RegRow := [
  reg1 0x200 0x0 [⟨.rw, 13, 0⟩, ⟨.rw, 29, 16⟩],  -- RT_CARVE
  reg1 0x204 0x0 [⟨.rw, 13, 0⟩, ⟨.rw, 30, 16⟩],  -- RT_ADDR_BASE
  reg1 0x208 0x0 [⟨.rw, 5, 0⟩],  -- RT_ADDR_SHIFT
  reg1 0x20C 0x0 [⟨.rw, 31, 21⟩],  -- RT_ADDR_WIN_LO
  reg1 0x210 0x0 [⟨.rw, 19, 0⟩],  -- RT_ADDR_WIN_HI
  reg1 0x214 0x0 [⟨.rw, 13, 0⟩, ⟨.rw, 28, 16⟩],  -- RT_PBR
  reg1 0x218 0x0 [⟨.rw, 13, 0⟩, ⟨.rw, 31, 31⟩],  -- RT_NODE
  reg1 0x21C 0x0 [⟨.ro, 7, 0⟩, ⟨.ro, 21, 8⟩, ⟨.w1c, 31, 31⟩],  -- RT_STAT
  reg1 0x240 0x0 [⟨.ro, 11, 0⟩],  -- GRAN_CAP
  reg1 0x244 0x800040 [⟨.rwl, 10, 0⟩, ⟨.rwl, 26, 16⟩],  -- GRAN_LIM0
  reg1 0x248 0x200200 [⟨.rwl, 10, 0⟩, ⟨.rwl, 26, 16⟩],  -- GRAN_LIM1
  reg1 0x24C 0x400020 [⟨.rwl, 10, 0⟩, ⟨.rwl, 26, 16⟩],  -- GRAN_LIM2
  reg1 0x250 0x200020 [⟨.rwl, 10, 0⟩, ⟨.rwl, 26, 16⟩],  -- GRAN_LIM3
  reg1 0x254 0x20 [⟨.rwl, 10, 0⟩, ⟨.ro, 26, 16⟩],  -- GRAN_LIM4
  reg1 0x258 0x0 [⟨.w1c, 0, 0⟩],  -- GRAN_STAT
  reg1 0x280 0x0 [⟨.rw, 2, 0⟩],  -- INJ_CTRL
  reg1 0x284 0x0 [⟨.rw, 13, 0⟩, ⟨.rw, 24, 16⟩],  -- INJ_QBASE
  reg1 0x288 0x0 [⟨.ro, 9, 0⟩],  -- INJ_CAP
  reg1 0x28C 0x100 [⟨.rw, 8, 0⟩],  -- INJ_THR
  reg1 0x290 0x0 [⟨.w1c, 0, 0⟩, ⟨.w1c, 1, 1⟩, ⟨.w1c, 2, 2⟩, ⟨.ro, 25, 16⟩]]  -- INJ_STAT

/-- Registers of the NI page (R205, R237, R331). -/
def niRegs1 : List RegRow := [
  reg1 0x294 0x0 [⟨.ro, 5, 0⟩, ⟨.ro, 15, 8⟩],  -- BO_STAT
  ⟨0x2A0, 8, 0x4, 0x0, [⟨.rw, 9, 0⟩, ⟨.rw, 15, 15⟩, ⟨.rw, 25, 16⟩, ⟨.rw, 31, 31⟩]⟩,  -- ARB_TGT
  reg1 0x2C0 0x101000 [⟨.rw, 0, 0⟩, ⟨.rw, 1, 1⟩, ⟨.rw, 15, 8⟩, ⟨.rw, 23, 16⟩],  -- ARB_CTRL
  reg1 0x2C4 0x10000 [⟨.rw, 23, 0⟩],  -- ARB_WIN
  reg1 0x2C8 0x6A090000 [⟨.rw, 31, 0⟩],  -- ARB_SEED
  reg1 0x2CC 0x0 [⟨.ro, 1, 0⟩, ⟨.ro, 2, 2⟩, ⟨.ro, 3, 3⟩, ⟨.ro, 13, 8⟩],  -- ARB_STAT
  reg1 0x2D0 0x0 [⟨.ro, 9, 0⟩, ⟨.ro, 24, 16⟩, ⟨.ro, 31, 31⟩],  -- ARB_HOLD
  reg1 0x2D4 0x0 [⟨.ro, 11, 0⟩],  -- ARB_HTAG
  reg1 0x300 0x1000 [⟨.rw, 0, 0⟩, ⟨.rw, 15, 4⟩],  -- WCB_CTRL
  reg1 0x304 0x0 [⟨.ro, 5, 0⟩, ⟨.ro, 15, 8⟩],  -- WCB_STAT
  reg1 0x308 0x0 [⟨.ro, 3, 0⟩, ⟨.ro, 15, 8⟩, ⟨.w1c, 16, 16⟩],  -- BAR_STAT
  reg1 0x310 0x1 [⟨.rw, 2, 0⟩],  -- RSV_CTRL
  reg1 0x314 0x0 [⟨.ro, 5, 0⟩, ⟨.ro, 15, 8⟩, ⟨.ro, 23, 16⟩],  -- RSV_STAT
  reg1 0x318 0x0 [⟨.w1c, 0, 0⟩, ⟨.w1c, 1, 1⟩],  -- ORD_STAT
  ⟨0x320, 8, 0x4, 0x0, [⟨.ro, 9, 0⟩, ⟨.ro, 24, 16⟩, ⟨.ro, 31, 31⟩]⟩,  -- RSV_OWN
  reg1 0x340 0x0 [⟨.rw, 12, 0⟩, ⟨.rw, 21, 16⟩],  -- RULE_INIT
  reg1 0x344 0x0 [⟨.rw, 12, 0⟩, ⟨.rw, 21, 16⟩],  -- RULE_TGT
  reg1 0x348 0x0 [⟨.ro, 7, 0⟩, ⟨.ro, 8, 8⟩, ⟨.ro, 23, 16⟩, ⟨.w1c, 31, 31⟩],  -- RULE_STAT
  reg1 0x34C 0x0 [⟨.ro, 31, 0⟩],  -- RULE_ADDR_LO
  reg1 0x350 0x0 [⟨.ro, 19, 0⟩]]  -- RULE_ADDR_HI

/-- Registers of the NI page (R263, R283, R462). -/
def niRegs2 : List RegRow := [
  reg1 0x380 0x4 [⟨.rwl, 0, 0⟩, ⟨.rw, 2, 1⟩, ⟨.rw, 3, 3⟩],  -- PNI_CTRL
  reg1 0x384 0x4C [⟨.rw, 9, 0⟩],  -- PNI_SB_DST
  reg1 0x388 0xC08040 [⟨.rw, 7, 0⟩, ⟨.rw, 15, 8⟩, ⟨.rw, 23, 16⟩, ⟨.rw, 31, 24⟩],  -- DL_THR
  reg1 0x38C 0x0 [⟨.rw, 7, 0⟩],  -- DL_RAISE
  reg1 0x390 0xF0A04000 [⟨.rw, 7, 0⟩, ⟨.rw, 15, 8⟩, ⟨.rw, 23, 16⟩, ⟨.rw, 31, 24⟩],  -- DL_EXP
  reg1 0x394 0x0 [⟨.ro, 7, 0⟩, ⟨.ro, 15, 8⟩, ⟨.ro, 17, 16⟩, ⟨.ro, 19, 18⟩],  -- DL_STAT
  reg1 0x398 0x0 [⟨.w1c, 0, 0⟩, ⟨.w1c, 1, 1⟩, ⟨.w1c, 2, 2⟩, ⟨.w1c, 3, 3⟩, ⟨.ro, 11, 8⟩],  -- PMC_STAT
  reg1 0x39C 0x0 [⟨.ro, 7, 0⟩, ⟨.ro, 15, 8⟩, ⟨.ro, 24, 16⟩],  -- BI_STAT
  ⟨0x3A0, 4, 0x4, 0x10101010, [⟨.rwl, 7, 0⟩, ⟨.rwl, 15, 8⟩, ⟨.rwl, 23, 16⟩, ⟨.rwl, 31, 24⟩]⟩,  -- PMC_CRED
  ⟨0x3C0, 16, 0x4, 0x0, [⟨.rw, 8, 0⟩, ⟨.rw, 31, 31⟩]⟩,  -- LDID_MAP
  reg1 0x400 0x14 [⟨.rw, 4, 0⟩],  -- TXN_TMO
  reg1 0x404 0x0 [⟨.wo, 8, 0⟩, ⟨.wo, 9, 9⟩],  -- LDG_SEL
  reg1 0x408 0x0 [⟨.ro, 8, 0⟩, ⟨.ro, 19, 10⟩, ⟨.ro, 29, 20⟩],  -- LDG_CNT
  reg1 0x40C 0x0 [⟨.wo, 8, 0⟩, ⟨.wo, 9, 9⟩],  -- LDG_REL
  ⟨0x420, 8, 0x4, 0x0, [⟨.ro, 31, 0⟩]⟩,  -- LDG_DATA
  reg1 0x600 0x120 [⟨.rw, 0, 0⟩, ⟨.rw, 8, 4⟩],  -- EH_CTRL
  reg1 0x604 0x0 [⟨.ro, 5, 0⟩, ⟨.ro, 12, 8⟩],  -- EH_STAT
  reg1 0x608 0x0 [⟨.ro, 7, 0⟩, ⟨.ro, 15, 8⟩, ⟨.ro, 23, 16⟩],  -- EH_CNT
  reg1 0x60C 0x0 [⟨.ro, 1, 0⟩, ⟨.ro, 2, 2⟩, ⟨.ro, 7, 3⟩, ⟨.w1c, 31, 31⟩],  -- EH_ERR
  reg1 0x610 0x0 [⟨.ro, 31, 0⟩]]  -- EH_ERR_ADDR

/-- Registers of the NI page (R205). -/
def niRegs3 : List RegRow := [
  ⟨0x800, 64, 0x8, 0x0, [⟨.rw, 9, 0⟩, ⟨.rw, 24, 16⟩, ⟨.rw, 28, 28⟩, ⟨.rw, 31, 31⟩]⟩,  -- ARB_REQ_W0
  ⟨0x804, 64, 0x8, 0xFF001010, [⟨.rw, 7, 0⟩, ⟨.rw, 15, 8⟩, ⟨.rw, 23, 16⟩, ⟨.rw, 31, 24⟩]⟩,  -- ARB_REQ_W1
  ⟨0xA00, 64, 0x4, 0x0, [⟨.ro, 7, 0⟩, ⟨.ro, 8, 8⟩]⟩]  -- ARB_QCNT

/-- The registers of the NI page. -/
def niRegs : List RegRow := niRegs0 ++ niRegs1 ++ niRegs2 ++ niRegs3

/-- Registers of the ROUTER page (R125). -/
def routerRegs : List RegRow := [
  reg1 0x100 0x8 [⟨.ro, 3, 0⟩, ⟨.ro, 5, 4⟩],  -- RTR_INFO
  reg1 0x104 0xAAA5 [⟨.rwl, 15, 0⟩],  -- LINK_DEPTH
  reg1 0x108 0x40400000 [⟨.rw, 31, 0⟩],  -- URG_BASE0
  reg1 0x10C 0x602040 [⟨.rw, 31, 0⟩],  -- URG_BASE1
  reg1 0x110 0x8000 [⟨.rw, 15, 0⟩],  -- URG_BASE2
  reg1 0x114 0x0 [⟨.ro, 11, 0⟩, ⟨.ro, 14, 12⟩, ⟨.w1c, 31, 31⟩],  -- SCHED_ERR
  reg1 0x118 0x0 [⟨.ro, 2, 0⟩, ⟨.ro, 3, 3⟩, ⟨.ro, 23, 16⟩, ⟨.w1c, 31, 31⟩],  -- HDR_ERR
  ⟨0x400, 128, 0x4, 0x0, [⟨.rw, 7, 0⟩, ⟨.rw, 8, 8⟩, ⟨.rw, 15, 9⟩, ⟨.rw, 31, 16⟩]⟩]  -- SHEAF

/-- Registers of the SKIDWAY page (R311). -/
def skidwayRegs : List RegRow := [
  reg1 0x100 0x0 [⟨.rw, 0, 0⟩, ⟨.wo, 1, 1⟩, ⟨.wo, 2, 2⟩],  -- SKW_CTRL
  reg1 0x104 0x3800C [⟨.rwl, 3, 0⟩, ⟨.rwl, 8, 4⟩, ⟨.rw, 15, 12⟩, ⟨.rw, 19, 16⟩],  -- SKW_CFG
  reg1 0x108 0x0 [⟨.ro, 2, 0⟩, ⟨.ro, 7, 4⟩, ⟨.ro, 10, 8⟩, ⟨.ro, 13, 11⟩, ⟨.ro, 14, 14⟩, ⟨.ro, 15, 15⟩, ⟨.ro, 23, 16⟩],  -- SKW_STAT
  reg1 0x10C 0x0 [⟨.ro, 7, 0⟩, ⟨.ro, 15, 8⟩, ⟨.ro, 21, 16⟩],  -- SKW_REPLAY
  reg1 0x110 0xFF00 [⟨.ro, 7, 0⟩, ⟨.ro, 15, 8⟩, ⟨.ro, 23, 16⟩, ⟨.ro, 31, 24⟩],  -- SKW_TS
  reg1 0x114 0x0 [⟨.wo, 0, 0⟩],  -- SKW_TS_CLR
  reg1 0x118 0x404040 [⟨.ro, 6, 0⟩, ⟨.ro, 14, 8⟩, ⟨.rwl, 22, 16⟩, ⟨.rw, 30, 24⟩, ⟨.rw, 31, 31⟩],  -- SKW_LANE
  reg1 0x11C 0x1000E10 [⟨.rw, 11, 0⟩, ⟨.rw, 23, 12⟩, ⟨.rw, 24, 24⟩, ⟨.wo, 25, 25⟩],  -- SKW_LANE_SCH
  reg1 0x120 0x0 [⟨.ro, 15, 0⟩, ⟨.ro, 23, 16⟩],  -- SKW_LANE_STAT
  ⟨0x140, 9, 0x4, 0x20, [⟨.rwl, 8, 0⟩, ⟨.ro, 24, 16⟩]⟩]  -- SKW_POOL

/-- Registers of the CLUSTER page (R95). -/
def clusterRegs : List RegRow := [
  reg1 0x100 0x0 [⟨.ro, 13, 0⟩, ⟨.ro, 19, 16⟩, ⟨.w1c, 24, 24⟩, ⟨.w1c, 25, 25⟩],  -- RS_STAT
  reg1 0x104 0x0 [⟨.wo, 15, 0⟩]]  -- RS_ERRINJ

/-- Registers of the PARTITION page (R352, R464). -/
def partitionRegs0 : List RegRow := [
  reg1 0x100 0x0 [⟨.wo, 3, 0⟩, ⟨.rw, 4, 4⟩, ⟨.rw, 5, 5⟩],  -- PART_CTRL
  reg1 0x104 0x0 [⟨.ro, 2, 0⟩, ⟨.ro, 3, 3⟩, ⟨.ro, 11, 8⟩, ⟨.w1c, 12, 12⟩, ⟨.w1c, 13, 13⟩, ⟨.ro, 19, 16⟩],  -- PART_STAT
  reg1 0x108 0x0 [⟨.ro, 23, 0⟩, ⟨.ro, 26, 24⟩, ⟨.ro, 29, 27⟩],  -- PART_WHERE
  reg1 0x110 0x0 [⟨.rw, 31, 0⟩],  -- PART_NI0
  reg1 0x114 0x0 [⟨.rw, 31, 0⟩],  -- PART_NI1
  reg1 0x118 0x0 [⟨.rw, 11, 0⟩],  -- PART_NI2
  reg1 0x120 0x0 [⟨.rw, 13, 0⟩, ⟨.rw, 30, 16⟩],  -- PART_Q
  reg1 0x124 0x0 [⟨.rw, 12, 0⟩, ⟨.rw, 29, 16⟩],  -- PART_RULE
  reg1 0x128 0x0 [⟨.rw, 11, 0⟩, ⟨.rw, 28, 16⟩],  -- PART_FLOW
  reg1 0x12C 0x0 [⟨.rw, 7, 0⟩, ⟨.rw, 23, 16⟩],  -- PART_CSET
  ⟨0x130, 8, 0x4, 0x0, [⟨.rw, 13, 0⟩, ⟨.rw, 30, 16⟩]⟩,  -- PART_RS
  reg1 0x150 0x1000100 [⟨.rw, 9, 0⟩, ⟨.rw, 24, 16⟩],  -- PART_SHARE
  reg1 0x160 0x0 [⟨.rw, 31, 3⟩],  -- PART_IO_LO
  reg1 0x164 0x0 [⟨.rw, 19, 0⟩],  -- PART_IO_HI
  reg1 0x168 0x0 [⟨.rw, 1, 0⟩],  -- PART_IO_CFG
  reg1 0x16C 0x0 [⟨.rw, 23, 0⟩],  -- PART_IO_MAX
  reg1 0x170 0x0 [⟨.ro, 23, 0⟩],  -- PART_IO_LEN
  reg1 0x174 0x0 [⟨.ro, 7, 0⟩],  -- PART_IO_STAT
  reg1 0x180 0x0 [⟨.ro, 15, 0⟩, ⟨.ro, 31, 16⟩],  -- PART_SQ_CNT
  reg1 0x200 0x0 [⟨.rw, 31, 6⟩]]  -- PJ_BASE_LO

/-- Registers of the PARTITION page (R464). -/
def partitionRegs1 : List RegRow := [
  reg1 0x204 0x0 [⟨.rw, 19, 0⟩],  -- PJ_BASE_HI
  reg1 0x208 0xA0000 [⟨.rw, 0, 0⟩, ⟨.rw, 2, 1⟩, ⟨.rw, 15, 8⟩, ⟨.rw, 20, 16⟩],  -- PJ_CFG
  reg1 0x20C 0x0 [⟨.ro, 31, 0⟩],  -- PJ_WIDX
  reg1 0x210 0x0 [⟨.rw, 31, 0⟩],  -- PJ_RIDX
  reg1 0x214 0x0 [⟨.ro, 15, 0⟩, ⟨.ro, 31, 16⟩],  -- PJ_STAT
  reg1 0x218 0x1000000 [⟨.rw, 0, 0⟩, ⟨.rw, 2, 1⟩, ⟨.rw, 15, 8⟩, ⟨.rw, 31, 16⟩],  -- PEV_CFG
  reg1 0x21C 0x4C [⟨.rw, 9, 0⟩],  -- PEV_DST
  reg1 0x220 0x0 [⟨.ro, 15, 0⟩]]  -- PEV_STAT

/-- The registers of the PARTITION page. -/
def partitionRegs : List RegRow := partitionRegs0 ++ partitionRegs1

/-! Aperture addresses (R474). -/

abbrev MODE_STAT : Nat := 0x0000100
abbrev MODE_REQ : Nat := 0x0000104
abbrev MODE_CFG : Nat := 0x0000108
abbrev RCV_CTRL : Nat := 0x000010C
abbrev RST_CTRL : Nat := 0x0000110
abbrev RST_STAT : Nat := 0x0000114
abbrev FUSE_STAT : Nat := 0x0000118
abbrev FEAT_OFFER_LO : Nat := 0x0000120
abbrev FEAT_OFFER_HI : Nat := 0x0000124
abbrev FEAT_ACCEPT_LO : Nat := 0x0000128
abbrev FEAT_ACCEPT_HI : Nat := 0x000012C
abbrev FEAT_COMMIT : Nat := 0x0000130
abbrev FEAT_STAT : Nat := 0x0000134
abbrev FEAT_ACTIVE_LO : Nat := 0x0000138
abbrev FEAT_ACTIVE_HI : Nat := 0x000013C
abbrev INST_CFG0 : Nat := 0x0000180
abbrev INST_CFG1 : Nat := 0x0000184
abbrev INST_CFG2 : Nat := 0x0000188
abbrev INST_CFG3 : Nat := 0x000018C
abbrev IRQ_SUM0 : Nat := 0x00001A0
abbrev IRQ_SUM_NI (i : Nat) : Nat := 0x00001A4 + 0x4 * i
abbrev IRQ_SUM_RTR (i : Nat) : Nat := 0x00001B0 + 0x4 * i
abbrev IRQ_SUM_PART (i : Nat) : Nat := 0x00001C0 + 0x4 * i
abbrev HL_CTRL : Nat := 0x0000300
abbrev HL_STAT : Nat := 0x0000304
abbrev HL_MISS : Nat := 0x0000308
abbrev HL_HANG : Nat := 0x000030C
abbrev HL_PARK : Nat := 0x0000310
abbrev RULE_DFLT : Nat := 0x0000320
abbrev RULE_CSTAT : Nat := 0x0000324
abbrev RULE_ERRINJ : Nat := 0x0000328
abbrev TIME_CTRL : Nat := 0x0001100
abbrev TIME_INC_FRAC : Nat := 0x0001104
abbrev TIME_INC_NS : Nat := 0x0001108
abbrev NOW_SUB : Nat := 0x000110C
abbrev NOW_LO : Nat := 0x0001110
abbrev NOW_HI : Nat := 0x0001114
abbrev SET_SUB : Nat := 0x0001118
abbrev SET_LO : Nat := 0x000111C
abbrev SET_HI : Nat := 0x0001120
abbrev PPS_CAP_SUB : Nat := 0x0001124
abbrev PPS_CAP_LO : Nat := 0x0001128
abbrev PPS_CAP_HI : Nat := 0x000112C
abbrev PPS_ERR : Nat := 0x0001130
abbrev FREQ : Nat := 0x0001134
abbrev RATE : Nat := 0x0001138
abbrev PPS_CFG : Nat := 0x000113C
abbrev TIME_STAT : Nat := 0x0001140
abbrev PHASE_ERR : Nat := 0x0001144
abbrev ROT_IDX : Nat := 0x0001148
abbrev ROT_SEC_LO : Nat := 0x000114C
abbrev ROT_SEC_HI : Nat := 0x0001150
abbrev FM_CTRL : Nat := 0x0002100
abbrev FM_POL0 : Nat := 0x0002104
abbrev FM_POL1 : Nat := 0x0002108
abbrev FM_POL2 : Nat := 0x000210C
abbrev FM_THR_LIM : Nat := 0x0002110
abbrev FM_VAR : Nat := 0x0002114
abbrev FM_NI_EN0 : Nat := 0x0002118
abbrev FM_NI_EN1 : Nat := 0x000211C
abbrev FM_NI_EN2 : Nat := 0x0002120
abbrev FM_STAT : Nat := 0x0002124
abbrev FM_LOG_LO : Nat := 0x0002128
abbrev FM_LOG_HI : Nat := 0x000212C
abbrev FM_LOG_CFG : Nat := 0x0002130
abbrev FM_LOG_WIDX : Nat := 0x0002134
abbrev FM_LOG_STAT : Nat := 0x0002138
abbrev CRU_CTRL : Nat := 0x0002180
abbrev CRU_STAT : Nat := 0x0002184
abbrev CRU_TIME_LO : Nat := 0x0002188
abbrev CRU_TIME_HI : Nat := 0x000218C
abbrev CRU_G : Nat := 0x0002190
abbrev CAL_CTRL : Nat := 0x00021C0
abbrev CAL_AUD_FIRST : Nat := 0x00021C4
abbrev CAL_AUD_FLAG (i : Nat) : Nat := 0x00021C8 + 0x4 * i
abbrev CAL_AUD_SEL : Nat := 0x00021D4
abbrev CAL_AUD_MM : Nat := 0x00021D8
abbrev CRU_NI (i : Nat) : Nat := 0x0002800 + 0x4 * i
abbrev CRU_RTR (i : Nat) : Nat := 0x0002A00 + 0x4 * i
abbrev GLN_CTRL : Nat := 0x0003100
abbrev GLN_PER : Nat := 0x0003104
abbrev GLN_STAT : Nat := 0x0003108
abbrev GLN_ERR : Nat := 0x000310C
abbrev GLN_UE_FIRST : Nat := 0x0003110
abbrev GLN_SKIP : Nat := 0x0003114
abbrev JRN_CTRL : Nat := 0x0004100
abbrev JRN_WIDX : Nat := 0x0004104
abbrev JRN_RIDX : Nat := 0x0004108
abbrev JRN_STAT : Nat := 0x000410C
abbrev JRN_SEL : Nat := 0x0004110
abbrev JRN_DATA (i : Nat) : Nat := 0x0004120 + 0x4 * i
abbrev ESC_WIN : Nat := 0x0004180
abbrev ESC_STAT : Nat := 0x0004184
abbrev ESC_LAST : Nat := 0x0004188
abbrev TLY_CTRL : Nat := 0x0005100
abbrev TLY_SNAP : Nat := 0x0005104
abbrev TLY_SNAP_T_LO : Nat := 0x0005108
abbrev TLY_SNAP_T_HI : Nat := 0x000510C
abbrev TLY_STAT : Nat := 0x0005110
abbrev TLY_LOST0 : Nat := 0x0005118
abbrev TLY_LOST1 : Nat := 0x000511C
abbrev TLY_OVF (i : Nat) : Nat := 0x0005200 + 0x4 * i
abbrev TLY_F_W0 (i : Nat) : Nat := 0x0005400 + 0x20 * i
abbrev TLY_F_W1 (i : Nat) : Nat := 0x0005404 + 0x20 * i
abbrev TLY_F_W2 (i : Nat) : Nat := 0x0005408 + 0x20 * i
abbrev TLY_F_W3 (i : Nat) : Nat := 0x000540C + 0x20 * i
abbrev TLY_F_W4 (i : Nat) : Nat := 0x0005410 + 0x20 * i
abbrev TLY_F_W5 (i : Nat) : Nat := 0x0005414 + 0x20 * i
abbrev TLY_F_W6 (i : Nat) : Nat := 0x0005418 + 0x20 * i
abbrev PRB_CTRL (i : Nat) : Nat := 0x0005800 + 0x40 * i
abbrev PRB_WHERE (i : Nat) : Nat := 0x0005804 + 0x40 * i
abbrev PRB_RING_LO (i : Nat) : Nat := 0x0005808 + 0x40 * i
abbrev PRB_RING_HI (i : Nat) : Nat := 0x000580C + 0x40 * i
abbrev PRB_RING_CFG (i : Nat) : Nat := 0x0005810 + 0x40 * i
abbrev PRB_WIDX (i : Nat) : Nat := 0x0005814 + 0x40 * i
abbrev PRB_RIDX (i : Nat) : Nat := 0x0005818 + 0x40 * i
abbrev PRB_LIMIT (i : Nat) : Nat := 0x000581C + 0x40 * i
abbrev PRB_CNT_LO (i : Nat) : Nat := 0x0005820 + 0x40 * i
abbrev PRB_CNT_HI (i : Nat) : Nat := 0x0005824 + 0x40 * i
abbrev PRB_STAT (i : Nat) : Nat := 0x0005828 + 0x40 * i
abbrev BOOM_CTRL : Nat := 0x0006100
abbrev BOOM_ERR : Nat := 0x0006104
abbrev PWR_HOLD : Nat := 0x0006108
abbrev PWR_QUIET : Nat := 0x000610C
abbrev PWR_QTMO : Nat := 0x0006110
abbrev PWR_NOTE : Nat := 0x0006114
abbrev CLK_MON : Nat := 0x0006118
abbrev CLK_STAT : Nat := 0x000611C
abbrev UCLK_STOP0 : Nat := 0x0006120
abbrev UCLK_STOP1 : Nat := 0x0006124
abbrev UCLK_STOP2 : Nat := 0x0006128
abbrev XING_OVR0 : Nat := 0x0006130
abbrev XING_OVR1 : Nat := 0x0006134
abbrev PWR_CNT : Nat := 0x0006138
abbrev BOOM_STATE (i : Nat) : Nat := 0x0006140 + 0x4 * i
abbrev SW_CTRL : Nat := 0x0007100
abbrev SW_TGT_SUB : Nat := 0x0007104
abbrev SW_TGT_LO : Nat := 0x0007108
abbrev SW_TGT_HI : Nat := 0x000710C
abbrev SW_STAT : Nat := 0x0007110
abbrev SW_IDX : Nat := 0x0007114
abbrev SW_SEC_LO : Nat := 0x0007118
abbrev SW_SEC_HI : Nat := 0x000711C
abbrev ROT_PER_SEC : Nat := 0x0007120
abbrev LOAD_ADDR_LO : Nat := 0x0007140
abbrev LOAD_ADDR_HI : Nat := 0x0007144
abbrev LOAD_CTRL : Nat := 0x0007148
abbrev LOAD_STAT : Nat := 0x000714C
abbrev LOAD_WHERE : Nat := 0x0007150
abbrev IMG_CRC : Nat := 0x0007154
abbrev VAR_STAT : Nat := 0x0007158
abbrev BOUND_SKW : Nat := 0x0007160
abbrev BOUND_STG : Nat := 0x0007164
abbrev DEM_CNT : Nat := 0x0007168
abbrev FLOW_SEL : Nat := 0x0007170
abbrev FLOW_DATA (i : Nat) : Nat := 0x0007180 + 0x4 * i
abbrev RTR_OFF (i : Nat) : Nat := 0x0007400 + 0x4 * i
abbrev NI_OFF (i : Nat) : Nat := 0x0007500 + 0x4 * i
abbrev FLOW_DEM (i : Nat) : Nat := 0x0007800 + 0x4 * i
abbrev RT_CARVE (n : Nat) : Nat := 0x0100200 + 0x1000 * n
abbrev RT_ADDR_BASE (n : Nat) : Nat := 0x0100204 + 0x1000 * n
abbrev RT_ADDR_SHIFT (n : Nat) : Nat := 0x0100208 + 0x1000 * n
abbrev RT_ADDR_WIN_LO (n : Nat) : Nat := 0x010020C + 0x1000 * n
abbrev RT_ADDR_WIN_HI (n : Nat) : Nat := 0x0100210 + 0x1000 * n
abbrev RT_PBR (n : Nat) : Nat := 0x0100214 + 0x1000 * n
abbrev RT_NODE (n : Nat) : Nat := 0x0100218 + 0x1000 * n
abbrev RT_STAT (n : Nat) : Nat := 0x010021C + 0x1000 * n
abbrev GRAN_CAP (n : Nat) : Nat := 0x0100240 + 0x1000 * n
abbrev GRAN_LIM0 (n : Nat) : Nat := 0x0100244 + 0x1000 * n
abbrev GRAN_LIM1 (n : Nat) : Nat := 0x0100248 + 0x1000 * n
abbrev GRAN_LIM2 (n : Nat) : Nat := 0x010024C + 0x1000 * n
abbrev GRAN_LIM3 (n : Nat) : Nat := 0x0100250 + 0x1000 * n
abbrev GRAN_LIM4 (n : Nat) : Nat := 0x0100254 + 0x1000 * n
abbrev GRAN_STAT (n : Nat) : Nat := 0x0100258 + 0x1000 * n
abbrev INJ_CTRL (n : Nat) : Nat := 0x0100280 + 0x1000 * n
abbrev INJ_QBASE (n : Nat) : Nat := 0x0100284 + 0x1000 * n
abbrev INJ_CAP (n : Nat) : Nat := 0x0100288 + 0x1000 * n
abbrev INJ_THR (n : Nat) : Nat := 0x010028C + 0x1000 * n
abbrev INJ_STAT (n : Nat) : Nat := 0x0100290 + 0x1000 * n
abbrev BO_STAT (n : Nat) : Nat := 0x0100294 + 0x1000 * n
abbrev ARB_TGT (n i : Nat) : Nat := 0x01002A0 + 0x1000 * n + 0x4 * i
abbrev ARB_CTRL (n : Nat) : Nat := 0x01002C0 + 0x1000 * n
abbrev ARB_WIN (n : Nat) : Nat := 0x01002C4 + 0x1000 * n
abbrev ARB_SEED (n : Nat) : Nat := 0x01002C8 + 0x1000 * n
abbrev ARB_STAT (n : Nat) : Nat := 0x01002CC + 0x1000 * n
abbrev ARB_HOLD (n : Nat) : Nat := 0x01002D0 + 0x1000 * n
abbrev ARB_HTAG (n : Nat) : Nat := 0x01002D4 + 0x1000 * n
abbrev WCB_CTRL (n : Nat) : Nat := 0x0100300 + 0x1000 * n
abbrev WCB_STAT (n : Nat) : Nat := 0x0100304 + 0x1000 * n
abbrev BAR_STAT (n : Nat) : Nat := 0x0100308 + 0x1000 * n
abbrev RSV_CTRL (n : Nat) : Nat := 0x0100310 + 0x1000 * n
abbrev RSV_STAT (n : Nat) : Nat := 0x0100314 + 0x1000 * n
abbrev ORD_STAT (n : Nat) : Nat := 0x0100318 + 0x1000 * n
abbrev RSV_OWN (n i : Nat) : Nat := 0x0100320 + 0x1000 * n + 0x4 * i
abbrev RULE_INIT (n : Nat) : Nat := 0x0100340 + 0x1000 * n
abbrev RULE_TGT (n : Nat) : Nat := 0x0100344 + 0x1000 * n
abbrev RULE_STAT (n : Nat) : Nat := 0x0100348 + 0x1000 * n
abbrev RULE_ADDR_LO (n : Nat) : Nat := 0x010034C + 0x1000 * n
abbrev RULE_ADDR_HI (n : Nat) : Nat := 0x0100350 + 0x1000 * n
abbrev PNI_CTRL (n : Nat) : Nat := 0x0100380 + 0x1000 * n
abbrev PNI_SB_DST (n : Nat) : Nat := 0x0100384 + 0x1000 * n
abbrev DL_THR (n : Nat) : Nat := 0x0100388 + 0x1000 * n
abbrev DL_RAISE (n : Nat) : Nat := 0x010038C + 0x1000 * n
abbrev DL_EXP (n : Nat) : Nat := 0x0100390 + 0x1000 * n
abbrev DL_STAT (n : Nat) : Nat := 0x0100394 + 0x1000 * n
abbrev PMC_STAT (n : Nat) : Nat := 0x0100398 + 0x1000 * n
abbrev BI_STAT (n : Nat) : Nat := 0x010039C + 0x1000 * n
abbrev PMC_CRED (n i : Nat) : Nat := 0x01003A0 + 0x1000 * n + 0x4 * i
abbrev LDID_MAP (n i : Nat) : Nat := 0x01003C0 + 0x1000 * n + 0x4 * i
abbrev TXN_TMO (n : Nat) : Nat := 0x0100400 + 0x1000 * n
abbrev LDG_SEL (n : Nat) : Nat := 0x0100404 + 0x1000 * n
abbrev LDG_CNT (n : Nat) : Nat := 0x0100408 + 0x1000 * n
abbrev LDG_REL (n : Nat) : Nat := 0x010040C + 0x1000 * n
abbrev LDG_DATA (n i : Nat) : Nat := 0x0100420 + 0x1000 * n + 0x4 * i
abbrev EH_CTRL (n : Nat) : Nat := 0x0100600 + 0x1000 * n
abbrev EH_STAT (n : Nat) : Nat := 0x0100604 + 0x1000 * n
abbrev EH_CNT (n : Nat) : Nat := 0x0100608 + 0x1000 * n
abbrev EH_ERR (n : Nat) : Nat := 0x010060C + 0x1000 * n
abbrev EH_ERR_ADDR (n : Nat) : Nat := 0x0100610 + 0x1000 * n
abbrev ARB_REQ_W0 (n i : Nat) : Nat := 0x0100800 + 0x1000 * n + 0x8 * i
abbrev ARB_REQ_W1 (n i : Nat) : Nat := 0x0100804 + 0x1000 * n + 0x8 * i
abbrev ARB_QCNT (n i : Nat) : Nat := 0x0100A00 + 0x1000 * n + 0x4 * i
abbrev RTR_INFO (k : Nat) : Nat := 0x0200100 + 0x1000 * k
abbrev LINK_DEPTH (k : Nat) : Nat := 0x0200104 + 0x1000 * k
abbrev URG_BASE0 (k : Nat) : Nat := 0x0200108 + 0x1000 * k
abbrev URG_BASE1 (k : Nat) : Nat := 0x020010C + 0x1000 * k
abbrev URG_BASE2 (k : Nat) : Nat := 0x0200110 + 0x1000 * k
abbrev SCHED_ERR (k : Nat) : Nat := 0x0200114 + 0x1000 * k
abbrev HDR_ERR (k : Nat) : Nat := 0x0200118 + 0x1000 * k
abbrev SHEAF (k i : Nat) : Nat := 0x0200400 + 0x1000 * k + 0x4 * i
abbrev SKW_CTRL (s : Nat) : Nat := 0x0300100 + 0x1000 * s
abbrev SKW_CFG (s : Nat) : Nat := 0x0300104 + 0x1000 * s
abbrev SKW_STAT (s : Nat) : Nat := 0x0300108 + 0x1000 * s
abbrev SKW_REPLAY (s : Nat) : Nat := 0x030010C + 0x1000 * s
abbrev SKW_TS (s : Nat) : Nat := 0x0300110 + 0x1000 * s
abbrev SKW_TS_CLR (s : Nat) : Nat := 0x0300114 + 0x1000 * s
abbrev SKW_LANE (s : Nat) : Nat := 0x0300118 + 0x1000 * s
abbrev SKW_LANE_SCH (s : Nat) : Nat := 0x030011C + 0x1000 * s
abbrev SKW_LANE_STAT (s : Nat) : Nat := 0x0300120 + 0x1000 * s
abbrev SKW_POOL (s i : Nat) : Nat := 0x0300140 + 0x1000 * s + 0x4 * i
abbrev RS_STAT (c : Nat) : Nat := 0x0340100 + 0x1000 * c
abbrev RS_ERRINJ (c : Nat) : Nat := 0x0340104 + 0x1000 * c
abbrev PART_CTRL (p : Nat) : Nat := 0x1000100 + 0x1000 * p
abbrev PART_STAT (p : Nat) : Nat := 0x1000104 + 0x1000 * p
abbrev PART_WHERE (p : Nat) : Nat := 0x1000108 + 0x1000 * p
abbrev PART_NI0 (p : Nat) : Nat := 0x1000110 + 0x1000 * p
abbrev PART_NI1 (p : Nat) : Nat := 0x1000114 + 0x1000 * p
abbrev PART_NI2 (p : Nat) : Nat := 0x1000118 + 0x1000 * p
abbrev PART_Q (p : Nat) : Nat := 0x1000120 + 0x1000 * p
abbrev PART_RULE (p : Nat) : Nat := 0x1000124 + 0x1000 * p
abbrev PART_FLOW (p : Nat) : Nat := 0x1000128 + 0x1000 * p
abbrev PART_CSET (p : Nat) : Nat := 0x100012C + 0x1000 * p
abbrev PART_RS (p i : Nat) : Nat := 0x1000130 + 0x1000 * p + 0x4 * i
abbrev PART_SHARE (p : Nat) : Nat := 0x1000150 + 0x1000 * p
abbrev PART_IO_LO (p : Nat) : Nat := 0x1000160 + 0x1000 * p
abbrev PART_IO_HI (p : Nat) : Nat := 0x1000164 + 0x1000 * p
abbrev PART_IO_CFG (p : Nat) : Nat := 0x1000168 + 0x1000 * p
abbrev PART_IO_MAX (p : Nat) : Nat := 0x100016C + 0x1000 * p
abbrev PART_IO_LEN (p : Nat) : Nat := 0x1000170 + 0x1000 * p
abbrev PART_IO_STAT (p : Nat) : Nat := 0x1000174 + 0x1000 * p
abbrev PART_SQ_CNT (p : Nat) : Nat := 0x1000180 + 0x1000 * p
abbrev PJ_BASE_LO (p : Nat) : Nat := 0x1000200 + 0x1000 * p
abbrev PJ_BASE_HI (p : Nat) : Nat := 0x1000204 + 0x1000 * p
abbrev PJ_CFG (p : Nat) : Nat := 0x1000208 + 0x1000 * p
abbrev PJ_WIDX (p : Nat) : Nat := 0x100020C + 0x1000 * p
abbrev PJ_RIDX (p : Nat) : Nat := 0x1000210 + 0x1000 * p
abbrev PJ_STAT (p : Nat) : Nat := 0x1000214 + 0x1000 * p
abbrev PEV_CFG (p : Nat) : Nat := 0x1000218 + 0x1000 * p
abbrev PEV_DST (p : Nat) : Nat := 0x100021C + 0x1000 * p
abbrev PEV_STAT (p : Nat) : Nat := 0x1000220 + 0x1000 * p

end Sys2Proof.Machine
end

