-- ==== Sys2Proof/Machine/State.lean ====
section
/-! DEFINITION. The state of the instance, its faults and refusals, and the state in cold reset. Registers live in one
sparse map keyed by aperture byte address, which also holds the plain table windows (slot tables, injection tables,
queue descriptors, live counters and snapshots); what an unlisted address reads as is its reset value (R481, R475). -/

namespace Sys2Proof.Machine

/-- The twelve operating modes, in the order of their codes (R415). -/
inductive Mode where
  | off | fuse | cold | calibrate | reserved | dynamic | scheduled | reconfigure | drain | recovery | test | frozen
deriving DecidableEq, Repr, Inhabited

/-- The reset that holds the instance in COLD (R426). -/
inductive ResetKind where
  | cold | warm
deriving DecidableEq, Repr, Inhabited

/-- A mode change in progress (R416): its target, the mode left, whether DRAIN is passed, and the fc of its entry. -/
structure Change where
  target : Mode := .off
  from_  : Mode := .off
  drains : Bool := false
  recov  : Bool := false
  fc     : Nat  := 0
  /-- DRAIN has been entered, and for a passage through DRAIN, the order of the last message of each NI at that fc (R418). -/
  opened : Bool := false
  marks  : List Nat := []
  /-- DRAIN has been left: the mode is the target, and the NIs and routers take it up (R419). -/
  left   : Bool := false
deriving DecidableEq, Repr, Inhabited

/-- Fabric time, the servo and the rotation counter (R128 to R137). `now` counts 2^-32 ns. -/
structure FTime where
  now    : BitVec 96 := 0
  inc    : BitVec 40 := 0xA00000000
  p      : Int       := 0
  pEnd   : Option (BitVec 96) := none
  /-- Capture of the last accepted edge, and whether an edge has been accepted since the last cold reset. -/
  lastC  : Option (BitVec 96) := none
  consec : Nat       := 0
  /-- Rotation stamp (s, r) and slot position. -/
  s      : BitVec 64 := 0
  r      : Nat       := 0
  pos    : Nat       := 0
  /-- Rotations per second in force, which a warm reset keeps (R135, R427). -/
  rps    : Nat       := 0x23C346
  /-- Fc at which the rotation counter restarts with second `s` (R136). -/
  restart : Option (Nat × BitVec 64) := none
  /-- What the next TCLK edge adds besides its increment, or loads in its place (R130, R133). -/
  stepBy : Int       := 0
  load   : Option (BitVec 96) := none
deriving DecidableEq, Repr, Inhabited

/-- The timed switchover (R144 to R148); its state, stamp and error are in the SCHED page. -/
structure Switch where
  /-- What is to be switched, as SW_CTRL.kind says it, and the fc of boundary B. -/
  kind  : Nat := 0
  b     : Nat := 0
  /-- The arm has been made irrevocable and `b` is the fc of boundary B. -/
  fixed : Bool := false
deriving DecidableEq, Repr, Inhabited

/-- What the loader keeps of the image whose variant it last wrote into a bank (R174, R176, R182): its CRC, the scheduled
reservation it gives each NI, and the to_mask of that variant. -/
structure BankImage where
  crc  : Word := 0
  resv : Tbl Nat := []
  mask : Nat := 0
deriving DecidableEq, Repr, Inhabited

/-- The schedule loader and the images it accepted (R173 to R177). -/
structure Loader where
  /-- Kind, variant, MNI and master of the load in progress. -/
  busy   : Option (Nat × Nat × Nat × Nat) := none
  /-- LOAD_ADDR as the start of that load took it (R473). -/
  addr   : Nat := 0
  /-- The Ledger entry of the fetch at the MNI; none while no entry is free for it (R442). -/
  entry  : Option Nat := none
  /-- The image that each bank holds a variant of. -/
  bank   : Tbl BankImage := []
deriving DecidableEq, Repr, Inhabited

/-- A partition event waiting to be sent (R453). -/
structure PEvt where
  opc  : BitVec 8  := 0
  arg  : BitVec 32 := 0
deriving DecidableEq, Repr, Inhabited

/-- What a partition holds beside its page (R341, R346, R453). -/
structure Part where
  op      : Nat       := 0
  /-- One above the mc in which an op was last accepted (R351). -/
  opMc    : Nat       := 0
  /-- Fabric time of the FROZEN transition (R347), the events that wait, the mc in which one for an entry last left (R453),
  and whether the ring's being full has been told since its read index moved (R452). -/
  frozenT : BitVec 96 := 0
  events  : List PEvt := []
  lastEvt : Option Nat := none
  ringFull : Bool     := false
  /-- The Ledger entry, by MNI and index, of the transfer of an image (R442). -/
  entry   : Option (Nat × Nat) := none
  /-- The address in PART_IO as the op in progress took it at its start (R473). -/
  io      : Nat := 0
  /-- Image the last SAVE wrote to management memory (R346). -/
  image   : List (BitVec 8) := []
deriving DecidableEq, Repr, Inhabited

/-- A loaded frame that a Skidway adapter holds until it is acknowledged, with the fc of its last sending (R295). -/
structure SkFrame where
  fseq  : Nat   := 0
  fc    : Nat   := 0
  frame : Frame := {}
deriving DecidableEq, Repr, Inhabited

/-- A packet received from a Skidway peer (R296, R297), with the check bytes of its flits (R33). -/
structure SkRx where
  hdr   : BitVec 128 := 0
  body  : List (BitVec 128 × BitVec 512) := []
  chks  : List (BitVec 64) := []
  pool  : Nat        := 0
  /-- A request that arrived in DRAIN (R417). -/
  fence : Bool       := false
deriving DecidableEq, Repr, Inhabited

/-- A scheduled flit at a KNI: in the entering reservation with the fc of its arrival, or on its way to the peer with the
fc of its departure (R152, R162). -/
structure SkSched where
  flit : Flit := {}
  fc   : Nat  := 0
  /-- Of a first flit that entered: the fc of its p_b, and whether it is of a request that arrived in DRAIN (R417). -/
  pb   : Option Nat := none
  fence : Bool := false
  /-- It found the reservation full and was discarded (R297): it takes no space, and only its place in its packet is
  known. -/
  lost : Bool := false
deriving DecidableEq, Repr, Inhabited

/-- A slot of an accepted frame before its release (R292): the fc of its release, the position of its departure p_a (R152,
R290), and whether its credit is owed to the present link. -/
structure SkSlot where
  fc   : Nat  := 0
  pa   : Nat  := 0
  flit : Flit := {}
  owes : Bool := true
deriving DecidableEq, Repr, Inhabited

/-- A Skidway port and the fabric side of its adapter (R285 to R312). Its state, counters and settings are in its
page. -/
structure Skw where
  /-- fc of entry into the present state. -/
  since   : Nat := 0
  /-- RETRAINs in succession with no loaded frame acknowledged in between (R298). -/
  trains  : Nat := 0
  /-- A RETRAIN is in progress (R298, R300). -/
  retr    : Bool := false
  /-- FSEQ of the next loaded frame, and the last FSEQ accepted in order (R293, R294). -/
  fseq    : Nat := 0
  acc     : Option Nat := none
  held    : List SkFrame := []
  /-- FSEQs still to be replayed, and replays in succession without ASEQ advancing (R295). -/
  again   : List Nat := []
  replays : Nat := 0
  nakGot  : Bool := false
  nakDue  : Bool := false
  /-- One more than the fc in which NAK was last set (R294). -/
  nakFc   : Nat := 0
  /-- Good frames in succession in ALIGN, the word alignment that is tried, and the frames it has been kept (R298). -/
  good    : Nat := 0
  align   : Nat := 0
  alignN  : Nat := 0
  /-- Frames sent and received since ALIGN (R307), and the fc in which the last frame ended. -/
  txN     : Nat := 0
  rxN     : Nat := 0
  frameFc : Nat := 0
  /-- The last frame sent: what the peer sees. -/
  out     : Option Frame := none
  /-- LRM_TX_APPLY and LRM_RX_APPLY: the last frame sent, or received, is the first on a new lane map (R307). -/
  txApply : Bool := false
  rxApply : Bool := false
  /-- Credits held for the peer's nine pools, the sizes of those pools, and credits owed to the peer (R296). -/
  cred    : Tbl Nat := []
  peer    : Tbl Nat := []
  owed    : Tbl Nat := []
  lastPool : Nat := 8
  /-- Slots of accepted frames that are not yet released (R292). -/
  rxq     : List SkSlot := []
  /-- Received packets in their pools in arrival order, the one still arriving, and a discard under way (R51). -/
  rx      : List SkRx := []
  rxCur   : Option SkRx := none
  rxLost  : Nat := 0
  /-- The entering scheduled reservation, and the packet whose flits leave it: its header and its next flit (R152). -/
  sched   : List SkSched := []
  schCur  : Option (BitVec 128 × Nat × Nat) := none
  /-- One more than the p_b last given to a packet of each flow (R152). -/
  schPb   : Tbl Nat := []
  /-- Packets of which a scheduled flit has been taken for the peer and others are to come: the header, and the fc by which
  the last departs (R308). -/
  schOpen : List (BitVec 128 × Nat) := []
  /-- Scheduled flits that depart towards the peer, each with the fc of its departure (R162). -/
  schOut  : List SkSched := []
  /-- The flits still to depart of the dynamic packet under way (R291). -/
  txCur   : List Flit := []
  /-- Control messages waiting for a frame (R288). -/
  ctl     : List (Nat × BitVec 64) := []
  paramGot  : Bool := false
  paramSent : Bool := false
  readyGot  : Bool := false
  readySent : Bool := false
  /-- The link is closing; CLOSE has been sent; CLOSE has been received (R308). -/
  closing : Bool := false
  closeSent : Bool := false
  closeGot  : Bool := false
  /-- The last raw, the sender's position in that frame, and this side's full stamp in fc at its release (R301). -/
  raw     : Nat := 0
  txPos   : Nat := 0
  /-- δ of R302, in fc. -/
  delta   : Int := 0
  stamp   : Nat := 0
  /-- Violations reported and not yet followed by a frame within bounds: one-way, phase, stamp (R303). -/
  owBad   : Bool := false
  phBad   : Bool := false
  stBad   : Bool := false
  /-- The rotation step of this side (frame n and base, and whether LANE_GO has been sent), that of the peer (R307). -/
  step    : Option (Nat × Nat) := none
  stepGo  : Bool := false
  stepRx  : Option (Nat × Nat) := none
deriving DecidableEq, Repr, Inhabited

/-- A write-back of Gleaner on its way: the word, what Gleaner read there, and what is to replace it (R364). -/
structure GlnBack where
  table : GlnTable   := .routeStore
  bank  : Nat        := 0
  idx   : Nat        := 0
  old   : BitVec 144 := 0
  new   : BitVec 144 := 0
deriving DecidableEq, Repr, Inhabited

/-- Foreman, Cruise, Gleaner and the clock-crossing audit (R354 to R369). -/
structure Engines where
  /-- mc in which the sweep in progress began; fabric time of the last start; sweeps made; fc of the last sample. -/
  sweepFrom : Option Nat := none
  lastSweep : BitVec 96 := 0
  sweeps    : Nat := 0
  sampleFc  : Nat := 0
  /-- Authority in force (R357), and whether a sweep awaits its evaluation. -/
  auth      : Nat := 0
  evalDue   : Bool := false
  /-- Sweeps in succession with G at or above util_hi, and at or below util_lo (R360). -/
  hiCnt     : Nat := 0
  loCnt     : Nat := 0
  /-- The last value a master other than Foreman wrote to a register, and the last sweep for which Foreman is blocked from
  it (R358). -/
  nominal   : Tbl (Option Word) := []
  blocked   : Tbl Nat := []
  /-- The variant sequence (R360): 0 none, 1 the load is in progress, 2 it has ended LOADED; and the last sweep in which
  no variant is chosen (R361). -/
  varStep   : Nat := 0
  varUntil  : Nat := 0
  /-- In the interval since the last sweep: BACKOFF answers of each NI, fc in which output 8 k + o carried a dynamic flit,
  and the greatest AGE of a head flit at each router (R355). -/
  boSent    : Tbl Nat := []
  carried   : Tbl Nat := []
  ageTop    : Tbl Nat := []
  /-- Decision-log entries that wait for a Ledger entry (R362). -/
  logOut    : List (BitVec 256) := []
  /-- Words read in the present pass of each structure, the mc of its start, and each bank's queue of reports (R363,
  R365). -/
  glnRead   : Tbl Nat := []
  glnStart  : Tbl Nat := []
  glnQueue  : Tbl (List Nat) := []
  /-- Write-backs that Gleaner has begun (R364). -/
  glnWb     : List GlnBack := []
  /-- Crossing 2 n + dir has a violation reported and not yet followed by a measurement within bounds (R367). -/
  audBad    : Tbl Bool := []
  /-- One above the fc of each crossing's last measurement (R367). -/
  audFc     : Tbl Nat := []
  /-- The fc until which the pointers of all data crossings are resynchronised after a warm reset (R408). -/
  syncFc    : Nat := 0
deriving DecidableEq, Repr, Inhabited

/-- A distributed Tally command on its way (R378): freeze, unfreeze or snapshot; the copies of a snapshot taken in the mc of
a clr_all are zero (R387). -/
inductive TlyCmd where
  | freeze | unfreeze | snapshot | snapZero
deriving DecidableEq, Repr, Inhabited

/-- A captured probe record before its sequence number and gap are given (R382). -/
structure PRec where
  hdr  : BitVec 128 := 0
  t    : Nat        := 0
  pos  : Nat        := 0
  /-- The point of the probe at the capture, as its `where` word has it. -/
  at_  : Nat        := 0
  full : Bool       := false
  sc   : BitVec 128 := 0
  data : BitVec 512 := 0
  chk  : BitVec 64  := 0
deriving DecidableEq, Repr, Inhabited

/-- What the last wrap of a counter in a cycle did beside its value, until the cycle has passed: the carry into the counter
above it, and whether it set ovf, the bit of TLY_OVF and the page's interrupt bit (R374, R376). -/
structure Wrap where
  /-- One more than the fc, or mc for a global counter. -/
  at_   : Nat  := 0
  carry : Nat  := 0
  ovf   : Bool := false
  bit   : Bool := false
  irq   : Bool := false
deriving DecidableEq, Repr, Inhabited

/-- Tally and its probes (R372 to R388) beside the counters, which are in the live-counter window. -/
structure Tally where
  /-- Commands on the distribution path, oldest first, with the mc of the write that sent each (R378). -/
  cmds    : List (TlyCmd × Nat) := []
  /-- Commands whose common fc C is the next one, and those that the global counters have still to act on (R378). -/
  acting  : List TlyCmd := []
  actingG : List TlyCmd := []
  /-- The counters of routers and NIs stand, from which fc, and the global ones do (R378). -/
  frozen  : Bool := false
  frozenFc : Nat := 0
  frozenG : Bool := false
  /-- mc of the C of a snapshot whose copies are being written; none when none is in progress. -/
  snapAt  : Option Nat := none
  /-- One more than the mc of the last clr_all (R387). -/
  clrMc   : Nat := 0
  /-- Wraps of the present cycle, by counter. -/
  wraps   : Tbl Wrap := []
  /-- By tile that is not OPEN, the filter words written since, as its copies still have them (R317, R380). -/
  filt    : Tbl (Tbl Word) := []
  /-- Each master's staged val_lo, with the counter it was staged for. -/
  stage   : Tbl (Option (Nat × Word)) := []
  /-- Buffered records of each probe, and the headers of packets whose flits it is recording in FULL mode. -/
  buf     : Tbl (List PRec) := []
  cur     : Tbl (List (BitVec 128)) := []
  /-- The recording mode that each probe's ring was last written in, 0 for none (R382). -/
  ringMode : Tbl Nat := []
  /-- Records written since PRB_CTRL was written, and records dropped since the last written (R384, R385). -/
  wrote   : Tbl Nat := []
  gap     : Tbl Bool := []
  /-- One more than the fc in which an event that an fc counts at most once was last counted, by 128 × code + NI (R379). -/
  once    : Tbl Nat := []
  /-- One more than the fc of each probe's last record (R385). -/
  recFc   : Tbl Nat := []
  /-- Reads of the route store's banks that are not over: fc, cluster and sub-array (R58). -/
  reads   : List (Nat × Nat × Nat) := []
deriving DecidableEq, Repr, Inhabited

/-- What the present management cycle has seen: the register bits that hardware set in it (R12), and the registers that an
MNI requested in it (R280). Marks of an earlier mc count no more. -/
structure McMarks where
  mc  : Nat := 0
  hw  : Tbl Word := []
  req : List Nat := []
deriving DecidableEq, Repr, Inhabited

/-- What a word was at the start of the fc and of the mc in which a write last changed it; `fc` and `mc` are one above those
(R330, R351, R374, R387, R476). -/
structure Was where
  fc    : Nat  := 0
  fcOld : Word := 0
  mc    : Nat  := 0
  mcOld : Word := 0
deriving DecidableEq, Repr, Inhabited

/-- What the rules on events of one cycle need to know of the cycle's earlier events (R12, R280, R330, R351, R374, R410, R437). -/
structure Notes where
  marks   : McMarks := {}
  was     : Tbl Was := []
  /-- What a rule was at the start of the fc, one below the number kept, in which a commit last changed it (R330). -/
  ruleWas : Tbl (Nat × BitVec 144) := []
  /-- Of each tile's last interrupt or error pulse into MCLK, one above its fc, and its mc (R410). -/
  xing    : Tbl (Nat × Nat) := []
  /-- Of the last MODE_REQ accepted: one above its mc, and the mode it was made in (R437). -/
  modeAsked : Nat × Mode := (0, .off)
  /-- One above the mc in which a MODE_REQ was last refused, and in which an escalation last asked for RECOVERY (R437). -/
  modeRefused : Nat := 0
  escalated : Nat := 0
deriving DecidableEq, Repr, Inhabited

/-- A stop of the machine. No command of this block stops it: the constructor is for a value that no state of the
machine and no operand has (log 2). -/
inductive Fault where
  /-- Raised by no meaning; safe. -/
  | unreachable
deriving DecidableEq, Repr

/-- A refusal: a command whose meaning the model does not have. -/
inductive Refusal where
  /-- Raised by an arm of `exec` whose command has no meaning yet; safe. -/
  | notModelled (mnemonic : String)
deriving DecidableEq, Repr

/-- The state of the instance. -/
structure State where
  /-- Commands waiting, first in first out. -/
  pending : List Instr := []
  /-- Fabric and management cycles since cold reset, and the accumulators that keep the clocks in ratio. -/
  fc      : Nat := 0
  mc      : Nat := 0
  mAcc    : Nat := 0
  tAcc    : Nat := 0
  fclkMHz : Nat := 2400
  tclkMHz : Nat := 100
  /-- How many free values have been drawn (log 1). -/
  draws   : Nat := 0
  time    : FTime := {}
  /-- Pins: attached units, resets, power, eFuse array and its programming pin. -/
  niAlive    : BitVec 80 := 0
  quiesceAck : BitVec 80 := 0
  quiesceReq : BitVec 80 := 0
  pwrOk   : Bool := false
  held    : Option ResetKind := none
  /-- A cold reset is asserted; a warm reset is asserted. -/
  coldPin : Bool := false
  warmPin : Bool := false
  efuse   : FuseImage := {}
  /-- The shadow that FUSE loads from the array (R430). -/
  fuseShadow : FuseImage := {}
  /-- What the last test instruction shifted out (R425, R496): on TDO, none while it is at high impedance, and on WSO. -/
  tdo     : Option (BitVec 64) := none
  wso     : BitVec 64 := 0
  mode    : Mode := .off
  change  : Option Change := none
  frozenAt : Option Nat := none
  testLock : Bool := false
  regs    : Tbl Word := []
  latches : Tbl (Option Word) := []
  notes   : Notes := {}
  hlPend  : List HlPend := []
  hung    : List Nat := []
  hlAns   : Tbl (List HlAnswer) := []
  banks   : Tbl Pool := []
  rules   : Pool := {}
  sw      : Switch := {}
  loader  : Loader := {}
  flows   : Tbl (BitVec 256) := []
  /-- PART_SHARE.rate of each partition as sampled at the frame's start (R336). -/
  shRate  : Tbl Nat := []
  ni      : Tbl Ni := []
  rtr     : Tbl Rtr := []
  links   : Tbl (List Fly) := []
  creds   : Tbl (List (Nat × Nat)) := []
  lni     : Lni := {}
  skw     : Tbl Skw := []
  parts   : Tbl Part := []
  boom    : Tbl Boom := []
  /-- ARG of the BOOM_EVT packets still to be sent (R404). -/
  boomEvts : List (BitVec 68) := []
  /-- MCLK has stopped and has not returned (R412). -/
  mclkOff : Bool := false
  /-- mc at which a warm reset by RST_CTRL.warm is released (R426). -/
  warmUntil : Option Nat := none
  jq      : List JEntry := []
  jring   : Tbl JEntry := []
  jgap    : Bool := false
  /-- One above the mc of the Journal writer's last entry (R451). -/
  jmc     : Nat := 0
  due     : List DueFault := []
  wins    : List EscWindow := []
  escWait : List Nat := []
  eng     : Engines := {}
  tally   : Tally := {}
deriving DecidableEq, Repr, Inhabited

/-- The state in cold reset with PWR_OK high and RST_COLD_N low: mode COLD, every register at its reset value and
every table empty (R426, R438, R481). -/
def State.reset : State := { pwrOk := true, held := some .cold, coldPin := true, mode := .cold }

end Sys2Proof.Machine
end

