-- ==== Sys2Proof/Machine/Operands.lean ====
section
/-! DEFINITION. The operand forms: the shared codes, the fields of a header and of each class's sidecar, the pages and
windows of the aperture, and the reset value and write masks of a register. -/

namespace Sys2Proof.Machine

/-! The shared error codes (R440) -/

abbrev OK : Code := 0x00
/-- A code that the fabric produces: 0x10 to 0xFF never are (R440). -/
def codeOk (c : Code) : Bool := decide (c.toNat < 16)
abbrev DECODE : Code := 0x01
abbrev RULE : Code := 0x02
abbrev FENCED : Code := 0x03
abbrev POISON : Code := 0x04
abbrev TIMEOUT : Code := 0x05
abbrev SIZE : Code := 0x06
abbrev FAR : Code := 0x07
abbrev SQUASH : Code := 0x08
abbrev RETRY : Code := 0x09
abbrev BACKOFF : Code := 0x0A
abbrev PARTIAL : Code := 0x0B
abbrev LINK : Code := 0x0C
abbrev HANG_ABORT : Code := 0x0D
abbrev SCHED_VIOLATION : Code := 0x0E
abbrev RESV_LOST : Code := 0x0F

/-! Message classes (R34) -/

abbrev cREQ : BitVec 4 := 0
abbrev cRWD : BitVec 4 := 1
abbrev cNDR : BitVec 4 := 2
abbrev cDRS : BitVec 4 := 3
abbrev cIOC : BitVec 4 := 4
abbrev cBSNP : BitVec 4 := 5
abbrev cBRSP : BitVec 4 := 6
abbrev cIOP : BitVec 4 := 7
abbrev cION : BitVec 4 := 8
abbrev cMGT : BitVec 4 := 9

/-- The virtual network of a class (R34). -/
def vnOf (c : BitVec 4) : Nat :=
  match c.toNat with
  | 0 => 0 | 1 => 1 | 2 | 3 | 4 => 2 | 5 => 3 | 6 => 4 | 7 => 5 | 8 => 6 | _ => 7

/-- Largest LEN of a class (R34). -/
def maxLen (c : BitVec 4) : Nat :=
  match c.toNat with | 1 | 3 | 4 | 7 => 7 | _ => 0

/-! The header (R29) -/

def hCls (h : BitVec 128) : BitVec 4 := h.extractLsb' 0 4
def hVn (h : BitVec 128) : Nat := getBits h 6 4
def hSch (h : BitVec 128) : Bool := bit h 7
def hFlow (h : BitVec 128) : BitVec 12 := h.extractLsb' 8 12
def hPart (h : BitVec 128) : BitVec 9 := h.extractLsb' 20 9
def hSrc (h : BitVec 128) : NodeId := h.extractLsb' 29 10
def hDst (h : BitVec 128) : NodeId := h.extractLsb' 39 10
def hRoute (h : BitVec 128) : BitVec 36 := h.extractLsb' 49 36
def hHop (h : BitVec 128) : Nat := getBits h 88 85
def hTag (h : BitVec 128) : BitVec 12 := h.extractLsb' 89 12
def hLen (h : BitVec 128) : Nat := getBits h 103 101
def hAge (h : BitVec 128) : Nat := getBits h 111 104
def hSeq (h : BitVec 128) : BitVec 16 := h.extractLsb' 112 16
/-- Route select `i` (R29). -/
def hSel (h : BitVec 128) (i : Nat) : Nat := getBits h (51 + 3 * i) (49 + 3 * i)

/-- A header with HOP, AGE and SEQ zero. -/
def mkHdr (cls : BitVec 4) (sch : Bool) (flow : BitVec 12) (part : BitVec 9) (src dst : NodeId) (route : BitVec 36)
    (tag : BitVec 12) (len : Nat) : BitVec 128 :=
  BitVec.ofNat 128 (cls.toNat + vnOf cls * 2 ^ 4 + flag sch * 2 ^ 7 + flow.toNat * 2 ^ 8 + part.toNat * 2 ^ 20 +
    src.toNat * 2 ^ 29 + dst.toNat * 2 ^ 39 + route.toNat * 2 ^ 49 + tag.toNat * 2 ^ 89 + len % 8 * 2 ^ 101)

def setRoute (h : BitVec 128) (r : BitVec 36) : BitVec 128 := putBits h 84 49 r.toNat
def setHop (h : BitVec 128) (n : Nat) : BitVec 128 := putBits h 88 85 n
def setAge (h : BitVec 128) (n : Nat) : BitVec 128 := putBits h 111 104 n
def setSeq (h : BitVec 128) (q : BitVec 16) : BitVec 128 := putBits h 127 112 q.toNat
def setSch (h : BitVec 128) (b : Bool) : BitVec 128 := putBits h 7 7 (flag b)
def setSrc (h : BitVec 128) (d : NodeId) : BitVec 128 := putBits h 38 29 d.toNat
def setDst (h : BitVec 128) (d : NodeId) : BitVec 128 := putBits h 48 39 d.toNat
def setPart (h : BitVec 128) (p : BitVec 9) : BitVec 128 := putBits h 28 20 p.toNat
def setTag (h : BitVec 128) (t : BitVec 12) : BitVec 128 := putBits h 100 89 t.toNat
def setLen (h : BitVec 128) (n : Nat) : BitVec 128 := putBits h 103 101 n

/-- The tag names a posted entry (R31). -/
def tagPosted (t : BitVec 12) : Bool := bit t 11
/-- The key of the Ledger entry a tag names: 0 to 255 non-posted, 256 to 767 posted (R31). -/
def tagKey (t : BitVec 12) : Nat := if tagPosted t then 256 + getBits t 8 0 else getBits t 7 0
/-- The tag of a Ledger entry (R31). -/
def keyTag (k : Nat) : BitVec 12 := if k < 256 then BitVec.ofNat 12 k else BitVec.ofNat 12 (2048 + (k - 256))

/-- Die and NI index of a node ID (R17). -/
def nodeDie (n : NodeId) : Nat := getBits n 9 7
def nodeNi (n : NodeId) : Nat := getBits n 6 0
def mkNode (die ni : Nat) : NodeId := BitVec.ofNat 10 (die % 8 * 128 + ni % 128)
/-- A request is privileged when its SRC names an MNI on any die (R322). -/
def privileged (src : NodeId) : Bool := 76 ≤ nodeNi src && nodeNi src ≤ 79

/-! The sidecar (R40, R42) -/

def sOpc (x : BitVec 128) : BitVec 8 := x.extractLsb' 116 8
def sFidx (x : BitVec 128) : Nat := getBits x 126 124
def sPsn (x : BitVec 128) : Bool := bit x 127
def setOpc (x : BitVec 128) (o : BitVec 8) : BitVec 128 := putBits x 123 116 o.toNat
def setFidx (x : BitVec 128) (i : Nat) : BitVec 128 := putBits x 126 124 i
def setPsn (x : BitVec 128) (b : Bool) : BitVec 128 := putBits x 127 127 (flag b)
/-- ADDR[51:6] in place, REQ, RWD and BSNP. -/
def sAddr (x : BitVec 128) : BitVec 52 := BitVec.ofNat 52 (getBits x 51 6 * 64)
def setAddr (x : BitVec 128) (a : BitVec 52) : BitVec 128 := putBits x 51 6 (a.toNat / 64)
def sRlen (x : BitVec 128) : Nat := getBits x 54 52
def setRlen (x : BitVec 128) (n : Nat) : BitVec 128 := putBits x 54 52 n
def sBmask (x : BitVec 128) : BitVec 64 := x.extractLsb' 52 64
def setBmask (x : BitVec 128) (m : BitVec 64) : BitVec 128 := putBits x 115 52 m.toNat
/-- METAFIELD, METAVALUE and TC of REQ and RWD. -/
def sMeta (x : BitVec 128) : BitVec 6 := x.extractLsb' 0 6
/-- STATUS of NDR, DRS, IOC and BRSP. -/
def sStatus (x : BitVec 128) : Code := x.extractLsb' 0 8
def setStatus (x : BitVec 128) (c : Code) : BitVec 128 := putBits x 7 0 c.toNat
def sLoad (x : BitVec 128) : BitVec 8 := x.extractLsb' 8 8
def setLoad (x : BitVec 128) (l : Nat) : BitVec 128 := putBits x 15 8 l
def sRaddr (x : BitVec 128) : BitVec 46 := x.extractLsb' 20 46
def setRaddr (x : BitVec 128) (r : BitVec 46) : BitVec 128 := putBits x 65 20 r.toNat
/-- CXL.io fields of IOP and ION. -/
def sAddr64 (x : BitVec 128) : BitVec 64 := x.extractLsb' 0 64
def sTc (x : BitVec 128) : Nat := getBits x 66 64
def sAttr (x : BitVec 128) : BitVec 3 := x.extractLsb' 67 3
def sDwlen (x : BitVec 128) : Nat := getBits x 79 70
def sFbe (x : BitVec 128) : Nat := getBits x 83 80
def sLbe (x : BitVec 128) : Nat := getBits x 87 84
def sReqid (x : BitVec 128) : BitVec 16 := x.extractLsb' 88 16
/-- CXL.io fields of IOC. -/
def cBcnt (x : BitVec 128) : Nat := getBits x 19 8
def cLaddr (x : BitVec 128) : Nat := getBits x 26 20
def cCplid (x : BitVec 128) : BitVec 16 := x.extractLsb' 30 16
def cDwlen (x : BitVec 128) : Nat := getBits x 55 46
def cAttr (x : BitVec 128) : BitVec 3 := x.extractLsb' 59 3
/-- MGT fields. ARG bit j is sidecar bit 48 + j (R265). -/
def mAddr (x : BitVec 128) : BitVec 32 := x.extractLsb' 0 32
def mStatus (x : BitVec 128) : Code := x.extractLsb' 32 8
def mMid (x : BitVec 128) : BitVec 8 := x.extractLsb' 40 8
def mArg (x : BitVec 128) : BitVec 68 := x.extractLsb' 48 68
/-- An MGT sidecar (R42). -/
def mkMgt (opc : BitVec 8) (maddr : BitVec 32) (status : Code) (mid : BitVec 8) (arg : BitVec 68) : BitVec 128 :=
  BitVec.ofNat 128 (maddr.toNat + status.toNat * 2 ^ 32 + mid.toNat * 2 ^ 40 + arg.toNat * 2 ^ 48 + opc.toNat * 2 ^ 116)

/-- The bits of a class's sidecar that R42 defines, with PSN where R54 lets it be set. -/
def scDefined (cls : BitVec 4) : Nat :=
  let opcFidx : Nat := (2 ^ 11 - 1) * 2 ^ 116
  match cls.toNat with
  | 0 => 2 ^ 55 - 1 + opcFidx
  | 2 => 2 ^ 66 - 1 + opcFidx
  | 3 => 2 ^ 66 - 1 + opcFidx + 2 ^ 127
  | 4 => 2 ^ 62 - 1 + opcFidx + 2 ^ 127
  | 5 => 2 ^ 52 - 2 ^ 6 + opcFidx
  | 6 => 2 ^ 8 - 1 + opcFidx
  | 7 | 8 => 2 ^ 104 - 1 + opcFidx + 2 ^ 127
  | _ => 2 ^ 128 - 1

/-- A sidecar as its sender writes it: every reserved bit zero (R42, R54). -/
def trimSc (cls : BitVec 4) (x : BitVec 128) : BitVec 128 := x &&& BitVec.ofNat 128 (scDefined cls)

/-- A TLP is a message: its {LBE, FBE} hold the message code (R42). -/
def tlpMessage (opc : BitVec 8) : Bool := let ty := getBits opc 4 0; 0x10 ≤ ty && ty ≤ 0x17

/-- A TLP is address-routed: a memory or I/O request, or a message routed by address (R42, R65). -/
def tlpAddrRouted (opc : BitVec 8) : Bool :=
  let ty := getBits opc 4 0
  ty = 0 || ty = 1 || ty = 2 || (0xC ≤ ty && ty ≤ 0xE) || ty = 0x11 || ty = 0x1B
/-- Fmt[1]: the TLP has a payload (R319). -/
def tlpHasData (opc : BitVec 8) : Bool := bit opc 6
/-- Dwords that a TLP moves (PCIe: a length of 0 says 1024, and a message without data moves none). -/
def tlpDwords (x : BitVec 128) : Nat :=
  if tlpMessage (sOpc x) && !tlpHasData (sOpc x) then 0 else if sDwlen x = 0 then 1024 else sDwlen x

/-! Kinds of MGT opcode (R498) -/

inductive MgtKind where
  | posted | nonposted | response
deriving DecidableEq, Repr

def mgtKind (opc : BitVec 8) : MgtKind :=
  let o := opc.toNat
  if o = 0x00 || (0x10 ≤ o && o ≤ 0x17) || (0x20 ≤ o && o ≤ 0x23) || o = 0x40 then .posted
  else if o = 0x02 || o = 0x31 || o = 0x32 then .response
  else .nonposted

/-- Whether a packet with this class, opcode and tag is a response or control packet (R31, R34, R498). -/
def isResponse (cls : BitVec 4) (opc : BitVec 8) : Bool :=
  cls = cNDR || cls = cDRS || cls = cIOC || cls = cBRSP || (cls = cMGT && mgtKind opc = .response)

/-! Fabric opcodes of NDR (R41) and CXL opcodes (log 11) -/

abbrev opPACK : BitVec 8 := 0x80
abbrev opFERR : BitVec 8 := 0x81
abbrev opARB_REL : BitVec 8 := 0x82
abbrev opRSV_CLR : BitVec 8 := 0x83
/-- EH_RSP, RSV_NAK (R498). -/
abbrev opEH_RSP : BitVec 8 := 0x02
abbrev opRSV_REQ : BitVec 8 := 0x30
abbrev opRSV_GNT : BitVec 8 := 0x31
abbrev opRSV_NAK : BitVec 8 := 0x32

/-- A packet that answers a request: neither a request nor a control packet (R41). -/
def isAnswer (h sc : BitVec 128) : Bool :=
  isResponse (hCls h) (sOpc sc) && !(hCls h = cNDR && (sOpc sc = opARB_REL || sOpc sc = opRSV_CLR))

/-- A request packet that is posted: IOP, posted MGT, or a packet whose TAG names a posted entry (R31, R193). -/
def isPosted (cls : BitVec 4) (tag : BitVec 12) : Bool := tagPosted tag || cls = cIOP

/-- MemSpecRd, and its form for a trusted environment (encodings of CXL 3.1, log 11). -/
def isSpecRd (cls : BitVec 4) (opc : BitVec 8) : Bool :=
  cls = cREQ && !bit opc 7 && (getBits opc 3 0 = 8 || getBits opc 3 0 = 0xC)

/-- An RSV_REQ, which stays a non-posted request under the posted TAG of the transaction it serves (R123, R498). -/
def isRsvReq (h sc : BitVec 128) : Bool := hCls h = cMGT && sOpc sc = opRSV_REQ

/-- A request packet that draws PACK or no answer: posted, and not an RSV_REQ (R39, R124). -/
def postedPkt (h sc : BitVec 128) : Bool := isPosted (hCls h) (hTag h) && !isRsvReq h sc

/-- M2S Req opcodes that draw no completion: MemSpecRd, MemRdFwd and MemWrFwd (R499; encodings of CXL 3.1, log 11). -/
def noCompletion (cls : BitVec 4) (opc : BitVec 8) : Bool :=
  isSpecRd cls opc || (cls = cREQ && !bit opc 7 && (getBits opc 3 0 = 3 || getBits opc 3 0 = 4))

/-- M2S Req opcodes that draw data: MemRd, MemRdData, their forms for a trusted environment, and the reserved read
(R246; encodings of CXL 3.1, log 11). -/
def drawsData (opc : BitVec 8) : Bool := [1, 2, 5, 6, 0xF].contains (getBits opc 3 0)

/-- A reserved read or conditional write (R227). -/
def isResvOp (cls : BitVec 4) (opc : BitVec 8) : Bool := (cls = cREQ || cls = cRWD) && !bit opc 7 && getBits opc 3 0 = 0xF

/-- A Sheaf packet on die `die`: DST names NI index 127 of that die (R115, R117). -/
def isSheaf (die : Nat) (h : BitVec 128) : Bool := nodeNi (hDst h) = 127 && nodeDie (hDst h) = die

/-! Pages and windows of the aperture (R474, R475) -/

/-- The page and the offset of an aperture address, if an implemented page holds it (R474). -/
def pageOf (a : Nat) : Option (Page × Nat) :=
  let p := a / 0x1000
  let o := a % 0x1000
  if p = 0 then some (.global, o) else if p = 1 then some (.time, o) else if p = 2 then some (.foreman, o)
  else if p = 3 then some (.gleaner, o) else if p = 4 then some (.journal, o) else if p = 5 then some (.tally, o)
  else if p = 6 then some (.power, o) else if p = 7 then some (.sched, o)
  else if h : 0x100 ≤ p ∧ p < 0x157 then some (.ni ⟨p - 0x100, by omega⟩, o)
  else if h : 0x200 ≤ p ∧ p < 0x238 then some (.router ⟨p - 0x200, by omega⟩, o)
  else if h : 0x300 ≤ p ∧ p < 0x306 then some (.skidway ⟨p - 0x300, by omega⟩, o)
  else if h : 0x340 ≤ p ∧ p < 0x348 then some (.cluster ⟨p - 0x340, by omega⟩, o)
  else if h : 0x1000 ≤ p ∧ p < 0x1200 then some (.partition ⟨p - 0x1000, by omega⟩, o)
  else none

/-- The base address of a page (R474). -/
def pageBase : Page → Nat
  | .global => 0x0000 | .time => 0x1000 | .foreman => 0x2000 | .gleaner => 0x3000 | .journal => 0x4000
  | .tally => 0x5000 | .power => 0x6000 | .sched => 0x7000
  | .ni n => 0x100000 + 0x1000 * n.val
  | .router k => 0x200000 + 0x1000 * k.val
  | .skidway s => 0x300000 + 0x1000 * s.val
  | .cluster c => 0x340000 + 0x1000 * c.val
  | .partition p => 0x1000000 + 0x1000 * p.val

/-- The power domain that holds a page (R474). -/
def pageDomain : Page → Nat
  | .time | .power => 62
  | .ni n => Config.niRouter n.val
  | .router k => k.val
  | .skidway s => 56 + s.val
  | _ => 63

/-- The table windows (R475). -/
inductive Window where
  | routeStore (bank entry : Nat)
  | slot (k : Nat)
  | inject (n : Nat)
  | rule (i : Nat)
  | queue (q : Nat)
  | counter (i : Nat)
  | snapshot (i : Nat)
deriving DecidableEq, Repr

/-- The window entry that an aperture address belongs to, if it holds one (R475, R89, R141, R159, R184, R374, R375). -/
def windowOf (a : Nat) : Option Window :=
  if a < 0x2000000 then none
  else if a < 0x2400000 then some (.routeStore ((a - 0x2000000) / 0x80000) ((a - 0x2000000) % 0x80000 / 0x20))
  else if a < 0x24E0000 then some (.slot ((a - 0x2400000) / 0x4000))
  else if a < 0x2500000 then none
  else if a < 0x265C000 then some (.inject ((a - 0x2500000) / 0x4000))
  else if a < 0x2800000 then none
  else if a < 0x2840000 then some (.rule ((a - 0x2800000) / 0x20))
  else if a < 0x2C00000 then none
  else if a < 0x2C40000 then some (.queue ((a - 0x2C00000) / 16))
  else if a < 0x3000000 then none
  else if a < 0x3004F80 then some (.counter ((a - 0x3000000) / 16))
  else if a < 0x3008000 then none
  else if a < 0x300A7C0 then some (.snapshot ((a - 0x3008000) / 8))
  else none

/-- The block type code of a page (R466, R474). -/
def pageType : Page → Nat
  | .global => 1 | .time => 2 | .foreman => 3 | .gleaner => 4 | .journal => 5 | .tally => 6 | .power => 7 | .sched => 8
  | .ni n => (match Config.niKind n.val with | .pni => 0x10 | .sni => 0x11 | .mni => 0x12 | .lni => 0x13 | .kni => 0x14)
  | .router _ => 0x20 | .skidway _ => 0x18 | .cluster _ => 0x28 | .partition _ => 0x30

/-- The instance index of a page (R466). -/
def pageInst : Page → Nat
  | .ni n => n.val | .router k => k.val | .skidway s => s.val | .cluster c => c.val | .partition p => p.val | _ => 0

/-- Last implemented offset of a page (R474). -/
def pageTop : Page → Nat
  | .global => 0x328 | .time => 0x150 | .foreman => 0xADC | .gleaner => 0x114 | .journal => 0x188 | .tally => 0xBE8
  | .power => 0x15C | .sched => 0x9FC | .ni _ => 0xAFC | .router _ => 0x5FC | .skidway _ => 0x160 | .cluster _ => 0x104
  | .partition _ => 0x220

/-- Pages of the block type of a page (R474). -/
def pageCount : Page → Nat
  | .ni n => (match Config.niKind n.val with | .pni => 64 | .sni => 12 | .mni => 4 | .lni => 1 | .kni => 6)
  | .router _ => 56 | .skidway _ => 6 | .cluster _ => 8 | .partition _ => 512 | _ => 1

/-- PAGE_CAP1 (R467). -/
def pageCap1 : Page → Nat
  | .ni n => Config.niRouter n.val * 2 ^ 8 + flag (Config.hasLedger n.val) * 2 ^ 16 + flag (Config.hasLedger n.val) * 2 ^ 17
  | .router k => k.val + k.val / 7 * 2 ^ 8 + k.val % 7 * 2 ^ 12
  | .skidway s => s.val + (7 * s.val + 6) * 2 ^ 8
  | .cluster c => c.val
  | .partition p => p.val
  | _ => 0

/-- The block-specific interrupt bits a page has (R470). -/
def irqBits : Page → Nat
  | .global | .tally | .partition _ => 1
  | .sched => 3
  | _ => 0

/-! Registers -/

/-- The register table of a page (R481). -/
def pageRegs : Page → List RegRow
  | .global => globalRegs | .time => timeRegs | .foreman => foremanRegs | .gleaner => gleanerRegs
  | .journal => journalRegs | .tally => tallyRegs | .power => powerRegs | .sched => schedRegs
  | .ni _ => niRegs | .router _ => routerRegs | .skidway _ => skidwayRegs | .cluster _ => clusterRegs
  | .partition _ => partitionRegs

/-- Whether register row `r` has a copy at offset `o`. -/
def RegRow.has (r : RegRow) (o : Nat) : Bool :=
  decide (r.off ≤ o) && (o - r.off) % r.stride == 0 && decide ((o - r.off) / r.stride < r.count)

/-- The row of a list of registers at an offset. -/
def rowIn (l : List RegRow) (o : Nat) : Option RegRow := l.find? fun r => r.has o

/-- Offsets of the NI page that read zero and ignore writes in this NI kind (R237, R263, R283, R331, R462). -/
def niAbsent (n o : Nat) : Bool :=
  let k := Config.niKind n
  (0x380 ≤ o && o < 0x400 && k ≠ .pni) || (0x600 ≤ o && o ≤ 0x61C && k ≠ .lni) ||
  (0x300 ≤ o && o < 0x340 && !Config.hasLedger n) || (0x404 ≤ o && o < 0x440 && !Config.hasLedger n) ||
  (o = 0x340 && !Config.hasLedger n)

/-- The row of the register at an offset of a page, if it is implemented there. -/
def rowAt (p : Page) (o : Nat) : Option RegRow :=
  if o < 0x100 then rowIn commonRegs o
  else match p with
    | .ni n => if niAbsent n.val o then none else rowIn niRegs o
    | _ => rowIn (pageRegs p) o

/-- Reset values of the NI page that depend on the NI kind (R481). ARB_SEED takes the node ID with the die number the
fuses give; it is kept apart (the arbiter's LFSR). -/
def niResetByKind (n o : Nat) : Option Nat :=
  let k := Config.niKind n
  let pick (a b c d : Nat) : Nat := match k with | .pni | .sni => a | .mni => b | .lni => c | .kni => d
  match o with
  | 0x240 => some (Config.granCap n)
  | 0x244 => some (pick 0x00800040 0x00100010 0x00080008 0x00400020)
  | 0x248 => some (pick 0x00200200 0x00080060 0x00040020 0x001000C0)
  | 0x24C => some (pick 0x00400020 0x00100008 0x00100004 0x00200010)
  | 0x250 => some (pick 0x00200020 0x00200010 0x00100008 0x00200010)
  | 0x254 => some (pick 0x00000020 0x00000020 0x00000010 0x00000020)
  | 0x288 => some (Config.injCap n)
  | _ => none

/-- The reset value of the register at an offset of a page (R465 to R467, R481). -/
def pageReset (p : Page) (o : Nat) : Nat :=
  match rowAt p o with
  | none => 0
  | some r =>
    if o < 0x100 then
      match o with
      | 0x000 => pageType p * 2 ^ 24 + pageInst p * 2 ^ 8 + 1
      | 0x008 => pageDomain p + pageCount p * 2 ^ 8 + pageTop p * 2 ^ 18
      | 0x00C => pageCap1 p
      | _ => r.reset
    else match p with
      | .ni n => (niResetByKind n.val o).getD r.reset
      | .router k =>
        if o = 0x100 then (if k.val = 48 then 0x07 else if k.val % 7 < 4 then 0x28 else 0x18)
        else if o = 0x104 then (if k.val = 48 then 0x2AAA else if k.val % 7 < 4 then 0xAAA5 else 0xAAA9)
        else r.reset
      | .skidway _ => if 0x140 ≤ o then [0x20, 0x60, 0xC0, 0x10, 0x10, 0x30, 0x10, 0x20, 0x20].getD ((o - 0x140) / 4) 0
                      else r.reset
      | _ => r.reset

/-- What an aperture address reads as before anything is written to it (R474, R475, R481). -/
def resetWord (a : Nat) : Word :=
  match pageOf a with
  | some (p, o) => BitVec.ofNat 32 (pageReset p o)
  | none => match windowOf a with
    | some (.counter _) => if a % 16 = 8 then 0x00080000 else 0
    | _ => 0

/-- The bits of a register row that have type `ty`. -/
def RegRow.mask (r : RegRow) (ty : FieldType) : Word :=
  BitVec.ofNat 32 (r.fields.foldl (fun m f => if f.ty = ty then m ||| ((2 ^ (f.hi + 1 - f.lo) - 1) <<< f.lo) else m) 0)

/-- Bits `[hi:lo]` of a register word. -/
def RegRow.writable (r : RegRow) : Word := r.mask .rw ||| r.mask .rwl ||| r.mask .wo

/-! Byte images (R7) -/

/-- `n` little-endian bytes of a number. -/
def leBytes : Nat → Nat → List (BitVec 8)
  | 0, _ => []
  | n + 1, x => BitVec.ofNat 8 x :: leBytes n (x / 256)

/-- The number that little-endian bytes hold. -/
def leNat : List (BitVec 8) → Nat
  | [] => 0
  | b :: t => b.toNat + 256 * leNat t

/-- `n` bytes of an image from an offset, as a number; bytes past its end count as zero. -/
def imgNat (img : List (BitVec 8)) (off n : Nat) : Nat := leNat ((img.drop off).take n)

/-- One step of CRC-32C over a byte, reflected (R166). -/
def crcByte (c : Nat) (b : BitVec 8) : Nat :=
  let x := c ^^^ b.toNat
  let f (x : Nat) : Nat := if x % 2 = 1 then (x / 2) ^^^ 0x82F63B78 else x / 2
  f (f (f (f (f (f (f (f x)))))))

/-- CRC-32C of bytes (R166). -/
def crc32c (l : List (BitVec 8)) : Nat := (l.foldl crcByte 0xFFFFFFFF) ^^^ 0xFFFFFFFF

end Sys2Proof.Machine
end

