-- ==== Sys2Proof/Machine/Ops.lean ====
section
/-! DEFINITION. The named operations over the state's parts: registers and their fields, the tables of NIs, routers,
links, partitions, ports and banks, the free values, and the clocks. -/

namespace Sys2Proof.Machine

/-- What a command's meaning answers. -/
abbrev Out := Host.Outcome State Fault Refusal

/-! Registers -/

/-- The stored value of the register or window word at an aperture address. -/
def State.rd (s : State) (a : Nat) : Word := Tbl.get resetWord s.regs a
/-- The state with a stored register word replaced. -/
def State.wr (s : State) (a : Nat) (v : Word) : State := { s with regs := Tbl.set resetWord a v s.regs }
/-- Field `[hi:lo]` of a register. -/
def State.fld (s : State) (a hi lo : Nat) : Nat := getBits (s.rd a) hi lo
/-- Bit `i` of a register. -/
def State.rbit (s : State) (a i : Nat) : Bool := bit (s.rd a) i
/-- The state with field `[hi:lo]` of a register replaced. -/
def State.setFld (s : State) (a hi lo v : Nat) : State := s.wr a (putBits (s.rd a) hi lo v)
/-- The marks of the present mc (R12, R280). -/
def State.marksNow (s : State) : McMarks := if s.notes.marks.mc = s.mc then s.notes.marks else { mc := s.mc }
/-- The state with the marks of the present mc replaced. -/
def State.setMarks (s : State) (m : McMarks) : State := { s with notes := { s.notes with marks := m } }
/-- The bits of a register that hardware has set in this mc (R12). -/
def State.hwBits (s : State) (a : Nat) : Word := Tbl.get (fun _ => 0) s.marksNow.hw a
/-- Hardware sets bit `i` of a register. -/
def State.setBit (s : State) (a i : Nat) : State :=
  (s.setFld a i i 1).setMarks { s.marksNow with hw := Tbl.upd (fun _ => 0) a (· ||| BitVec.ofNat 32 (2 ^ i)) s.marksNow.hw }
/-- A write of ones to W1C bits clears those that hardware has not set in the same mc (R12). -/
def State.w1c (s : State) (a : Nat) (v : Word) : State := s.wr a (s.rd a &&& ~~~ (v &&& ~~~ s.hwBits a))
/-- A word is about to be changed by a write: its value at the start of this fc and of this mc is kept. -/
def State.keepWas (s : State) (a : Nat) : State :=
  let w := Tbl.get (fun _ => {}) s.notes.was a
  let w : Was := { fc := s.fc + 1, fcOld := if w.fc = s.fc + 1 then w.fcOld else s.rd a,
                   mc := s.mc + 1, mcOld := if w.mc = s.mc + 1 then w.mcOld else s.rd a }
  { s with notes := { s.notes with was := Tbl.set (fun _ => {}) a w s.notes.was } }
/-- A write has changed the word in this fc. -/
def State.newFc (s : State) (a : Nat) : Bool := (Tbl.get (fun _ => {}) s.notes.was a).fc = s.fc + 1
/-- A write has changed the word in this mc. -/
def State.newMc (s : State) (a : Nat) : Bool := (Tbl.get (fun _ => {}) s.notes.was a).mc = s.mc + 1
/-- The word before any write of this fc. -/
def State.rdFc (s : State) (a : Nat) : Word := if s.newFc a then (Tbl.get (fun _ => {}) s.notes.was a).fcOld else s.rd a
/-- The word before any write of this mc. -/
def State.rdMc (s : State) (a : Nat) : Word := if s.newMc a then (Tbl.get (fun _ => {}) s.notes.was a).mcOld else s.rd a
/-- The state with bit `i` of a register cleared. -/
def State.clrBit (s : State) (a i : Nat) : State := s.setFld a i i 0
/-- A saturating counter field counted up by `n`. -/
def State.satFld (s : State) (a hi lo n : Nat) : State :=
  s.setFld a hi lo (min (s.fld a hi lo + n) (2 ^ (hi + 1 - lo) - 1))
/-- A wrapping counter field counted up by `n`. -/
def State.wrapFld (s : State) (a hi lo n : Nat) : State := s.setFld a hi lo (s.fld a hi lo + n)
/-- PAGE_SEQ counts an accepted write (R471). -/
def State.seq (s : State) (p : Page) : State := s.wrapFld (pageBase p + 0x30) 31 0 1
/-- The state with a table of register words written in order. -/
def State.wrAll (s : State) (l : List (Nat × Word)) : State := l.foldl (fun s (a, v) => s.wr a v) s

/-- The features by their bit of FEAT_OFFER (R4). -/
abbrev fSCHEDULED := 0
abbrev fVARIANTS := 1
abbrev fFOREMAN := 2
abbrev fSHEAF := 3
abbrev fSKIDWAY := 4
abbrev fMIGRATE := 5
abbrev fRESERVED_RW := 6
abbrev fWCB := 7
abbrev fRING := 8
abbrev fDEVLOAD := 9
abbrev fCACHE := 10
abbrev fSPRAY := 11
abbrev fLANE := 12
/-- Feature `i` is active (R5). -/
def State.feat (s : State) (i : Nat) : Bool := s.rbit FEAT_ACTIVE_LO i

/-- The die number that the fuses gave (R18). -/
def State.die (s : State) : Nat := s.fld FUSE_STAT 2 0
/-- The node ID of NI `n` of this die (R17). -/
def State.node (s : State) (n : Nat) : NodeId := mkNode s.die n

/-! Free values -/

/-- The next free value (log 1). -/
def State.freeNow (s : State) : BitVec 64 := Config.freeValue s.draws
/-- The state after a free value has been drawn. -/
def State.drawn (s : State) : State := { s with draws := s.draws + 1 }

/-! The tables of parts -/

def State.niOf (s : State) (n : Nat) : Ni := Tbl.get (fun _ => {}) s.ni n
def State.setNi (s : State) (n : Nat) (x : Ni) : State := { s with ni := Tbl.set (fun _ => {}) n x s.ni }
def State.modNi (s : State) (n : Nat) (f : Ni → Ni) : State := s.setNi n (f (s.niOf n))
def State.rtrOf (s : State) (k : Nat) : Rtr := Tbl.get (fun _ => {}) s.rtr k
def State.setRtr (s : State) (k : Nat) (x : Rtr) : State := { s with rtr := Tbl.set (fun _ => {}) k x s.rtr }
def State.modRtr (s : State) (k : Nat) (f : Rtr → Rtr) : State := s.setRtr k (f (s.rtrOf k))
def State.linkOf (s : State) (l : Nat) : List Fly := Tbl.get (fun _ => []) s.links l
def State.setLink (s : State) (l : Nat) (x : List Fly) : State := { s with links := Tbl.set (fun _ => []) l x s.links }
def State.credOf (s : State) (l : Nat) : List (Nat × Nat) := Tbl.get (fun _ => []) s.creds l
def State.setCred (s : State) (l : Nat) (x : List (Nat × Nat)) : State :=
  { s with creds := Tbl.set (fun _ => []) l x s.creds }
def State.bankOf (s : State) (c : Nat) : Pool := Tbl.get (fun _ => {}) s.banks c
def State.setBank (s : State) (c : Nat) (x : Pool) : State := { s with banks := Tbl.set (fun _ => {}) c x s.banks }
def State.partOf (s : State) (p : Nat) : Part := Tbl.get (fun _ => {}) s.parts p
def State.setPart (s : State) (p : Nat) (x : Part) : State := { s with parts := Tbl.set (fun _ => {}) p x s.parts }
def State.modPart (s : State) (p : Nat) (f : Part → Part) : State := s.setPart p (f (s.partOf p))
def State.skwOf (s : State) (k : Nat) : Skw := Tbl.get (fun _ => {}) s.skw k
def State.setSkw (s : State) (k : Nat) (x : Skw) : State := { s with skw := Tbl.set (fun _ => {}) k x s.skw }
def State.modSkw (s : State) (k : Nat) (f : Skw → Skw) : State := s.setSkw k (f (s.skwOf k))
def State.boomOf (s : State) (d : Nat) : Boom := Tbl.get (fun _ => {}) s.boom d
def State.setBoom (s : State) (d : Nat) (x : Boom) : State := { s with boom := Tbl.set (fun _ => {}) d x s.boom }
def State.flowOf (s : State) (f : Nat) : BitVec 256 := Tbl.get (fun _ => 0) s.flows f
def State.setTime (s : State) (t : FTime) : State := { s with time := t }

/-- The sparse tables of an NI. -/
def Ni.led (x : Ni) (k : Nat) : LEntry := Tbl.get (fun _ => {}) x.ledger k
def Ni.setLed (x : Ni) (k : Nat) (e : LEntry) : Ni := { x with ledger := Tbl.set (fun _ => {}) k e x.ledger }
def Ni.modLed (x : Ni) (k : Nat) (f : LEntry → LEntry) : Ni := x.setLed k (f (x.led k))
def Ni.queue (x : Ni) (j : Nat) : List QItem := Tbl.get (fun _ => []) x.queues j
def Ni.setQueue (x : Ni) (j : Nat) (q : List QItem) : Ni := { x with queues := Tbl.set (fun _ => []) j q x.queues }
/-- Change one Ledger entry of NI `n`. -/
def State.modLed (s : State) (n k : Nat) (f : LEntry → LEntry) : State := s.modNi n (fun x => x.modLed k f)

/-! Modes and domains -/

/-- The code of a mode (R415). -/
def Mode.code : Mode → Nat
  | .off => 0 | .fuse => 1 | .cold => 2 | .calibrate => 3 | .reserved => 4 | .dynamic => 5 | .scheduled => 6
  | .reconfigure => 7 | .drain => 8 | .recovery => 9 | .test => 10 | .frozen => 11

/-- The mode of a code (R415). -/
def Mode.ofCode : Nat → Option Mode
  | 0 => some .off | 1 => some .fuse | 2 => some .cold | 3 => some .calibrate | 4 => some .reserved | 5 => some .dynamic
  | 6 => some .scheduled | 7 => some .reconfigure | 8 => some .drain | 9 => some .recovery | 10 => some .test
  | 11 => some .frozen | _ => none

/-- The Boom state's code (R394). -/
def BoomState.code : BoomState → Nat
  | .open_ => 0 | .fencing => 1 | .draining => 2 | .quiesced => 3 | .isolated => 4 | .off => 5 | .waking => 6

/-- The Boom state of a domain; domains 62 and 63 are always on (R389, R465). -/
def State.dom (s : State) (d : Nat) : BoomState := if d < 62 then (s.boomOf d).st else .open_

/-- Boom states in which a domain's logic is held: ISOLATED, OFF and WAKING (R397, R402, R403, R469). -/
def BoomState.cut : BoomState → Bool
  | .isolated | .off | .waking => true
  | _ => false

/-- The tile of an NI (R16). -/
def niTile (n : Nat) : Nat := Config.niRouter n

/-- The logic of tile `k` is powered and connected. -/
def State.tileOn (s : State) (k : Nat) : Bool := !(s.dom k).cut

/-- FCLK has been seen stopped and has not been reported back (R411). -/
def State.fclkDead (s : State) : Bool := s.rbit CLK_STAT 0

/-- Traffic of tile `k` runs: out of reset, powered, FCLK present, not FROZEN. -/
def State.runs (s : State) (k : Nat) : Bool :=
  s.held.isNone && s.tileOn k && !s.fclkDead && s.mode != .frozen && s.mode != .off && s.mode != .fuse

/-- An operation of tile `k`, done only while its traffic runs. -/
def State.atTile (s : State) (k : Nat) (f : State → State) : State := if s.runs k then f s else s

/-! Time stamps -/

/-- Fabric time as the Journal writes it: nanoseconds and sixteen fraction bits (R449). -/
def State.stamp (s : State) : BitVec 80 := s.time.now.extractLsb' 16 80
/-- Fabric time in whole nanoseconds. -/
def State.nowNs (s : State) : Nat := s.time.now.toNat / 2 ^ 32

/-- fc of one mc of management time, rounded up (R7: MCLK runs at 800 MHz). -/
def State.mcToFc (s : State) (n : Nat) : Nat := ceilDiv (n * s.fclkMHz) 800

/-- The low part of a sum of fields given as (value, lowest bit). -/
def packFields (l : List (Nat × Nat)) : Word := BitVec.ofNat 32 ((l.map fun (v, i) => v * 2 ^ i).sum)

end Sys2Proof.Machine
end

