-- ==== Sys2Proof/Machine/Flags.lean ====
section
/-! DEFINITION. The error and interrupt flags every page has (R456, R457, R470, R477), the Journal's intake queue (R448,
R451) and the faults that wait for the ladder (R458). -/

namespace Sys2Proof.Machine

/-! Page errors and interrupts -/

/-- PAGE_ERR_FIRST of the page at `a` is loaded with bit `b` (R456). -/
def State.firstErr (s : State) (a b : Nat) : State := s.wr (a + 0x20) (BitVec.ofNat 32 (b + s.nowNs / 1024 % 2 ^ 24 * 256))

/-- Bit `b` of a page's PAGE_ERR, with the first error kept (R456). Bits that a write has cleared in this mc count as still
set: PAGE_ERR never reads zero (R476). -/
def State.errBit (s : State) (p : Page) (b : Nat) : State :=
  let a := pageBase p
  let err := s.rd (a + 0x18) ||| s.rdMc (a + 0x18)
  let s := if err = 0 then s.firstErr a b
    else if bit err b then s else s.satFld (a + 0x20) 7 5 1
  s.setBit (a + 0x18) b

/-! Faults for the ladder -/

/-- A fault event becomes due for the ladder; `cause` is not 0 for one that the ladder itself journals (R458). -/
def State.ladder (s : State) (it : FaultItem) (cause who : Nat) : State :=
  { s with due := s.due ++ [{ item := it, cause := cause, who := who }] }

/-- A fault of the tile of router `k`. -/
def State.tileFault (s : State) (k cause who : Nat) : State := s.ladder (.tile (Fin.ofNat 56 k)) cause who
/-- A fault of partition `p`. -/
def State.partFault (s : State) (p : BitVec 9) : State := s.ladder (.partition p) 0 0

/-! Pulses into MCLK -/

/-- An interrupt or error pulse of a page crosses into MCLK (R406, R410): one of a tile that comes less than 3 mc after the
pulse before it merges with that, the overrun is flagged, and it is a fault of the tile when its flag was clear (R458).
DEDUCED (log 93): pulses of one fc are one event. -/
def State.pulse (s : State) (p : Page) : State :=
  let k := pageDomain p
  if 56 ≤ k then s
  else
    let last := Tbl.get (fun _ => (0, 0)) s.notes.xing k
    let s := { s with notes := { s.notes with xing := Tbl.set (fun _ => (0, 0)) k (s.fc + 1, s.mc) s.notes.xing } }
    if last.1 = 0 || last.1 = s.fc + 1 || last.2 + 3 ≤ s.mc then s
    else
      let a := if k < 32 then XING_OVR0 else XING_OVR1
      let s := if s.rbit a (k % 32) then s else s.tileFault k 5 k
      (s.setBit a (k % 32)).errBit .power 3

/-- Bit `b` of a page's PAGE_ERR is set (R456). -/
def State.pageErr (s : State) (p : Page) (b : Nat) : State := (s.errBit p b).pulse p

/-- Interrupt bit `b` of a page is set (R470). -/
def State.pageIrq (s : State) (p : Page) (b : Nat) : State := (s.setBit (pageBase p + 0x24) b).pulse p

/-- PAGE_IRQ_STAT as a read returns it: bit 31 follows R457. -/
def State.irqStat (s : State) (p : Page) : Word :=
  let a := pageBase p
  putBit (s.rd (a + 0x24)) 31 ((s.rd (a + 0x18) &&& ~~~ s.rd (a + 0x1C)) ≠ 0)

/-- A page has a bit set in both PAGE_IRQ_STAT and PAGE_IRQ_EN; a page in ISOLATED, OFF or WAKING has none (R477). -/
def State.irqOn (s : State) (p : Page) : Bool :=
  !(s.dom (pageDomain p)).cut && (s.irqStat p &&& s.rd (pageBase p + 0x28)) ≠ 0

/-- Every page of the aperture (R474). -/
def allPages : List Page :=
  [.global, .time, .foreman, .gleaner, .journal, .tally, .power, .sched] ++
  (List.finRange 87).map .ni ++ (List.finRange 56).map .router ++ (List.finRange 6).map .skidway ++
  (List.finRange 8).map .cluster ++ (List.finRange 512).map .partition

/-- A bit of CLK_STAT or UCLK_STOP is set (R411). -/
def State.clkStopped (s : State) : Bool :=
  s.rd CLK_STAT ≠ 0 || s.rd UCLK_STOP0 ≠ 0 || s.rd UCLK_STOP1 ≠ 0 || s.rd UCLK_STOP2 ≠ 0

/-- The interrupt pin FM_IRQ_N: low while a page interrupts, while a fuse error or a stopped clock drives it (R457, R411,
R430). -/
def State.fmIrqN (s : State) : Bool := !(allPages.any s.irqOn || s.rbit FUSE_STAT 4 || s.clkStopped)

/-- The page of NI `n`. -/
def niPage (n : Nat) : Page := .ni (Fin.ofNat 87 n)
/-- The page of router `k`. -/
def rtrPage (k : Nat) : Page := .router (Fin.ofNat 56 k)
/-- The page of partition `p`. -/
def partPage (p : Nat) : Page := .partition (Fin.ofNat 512 p)
/-- The page of bank `c`. -/
def cluPage (c : Nat) : Page := .cluster (Fin.ofNat 8 c)
/-- The page of Skidway port `p`. -/
def skwPage (p : Nat) : Page := .skidway (Fin.ofNat 6 p)

/-- An error bit of an NI page (R479). -/
def State.niErr (s : State) (n b : Nat) : State := s.pageErr (niPage n) b

/-! The Journal's intake -/

/-- Where a Journal entry is written (R449). -/
def whereNi (n : Nat) : BitVec 16 := BitVec.ofNat 16 n
def whereRtr (k : Nat) : BitVec 16 := BitVec.ofNat 16 (0x1000 + k)
def whereSkw (p : Nat) : BitVec 16 := BitVec.ofNat 16 (0x2000 + p)
def whereSched : BitVec 16 := 0x3000
def whereTime : BitVec 16 := 0x4000
def whereGln : BitVec 16 := 0x5000
def wherePower : BitVec 16 := 0x6000
def whereLadder : BitVec 16 := 0x7000

/-- The Journal kinds (R450). -/
abbrev kSOURCE : BitVec 8 := 1
abbrev kENDED : BitVec 8 := 2
abbrev kTARGET : BitVec 8 := 3
abbrev kLATE : BitVec 8 := 4
abbrev kFAR : BitVec 8 := 5
abbrev kTRANSIT : BitVec 8 := 6
abbrev kSCHED : BitVec 8 := 7
abbrev kTABLE : BitVec 8 := 8
abbrev kFAULT : BitVec 8 := 9
abbrev kESCALATE : BitVec 8 := 10

/-- A Journal entry dropped: counted, flagged, and the next entry written carries gap (R451). -/
def State.jdrop (s : State) : State :=
  { (s.satFld JRN_STAT 15 0 1).pageErr .journal 0 with jgap := true }

/-- An entry goes to the 64-entry intake queue, stamped with fabric time, or is dropped (R448, R451). -/
def State.journal (s : State) (e : JEntry) : State :=
  if s.jq.length < 64 then { s with jq := s.jq ++ [{ e with t := s.stamp }] } else s.jdrop

/-- The entry for a packet discarded in transit, with its raw header (R448). The initiator and the target are those of
the request, which for an answer are its DST and SRC (R449, log 23). -/
def transitEntry (w : BitVec 16) (code : Code) (hdr sc : BitVec 128) (addr : BitVec 64) : JEntry :=
  { code := code, kind := kTRANSIT, where_ := w, part := some (hPart hdr),
    init := if isAnswer hdr sc then hDst hdr else hSrc hdr, tgt := if isAnswer hdr sc then hSrc hdr else hDst hdr,
    tag := hTag hdr, addr := addr, raw := some hdr, flow := if hSch hdr then some (hFlow hdr) else none,
    posted := tagPosted (hTag hdr), injected := true }

end Sys2Proof.Machine
end

