-- ==== Sys2Proof/Machine/RouteStore.lean ====
section
/-! DEFINITION. The route store: paths and their summaries, commits with their refusals (R89 to R92), and the lookup
(R65 to R82, R122, R396, R422). -/

namespace Sys2Proof.Machine

/-! Personality and fences -/

/-- A mode that carries traffic on the ring, given the topology setting (R120, R415). -/
def Mode.ring (topo : Bool) : Mode → Bool
  | .reserved | .recovery | .test => true
  | .dynamic => topo
  | _ => false

/-- The ring personality runs; DRAIN keeps that of the mode it was entered from (R415). -/
def State.ring (s : State) : Bool :=
  let topo := s.feat fRING && s.rbit MODE_CFG 0
  match s.mode, s.change with
  | .drain, some c => c.from_.ring topo
  | m, _ => m.ring topo

/-- Bit `k` of the fenced-router mask: tile `k` is in a Boom state other than OPEN (R77). -/
def State.fenced (s : State) (k : Nat) : Bool := s.dom k ≠ .open_

/-- The fenced-router mask (R77). -/
def State.fenceMask (s : State) : BitVec 56 :=
  BitVec.ofNat 56 (s.boom.foldl (fun m (d, b) => if d < 56 && b.st ≠ .open_ then m + 2 ^ d else m) 0)

/-! Paths -/

/-- The selects of the routes of a PATH entry (R62, R63). -/
def pathRoutes (e : BitVec 128) : List (List Nat) :=
  let nr := getBits e 125 124
  let len (i : Nat) : Nat := getBits e (123 - 4 * i) (120 - 4 * i)
  let start (i : Nat) : Nat := ((List.range i).map len).sum
  (List.range (nr + 1)).map fun i => (List.range (len i)).map fun j => getBits e (3 * (start i + j) + 2) (3 * (start i + j))

/-- A walk over the link map: the routers visited, the end NI, and the lowest refusal of R91 met (0x7, 0x8, 0x9). -/
def walk : Nat → List Nat → List Nat → List Nat × Option Nat × Nat
  | k, seen, [] => (seen ++ [k], none, 8)
  | k, seen, o :: rest =>
    let bad9 := if seen.contains k then 9 else 0
    let low (a b : Nat) : Nat := if a = 0 then b else if b = 0 then a else min a b
    match Config.port k o with
    | .none => (seen ++ [k], none, 7)
    | .ni n => if rest.isEmpty then (seen ++ [k], some n, bad9) else (seen ++ [k], none, low 8 bad9)
    | .router j =>
      if rest.isEmpty then (seen ++ [k], none, low 8 bad9)
      else let (v, e, r) := walk j (seen ++ [k]) rest; (v, e, low bad9 r)

/-- The refusal code of R91 for a PATH entry in bank `c`; 0 when it is accepted. -/
def pathRefusal (c : Nat) (e : BitVec 128) : Nat :=
  let nr := getBits e 125 124
  let len (i : Nat) : Nat := getBits e (123 - 4 * i) (120 - 4 * i)
  let lens := (List.range 4).map len
  let used := (lens.take (nr + 1)).sum
  if (lens.take (nr + 1)).any (fun l => l = 0 || l > 12) || (lens.drop (nr + 1)).any (· ≠ 0) || lens.sum > 34 then 4
  else if getBits e 101 0 / 2 ^ (3 * used) ≠ 0 then 5
  else if getBits e 107 102 / 7 ≠ c then 6
  else
    let ws := (pathRoutes e).map (walk (getBits e 107 102) [])
    let bad := (ws.map (fun w => w.2.2)).filter (· ≠ 0)
    match bad.min? with
    | some b => b
    | none => if (ws.map (fun w => w.2.1)).all (· = (ws.head?.bind (fun w => w.2.1))) then 0 else 0xA

/-- The refusal code of R91 for a commit by a master other than Gleaner; 0 when it is accepted. -/
def commitRefusal (c : Nat) (e : BitVec 128) : Nat :=
  match getBits e 127 126 with
  | 0 => 0
  | 3 => 1
  | 1 =>
    if getBits e 125 123 > 4 || getBits e 76 75 = 3 then 2
    else if getBits e 125 123 = 0 && 87 ≤ getBits e 102 96 then 3
    else 0
  | _ => pathRefusal c e

/-! The window (R89, R90) -/

/-- Words 0 to 2 staged for entry `idx`; a word staged under another index counts as zero and is a stage miss (R90).
DESIGN CHOICE (log 124): a word never staged since the last commit or reset counts as zero and is no stage miss. -/
def Stage.words (g : Stage) (idx : Nat) : List Word × Bool :=
  let look (i : Nat) : Word × Bool :=
    match Tbl.get (fun _ => none) g.w i with
    | some (t, v) => if t = idx then (v, false) else (0, true)
    | none => (0, false)
  let ws := (List.range 3).map look
  (ws.map (·.1), ws.any (·.2))

/-- A word staged under its entry index. -/
def Stage.put (g : Stage) (idx w : Nat) (v : Word) : Stage := { g with w := Tbl.set (fun _ => none) w (some (idx, v)) g.w }

/-- The stored entry of a pool. -/
def Pool.at (p : Pool) (idx : Nat) : BitVec 144 := Tbl.get (fun _ => 0) p.ent idx
/-- A pool with a stored entry replaced. -/
def Pool.put (p : Pool) (idx : Nat) (x : BitVec 144) : Pool := { p with ent := Tbl.set (fun _ => 0) idx x p.ent }

/-- The entry bits of a stored entry as a window read shows them: corrected where a single error allows (R57).
DESIGN CHOICE (log 124): an uncorrectable entry is returned and latched as its raw stored bits. -/
def shownEntry (x : BitVec 144) : BitVec 144 :=
  match (readEntry x).1 with
  | some d => (x.extractLsb' 128 16) ++ d
  | none => x

/-- A window read by master `m` of word `w` of entry `idx`: word 0 latches the whole entry (R89, R313). -/
def Pool.read (p : Pool) (m idx w : Nat) : Word × Pool :=
  let cur := shownEntry (p.at idx)
  if w = 0 then (cur.extractLsb' 0 32, { p with latch := Tbl.set (fun _ => none) m (some { idx := idx, val := cur }) p.latch })
  else
    let v := match Tbl.get (fun _ => none) p.latch m with
      | some l => if l.idx = idx then l.val else cur
      | none => cur
    if w ≤ 3 then (v.extractLsb' (32 * w) 32, p)
    else if w = 4 then ((v.extractLsb' 128 16).setWidth 32, p)
    else (0, p)

/-- The staged value a commit of word 3 makes, and whether a word staged under another index counted as zero (R90). -/
def Pool.staged (p : Pool) (idx : Nat) (v : Word) : BitVec 128 × Bool :=
  let (ws, miss) := p.stage.words idx
  (v ++ ws.getD 2 0 ++ ws.getD 1 0 ++ ws.getD 0 0, miss)

/-- A commit to a route-store bank (R90, R91, R95): the staging buffer is cleared, a refusal is recorded, and an accepted
entry is stored with its check bytes, inverted where RS_ERRINJ asks. DESIGN CHOICE (log 143): RSV bits of a DECODE entry
are stored as written. -/
def State.rsCommit (s : State) (c idx : Nat) (v : Word) : State :=
  let p := s.bankOf c
  let (e, miss) := p.staged idx v
  let a := RS_STAT c
  let s := if miss then (s.setBit a 25).pageErr (cluPage c) 1 else s
  let r := commitRefusal c e
  if r = 0 then
    s.setBank c { p.put idx (storeEntry e p.inj) with stage := {}, inj := 0 }
  else
    let s := if s.rbit a 24 then s else (s.setFld a 13 0 idx).setFld a 19 16 r
    ((s.setBit a 24).pageErr (cluPage c) 0).setBank c { p with stage := {} }

/-! Lookups -/

/-- What a lookup ends with. `idx` is none when it fails before any index is formed. -/
structure Found where
  code   : Code := 0
  idx    : Option Nat := none
  /-- The entries it has read, in order (R58). -/
  reads  : List Nat := []
  fenced : Bool := false
  dst    : NodeId := 0
  part   : Option (BitVec 9) := none
  pf     : Bool := false
  rt     : Bool := false
  route  : BitVec 36 := 0
  /-- Granule of an interleaving entry, in bytes (R76). -/
  gran   : Option Nat := none
  sprayed : Option Nat := none
  /-- Entries found with a corrected or an uncorrectable error (R57, R71). -/
  ce     : List Nat := []
  ue     : List Nat := []
deriving DecidableEq, Repr

/-- What a lookup is asked: the NI, its key, and the packet's VN, class and SCH. -/
structure Ask where
  n     : Nat
  key   : Key
  vn    : Nat
  cls   : BitVec 4
  isReq : Bool := true
  sch   : Bool := false
  /-- A reserved read or conditional write, which is never sprayed (R227). -/
  resv  : Bool := false
  mask  : BitVec 56 := 0
deriving DecidableEq, Repr

/-- The first index of a key (R67 to R69), or none when the lookup ends with DECODE before it has one. -/
def State.firstIndex (s : State) (n : Nat) : Key → Option Nat
  | .addr a =>
    let sh := s.fld (RT_ADDR_SHIFT n) 5 0
    let w := (s.fld (RT_ADDR_WIN_HI n) 19 0 * 2 ^ 32 + s.fld (RT_ADDR_WIN_LO n) 31 21 * 2 ^ 21) / 2 ^ sh * 2 ^ sh
    let q := (a.toNat - w) / 2 ^ sh
    if 21 ≤ sh && sh ≤ 40 && w ≤ a.toNat && q < s.fld (RT_ADDR_BASE n) 30 16 then some (s.fld (RT_ADDR_BASE n) 13 0 + q)
    else none
  | .pbr p => if p.toNat < s.fld (RT_PBR n) 28 16 then some (s.fld (RT_PBR n) 13 0 + p.toNat) else none
  | .node d =>
    let b := s.fld (RT_NODE n) 13 7 * 128
    if !s.rbit (RT_NODE n) 31 then none
    else if nodeDie d ≠ s.die then some (b + 120 + nodeDie d)
    else if nodeNi d ≤ 86 then some (b + nodeNi d)
    else none

/-- The code of an entry of a wrong kind (R70). -/
def kindCode (e : BitVec 128) : Code := if getBits e 127 126 = 3 then POISON else DECODE

/-- One read of a lookup: inside the carve, corrected, or the code it ends with (R66, R57, R71). -/
def State.lookRead (s : State) (n idx : Nat) (f : Found) : Found × Option (BitVec 128) :=
  let f := { f with idx := some idx, reads := f.reads ++ [idx] }
  if idx < s.fld (RT_CARVE n) 13 0 || s.fld (RT_CARVE n) 29 16 < idx then ({ f with code := DECODE }, none)
  else match readEntry ((s.bankOf (niTile n / 7)).at idx) with
    | (none, _) => ({ f with code := POISON, ue := f.ue ++ [idx] }, none)
    | (some e, c) => (if c then { f with ce := f.ce ++ [idx] } else f, some e)

/-- The leaf of a key: at most one interleaving entry before it (R70, R75). -/
def State.lookLeaf (s : State) (q : Ask) : Found × Option (BitVec 128) :=
  match s.firstIndex q.n q.key with
  | none => ({ code := DECODE }, none)
  | some i =>
    match s.lookRead q.n i {} with
    | (f, none) => (f, none)
    | (f, some e) =>
      let (f, e?) :=
        if getBits e 127 126 = 1 && getBits e 125 123 ≠ 0 then
          match q.key with
          | .addr a =>
            let ig := getBits e 122 120
            let way := a.toNat / 2 ^ (8 + ig) % 2 ^ getBits e 125 123
            let r := s.lookRead q.n (getBits e 119 106 + way) { f with gran := some (256 * 2 ^ ig) }
            match r with
            | (f, some e) => if getBits e 127 126 = 1 && getBits e 125 123 ≠ 0 then ({ f with code := DECODE }, none) else (f, some e)
            | r => r
          | _ => ({ f with code := DECODE }, none)
        else (f, some e)
      match e? with
      | none => (f, none)
      | some e =>
        if getBits e 127 126 ≠ 1 then ({ f with code := kindCode e }, none)
        else if !bit e (79 + q.vn) then ({ f with code := DECODE }, none)
        else (f, some e)

/-- The leaf's part of the header (R73). -/
def leafFields (q : Ask) (e : BitVec 128) (f : Found) : Found :=
  { f with dst := (match q.key with | .node d => d | _ => BitVec.ofNat 10 (getBits e 105 96)),
           part := some (BitVec.ofNat 9 (getBits e 95 87)), pf := bit e 78, rt := bit e 77 }

/-- Whether the route's end NI agrees with the leaf (R72), and the destination names an NI of its die (R17). -/
def State.endOk (s : State) (q : Ask) (dst : NodeId) (e : Nat) : Bool :=
  (if nodeDie dst = s.die then decide (e = nodeNi dst) else decide (81 ≤ e) && decide (nodeNi dst ≤ 86)) &&
  !(81 ≤ q.n && decide (e = q.n))

/-- Selects as the header's ROUTE (R73). -/
def packRoute (l : List Nat) : BitVec 36 := BitVec.ofNat 36 ((l.zipIdx.map fun (o, i) => o % 8 * 8 ^ i).sum)

/-- The path step of the lookup: end NI checked, then a usable route chosen (R72, R77 to R82, R396). `ptr` is the
spray pointer of the packet's VN. -/
def State.lookPath (s : State) (q : Ask) (ptr : Nat) (leaf p : BitVec 128) (f : Found) : Found :=
  if getBits p 127 126 ≠ 2 then { f with code := kindCode p }
  else if getBits p 107 102 ≠ Config.niRouter q.n then { f with code := DECODE }
  else
    let ws := (pathRoutes p).map fun r => (r, walk (getBits p 107 102) [] r)
    let endNi := (ws.head?.bind (fun w => w.2.2.1)).getD 127
    if !s.endOk q f.dst endNi then { f with code := DECODE }
    else
      let last := Config.niRouter endNi
      let set (k : Nat) : Bool := bit q.mask k && k ≠ Config.niRouter q.n
      let usable := ws.zipIdx.filter fun (w, _) => w.2.1.dropLast.all fun k => !set k
      let usable := if q.isReq && set last then [] else usable
      let rsel := getBits leaf 76 75
      let spray := rsel = 2 && f.rt && s.feat fSPRAY && !q.sch && !q.resv &&
        (q.cls = cREQ || q.cls = cRWD || q.cls = cNDR || q.cls = cDRS)
      let pick : Option ((List Nat × (List Nat × Option Nat × Nat)) × Nat) :=
        if rsel = 0 then usable.find? (fun u => u.2 = 0)
        else if spray then (usable.find? (fun u => u.2 > ptr)) <|> usable.head?
        else usable.head?
      match pick with
      | none => { f with fenced := true }
      | some (w, i) => { f with route := packRoute w.1, sprayed := if spray then some i else none }

/-- The routers on a ring between router `k` and router `q`, both left out (R121, R122). -/
def ringAhead (ring q : Nat) : Nat → Nat → List Nat
  | 0, _ => []
  | fuel + 1, k =>
    if k = q then []
    else match Config.port k (Config.ringOut k ring) with
      | .router j => if j = q then [] else j :: ringAhead ring q fuel j
      | _ => []

/-- The ring number for a packet of NI `n`, or none when a tile out of OPEN breaks both ways (R122, R422). -/
def pickRing (mask : BitVec 56) (n : Nat) (dst : NodeId) : Option Nat :=
  let p := Config.niRouter n
  let q := Config.niRouter (nodeNi dst)
  let free (r : Nat) : Bool := (ringAhead r q 56 p).all fun k => !bit mask k
  let a := Config.ringChoice p q
  if free a then some a else if free (1 - a) then some (1 - a) else none

/-- The lookup of the ring personality: it stops at the leaf and picks a ring (R120, R122, R422). -/
def State.lookRing (s : State) (q : Ask) : Found :=
  let fin (f : Found) : Found :=
    if nodeDie f.dst ≠ s.die then { f with code := FENCED }
    else
      let k := Config.niRouter (nodeNi f.dst)
      if q.isReq && bit q.mask k && k ≠ Config.niRouter q.n then { f with fenced := true }
      else match pickRing q.mask q.n f.dst with
        | some r => { f with route := BitVec.ofNat 36 r }
        | none => { f with fenced := true }
  match q.key with
  | .node d =>
    if 86 < nodeNi d then { code := DECODE }
    else fin { dst := d }
  | _ =>
    match s.lookLeaf q with
    | (f, none) => f
    | (f, some e) => let f := leafFields q e f
                     if 86 < nodeNi f.dst then { f with code := DECODE } else fin f

/-- The lookup of R70, with the choice of R79 to R82. -/
def State.look (s : State) (q : Ask) : Found :=
  if s.ring then s.lookRing q
  else match s.lookLeaf q with
    | (f, none) => f
    | (f, some e) =>
      let f := leafFields q e f
      match s.lookRead q.n (getBits e 119 106) f with
      | (f, none) => f
      | (f, some p) => s.lookPath q (Tbl.get (fun _ => 0) (s.niOf q.n).spray q.vn) e p f

/-- A failed lookup recorded in RT_STAT and the NI's page (R71, R94). The index of a failure that has none is a free
value (log 4). -/
def State.rtFail (s : State) (n : Nat) (code : Code) (idx : Option Nat) : State :=
  let a := RT_STAT n
  let s := if s.rbit a 31 then s
    else match idx with
      | some i => (s.setFld a 7 0 code.toNat).setFld a 21 8 i
      | none => (s.setFld a 7 0 code.toNat).setFld a 21 8 (s.freeNow.toNat % 2 ^ 14) |>.drawn
  (s.setBit a 31).niErr n 2

/-- What a lookup leaves in the bank's page and with Gleaner: corrected and uncorrectable entries (R57, R71, R365, R458,
R480). -/
def State.lookMarks (s : State) (c : Nat) (f : Found) : State :=
  let s := if f.ce.isEmpty then s else s.pageErr (cluPage c) 3
  f.ue.foldl (fun s i =>
    let s := (s.pageErr (cluPage c) 2).ladder (.bank (Fin.ofNat 8 c)) 0 0
    let q := Tbl.get (fun _ => []) s.eng.glnQueue c
    if q.length < 8 then
      { s with eng := { s.eng with glnQueue := Tbl.set (fun _ => []) c (q ++ [i]) s.eng.glnQueue } }
    else s.pageErr (cluPage c) 4) s

/-- The spray pointer records the route a sprayed packet takes (R82). -/
def State.sprayed (s : State) (n vn : Nat) (f : Found) : State :=
  match f.sprayed with
  | some r => s.modNi n fun x => { x with spray := Tbl.set (fun _ => 0) vn r x.spray }
  | none => s

end Sys2Proof.Machine
end

