-- ==== Sys2Proof/Machine/Rules.lean ====
section
/-! DEFINITION. Access rules: the pool's commits, the shadows of the NIs, and the check of an access with its prefix
(R313 to R332). -/

namespace Sys2Proof.Machine

/-! Commits -/

/-- The refusal code of R315 for a commit by a master other than Gleaner; 0 when it is accepted. -/
def ruleRefusal (e : BitVec 128) : Nat :=
  let base := getBits e 49 0
  let lim := getBits e 99 50
  let space := getBits e 125 124
  if getBits e 127 126 = 0 then 0
  else if getBits e 127 126 ≠ 1 then 1
  else if space = 3 then 2
  else if base > lim then 3
  else if space = 1 && (base > 0xFFF || lim > 0xFFF) then 4
  else if space = 2 && (base > 0x3FFFFFFF || lim > 0x3FFFFFFF) then 5
  else 0

/-- A rule range: its first rule and its length, stopping at the pool's end (R316). -/
def rangeOf (w : Word) : Nat × Nat :=
  let b := getBits w 12 0
  (b, min (min (getBits w 21 16) 32) (8192 - b))

/-- The range that a check of NI `n` uses: a range written in this fc is not yet in force (R330). -/
def State.ruleRange (s : State) (n : Nat) (tgt : Bool) : Nat × Nat := rangeOf (s.rdFc (if tgt then RULE_TGT n else RULE_INIT n))

/-- Whether a range of NI `n` holds rule `i`. -/
def State.rangeHas (s : State) (n i : Nat) : Bool :=
  let h (a : Nat) : Bool := let (b, c) := rangeOf (s.rd a); b ≤ i && i < b + c
  h (RULE_TGT n) || h (RULE_INIT n)

/-- The NIs of tiles that are not OPEN take no update of rule `i`: they keep the value they hold (R317). -/
def State.shadowHold (s : State) (i : Nat) : State :=
  forN 87 (fun n s =>
    if s.fenced (niTile n) && s.rangeHas n i && (Tbl.get (fun _ => none) (s.niOf n).shadow i).isNone then
      s.modNi n fun x => { x with shadow := Tbl.set (fun _ => none) i (some (s.rules.at i)) x.shadow }
    else s) s

/-- The rule that a check uses in this fc: a commit of the same fc is not yet in its shadow (R330). -/
def State.ruleFc (s : State) (i : Nat) : BitVec 144 :=
  let w := Tbl.get (fun _ => (0, 0)) s.notes.ruleWas i
  if w.1 = s.fc + 1 then w.2 else s.rules.at i

/-- A stored rule replaced; every shadow of an OPEN tile takes the new value (R317). -/
def State.putRule (s : State) (i : Nat) (x : BitVec 144) : State :=
  let s := s.shadowHold i
  { s with rules := s.rules.put i x,
           notes := { s.notes with ruleWas := Tbl.set (fun _ => (0, 0)) i (s.fc + 1, s.ruleFc i) s.notes.ruleWas } }

/-- A commit to the rule pool (R313, R315, R332). -/
def State.ruleCommitOp (s : State) (i : Nat) (v : Word) : State :=
  let (e, miss) := s.rules.staged i v
  let s := if miss then (s.setBit RULE_CSTAT 25).pageErr .global 8 else s
  let r := ruleRefusal e
  if r = 0 then
    let s := s.putRule i (storeEntry e s.rules.inj)
    { s with rules := { s.rules with stage := {}, inj := 0 } }
  else
    let s := if s.rbit RULE_CSTAT 24 then s else (s.setFld RULE_CSTAT 12 0 i).setFld RULE_CSTAT 19 16 r
    let s := (s.setBit RULE_CSTAT 24).pageErr .global 7
    { s with rules := { s.rules with stage := {} } }

/-- The NI reloads every shadow it holds (R317, R403). -/
def State.reloadShadow (s : State) (n : Nat) : State := s.modNi n fun x => { x with shadow := [] }

/-! Deciding (R322, R323) -/

/-- What an access does: its space, its kind (0 read, 1 write, 2 snoop) and its units as (first byte, bytes). -/
structure Access where
  space : Nat := 0
  kind  : Nat := 0
  units : List (Nat × Nat) := []
  /-- ADDR64[63:52] is not zero: no rule matches (R319). -/
  far   : Bool := false
deriving DecidableEq, Repr

/-- The outcome of a check: OK, PARTIAL, or the failure code; the failure code; the units performed; the split address
or the first address (R323). -/
structure Verdict where
  code : Code := 0
  fail : Code := 0
  done : Nat := 0
  split : Nat := 0
  first : Nat := 0
deriving DecidableEq, Repr

/-- The rule, decoded as far as the check needs, with POISONED and uncorrectable entries as none (R318). -/
def ruleOf (x : BitVec 144) : Option (BitVec 128) :=
  match (readEntry x).1 with
  | some e => if getBits e 127 126 = 3 then none else some e
  | none => none

/-- Whether a rule applies to a byte (R322). -/
def ruleHits (space : Nat) (anyOnly : Bool) (part : BitVec 9) (src : NodeId) (b : Nat) (e : BitVec 128) : Bool :=
  getBits e 127 126 = 1 && getBits e 125 124 = space &&
  (let x := if space = 1 then b else b / 4
   getBits e 49 0 ≤ x && x ≤ getBits e 99 50) &&
  (bit e 120 || (!anyOnly && getBits e 119 111 = part.toNat)) &&
  (!bit e 110 || getBits e 109 100 = src.toNat)

/-- The rules of a range as the NI's shadow holds them, in ascending order: none for one that is POISONED or
uncorrectable; INVALID rules are left out (R317, R318). -/
def State.shadowRules (s : State) (n : Nat) (tgt : Bool) : List (Option (BitVec 128)) :=
  let (b, c) := s.ruleRange n tgt
  let x := s.niOf n
  ((List.range c).map fun j => ruleOf ((Tbl.get (fun _ => none) x.shadow (b + j)).getD (s.ruleFc (b + j)))).filter
    fun r => match r with | some e => getBits e 127 126 ≠ 0 | none => true

/-- The code that decides a byte (R322). -/
def decideByte (rules : List (Option (BitVec 128))) (dflt : Bool) (a : Access) (anyOnly : Bool) (part : BitVec 9)
    (src : NodeId) (b : Nat) : Code :=
  let none' : Code := if dflt then OK else RULE
  if a.far then none'
  else match rules.find? (fun r => match r with | none => true | some e => ruleHits a.space anyOnly part src b e) with
    | none => none'
    | some none => POISON
    | some (some e) => if bit e (123 - a.kind) then OK else RULE

/-- The code of a unit: that of its first byte that is not permitted. -/
def decideUnit (f : Nat → Code) (u : Nat × Nat) : Code :=
  (((List.range u.2).map fun i => f (u.1 + i)).find? (· ≠ OK)).getD OK

/-- The permitted prefix of an access (R323). -/
def prefixOf (f : Nat → Code) : List (Nat × Nat) → Nat → Nat × Option (Nat × Code)
  | [], k => (k, none)
  | u :: t, k => let c := decideUnit f u; if c = OK then prefixOf f t (k + 1) else (k, some (u.1, c))

/-- The outcome of an access (R323). -/
def verdictOf (f : Nat → Code) (a : Access) : Verdict :=
  let first := (a.units.head?.map (·.1)).getD 0
  match prefixOf f a.units 0 with
  | (k, none) => { code := OK, done := k, first := first }
  | (0, some (_, c)) => { code := c, fail := c, done := 0, split := first, first := first }
  | (k, some (b, c)) => { code := PARTIAL, fail := c, done := k, split := b, first := first }

/-- The default map's bit for a privileged request (R322, R332); a map written in this fc is not yet in force (R330). -/
def State.ruleDflt (s : State) (a : Access) : Bool :=
  match a.space with
  | 0 => bit (s.rdFc RULE_DFLT) a.kind
  | 1 => bit (s.rdFc RULE_DFLT) (3 + a.kind)
  | _ => bit (s.rdFc RULE_DFLT) (5 + a.kind)

/-- Entries of a range that a check corrects, as its event counts them: two at most (R318, R379). -/
def State.ruleFixes (s : State) (n : Nat) (tgt : Bool) : Nat :=
  let (b, c) := s.ruleRange n tgt
  min 2 ((List.range c).filter fun j =>
    (readEntry ((Tbl.get (fun _ => none) (s.niOf n).shadow (b + j)).getD (s.ruleFc (b + j)))).2).length

/-- The check of an access at NI `n` (R320 to R323). -/
def State.check (s : State) (n : Nat) (tgt anyOnly : Bool) (part : BitVec 9) (src : NodeId) (a : Access) : Verdict :=
  verdictOf (decideByte (s.shadowRules n tgt) (privileged src && s.ruleDflt a) a anyOnly part src) a

/-- RULE_STAT and the page error for an outcome other than OK (R331, R479). -/
def State.ruleNote (s : State) (n : Nat) (tgt : Bool) (v : Verdict) : State :=
  if v.code = OK then s else
  let a := RULE_STAT n
  let s := if s.rbit a 31 then s
    else (((s.setFld a 7 0 v.code.toNat).setFld a 8 8 (flag tgt)).setFld (RULE_ADDR_LO n) 31 0 v.split).setFld
      (RULE_ADDR_HI n) 19 0 (v.split / 2 ^ 32)
  ((s.satFld a 23 16 1).setBit a 31).niErr n 3

/-! The access of a packet (R319) -/

/-- The enabled bytes of a TLP, as offsets from its first dword (R42): every byte of a message's payload. -/
def tlpBytes (sc : BitVec 128) : List Nat :=
  let d := tlpDwords sc
  (List.range (4 * d)).filter fun j =>
    if tlpMessage (sOpc sc) then true else if j < 4 then (sFbe sc).testBit j else if 4 * (d - 1) ≤ j then (sLbe sc).testBit (j % 4) else true

/-- The bytes that an RWD packet writes, as offsets from its first line. -/
def rwdBytes (body : List (BitVec 128 × BitVec 512)) : List Nat :=
  (body.zipIdx.map fun ((sc, _), i) => ((List.range 64).filter fun j => bit (sBmask sc) j).map fun j => 64 * i + j).flatten

/-- The access of a request packet, or none for one that is never checked (R319). `pbr` is the destination PBR ID of an
ID-routed TLP. -/
def accessOf (cls : BitVec 4) (body : List (BitVec 128 × BitVec 512)) (pbr : Nat) : Option Access :=
  let sc := (body.headD (0, 0)).1
  let opc := sOpc sc
  match cls.toNat with
  | 0 => some { kind := 0, units := (List.range (if bit opc 7 then 1 else sRlen sc + 1)).map fun i =>
      ((sAddr sc).toNat + 64 * i, 64) }
  | 1 => if opc = 0x80 then none
    else some { kind := 1, units := (rwdBytes body).map fun j => ((sAddr sc).toNat + j, 1) }
  | 5 => some { kind := 2, units := [((sAddr sc).toNat, 64)] }
  | 7 | 8 =>
    let kind := if cls = cIOP || tlpHasData opc then 1 else 0
    if tlpAddrRouted opc then
      let a := (sAddr64 sc).toNat / 4 * 4
      some { kind := kind, units := (tlpBytes sc).map fun j => (a + j, 1), far := 2 ^ 52 ≤ a }
    else some { space := 1, kind := kind, units := [(pbr, 1)] }
  | 9 =>
    if opc = 0x00 || opc = 0x01 then
      some { space := 2, kind := if opc = 0 then 1 else 0, units := [((mAddr sc).toNat, if getBits (mArg sc) 3 0 = 8 then 8 else 4)] }
    else none
  | _ => none

/-- The sidecar of a TLP reduced to its first `k` enabled bytes: DWLEN, and FBE and LBE where they are byte enables
(R325). -/
def reduceTlp (sc : BitVec 128) (k : Nat) : BitVec 128 :=
  if !tlpAddrRouted (sOpc sc) then sc else
  let keep := (tlpBytes sc).take k
  let dw := keep.getLast?.getD 0 / 4 + 1
  let nib (w : Nat) : Nat := ((keep.filter (fun j => j / 4 = w)).map (fun j => 2 ^ (j % 4))).sum
  let x := putBits sc 79 70 dw
  if tlpMessage (sOpc sc) then x else putBits (putBits x 83 80 (nib 0)) 87 84 (if dw = 1 then 0 else nib (dw - 1))

/-- Lines that a TLP spans (R248). -/
def ioLines (opc : BitVec 8) (sc : BitVec 128) : Nat :=
  let d := tlpDwords sc
  max 1 (if tlpAddrRouted opc then ((sAddr64 sc).toNat / 4 * 4 % 64 + 4 * d + 63) / 64
         else if tlpHasData opc then (4 * d + 63) / 64 else 1)

/-- A packet reduced to its first `k` units (R325, R326): an RWD keeps every line before the one that holds the split,
lines without enabled bytes included. -/
def reduceBody (cls : BitVec 4) (body : List (BitVec 128 × BitVec 512)) (k : Nat) : List (BitVec 128 × BitVec 512) :=
  match body with
  | [] => []
  | (sc, d) :: _ =>
    match cls.toNat with
    | 0 => if bit (sOpc sc) 7 then body else [(setRlen sc (k - 1), d)]
    | 1 =>
      let bytes := rwdBytes body
      let keep := bytes.take k
      let cut := (bytes.drop k).headD (64 * body.length) / 64
      let lines := if keep.any (fun j => j / 64 = cut) then cut + 1 else cut
      (body.take lines).zipIdx.map fun ((sc, d), i) =>
        (setBmask sc (BitVec.ofNat 64 (((keep.filter (fun j => j / 64 = i)).map (fun j => 2 ^ (j % 64))).sum)), d)
    | 7 | 8 =>
      let flits := if cls = cIOP then ioLines (sOpc sc) (reduceTlp sc k) else 1
      (body.take flits).map fun (x, d) => (reduceTlp x k, d)
    | _ => body

end Sys2Proof.Machine
end

