-- ==== Sys2Proof/Machine/Count.lean ====
section
/-! DEFINITION. Tally's counters and the capture of probes: what other commands' events add (R373 to R381). -/

namespace Sys2Proof.Machine

/-- The address of word `w` of counter `i` (R374). -/
abbrev CNT (i w : Nat) : Nat := 0x3000000 + 16 * i + 4 * w

/-- Counters with a tile, and the tile (R373). -/
def cntTile (i : Nat) : Option Nat :=
  if i < 448 then some (i / 8) else if i < 1144 then some (niTile ((i - 448) / 8)) else none

/-- The 48-bit value of a counter. -/
def State.cntVal (s : State) (i : Nat) : Nat := (s.rd (CNT i 0)).toNat + s.fld (CNT i 1) 15 0 * 2 ^ 32

/-- A counter's value replaced. -/
def State.setCnt (s : State) (i v : Nat) : State := (s.setFld (CNT i 0) 31 0 v).setFld (CNT i 1) 15 0 (v / 2 ^ 32)

/-- The word of counter `i` that an event of this cycle uses: a write applies from the next fc, or mc for a
global counter (R374). -/
def State.cntWord (s : State) (i : Nat) : Word := if i < 1144 then s.rdFc (CNT i 2) else s.rdMc (CNT i 2)

/-- Whether counter `i` is the even half of a chained pair (R376). -/
def State.chained (s : State) (i : Nat) : Bool := i % 2 = 0 && bit (s.cntWord i) 14

/-- The cycle of counter `i`: the mc for a global one, else the fc (R374). -/
def State.cntCycle (s : State) (i : Nat) : Nat := if i < 1144 then s.fc else s.mc

/-- The wraps of counter `i` in its present cycle (R374). -/
def State.wrapOf (s : State) (i : Nat) : Wrap :=
  let w := Tbl.get (fun _ => {}) s.tally.wraps i
  if w.at_ = s.cntCycle i + 1 then w else { at_ := s.cntCycle i + 1 }
def State.setWrap (s : State) (i : Nat) (w : Wrap) : State :=
  { s with tally := { s.tally with wraps := Tbl.set (fun _ => {}) i w s.tally.wraps } }

/-- The page's overflow interrupt, where the counter's irq_en has it (R376). -/
def State.ovfIrq (s : State) (on : Bool) : State := if on then s.pageIrq .tally 0 else s

/-- An overflow of counter `i` (R376). -/
def State.cntOvf (s : State) (i : Nat) : State :=
  let w := s.wrapOf i
  let irq := bit (s.cntWord i) 15
  let w := { w with ovf := w.ovf || !s.rbit (CNT i 3) 0, bit := w.bit || !s.rbit (TLY_OVF (i / 32)) (i % 32),
                    irq := w.irq || (irq && !s.rbit (pageBase .tally + 0x24) 0) }
  (((s.setWrap i w).setBit (CNT i 3) 0).setBit (TLY_OVF (i / 32)) (i % 32)).ovfIrq irq

/-- Counter `i` has been committed in this cycle: the events of the cycle are lost for it (R374, R387). -/
def State.cntSet (s : State) (i : Nat) : Bool := if i < 1144 then s.newFc (CNT i 1) else s.newMc (CNT i 1)

/-- The low half of a chained pair has carried `n` into the other half (R376). -/
def State.cntCarry (s : State) (i n : Nat) : State :=
  if n = 0 then s else s.setWrap i { s.wrapOf i with carry := (s.wrapOf i).carry + n }

/-- A counter counts `add` events: it wraps modulo 2^48, or its pair modulo 2^96 (R376). -/
def State.addCnt (s : State) (i add : Nat) : State :=
  let v := s.cntVal i + add
  if s.cntSet i then s
  else if s.chained i && s.cntSet (i + 1) then s.setCnt i (v % 2 ^ 48)
  else if s.chained i then
    let w := v + s.cntVal (i + 1) * 2 ^ 48
    let s := ((s.setCnt i (w % 2 ^ 48)).setCnt (i + 1) (w / 2 ^ 48 % 2 ^ 48)).cntCarry i (v / 2 ^ 48)
    if 2 ^ 96 ≤ w then s.cntOvf i else s
  else
    let s := s.setCnt i (v % 2 ^ 48)
    if 2 ^ 48 ≤ v then s.cntOvf i else s

/-- The wraps of counter `i` in the cycle of a commit are undone: the events of that cycle are lost (R374). A commit of the
upper half of a pair loses only the carry into it and the pair's ovf. -/
def State.cntLose (s : State) (i : Nat) : State :=
  let i := if i % 2 = 1 && s.chained (i - 1) then i - 1 else i
  let w := s.wrapOf i
  let s := if w.carry = 0 then s else s.setCnt (i + 1) ((s.cntVal (i + 1) + 2 ^ 48 - w.carry % 2 ^ 48) % 2 ^ 48)
  let s := if w.ovf then s.clrBit (CNT i 3) 0 else s
  let s := if w.bit then s.clrBit (TLY_OVF (i / 32)) (i % 32) else s
  (if w.irq then s.clrBit (pageBase .tally + 0x24) 0 else s).setWrap i { at_ := s.cntCycle i + 1 }

/-- What a filter sees of a packet: its header and first sidecar. -/
structure Seen where
  hdr : BitVec 128 := 0
  sc  : BitVec 128 := 0
deriving DecidableEq, Repr

/-- What a filter sees of a packet at one of its flits: every test uses the first flit, whose address a later flit of an RWD
packet counts up from (R36, R380). -/
def flitSeen (f : Flit) : Seen :=
  { hdr := f.hdr,
    sc := if hCls f.hdr = cRWD then setAddr f.sc (sAddr f.sc - BitVec.ofNat 52 (64 * sFidx f.sc)) else f.sc }

/-- The address a packet carries, for the address test (R380). -/
def seenAddr (p : Seen) : Option Nat :=
  match (hCls p.hdr).toNat with
  | 0 | 1 | 5 => some (sAddr p.sc).toNat
  | 7 | 8 => if tlpAddrRouted (sOpc p.sc) && (sAddr64 p.sc).toNat < 2 ^ 52 then some ((sAddr64 p.sc).toNat / 64 * 64) else none
  | 9 => some ((mAddr p.sc).toNat / 64 * 64)
  | _ => none

/-- Whether register word `a` belongs to a filter of the TALLY page (R388). -/
def isFilter (a : Nat) : Bool := TLY_F_W0 0 ≤ a && a < TLY_F_W0 32

/-- The tiles that are not OPEN take no copy of filter word `a`: they keep the one they hold (R317, R380). -/
def State.filterHold (s : State) (a : Nat) : State :=
  { s with tally := { s.tally with filt := (List.range 56).foldl (fun l k =>
      let t := Tbl.get (fun _ => []) l k
      if s.fenced k && !(t.any fun e => e.1 = a) then Tbl.set (fun _ => []) k ((a, s.rd a) :: t) l else l) s.tally.filt } }

/-- A tile takes every filter afresh (R317, R380). -/
def State.filterLoad (s : State) (k : Nat) : State :=
  { s with tally := { s.tally with filt := Tbl.set (fun _ => []) k [] s.tally.filt } }

/-- A filter word as tile `k` uses it: the one at the start of the fc (R387), or the copy it holds while not OPEN. -/
def State.filterWord (s : State) (k a : Nat) : Word :=
  match (Tbl.get (fun _ => []) s.tally.filt k).find? (fun e => e.1 = a) with
  | some e => e.2
  | none => s.rdFc a

/-- The tests of filter `f` at tile `k` (R380). -/
def State.filterHit (s : State) (k f : Nat) (p : Seen) : Bool :=
  let w0 := s.filterWord k (TLY_F_W0 f)
  let field (a hi lo : Nat) : Nat := getBits (s.filterWord k a) hi lo
  let tri (hi lo : Nat) (b : Bool) : Bool := match getBits w0 hi lo with | 0 => true | 1 => b | 2 => !b | _ => false
  let mask := field (TLY_F_W1 f) 25 16
  let flow := field (TLY_F_W2 f) 27 16
  bit w0 (hCls p.hdr).toNat && bit w0 (16 + hVn p.hdr) &&
  tri 25 24 (privileged (hSrc p.hdr)) && tri 27 26 (hSch p.hdr) &&
  (!bit w0 28 || ((hSrc p.hdr).toNat &&& mask) = (field (TLY_F_W1 f) 9 0 &&& mask)) &&
  (!bit w0 29 || (hPart p.hdr).toNat = field (TLY_F_W2 f) 8 0) &&
  (!bit w0 30 || ((hFlow p.hdr).toNat = flow && (hSch p.hdr || flow ≠ 0))) &&
  (!bit w0 31 || (match seenAddr p with
    | some a => field (TLY_F_W4 f) 19 0 * 2 ^ 32 + field (TLY_F_W3 f) 31 6 * 64 ≤ a &&
        a ≤ field (TLY_F_W6 f) 19 0 * 2 ^ 32 + field (TLY_F_W5 f) 31 6 * 64
    | none => false))

/-- The counters of an owner see `add` events of a code; `port` is the router output, or 8 for an event that has
none, and `hit` says whether the event's packet matches a filter (R373, R376, R379, R380). -/
def State.countIn (s : State) (base n code port add : Nat) (hit : Nat → Bool) : State :=
  if (if base < 1144 then s.tally.frozen else s.tally.frozenG) || add = 0 then s else
  forN n (fun j s =>
    let i := base + j
    let w := s.cntWord i
    if getBits w 7 0 = code && (port = 8 || 8 ≤ getBits w 19 16 || getBits w 19 16 = port) &&
        !(i % 2 = 1 && s.chained (i - 1)) &&
        (!bit w 13 || hit (getBits w 12 8)) then
      s.addCnt i add
    else s) s

/-- An event that is not filtered passes every filter. -/
def unfiltered : Nat → Bool := fun _ => true
/-- Whether the packet of an event at tile `k` matches a filter. -/
def State.hits (s : State) (k : Nat) (p : Seen) : Nat → Bool := fun f => s.filterHit k f p

/-- Events at router `k`. -/
def State.countRs (s : State) (k code port add : Nat) (hit : Nat → Bool) : State := s.countIn (8 * k) 8 code port add hit
def State.countR (s : State) (k code port : Nat) (hit : Nat → Bool) : State := s.countRs k code port 1 hit
/-- Events at NI `n`. -/
def State.countN (s : State) (n code add : Nat) (hit : Nat → Bool) : State := s.countIn (448 + 8 * n) 8 code 8 add hit
/-- An event of NI `n` that an fc counts at most once (R379). -/
def State.countOnce (s : State) (n code : Nat) : State :=
  let key := 128 * code + n
  if Tbl.get (fun _ => 0) s.tally.once key = s.fc + 1 then s
  else ({ s with tally := { s.tally with once := Tbl.set (fun _ => 0) key (s.fc + 1) s.tally.once } } : State).countN n code 1 unfiltered
/-- Global events. -/
def State.countG (s : State) (code port add : Nat) : State :=
  if s.mclkOff then s else s.countIn 1144 128 code port add unfiltered

/-- The lookup waits of cluster `c` when a lookup of this fc reads the entries `idx`: each of its reads waits for every other
of its fc and sub-array (R56, R58). DEDUCED (log 144): a read starts with its lookup or when the one before it has its
entry, 2 fc later. -/
def State.rsConflict (s : State) (c : Nat) (idx : List Nat) : State :=
  let live := s.tally.reads.filter fun r => s.fc ≤ r.1
  let new := idx.zipIdx.map fun (x, i) => (s.fc + 2 * i, c, x % 32)
  let waits := (new.map fun r => (live.filter (· = r)).length).sum
  ({ s with tally := { s.tally with reads := live ++ new } } : State).countG 0x60 c waits

/-- What a lookup of NI `n` leaves in the bank's page, with Gleaner and in Tally (R57, R58, R71, R379). -/
def State.lookCount (s : State) (n : Nat) (f : Found) : State :=
  (((s.lookMarks (niTile n / 7) f).rsConflict (niTile n / 7) f.reads).countN n 0x24 1 unfiltered).countN n 0x26 f.ce.length
    unfiltered

/-- What Cruise samples of NI `n`: it sends a BACKOFF answer (R355). -/
def State.sentBackoff (s : State) (n : Nat) : State :=
  { s with eng := { s.eng with boSent := Tbl.upd (fun _ => 0) n (· + 1) s.eng.boSent } }

/-- What Cruise samples of router `k`: a flit leaves by output `o` (R355). -/
def State.sampleOut (s : State) (k o : Nat) (dyn head : Bool) (age : Nat) : State :=
  { s with eng := { s.eng with
      carried := if dyn then Tbl.upd (fun _ => 0) (8 * k + o) (· + 1) s.eng.carried else s.eng.carried,
      ageTop := if head then Tbl.upd (fun _ => 0) k (max age) s.eng.ageTop else s.eng.ageTop } }

/-- The filters that NI `n`'s Ledger-event counters use and a packet matches, kept with its entry (R379). -/
def State.ledgerHits (s : State) (n : Nat) (p : Seen) : BitVec 32 :=
  (List.range 8).foldl (fun m j =>
    let w := s.cntWord (448 + 8 * n + j)
    if 0x32 ≤ getBits w 7 0 && getBits w 7 0 ≤ 0x34 && bit w 13 && s.filterHit (niTile n) (getBits w 12 8) p then
      m ||| BitVec.ofNat 32 (2 ^ getBits w 12 8) else m) 0

/-- The rotation position of the present fc (R134). -/
def State.rotPos (s : State) : Nat := s.time.pos % 1024

/-- Record of a flit at a probe's point (R382). -/
def State.probeRec (s : State) (j : Nat) (f : Flit) (full : Bool) : PRec :=
  { hdr := f.hdr, t := s.nowNs, pos := s.rotPos, at_ := s.fld (PRB_WHERE j) 11 0, full := full, sc := f.sc, data := f.data,
    chk := f.chk }

/-- A record dropped by probe `j` (R385). -/
def State.probeDrop (s : State) (j : Nat) : State :=
  let s := if s.fld (PRB_STAT j) 15 0 = 0 then s.pageErr .tally 2 else s
  let s := (s.satFld (PRB_STAT j) 15 0 1).countG 0x6A 8 1
  { s with tally := { s.tally with gap := Tbl.set (fun _ => false) j true s.tally.gap } }

/-- A record goes to the probe's 32-record buffer, or is dropped (R385). -/
def State.probeKeep (s : State) (j : Nat) (r : PRec) : State :=
  let q := Tbl.get (fun _ => []) s.tally.buf j
  if q.length < 32 then { s with tally := { s.tally with buf := Tbl.set (fun _ => []) j (q ++ [r]) s.tally.buf } }
  else s.probeDrop j

/-- A record of this fc is captured, of which a probe makes one in an fc (R385). DESIGN CHOICE (log 145): another is not
made and is not counted as dropped. -/
def State.probeTake (s : State) (j : Nat) (f : Flit) (full : Bool) : State :=
  if Tbl.get (fun _ => 0) s.tally.recFc j = s.fc + 1 then s
  else ({ s with tally := { s.tally with recFc := Tbl.set (fun _ => 0) j (s.fc + 1) s.tally.recFc } } : State).probeKeep j
    (s.probeRec j f full)

/-- One flit passes the point of probe `j` in tile `k` (R381, R384). -/
def State.probeOne (s : State) (k j : Nat) (f : Flit) : State :=
  let c := PRB_CTRL j
  let mode := s.fld c 1 0
  let curs := Tbl.get (fun _ => []) s.tally.cur j
  let setCur (s : State) (l : List (BitVec 128)) : State :=
    { s with tally := { s.tally with cur := Tbl.set (fun _ => []) j l s.tally.cur } }
  let last := sFidx f.sc = hLen f.hdr
  if sFidx f.sc = 0 then
    if !s.rbit c 8 || s.filterHit k (s.fld c 7 3) (flitSeen f) then
      let n := (s.rd (PRB_CNT_LO j)).toNat + s.fld (PRB_CNT_HI j) 15 0 * 2 ^ 32 + 1
      let s := (s.setFld (PRB_CNT_LO j) 31 0 n).setFld (PRB_CNT_HI j) 15 0 (n / 2 ^ 32)
      if 2 ≤ mode && n % 2 ^ s.fld c 12 9 = 0 && !s.rbit (PRB_STAT j) 16 then
        let s := s.probeTake j f (mode = 3)
        if mode = 3 && !last then setCur s (f.hdr :: curs) else s
      else s
    else s
  else if mode = 3 && curs.contains f.hdr then
    let stopped := s.rbit (PRB_STAT j) 16
    let s := if stopped then s else s.probeTake j f true
    if last || stopped then setCur s (curs.erase f.hdr) else s
  else s

/-- A flit at a point: `kind` false a router output, true an NI; `dir` true ejection (R381). -/
def State.probes (s : State) (kind : Bool) (index port : Nat) (dir : Bool) (f : Flit) : State :=
  let k := if kind then niTile index else index
  if s.fenced k then s else
  forN 16 (fun j s =>
    let w := PRB_WHERE j
    if s.fld (PRB_CTRL j) 1 0 ≠ 0 && s.fld w 6 0 = index && s.rbit w 7 = kind &&
        (if kind then s.rbit w 11 = dir else s.fld w 10 8 = port) then s.probeOne k j f else s) s

/-- A check of NI `n` has read the shadow of a range: the entries it corrects are counted, and a copy with an uncorrectable
check byte is reloaded from the pool (R318). -/
def State.readShadow (s : State) (n : Nat) (tgt : Bool) : State :=
  let (b, c) := s.ruleRange n tgt
  (s.countN n 0x2B (s.ruleFixes n tgt) unfiltered).modNi n fun x =>
    { x with shadow := x.shadow.filter fun e =>
        !(b ≤ e.1 && e.1 < b + c) || (match e.2 with | some w => (readEntry w).1.isSome | none => true) }

end Sys2Proof.Machine
end

