-- ==== Sys2Proof/Machine/Ledger.lean ====
section
/-! DEFINITION. The Completion Ledger of a source NI: allocation and reuse (R442, R447), how lines and entries end
(R251, R327, R443 to R446), and the messages offered to the attached unit for lines that end with a code (R246, R262). -/

namespace Sys2Proof.Machine

/-- The unit of NI `n` is alive and its channel started (R241). -/
def State.unitUp (s : State) (n : Nat) : Bool := bit s.niAlive n && (s.niOf n).started

/-- A message joins the outbound messages for the unit of NI `n`; a unit that is not alive gets none. -/
def State.toUnit (s : State) (n : Nat) (m : Msg) : State :=
  if s.unitUp n then s.modNi n fun x => { x with outq := x.outq ++ [{ msg := m }] } else s

/-! Entries -/

/-- NOT_STARTED or ISSUED. -/
def LEntry.isOpen (e : LEntry) : Bool := e.st = .notStarted || e.st = .issued
/-- Free for reuse: never used, or ended and not STUCK or retained (R447). -/
def LEntry.isFree (e : LEntry) : Bool :=
  e.st = .free || ((e.st = .partially || e.st = .done || e.st = .failed) && !e.retained)

/-- The entry that the next allocation takes: a never-used one, then the one that became free first (R447). -/
def Ni.freeKey (x : Ni) (posted : Bool) : Option Nat :=
  let lo := if posted then 256 else 0
  let n := if posted then 512 else 256
  match (List.range n).find? (fun i => (x.led (lo + i)).st = .free) with
  | some i => some (lo + i)
  | none =>
    let c := x.ledger.filter fun (k, e) => lo ≤ k && k < lo + n && e.isFree
    (c.foldl (fun (b : Option (Nat × Nat)) (k, e) =>
      match b with | some (f, _) => if e.freed < f then some (e.freed, k) else b | none => some (e.freed, k)) none).map (·.2)

/-- An entry allocated in NOT_STARTED (R442). -/
def Ni.alloc (x : Ni) (posted : Bool) (e : LEntry) : Option (Nat × Ni) :=
  (x.freeKey posted).map fun k => (k, x.setLed k ({ e with st := LState.notStarted } : LEntry))

/-- The reservation of a part given back (R38, R111). -/
def Ni.unreserve (x : Ni) (key n : Nat) : Ni := { x with resv := Tbl.upd (fun _ => 0) key (· - n) x.resv }

/-- An entry becomes free: no answer is awaited any more (R84, R447). -/
def Ni.freeEntry (x : Ni) (k : Nat) : Ni :=
  let e := x.led k
  let x := e.parts.foldl (fun x p => if p.open_ then x.unreserve p.rkey p.rn else x) x
  ({ x with freedN := x.freedN + 1 } : Ni).setLed k
    { e with parts := e.parts.map (fun p => { p with open_ := false }), freed := x.freedN + 1, retained := false,
             timer := none, retryAt := none }

/-- The RSV_REQ to a node has been injected and is not yet answered (R84, R123). -/
def Ni.rsvWaits (x : Ni) (d : NodeId) : Bool :=
  x.rsvOut.contains d && !(x.answers.any fun a => a.isReq && hDst a.pkt.hdr = d)

/-- The unanswered request packets to a node, RSV_REQ included (R84). While it is 128 none is injected to that node, so a
request stream never holds more than 128, which keeps the SEQ values in flight within the 256 of R83. -/
def Ni.unansTo (x : Ni) (d : NodeId) : Nat :=
  (x.ledger.map fun (_, e) => (e.parts.filter fun p => p.open_ && p.counted && p.dst = d).length).sum + flag (x.rsvWaits d)

/-! Journal entries of a source NI -/

/-- The entry that a source NI writes for its Ledger entry `k` (R448, R449). -/
def State.ledgerJ (s : State) (n k : Nat) (kind : BitVec 8) (code : Code) (detail : Nat) : State :=
  let e := (s.niOf n).led k
  s.journal { code := code, kind := kind, where_ := whereNi n, part := some e.part, init := s.node n, tgt := e.dst,
              tag := keyTag k, detail := BitVec.ofNat 16 detail, addr := BitVec.ofNat 64 (e.first.getD e.addr.toNat),
              split := e.split.setWidth 64, flow := if e.sched then e.flow else none, posted := 256 ≤ k,
              injected := e.injected, splitUnk := e.splitUnk }

/-- The outcome of a request sent on the fabric's own behalf reaches the block that made it (R442, R452, R362, R385). -/
def State.ownerDone (s : State) (o : Owner) (code : Code) : State :=
  if code = OK then s else
  match o with
  | .partRing p => (s.satFld (PJ_STAT p) 31 16 1).pageErr .journal 2
  | .foremanLog => (s.satFld FM_LOG_STAT 7 0 1).pageErr .foreman 0
  | .probe j => (s.setBit (PRB_STAT j) 17).pageErr .tally 1
  | _ => s

/-! Messages for the attached unit -/

/-- The DEVLOAD a PNI gives a LOAD (R258, R259). -/
def State.devload (s : State) (n load : Nat) : Nat :=
  if !s.feat fDEVLOAD then load / 64 % 4
  else
    let r := min (s.fld (DL_RAISE n) 7 0) (s.fld (DL_THR n) 31 24)
    ((List.range 3).filter fun i => min (s.fld (DL_THR n) (8 * i + 7) (8 * i) + r) 255 ≤ load).length

/-- An answer for the unit: a PNI gives S2M NDR and DRS their DEVLOAD (R258, R485). -/
def State.answerUnit (s : State) (n : Nat) (m : Msg) (load : Nat) : State :=
  if Config.niKind n = .pni && (m.cls = 3 || m.cls = 4) then
    let d := s.devload n load
    (s.setFld (DL_STAT n) 19 18 d).toUnit n { m with devload := BitVec.ofNat 2 d }
  else s.toUnit n m

/-- HDR of an H2D Rsp GO whose state is Error: the response data of CXL 3.1 stands above the sidecar's fields (log 16). -/
def goError : BitVec 128 := putBits (setOpc 0 0x04) 69 66 4

/-- The BRSP opcode in which an NI answers a snoop itself (R39, R246): RspIHitI, BIRspIBlk or BIRspI. -/
def snoopOpc (opc : BitVec 8) : BitVec 8 := if bit opc 7 then 0x84 else if bit opc 2 then 4 else 0

/-- Lower Address and Byte Count of a completion from line `j` on (R246, R248): the first enabled byte of that line, and
the bytes that remain. -/
def ioRemain (opc : BitVec 8) (sc : BitVec 128) (j : Nat) : Nat × Nat :=
  if !tlpAddrRouted opc || tlpHasData opc then (0, 4)
  else
    let a := (sAddr64 sc).toNat / 4 * 4
    let from_ := if j = 0 then 0 else (a / 64 + j) * 64 - a
    let rest := (tlpBytes sc).filter (from_ ≤ ·)
    match rest.head?, rest.getLast? with
    | some b, some l => ((a + b) % 128, l + 1 - b)
    | _, _ => (a % 128, 1)

/-- LIDX of an answer for line `j` of an entry: the answers of a D2H Req count no lines (R242, R247). -/
def LEntry.lidxOf (e : LEntry) (j : Nat) : BitVec 6 := if e.chan = 6 then 0 else BitVec.ofNat 6 j

/-- The message offered in place of an answer for line `j` of entry `e` (R246), if the request draws one (R499). -/
def failMsg (e : LEntry) (j : Nat) (code : Code) : Option Msg :=
  let base : Msg := { etag := e.etag, lidx := e.lidxOf j, status := code, part := e.part }
  match e.chan.toNat with
  | 0 =>
    if noCompletion cREQ e.opc then none
    else if drawsData e.opc then some { base with cls := 4, vn := 2, hdr := setStatus 0 code }
    else some { base with cls := 3, vn := 2, hdr := setStatus 0 code }
  | 1 => some { base with cls := 3, vn := 2, hdr := setStatus 0 code }
  | 5 => some { base with cls := 2, vn := 4, hdr := setStatus (setOpc 0 (snoopOpc e.opc)) code }
  | 6 => some { base with cls := 0xA, vn := 2, hdr := setStatus goError code }
  | 9 => some { base with cls := 7, vn := 4, hdr := setStatus (setOpc 0 0x04) code }
  | 13 =>
    let (la, bc) := ioRemain e.opc e.hdr j
    some { base with cls := 0xE, vn := 2, hdr := putBits (putBits (setStatus (setOpc 0 0x0A) code) 19 8 bc) 26 20 la }
  | 15 =>
    some { base with cls := 0xF, vn := 7, ctrl := BitVec.ofNat 48 (4 + opEH_RSP.toNat * 256),
                     hdr := mkMgt opEH_RSP (mAddr e.hdr) code (mMid e.hdr) (mArg e.hdr) }
  | _ => none

/-- Lines of an entry that have no outcome. -/
def LEntry.awaited (e : LEntry) : List Nat := (List.range e.lines).filter fun j => !(e.codes.any fun c => c.1 = j)

/-- The header that stands for a message built without a packet: from the NI itself, SEQ 0 (R262). -/
def State.ownHdr (s : State) (n : Nat) (e : LEntry) : BitVec 128 := mkHdr cNDR false 0 e.part (s.node n) (s.node n) 0 0 0

/-- A message that stands in place of an answer takes SRC, VN, SEQ and PART from the packet in whose place it stands; one
without a packet is from the NI itself and has the VN of its class (R262). -/
def msgFrom (m : Msg) : Option (BitVec 128) → NodeId → Msg
  | some h, _ => { m with src := hSrc h, vn := BitVec.ofNat 3 (hVn h), seq := hSeq h, part := hPart h }
  | none, me => { m with src := me }

/-- The messages for lines that end with a code (R246, R262): in place of the packet `src`, whose LOAD is `load`, or from
the NI itself. -/
def State.failUnitBy (s : State) (n k : Nat) (lines : List Nat) (code : Code) (src : Option (BitVec 128)) (load : Nat) : State :=
  let e := (s.niOf n).led k
  if 256 ≤ k || e.owner ≠ .unit || e.mute then s
  else lines.foldl (fun s j =>
    match failMsg e j code with
    | some m => s.answerUnit n (msgFrom m src (s.node n)) load
    | none => s) s

/-- The messages for lines that end with a code, from the NI itself. -/
def State.failUnit (s : State) (n k : Nat) (lines : List Nat) (code : Code) : State := s.failUnitBy n k lines code none 0

/-! How entries end -/

/-- The outcome of a line of an entry, if it has one. -/
def LEntry.codeOf (e : LEntry) (j : Nat) : Option Code := (e.codes.find? fun c => c.1 = j).map (·.2)

/-- The state, code, split address and split_unknown that the lines of an entry give it (R251, R327, R443, R444). One of
R499 is DONE or FAILED, unless its initiator check split it (log 125). -/
def LEntry.outcome (e : LEntry) : LState × Code × Nat × Bool :=
  match (List.range e.lines).find? fun j => e.codeOf j ≠ some OK with
  | none => (.done, OK, 0, false)
  | some j =>
    let c := (e.codeOf j).getD OK
    if noCompletion e.cls e.opc && e.inl.isNone then (.failed, c, 0, false)
    else if e.codes.any fun x => x.2 = OK || x.2 = PARTIAL then
      match e.inl.filter (fun l => l.1 = j) with
      | some (_, a) => (.partially, PARTIAL, a, false)
      | none => if c = PARTIAL then (.partially, PARTIAL, 0, true)
                else (.partially, PARTIAL, e.addr.toNat / 64 * 64 + 64 * j, false)
    else (.failed, c, 0, false)

/-- What the ending of an entry adds to Tally (R379). -/
def State.countEnd (s : State) (n k : Nat) : State :=
  let e := (s.niOf n).led k
  let hit := fun f => bit e.filt f
  let s := if e.code = TIMEOUT then s.countN n 0x35 1 unfiltered else s
  if e.st = .done then
    if 256 ≤ k then s
    else (s.countN n 0x32 1 hit).countN n 0x33 (min (s.fc - e.leftFc) (2 ^ 20)) hit
  else s.countN n 0x34 1 hit

/-- A pending barrier covers an entry presented before it (R223, R225). DESIGN CHOICE (log 139): a scheduled message belongs
to the scope of the queue it was presented for, though R207 makes its flow a domain of its own. -/
def Barrier.covers (b : Barrier) (e : LEntry) : Bool :=
  e.ord < b.ord && (b.scope ≠ .queue || (e.owner = .unit && (e.qsel = b.queue || e.stores.any fun q => q.1 = b.queue.toNat && decide (q.2.1 < b.ord))))

/-- The pending ORDER barriers take note of a write that ended with a code (R223). -/
def Ni.barNote (x : Ni) (e : LEntry) (code : Code) : Ni :=
  if code = OK || !e.write then x else
  { x with bars := x.bars.map fun b =>
      if b.covers e && (match b.bad with | some (o, _) => decide (e.ord < o) | none => true) then { b with bad := some (e.ord, code) }
      else b }

/-- An entry ends: its state and code are set once, it becomes free, its outcome reaches its owner, and what R448 names
is journaled, and a D2H Data that ends at its source (R238). -/
def State.endEntry (s : State) (n k : Nat) (st : LState) (code : Code) (split : Nat) (unk : Bool) : State :=
  let e := (s.niOf n).led k
  let s := s.modLed n k fun e => { e with st := st, code := code, split := BitVec.ofNat 52 split, splitUnk := unk }
  let s := (s.modNi n fun x => (x.freeEntry k).barNote e code).ownerDone e.owner code
  let s := s.countEnd n k
  if code ≠ OK && (256 ≤ k || st = .partially || noCompletion e.cls e.opc || (e.chan = 8 && !e.injected)) then
    s.ledgerJ n k (if e.injected then kENDED else kSOURCE) code (if e.injected then e.ok else 0)
  else s

/-- An entry becomes STUCK when its transaction timer expires (R445): its owner has the outcome TIMEOUT. -/
def State.stickEntry (s : State) (n k : Nat) : State :=
  let e := (s.niOf n).led k
  let s := s.modNi n fun x => (x.modLed k fun e =>
    { e with st := .stuck, code := TIMEOUT, timer := none, retryAt := none }).barNote e TIMEOUT
  let s := ((s.ownerDone e.owner TIMEOUT).niErr n 6).countN n 0x35 1 unfiltered
  s.ledgerJ n k kENDED TIMEOUT ((s.niOf n).led k).ok

/-- An entry whose every line has an outcome ends. -/
def State.finish (s : State) (n k : Nat) : State :=
  let e := (s.niOf n).led k
  if e.isOpen && e.awaited.isEmpty then
    let (st, code, split, unk) := e.outcome
    s.endEntry n k st code split unk
  else s

/-- Lines of an open entry take outcomes. -/
def LEntry.take (e : LEntry) (l : List (Nat × Code)) : LEntry :=
  let new := l.filter fun (j, _) => e.awaited.contains j
  { e with codes := e.codes ++ new, ok := e.ok + (new.filter fun c => c.2 = OK).length }

/-- Completions that would pass those of earlier lines of a non-posted TLP wait for them (R248). -/
def LEntry.iocHeld (e : LEntry) (from_ : Nat) : Bool :=
  e.cls = cION && e.owner = .unit && (e.awaited.head?.any fun j => decide (j < from_))

/-- A completion packet, or an answer that stands for the lines of one, is kept until the earlier lines have theirs. -/
def LEntry.holdIoc (e : LEntry) (from_ : Nat) (p : Pkt) : LEntry := { e with heldIoc := e.heldIoc ++ [(from_, p)] }

/-- Lines of an entry end with a code, in place of the answer `src` or at the source itself: the unit is answered, and
the entry ends when no line is left. -/
def State.failLinesBy (s : State) (n k : Nat) (lines : List Nat) (code : Code) (src : Option (BitVec 128)) (load : Nat) : State :=
  let e := (s.niOf n).led k
  if !e.isOpen then s else
  let todo := lines.filter fun j => e.awaited.contains j
  let first := todo.headD 0
  if e.iocHeld first then
    s.modLed n k fun e =>
      e.holdIoc first { hdr := src.getD (s.ownHdr n e), body := List.replicate todo.length (setStatus 0 code, 0) }
  else
    let s := s.failUnitBy n k todo code src load
    (s.modLed n k fun e => e.take (todo.map fun j => (j, code))).finish n k

/-- Lines of an entry end with a code at the source. -/
def State.failLines (s : State) (n k : Nat) (lines : List Nat) (code : Code) : State := s.failLinesBy n k lines code none 0

/-- Every line of an entry that has no outcome ends with a code. -/
def State.failAll (s : State) (n k : Nat) (code : Code) : State := s.failLines n k ((s.niOf n).led k).awaited code

/-- A late or unmatched answer: discarded and journaled (R446, R450). -/
def State.lateAnswer (s : State) (n : Nat) (hdr : BitVec 128) (status : Code) (unmatched : Bool) : State :=
  (s.niErr n 7).journal
    { code := status, kind := kLATE, where_ := whereNi n, part := some (hPart hdr), init := hDst hdr, tgt := hSrc hdr,
      tag := hTag hdr, detail := BitVec.ofNat 16 (status.toNat + flag unmatched * 256), posted := tagPosted (hTag hdr),
      injected := true }

/-- Where requests that name no injection queue wait (R442). -/
abbrev ownQueue : Nat := 256

end Sys2Proof.Machine
end

