-- ==== Sys2Proof/Machine/Build.lean ====
section
/-! DEFINITION. A source NI's injection queues and the packets it builds from their messages: descriptors and occupancy
(R183 to R186), cutting (R76, R248, R250), the initiator check at the take and the checks of the lookup (R501 steps 6 to
9), requests on the fabric's own behalf (R442), and the hold of R398. -/

namespace Sys2Proof.Machine

/-! Queues -/

/-- The index of the descriptor of queue `j` of NI `n` (R183). -/
def State.qDesc (s : State) (n j : Nat) : Nat := s.fld (INJ_QBASE n) 13 0 + j
/-- The address of word `w` of a queue descriptor (R184). -/
abbrev QD (q w : Nat) : Nat := 0x2C00000 + 16 * q + 4 * w
/-- The number of queues of NI `n`. -/
def State.qCount (s : State) (n : Nat) : Nat := min (s.fld (INJ_QBASE n) 24 16) 256
/-- Queue `j` exists, is valid and is owned by NI `n` (R183). -/
def State.qValid (s : State) (n j : Nat) : Bool :=
  j < s.qCount n && s.qDesc n j < 16384 && s.rbit (QD (s.qDesc n j) 0) 31 && s.fld (QD (s.qDesc n j) 0) 6 0 = n
/-- The partition of queue `j`. -/
def State.qPart (s : State) (n j : Nat) : BitVec 9 := BitVec.ofNat 9 (s.fld (QD (s.qDesc n j) 0) 16 8)
/-- Queue `j` is an any_part queue. -/
def State.qAny (s : State) (n j : Nat) : Bool := s.rbit (QD (s.qDesc n j) 0) 17

/-- Classes whose packets carry a line in each flit. -/
def dataCls (cls : BitVec 4) : Bool := cls = cRWD || cls = cIOP

/-- Flits that a waiting message holds (R186). -/
def QItem.flits (it : QItem) : Nat :=
  match it.pkt with
  | some p => p.body.length
  | none => if dataCls it.cls then it.body.length else it.nfl

/-- Flits of queue `j` held at an NI, those of its packets that are leaving included (R184, R186). -/
def Ni.occ (x : Ni) (j : Nat) : Nat :=
  ((x.queue j).map QItem.flits).sum + ((x.cur.filter (fun c => c.q = some j)).map fun c => c.flits.length).sum +
  (if x.schQ = some j then x.schRest.length else 0)

/-- The queues that hold flits of messages or of packets that are leaving. -/
def Ni.heldQueues (x : Ni) : List Nat :=
  ((x.queues.map (·.1) ++ x.cur.filterMap (·.q) ++ x.schQ.toList).filter (· < 256)).dedup

/-- Flits of the injection buffer in use: requests of the fabric's own and drained lines are not limited (R186, R218). -/
def Ni.bufUsed (x : Ni) : Nat := (x.heldQueues.map fun j => x.occ j).sum

/-- Flits that all queues of partition `p` hold at NI `n`, write-combining lines left out (R336). -/
def State.partOcc (s : State) (n : Nat) (p : BitVec 9) : Nat :=
  let x := s.niOf n
  ((x.heldQueues.filter (fun j => !s.qAny n j && s.qPart n j = p)).map fun j =>
    x.occ j - (((x.queue j).filter (·.wcb)).map QItem.flits).sum).sum

/-! Partitions at an NI -/

/-- The state of a partition (R338). -/
def State.partState (s : State) (p : Nat) : Nat := s.fld (PART_STAT p) 2 0
/-- NI `n` is a member of partition `p` (R335). -/
def State.member (s : State) (n p : Nat) : Bool := s.rbit (PART_NI0 p + 4 * (n / 32)) (n % 32)

/-- A message of `f` flits may be taken into queue `j` (R186); PART_SHARE acts at the member NIs of its partition (R336). -/
def State.roomFor (s : State) (n j f : Nat) : Bool :=
  let x := s.niOf n
  x.occ j + f ≤ s.fld (QD (s.qDesc n j) 1) 25 16 && x.bufUsed + f ≤ Config.injCap n &&
  (s.qAny n j || !s.member n (s.qPart n j).toNat || s.partOcc n (s.qPart n j) + f ≤ getBits (s.rdMc (PART_SHARE (s.qPart n j).toNat)) 9 0)

/-- A bit of INJ_STAT[2:0] set (R205, R479). -/
def State.injErr (s : State) (n b : Nat) : State := (s.setBit (INJ_STAT n) b).niErr n 4

/-! Flow contexts (R170) -/

def fcValid (c : BitVec 256) : Bool := bit c 24
def fcExits (c : BitVec 256) : Bool := bit c 25
def fcSrc (c : BitVec 256) : Nat := getBits c 23 16
def fcCls (c : BitVec 256) : BitVec 4 := c.extractLsb' 32 4
def fcPart (c : BitVec 256) : BitVec 9 := c.extractLsb' 48 9
def fcDst (c : BitVec 256) : NodeId := c.extractLsb' 64 10
def fcLen (c : BitVec 256) : Nat := getBits c 82 80
def fcSels (c : BitVec 256) : Nat := getBits c 95 88
def fcRoute (c : BitVec 256) : BitVec 36 := c.extractLsb' 96 36

/-- The routers that a flow's route visits on this die (R170). -/
def fcRouters (n : Nat) (c : BitVec 256) : List Nat :=
  (walk (Config.niRouter n) [] ((List.range (fcSels c)).map fun i => getBits (fcRoute c) (3 * i + 2) (3 * i))).1

/-! Cutting -/

/-- Most lines of a packet (R248, R250). -/
def State.maxPkt (s : State) (n : Nat) (cls : BitVec 4) : Nat :=
  if Config.niKind n = .pni && (cls = cREQ || cls = cRWD) then 2 ^ s.fld (PNI_CTRL n) 2 1 else 8

/-- Lines of the next packet of a transfer at line address `a` with `k` lines left (R250, R76). -/
def cutAt (maxP : Nat) (gran : Option Nat) (a k : Nat) : Nat :=
  let l := a / 64
  let c := min (min k maxP) (64 - l % 64)
  match gran with
  | some g => if g < 4096 then min c (g / 64 - l % (g / 64)) else c
  | none => c

/-- Packets that a transfer is cut into. -/
def cutCount (maxP : Nat) (gran : Option Nat) : Nat → Nat → Nat → Nat
  | 0, _, _ => 0
  | fuel + 1, a, k => if k = 0 then 0 else
      let c := cutAt maxP gran a k
      1 + cutCount maxP gran fuel (a + 64 * c) (k - c)

/-- The sidecar of the part of a TLP that spans lines `lidx` to `lidx + k - 1` (R248): ADDR64 and DWLEN, and FBE and LBE
where they are byte enables and no message code (R42). The lines of an ID-routed one count from its first dword. -/
def ioPart (sc : BitVec 128) (lidx k : Nat) : BitVec 128 :=
  let d := tlpDwords sc
  if !tlpAddrRouted (sOpc sc) then (if lidx = 0 && d ≤ 16 * k then sc else putBits sc 79 70 (min (16 * k) (d - 16 * lidx))) else
  let a := (sAddr64 sc).toNat / 4 * 4
  let b := if lidx = 0 then a else (a / 64 + lidx) * 64
  let e := min (a + 4 * d) ((a / 64 + lidx + k) * 64)
  let dw := (e - b) / 4
  let last := e = a + 4 * d
  let lbe0 := if d = 1 then sFbe sc else sLbe sc
  let fbe := if lidx = 0 then (if dw = 1 && last && d ≠ 1 then sFbe sc &&& lbe0 else sFbe sc)
             else if dw = 1 && last then lbe0 else 15
  let lbe := if dw = 1 then 0 else if last then lbe0 else 15
  let sc := putBits (putBits sc 63 0 b) 79 70 dw
  if tlpMessage (sOpc sc) then sc else putBits (putBits sc 83 80 fbe) 87 84 lbe

/-- The flits of the next packet of `k` lines of a message (R36, R42, R43). -/
def QItem.cut (it : QItem) (k : Nat) : List (BitVec 128 × BitVec 512) :=
  let sc := (it.body.headD (0, 0)).1
  let a := it.addr.setWidth 52
  match it.cls.toNat with
  | 0 => [(if bit it.opc 7 then sc else setRlen (setAddr sc a) (k - 1), 0)]
  | 1 => (it.body.take k).zipIdx.map fun ((x, d), i) => (setFidx (setAddr x (a + BitVec.ofNat 52 (64 * i))) i, d)
  | 7 => (it.body.take k).zipIdx.map fun ((x, d), i) => (setFidx (ioPart x it.lidx k) i, d)
  | 8 => [(ioPart sc it.lidx k, (it.body.headD (0, 0)).2)]
  | _ => it.body.take 1

/-- What remains of a message after a packet of `k` lines. -/
def QItem.rest (it : QItem) (k : Nat) : QItem :=
  { it with addr := BitVec.ofNat 64 ((it.addr.toNat / 64 + k) * 64), lidx := it.lidx + k, lines := it.lines - k,
            body := if dataCls it.cls then it.body.drop k else it.body, nfl := it.nfl - 1 }

/-! Resolving a message (R501 step 7) -/

/-- The lookup that resolves a message; a flow's context and a Sheaf group's number stand in its place (R115, R158). DESIGN
CHOICE (log 141): a flow's context, which has no leaf, counts as prefetchable (PF 1) for a read-ahead read (R235). -/
def State.resolve (s : State) (n : Nat) (it : QItem) : Found :=
  match it.flow, it.sheaf with
  | some f, _ =>
    let c := s.flowOf f.toNat
    if fcValid c && fcSrc c = n && fcCls c = it.cls && !s.ring then
      let on := (fcRouters n c).tail
      { dst := fcDst c, part := some (fcPart c), pf := true, route := fcRoute c, fenced := on.any s.fenced }
    else { code := DECODE }
  | none, some g => { dst := mkNode s.die 127, route := g.setWidth 36 }
  | none, none =>
    s.look { n := n, key := (match it.key with | .addr _ => .addr (it.addr.setWidth 52) | k => k), vn := vnOf it.cls,
             cls := it.cls, resv := isResvOp it.cls it.opc, mask := s.fenceMask }

/-- A write-combining line whose packet has left, or whose message has ended, is free (R218, R221). -/
def Ni.dropLine (x : Ni) (tag : BitVec 12) : Ni := { x with wcb := x.wcb.filter fun l => l.tag ≠ tag }

/-- The lines of a message that are not in a packet yet, those that its initiator check refused among them. -/
def QItem.left (it : QItem) : Nat := it.lines + it.failN

/-- The lines from `from_` on of a message fail with a code, and what is left of it leaves the queue (R324). -/
def State.failRest (s : State) (n : Nat) (it : QItem) (from_ : Nat) (code : Code) : State :=
  let k := tagKey it.tag
  let s := if it.wcb then s.modNi n fun x => x.dropLine it.tag else s
  if from_ = 0 then s.failAll n k code
  else s.failLines n k ((List.range (it.lidx + it.left)).filter (from_ ≤ ·)) code

/-- Queue `j` with the item at position `i` replaced. -/
def Ni.putItem (x : Ni) (j i : Nat) (new : List QItem) : Ni :=
  x.setQueue j ((x.queue j).take i ++ new ++ (x.queue j).drop (i + 1))

/-! The initiator check at the take (R320, R323 to R325, R501 step 6) -/

/-- What line `l` of a message accesses, counted from the message's first line (R319): the line's bytes of a write that
comes line by line, else the whole message. `sc` is the sidecar that came with the line. -/
def QItem.accessAt (it : QItem) (l : Nat) (sc : BitVec 128) : Option Access :=
  let sc := if it.cls = cRWD then setAddr sc (BitVec.ofNat 52 (it.addr.toNat + 64 * (l - it.lidx))) else sc
  (accessOf it.cls [(sc, 0)] (match it.key with | .pbr p => p.toNat | _ => 0)).map fun a =>
    if it.cls = cREQ && !bit it.opc 7 then { a with units := (List.range it.lines).map fun i => (it.addr.toNat + 64 * i, 64) }
    else if it.cls = cIOP && a.space = 0 then
      { a with units := a.units.filter fun u => u.1 / 64 = (sAddr64 sc).toNat / 64 + l }
    else a

/-- The first line of the part, as a message is cut, that line `l` is in; `a` and `k` are the address and the number of the
lines from line `at_` on (R250, R324). -/
def partStart (maxP : Nat) (gran : Option Nat) (l : Nat) : Nat → Nat → Nat → Nat → Nat
  | 0, at_, _, _ => at_
  | fuel + 1, at_, a, k =>
    let c := max 1 (cutAt maxP gran a k)
    if l < at_ + c || k ≤ c then at_ else partStart maxP gran l fuel (at_ + c) (a + 64 * c) (k - c)

/-- The part of a message of NI `n` that line `l` is in, by its first line. -/
def State.partOfLine (s : State) (n : Nat) (it : QItem) (l : Nat) : Nat :=
  partStart (s.maxPkt n it.cls) it.gran l 65 it.lidx it.addr.toNat it.lines

/-- Line `l` of a message writes nothing: no BMASK bit of it is set. -/
def QItem.blank (it : QItem) (l : Nat) : Bool := it.cls = cRWD && sBmask (it.body.getD (l - it.lidx) (0, 0)).1 = 0

/-- A message whose line `l` has verdict `v`, reduced to its permitted prefix, and the lines of the message that are kept
(R323, R325). Where nothing of the part that begins at line `p` is permitted, the part is refused whole. -/
def QItem.reduce (it : QItem) (p l : Nat) (v : Verdict) : QItem × Nat :=
  let none' := v.done = 0 && (List.range (l - p)).all fun i => it.blank (p + i)
  let keep := if none' then p else if v.done = 0 then l else l + 1
  let sc := (it.body.headD (0, 0)).1
  match it.cls.toNat with
  | 0 => ({ it with lines := v.done }, v.done)
  | 1 =>
    let body := it.body.take (keep - it.lidx)
    let last := body.length - 1
    ({ it with lines := keep - it.lidx,
               body := if v.done = 0 then body else body.take last ++ reduceBody cRWD (body.drop last) v.done }, keep)
  | 7 =>
    let before := ((tlpBytes sc).filter fun b => ((sAddr64 sc).toNat / 4 * 4 + b) / 64 < (sAddr64 sc).toNat / 64 + l).length
    ({ it with lines := keep - it.lidx,
               body := (it.body.take (keep - it.lidx)).map fun (x, d) => (reduceTlp x (before + v.done), d) }, keep)
  | 8 =>
    let x := reduceTlp sc v.done
    let k := if v.done = 0 then 0 else if tlpHasData it.opc then 1 else ioLines it.opc x
    ({ it with lines := k, body := it.body.map fun b => (x, b.2) }, k)
  | _ => (it, 0)

/-- The lines still to come of a burst whose message has ended are dropped as they come. -/
def Ni.dropBurst (x : Ni) (tag : BitVec 12) : Ni :=
  { x with burst := x.burst.map fun (c, w, left) => (c, w.filter (fun t => t.1 ≠ tag), left) }

/-- The Tally filters that a message refused by its initiator check matches: the packet it would be (R379, R380). -/
def State.checkHits (s : State) (n : Nat) (it : QItem) : Nat → Bool :=
  s.hits (niTile n) { hdr := mkHdr it.cls it.flow.isSome (it.flow.getD 0) it.part (s.node n) 0 0 it.tag 0, sc := (it.body.headD (0, 0)).1 }

/-- The initiator check of lines `ls` of the message at position `i` of queue `j`, made as they are taken, part by part: the
message is reduced to its permitted prefix, and its other lines end with the failure code once the parts kept are built, or
with the code of one of those (R320, R323 to R325, R327; DEDUCED, log 25). -/
def State.checkLines (s : State) (n j i : Nat) (ls : List Nat) : State :=
  match ((s.niOf n).queue j).drop i |>.head? with
  | none => s
  | some it =>
    let access (l : Nat) : Option Access := it.accessAt l (it.body.getD (l - it.lidx) (0, 0)).1
    let verdict (l : Nat) : Verdict :=
      match access l with
      | some a => if it.owner = .unit then s.check n false it.anyPart it.part (s.node n) a
                  else s.check n false (256 ≤ j || s.qAny n j) (s.qPart n j) (s.node n) a
      | none => {}
    let s := if ls.any fun l => (access l).isSome && s.partOfLine n it l = l then s.readShadow n false else s
    let at_ := ls.findSome? fun l => (access l).bind fun a => a.units.head?.map (·.1)
    let s := s.modLed n (tagKey it.tag) fun e => if e.first.isSome then e else { e with first := at_ }
    match ls.find? fun l => (verdict l).code ≠ OK with
    | none => s
    | some l =>
      let v := verdict l
      let whole := (it.cls = cREQ || it.cls = cION) && v.done ≠ 0
      let p := s.partOfLine n it (if whole then it.lidx + v.split / 64 - it.addr.toNat / 64 else l)
      let (it', kept) := it.reduce p l v
      let s := (s.ruleNote n false (if kept = p then { v with code := v.fail } else { v with code := PARTIAL })).countN n 0x2A 1
        (s.checkHits n it)
      let it' := { it' with failN := it.lidx + it.lines - kept, failCode := v.fail }
      let s := s.modNi n fun x => (x.dropBurst it.tag).putItem j i (if kept ≤ it.lidx then [] else [it'])
      let s := s.modLed n (tagKey it.tag) fun e =>
        if kept = 0 then e else { e with inl := some (v.split / 64 - e.addr.toNat / 64, v.split) }
      if kept ≤ it.lidx then s.failRest n it kept v.fail else s

/-! Requests on the fabric's own behalf -/

/-- The queue item of a request that a block of the fabric sends (R442): one packet, from queue `qsel` of NI `n`, checked
as any request of that NI (R320, R322). None while no entry of its kind is free. -/
def State.sendOwn (s : State) (n : Nat) (qsel : Option Nat) (o : Owner) (cls : BitVec 4) (opc : BitVec 8) (posted : Bool)
    (key : Key) (part : BitVec 9) (addr : Nat) (body : List (BitVec 128 × BitVec 512)) : Option State :=
  let x := s.niOf n
  let e : LEntry := { qsel := BitVec.ofNat 8 (qsel.getD 0xFF), cls := cls, opc := opc, owner := o, part := part,
                      addr := BitVec.ofNat 52 addr, lines := if cls = cRWD then body.length else 1, ord := x.ordN,
                      write := posted || cls = cRWD, arb := !posted && (cls = cREQ || cls = cRWD), hdr := (body.headD (0, 0)).1 }
  (x.alloc posted e).map fun (k, x) =>
    let q := qsel.getD ownQueue
    let it : QItem := { tag := keyTag k, cls := cls, opc := opc, key := key, part := part, anyPart := true, ord := x.ordN,
                        addr := BitVec.ofNat 64 addr, lines := if cls = cRWD then body.length else 1, body := body,
                        owner := o, qsel := BitVec.ofNat 8 (qsel.getD 0xFF), taken := s.fc }
    (s.setNi n (({ x with ordN := x.ordN + 1 } : Ni).setQueue q (x.queue q ++ [it]))).checkLines n q (x.queue q).length
      (List.range (if cls = cRWD then body.length else 1))

/-- A request of the fabric's own named to queue `q` of NI `n` (R442): a queue that R183 refuses ends it with DECODE, and it
waits until the queue's limits take it (R186, R368). -/
def State.sendVia (s : State) (n q : Nat) (o : Owner) (cls : BitVec 4) (opc : BitVec 8) (posted : Bool) (key : Key)
    (part : BitVec 9) (addr : Nat) (body : List (BitVec 128 × BitVec 512)) : Option State :=
  if s.qValid n q then (if s.roomFor n q body.length then s.sendOwn n (some q) o cls opc posted key part addr body else none)
  else some ((s.injErr n 1).ownerDone o DECODE)

/-! Accesses of management memory by the schedule loader and by partition SAVE and RESTORE (R173, R346, R348, R442). Their
packets are not followed: a command of the table stands for the whole access and brings its outcome (log 132). -/

/-- The Ledger entry that such an access takes at MNI `n`; none while none is free. -/
def State.memOpen (s : State) (n : Nat) (o : Owner) (write : Bool) (addr : Nat) : Option (Nat × State) :=
  let x := s.niOf n
  let e : LEntry := { cls := if write then cRWD else cREQ, opc := 0x01, owner := o, addr := BitVec.ofNat 52 addr, ord := x.ordN,
                      write := write, injected := true, leftFc := s.fc }
  (x.alloc false e).map fun (k, x) =>
    (k, s.setNi n (({ x with ordN := x.ordN + 1 } : Ni).modLed k fun e => { e with st := .issued }))

/-- The access ends with a code; one whose timer has expired leaves its entry STUCK (R445). -/
def State.memClose (s : State) (n k : Nat) (o : Owner) (code : Code) : State :=
  let e := (s.niOf n).led k
  if !e.isOpen || e.owner ≠ o then s
  else if code = TIMEOUT then s.stickEntry n k
  else s.endEntry n k (if code = OK then .done else .failed) code 0 false

/-- The initiator check of such an access of `len` bytes, privileged as its MNI is, reads the NI's shadow (R318, R322): how many bytes come before the
first that is not permitted, and its failure code. -/
def State.memCheck (s : State) (n : Nat) (write : Bool) (addr len : Nat) : State × Nat × Code :=
  let units := if write then (List.range len).map fun i => (addr + i, 1)
    else (List.range ((addr % 64 + len + 63) / 64)).map fun i => (addr / 64 * 64 + 64 * i, 64)
  let v := s.check n false true 0 (s.node n) { kind := flag write, units := units }
  let s := (s.readShadow n false).countN n 0x2A (flag (v.code ≠ OK)) unfiltered
  (s.ruleNote n false v, if v.code = OK then (len, OK) else (v.split - addr, v.fail))

/-! Steps 7 to 9 of R501 -/

/-- Entries of a requester's backoff for a target that still waits (R203). -/
def Ni.backingOff (x : Ni) (p : BitVec 9) (d : NodeId) : Bool :=
  x.backoff.any fun b => b.part = p && b.node = d && b.waiting

/-- The code with which a resolved message fails, if any (R501 steps 7 and 8, R227, R231, R235). -/
def State.resolvedCode (s : State) (n j : Nat) (it : QItem) (f : Found) : Code :=
  let part := f.part.getD it.part
  if f.code ≠ OK then f.code
  else if it.ra && !f.pf then DECODE
  else if isResvOp it.cls it.opc && 80 ≤ nodeNi f.dst then DECODE
  else if it.owner = .unit && j < 256 && !it.anyPart && it.cls ≠ cMGT && part ≠ s.qPart n j then RULE
  else if isResvOp it.cls it.opc && it.cls = cRWD && !((s.niOf n).own.any fun o => o.node = f.dst && o.part = part) then
    RESV_LOST
  else if it.ra && (s.niOf n).backingOff part f.dst then BACKOFF
  else if f.fenced && (it.ra || s.fld PWR_HOLD 23 0 = 0) then FENCED
  else OK

/-- Marks of a lookup in the NI's and the bank's registers and in Tally (R71, R94, R235, R379). -/
def State.resolvedMarks (s : State) (n j : Nat) (it : QItem) (f : Found) : State :=
  let s := if it.flow.isSome || it.sheaf.isSome then s else
    let s := s.lookCount n f
    if f.code ≠ OK then (s.rtFail n f.code f.idx).countN n 0x25 1 unfiltered else s
  let s := if f.code = OK && it.ra && !f.pf then s.setBit (ORD_STAT n) 0 else s
  if f.code = OK && it.owner = .unit && j < 256 && !it.anyPart && it.cls ≠ cMGT && f.part.getD it.part ≠ s.qPart n j then
    s.injErr n 2 else s

/-- What the requester's last message for a target, the one presented as `ord`, said with the hold flag (R198). -/
def Ni.noteHold (x : Ni) (part : BitVec 9) (d : NodeId) (hold : Bool) (ord : Nat) : Ni :=
  let upd (h : HoldRec) : HoldRec := if h.holdOrd ≤ ord then { h with hold := hold, holdOrd := ord } else h
  if x.holds.any (fun h => h.part = part && h.node = d) then
    { x with holds := modFirst (fun h => h.part = part && h.node = d) upd x.holds }
  else { x with holds := x.holds ++ [{ part := part, node := d, hold := hold, holdOrd := ord }] }

/-- The next packet of the message at position `i` of queue `j` is resolved and built (R70, R76, R250, R501). A part whose
lines have not all been taken waits. After the last part that the initiator check kept, the lines it refused end (R324). -/
def State.buildAt (s : State) (n j i : Nat) : State :=
  match (s.niOf n).queue j |>.drop i |>.head? with
  | none => s
  | some it =>
    if it.pkt.isSome then s else
    let f := s.resolve n it
    let gran := if it.lidx = 0 then f.gran else it.gran
    let it := { it with gran := gran }
    let k := cutAt (s.maxPkt n it.cls) gran it.addr.toNat it.lines
    if dataCls it.cls && it.body.length < min k it.lines then s else
    let tag := tagKey it.tag
    let body := it.cut k
    let s := (s.resolvedMarks n j it f).modLed n tag fun e => { e with dst := if e.dstSet then e.dst else f.dst }
    let code := s.resolvedCode n j it f
    if code ≠ OK then (s.modNi n fun x => x.putItem j i []).failRest n it it.lidx code
    else if f.fenced then
      s.modNi n fun x => x.putItem j i [{ it with held := some (it.held.getD s.fc), mask := s.fenceMask }]
    else
      let part := f.part.getD it.part
      let hdr := mkHdr it.cls false (it.flow.getD 0) part (s.node n) f.dst f.route it.tag (body.length - 1)
      let built : QItem := { it with pkt := some { hdr := hdr, body := body }, lines := k, sprayed := f.sprayed.isSome,
                                     held := none, part := part, mask := s.fenceMask, failN := 0 }
      let s := s.modNi n fun x => x.putItem j i (if k < it.lines then [built, { it.rest k with held := none }] else [built])
      let s := if it.lidx = 0 && it.owner = .unit && !it.wcb then s.modNi n fun x => x.noteHold part f.dst it.hold it.ord else s
      let s := (s.sprayed n (vnOf it.cls) f).modLed n tag fun e =>
        { e with dst := if e.dstSet then e.dst else f.dst, dstSet := true, part := if e.dstSet then e.part else part }
      if k < it.lines then s else s.failLines n tag ((List.range it.failN).map (it.lidx + it.lines + ·)) it.failCode

/-- The position of the oldest message of a queue that has no packet yet. -/
def Ni.unbuilt (x : Ni) (j : Nat) : Option Nat := (x.queue j).findIdx? fun it => it.pkt.isNone

/-- The lookup of the oldest message of queue `j` that has no packet (R58, R70). A held message waits for
`holdRelookup`. -/
def State.buildQueue (s : State) (n j : Nat) : State :=
  match (s.niOf n).unbuilt j with
  | none => s
  | some i =>
    match (s.niOf n).queue j |>.drop i |>.head? with
    | some it => if it.held.isSome then s else s.buildAt n j i
    | none => s

/-- The head of queue `j` is held for a fenced target and the mask has changed: the lookup is repeated (R398). -/
def State.relook (s : State) (n j : Nat) : State :=
  match (s.niOf n).queue j with
  | it :: _ => if it.held.isSome && it.pkt.isNone && it.mask ≠ s.fenceMask then s.buildAt n j 0 else s
  | [] => s

/-- The hold of the head of queue `j` has lasted its time: it fails with FENCED (R398). -/
def State.holdEnd (s : State) (n j : Nat) : State :=
  match (s.niOf n).queue j with
  | it :: _ =>
    match it.held with
    | some t =>
      if it.pkt.isNone && t + s.fld PWR_HOLD 23 0 ≤ s.fc && s.mode ≠ .frozen then
        let s := s.modNi n fun x => x.putItem j 0 []
        (s.failRest n it it.lidx FENCED).satFld PWR_CNT 15 0 1
      else s
    | none => s
  | [] => s

/-! Commands -/

/-- HOLD_RELOOKUP (R398) of an injection queue, or of the requests of the fabric's own (queue 256). -/
def execHoldRelookup (n : Fin 80) (q : Fin 257) (s : State) : Out := .next (s.atTile (niTile n) fun s => s.relook n q)
/-- HOLD_EXPIRE (R398) of an injection queue, or of the requests of the fabric's own (queue 256). A lookup that the mask's
change makes due is made first (R405). -/
def execHoldExpire (n : Fin 80) (q : Fin 257) (s : State) : Out := .next (s.atTile (niTile n) fun s => (s.relook n q).holdEnd n q)

end Sys2Proof.Machine
end

