-- ==== Sys2Proof/Machine/Wcb.lean ====
section
/-! DEFINITION. Inbound credits (R240, R241), the write-combining buffer (R215 to R220) and barriers (R222 to R226). -/

namespace Sys2Proof.Machine

/-! Inbound credits (R240, R241) -/

/-- The unit holds a credit of an inbound class (R240). -/
def Ni.inCredit (x : Ni) (c : BitVec 4) : Nat := Tbl.get (fun _ => 0) x.inCred c.toNat

/-- A transfer uses one inbound credit of its class, which the NI returns later (R240). -/
def Ni.useCredit (x : Ni) (c : BitVec 4) : Ni :=
  { x with inCred := Tbl.upd (fun _ => 0) c.toNat (· - 1) x.inCred,
           inRet := if 0 < x.inCredit c then x.inRet ++ [c.toNat] else x.inRet }

/-- The NI returns the oldest of the inbound credits it owes, one in each unit cycle (R240). -/
def Ni.returnCredit (x : Ni) : Ni :=
  match x.inRet with
  | [] => x
  | c :: rest => { x with inRet := rest, inCred := Tbl.upd (fun _ => 0) c (· + 1) x.inCred }

/-- A message of an inbound class has been taken by NI `n`. -/
def State.credUse (s : State) (n : Nat) (c : BitVec 4) : State := s.modNi n fun x => x.useCredit c

/-! Lines -/

/-- The sidecar of a line's packet (R218). -/
def WLine.sidecar (l : WLine) : BitVec 128 :=
  setBmask (setAddr (setOpc (l.meta_.setWidth 128) (if l.bmask = BitVec.allOnes 64 then 0x01 else 0x02))
    (BitVec.ofNat 52 (l.line.toNat * 64))) l.bmask

/-- The message of a closed line, as it joins the queue of the store that allocated it (R218). -/
def WLine.item (l : WLine) (fc : Nat) : QItem :=
  { tag := l.tag, cls := cRWD, opc := sOpc l.sidecar, key := l.key, part := l.part,
    anyPart := true, ord := l.ord, addr := BitVec.ofNat 64 (l.line.toNat * 64), body := [(l.sidecar, l.data)],
    taken := fc, wcb := true, qsel := l.queue, stores := l.stores }

/-- The first `k` lines are closed and join their queues in the order of their allocation (R217, R218). -/
def Ni.closeFirst (x : Ni) (fc k : Nat) : Ni :=
  let new := (x.wcb.take k).filter fun l => !l.joined
  let x := new.foldl (fun (x : Ni) l => x.setQueue l.queue.toNat (x.queue l.queue.toNat ++ [l.item fc])) x
  { x with wcb := (x.wcb.take k).map (fun l => { l with closed := true, joined := true }) ++ x.wcb.drop k }

/-- The lines that satisfy `p` close, and with each every line allocated before it (R217). -/
def Ni.closeLines (x : Ni) (fc : Nat) (p : WLine → Bool) : Ni :=
  match (x.wcb.zipIdx.filter fun l => p l.1).getLast? with
  | some (_, i) => x.closeFirst fc (i + 1)
  | none => x

/-- Every line closes (R221). -/
def Ni.closeAll (x : Ni) (fc : Nat) : Ni := x.closeFirst fc x.wcb.length

/-- The window of line `i` has ended (R217). -/
def State.wcbClose (s : State) (n i : Nat) : State :=
  match (s.niOf n).wcb.drop i |>.head? with
  | some l => if !l.closed && l.alloc + s.fld (WCB_CTRL n) 15 4 ≤ s.fc && s.mode ≠ .frozen then
      s.modNi n fun x => x.closeFirst s.fc (i + 1) else s
  | none => s

/-- Bytes of a line that a store's mask enables replace the line's bytes (R216). -/
def mergeBytes (old new : BitVec 512) (m : BitVec 64) : BitVec 512 :=
  (List.range 64).foldl (fun d i => if bit m i then putBits d (8 * i + 7) (8 * i) (getBits new (8 * i + 7) (8 * i)) else d) old

/-- The key of a store's line (R216). -/
def sameLine (l : WLine) (part : BitVec 9) (d : NodeId) (sc : BitVec 128) : Bool :=
  !l.closed && l.part = part && l.dst = d && l.line.toNat = (sAddr sc).toNat / 64 && l.meta_ = sMeta sc

/-- A store of queue `j` with its order of presentation joins those of a line. -/
def noteStore (j ord : Nat) : List (Nat × Nat × Nat) → List (Nat × Nat × Nat)
  | [] => [(j, ord, ord)]
  | (q, a, b) :: t => if q = j then (q, a, ord) :: t else (q, a, b) :: noteStore j ord t

/-- A combined store is taken and answered to its unit at once (R219). -/
def State.cmpNow (s : State) (n : Nat) (etag : BitVec 16) (part : BitVec 9) : State :=
  (s.credUse n 1).answerUnit n { cls := 3, etag := etag, vn := 2, part := part, src := s.node n } 0

/-- A combined store from queue `j` is merged or allocates a line, and its hold flag is noted; it waits while no line or
entry is free (R198, R215, R216, R219, R232). The oldest line closes when none is free. -/
def State.wcbStore (s : State) (n j : Nat) (key : Key) (etag : BitVec 16) (part : BitVec 9) (d : NodeId) (sc : BitVec 128)
    (data : BitVec 512) (hold : Bool) : State :=
  let x := s.niOf n
  let late (l : WLine) : Bool := !l.closed && l.alloc + s.fld (WCB_CTRL n) 15 4 ≤ s.fc
  let x := x.closeLines s.fc late
  let m := sBmask sc
  match x.wcb.findIdx? (fun l => sameLine l part d sc) with
  | some i =>
    let upd (l : WLine) : WLine := { l with data := mergeBytes l.data data m, bmask := l.bmask ||| m,
                                            stores := noteStore j x.ordN l.stores }
    let x := { x with wcb := x.wcb.take i ++ ((x.wcb.drop i).take 1).map upd ++ x.wcb.drop (i + 1), ordN := x.ordN + 1 }
    let x := (x.wcb.drop i |>.take 1).foldl (fun (x : Ni) l =>
      let x := x.modLed (tagKey l.tag) fun e => { e with stores := l.stores, hdr := l.sidecar }
      if l.bmask = BitVec.allOnes 64 then x.closeFirst s.fc (i + 1) else x) x
    ((s.setNi n (x.noteHold part d hold (x.ordN - 1))).countN n 0x30 1 unfiltered).cmpNow n etag part
  | none =>
    if 32 ≤ x.wcb.length then s.setNi n (x.closeFirst s.fc 1)
    else
      let e : LEntry := { qsel := BitVec.ofNat 8 j, cls := cRWD, opc := 0x02, part := part, dst := d, dstSet := true,
                          addr := sAddr sc, ord := x.ordN, write := true, chan := 1, hdr := sc, stores := noteStore j x.ordN [] }
      match x.alloc true e with
      | none => s.setNi n x
      | some (k, x) =>
        let l : WLine := { tag := keyTag k, key := key, queue := BitVec.ofNat 8 j, part := part, dst := d,
                           line := BitVec.ofNat 46 ((sAddr sc).toNat / 64), meta_ := sMeta sc, bmask := m, data := data,
                           alloc := s.fc, ord := x.ordN, stores := noteStore j x.ordN [] }
        let x := { x with wcb := x.wcb ++ [l], ordN := x.ordN + 1 }
        let x := if m = BitVec.allOnes 64 || s.fld (WCB_CTRL n) 15 4 = 0 then x.closeFirst s.fc x.wcb.length else x
        (s.setNi n (x.noteHold part d hold (x.ordN - 1))).cmpNow n etag part

/-- The lines that a message of partition `part` over `k` lines from address `a` overlaps (R220). -/
def Ni.overlaps (x : Ni) (part : BitVec 9) (a k : Nat) : List WLine :=
  x.wcb.filter fun l => l.part = part && a / 64 ≤ l.line.toNat && l.line.toNat < a / 64 + k

/-- A message closes the open lines it overlaps, and waits for all of them (R220). -/
def State.hazards (s : State) (n : Nat) (part : BitVec 9) (a k : Nat) : State × List Nat :=
  let ls := (s.niOf n).overlaps part a k
  let opened := (ls.filter fun l => !l.closed).length
  let s := s.modNi n fun x => x.closeLines s.fc fun l => ls.any fun h => h.ord = l.ord
  ((if opened = 0 then s else s.satFld (WCB_STAT n) 15 8 opened), ls.map (·.ord))

/-! Barriers -/

/-- A barrier's completion for its unit (R222, R242). -/
def barCpl (etag : BitVec 16) (code : Code) : Msg :=
  { cls := 0xF, etag := etag, vn := 7, ctrl := BitVec.ofNat 48 (1 + code.toNat * 256) }

/-- Scopes and kinds that an NI takes (R222). -/
def barrierOk (n : Nat) (k : BarKind) (sc : BarScope) : Bool :=
  match sc with
  | .queue | .ni => true
  | .die => k = .rule && Config.niKind n = .mni
  | .undefined => false

/-- A barrier is presented at NI `n` (R222 to R226). One that finds eight pending is not taken. -/
def State.takeBarrier (s : State) (n : Nat) (k : BarKind) (sc : BarScope) (q : BitVec 8) (etag : BitVec 16) : State :=
  if !barrierOk n k sc then (s.credUse n 15).toUnit n { barCpl etag DECODE with src := s.node n }
  else if 8 ≤ (s.niOf n).bars.length then s
  else
    let s := s.credUse n 15
    let mine (l : WLine) : Bool := sc ≠ .queue || l.stores.any fun t => t.1 = q.toNat
    let s := if k = .rule then s else s.modNi n fun x => x.closeLines s.fc mine
    let x := s.niOf n
    let upto := if k = .rule then 0 else ((x.wcb.filter mine).getLast?.map fun l => l.ord + 1).getD 0
    let marks := if sc = .die then (List.range 87).map fun m => (m, (s.niOf m).ordN, (s.niOf m).ckN) else []
    let b : Barrier := { kind := k, scope := sc, queue := q, etag := etag, ord := x.ordN, upto := upto, marks := marks }
    s.setNi n { x with bars := x.bars ++ [b], ordN := x.ordN + 1 }

/-- A packet that NI `x` checked before ordinal `ck` is still unanswered (R225). A KNI checks none: the packets that pass
through it have no order of check. -/
def Ni.checkedOpen (x : Ni) (ck : Nat) : Bool :=
  ((x.gran ++ x.work).any fun h => h.checkOrd ≠ 0 && h.checkOrd ≤ ck) || (x.schAsm.any fun a => a.ckOrd ≠ 0 && a.ckOrd ≤ ck) || (x.asm.any fun l => l.2.any fun a => a.ckOrd ≠ 0 && a.ckOrd ≤ ck)

/-- The condition of a pending barrier holds (R223 to R225). -/
def State.barrierDone (s : State) (n : Nat) (b : Barrier) : Bool :=
  let x := s.niOf n
  match b.kind with
  | .order => x.ledger.all fun (_, e) => !(e.write && b.covers e && e.isOpen)
  | .drain => x.wcb.all fun l => b.upto ≤ l.ord
  | .rule =>
    if b.scope = .die then
      b.marks.all fun (m, o, ck) =>
        ((s.niOf m).ledger.all fun (_, e) => !(e.isOpen && e.ord < o)) && !(s.niOf m).checkedOpen ck
    else x.ledger.all fun (_, e) => !(b.covers e && e.isOpen)

/-- An ORDER or DRAIN barrier holds a message presented after it in its scope (R223, R224). -/
def Ni.barred (x : Ni) (j ord : Nat) : Bool :=
  x.bars.any fun b => b.kind ≠ .rule && b.ord < ord && (b.scope ≠ .queue || b.queue.toNat = j)

/-- An ORDER or DRAIN barrier holds a queued message, or a write-combining line for one of its stores (R223, R224). -/
def Ni.barredItem (x : Ni) (j : Nat) (it : QItem) : Bool := x.barred j it.ord || it.stores.any fun t => x.barred t.1 t.2.2

/-- The oldest pending barrier of NI `n` whose condition holds completes, while a class 0xF credit is left (R223 to R225,
R241). -/
def State.barComplete (s : State) (n : Nat) : State :=
  let x := s.niOf n
  if Tbl.get (fun _ => 0) x.outCred 15 ≤ (x.outq.filter fun m => m.msg.cls = 15).length then s else
  match x.bars.find? (s.barrierDone n) with
  | none => s
  | some b =>
    let code := if b.kind = .order then (b.bad.map (·.2)).getD OK else OK
    let s := s.modNi n fun x => { x with bars := eraseFirst (· = b) x.bars }
    let s := if code ≠ OK && !s.rbit (BAR_STAT n) 16 then ((s.setFld (BAR_STAT n) 15 8 code.toNat).setBit (BAR_STAT n) 16).niErr n 14
      else s
    s.toUnit n { barCpl b.etag code with src := s.node n }

/-! Commands -/

/-- WCB_WINDOW_CLOSE (R217). -/
def execWcbWindowClose (n : Fin 80) (line : Fin 32) (s : State) : Out := .next (s.atTile (niTile n) fun s => s.wcbClose n line)
/-- BARRIER_COMPLETE (R223 to R225). -/
def execBarrierComplete (n : Fin 80) (s : State) : Out := .next (s.atTile (niTile n) fun s => s.barComplete n)

end Sys2Proof.Machine
end

