-- ==== Sys2Proof/Machine/Intake.lean ====
section
/-! DEFINITION. How a source NI takes a request from its attached unit: the handshake errors of R243, the checks of R501,
bursts (R250), sideband events (R260) and MGT requests (R485). -/

namespace Sys2Proof

open Machine

/-! The request a message asks for -/

/-- The internal class of a channel class (R244). -/
def chanCls (c : BitVec 4) : BitVec 4 :=
  match c.toNat with
  | 0 | 6 => cREQ | 1 | 8 => cRWD | 2 | 7 => cBRSP | 3 | 0xA => cNDR | 4 | 0xB => cDRS | 5 | 9 => cBSNP
  | 0xC => cIOP | 0xD => cION | 0xE => cIOC | _ => cMGT

/-- Channel classes that carry requests (R242): the rest are answers. -/
def chanRequest (c : BitVec 4) : Bool := [0, 1, 5, 6, 8, 9, 0xC, 0xD].contains c.toNat
/-- Channel classes of CXL.cache (R238). -/
def chanCache (c : BitVec 4) : Bool := 6 ≤ c.toNat && c.toNat ≤ 0xB
/-- The CTRL subtype (R242, R485). -/
def Msg.sub (m : Msg) : Nat := getBits m.ctrl 3 0

/-- The OPC of the packet that a message asks for (R41, R244, R485): OPC[7] is 0 for CXL.mem and 1 for CXL.cache. -/
def Msg.opc (m : Msg) : BitVec 8 :=
  match m.cls.toNat with
  | 0 | 1 => sOpc m.hdr &&& 0x7F
  | 2 | 3 | 4 | 5 => sOpc m.hdr &&& 0x0F
  | 8 | 0xB => 0x80
  | 6 | 7 | 9 => 0x80 + (sOpc m.hdr &&& 0x1F)
  | 0xA => 0xA0 + (sOpc m.hdr &&& 0x1F)
  | 0xF => m.ctrl.extractLsb' 8 8
  | _ => sOpc m.hdr

/-- The sidecar of one line of a message (R42, R54, R244, R247, R485). -/
def Msg.sidecar (m : Msg) : BitVec 128 :=
  let base := trimSc (chanCls m.cls) (setPsn (setOpc (setFidx m.hdr 0) m.opc) m.psn)
  match m.cls.toNat with
  | 0 => setRlen base 0
  | 1 | 8 => setBmask base m.bmask
  | 6 => setRlen base (m.ansCnt.toNat - 1)
  | _ => base

/-- The data of one line of a request message: a class without data carries none (R35, R242). -/
def Msg.payload (m : Msg) : BitVec 512 :=
  if m.cls = 1 || m.cls = 8 || m.cls = 0xF || ((m.cls = 0xC || m.cls = 0xD) && tlpHasData m.opc) then m.data else 0

/-- The message is in the extended-metadata form of 256-byte flit mode (MetaField 0b01 of CXL 3.1, log 11), which is not
carried (R238). -/
def Msg.extMeta (m : Msg) : Bool :=
  match m.cls.toNat with
  | 0 | 1 => getBits m.hdr 1 0 = 1
  | 3 | 4 => getBits m.hdr 17 16 = 1
  | _ => false

/-- The requests that an M2S opcode names (R238; encodings of CXL 3.1, log 11). -/
def m2sReqDefined (o : Nat) : Bool := [0, 1, 2, 3, 4, 5, 6, 8, 9, 0xA, 0xC, 0xD, 0xF].contains o
def m2sRwdDefined (o : Nat) : Bool := [1, 2, 4, 5, 9, 0xA, 0xD, 0xF].contains o

/-- A posted TLP: a memory write or a message (PCIe, log 11). -/
def ioPostedType (opc : BitVec 8) : Bool :=
  let ty := getBits opc 4 0
  !bit opc 7 && ((ty = 0 && tlpHasData opc) || 0x10 ≤ ty && ty ≤ 0x17)
/-- A non-posted TLP: a memory read, an I/O or configuration request, an atomic, or a deferrable write (PCIe, log 11). -/
def ioNonPostedType (opc : BitVec 8) : Bool :=
  let ty := getBits opc 4 0
  !bit opc 7 && ((ty = 0 && !tlpHasData opc) || [1, 2, 4, 5, 0xC, 0xD, 0xE, 0x1B].contains ty)

/-- The lines that a message stands for (R242, R248, R250). -/
def Msg.lines (m : Msg) : Nat :=
  match m.cls.toNat with
  | 0 | 1 => m.blen.toNat + 1
  | 0xC | 0xD => ioLines m.opc m.sidecar
  | _ => 1

/-- The Ledger's lines of a message: the answers of a D2H Req (R247). -/
def Msg.ledLines (m : Msg) : Nat := if m.cls = 6 then m.ansCnt.toNat else m.lines

/-- The request is posted (R34, R498). -/
def Msg.posted (m : Msg) : Bool := m.cls = 0xC || (m.cls = 0xF && mgtKind m.opc = .posted)

/-- The address of a message's first line or byte. -/
def Msg.addr (m : Msg) : BitVec 64 :=
  match m.cls.toNat with
  | 0xC | 0xD => if tlpAddrRouted m.opc then BitVec.ofNat 64 ((sAddr64 m.hdr).toNat / 4 * 4) else 0
  | 0xF => (mAddr m.hdr).setWidth 64
  | _ => (sAddr m.hdr).setWidth 64

/-- The lookup key at NI `n` (R65), or none for a message that has none. NODE is a field of the service and management
channels only (R242, R485). DESIGN CHOICE (log 140): of a valid NODE and a valid destination PBR ID in one request, which
both have a row of R65, NODE is the key. -/
def Msg.key (m : Msg) (n : Nat) : Option Key :=
  if m.cls = 0xF || (bit m.node 10 && Config.niKind n ≠ .pni) then (if bit m.node 10 then some (.node (m.node.extractLsb' 0 10)) else none)
  else if bit m.pbr 12 then some (.pbr (m.pbr.extractLsb' 0 12))
  else if (m.cls = 0xC || m.cls = 0xD) && !tlpAddrRouted m.opc then none
  else if m.addr.toNat < 2 ^ 52 then some (.addr (m.addr.setWidth 52))
  else none

/-- A scheduled flow is named (R242). -/
def Msg.flowOf (m : Msg) : Option (BitVec 12) :=
  if bit m.flow 12 && m.cls ≠ 0xF then some (m.flow.extractLsb' 0 12) else none
/-- A Sheaf group is named (R242, R255). -/
def Msg.group (m : Msg) : Option (BitVec 8) :=
  if (m.cls = 5 || m.cls = 9) && bit m.sheaf 8 then some (m.sheaf.extractLsb' 0 8) else none

/-- The message has an address whose lines it may overlap (R220): ID-routed TLPs, MGT requests and Sheaf snoops have none. -/
def Msg.hazardous (m : Msg) : Bool :=
  m.cls ≠ 0xF && m.group.isNone && ((m.cls ≠ 0xC && m.cls ≠ 0xD) || tlpAddrRouted m.opc)

end Sys2Proof

namespace Sys2Proof.Machine

/-! Sheaf groups (R125) -/

/-- Field `w` of width `k` of group `g` at router `r`. -/
def State.sheafFld (s : State) (r g hi lo : Nat) : Nat := s.fld (SHEAF r (g / 2)) (hi + 16 * (g % 2)) (lo + 16 * (g % 2))
def State.sheafMask (s : State) (r g : Nat) : Nat := s.sheafFld r g 7 0
def State.sheafRoot (s : State) (r g : Nat) : Bool := s.sheafFld r g 8 8 = 1
def State.sheafCount (s : State) (r g : Nat) : Nat := s.sheafFld r g 15 9

/-! Step 2 of R501 -/

/-- A flow that a message names has no valid context here, or the personality has no flow routes (R158, R161, R157). -/
def State.flowBad (s : State) (n : Nat) (m : Msg) : Bool :=
  match m.flowOf with
  | none => false
  | some f =>
    let c := s.flowOf f.toNat
    !s.feat fSCHEDULED || s.ring || !fcValid c || fcSrc c ≠ n || fcCls c ≠ chanCls m.cls || m.group.isSome

/-- The code of step 2 of R501; OK when the message passes. -/
def State.step2 (s : State) (n : Nat) (m : Msg) : Code :=
  let o := getBits m.opc 3 0
  let resv := (m.cls = 0 || m.cls = 1) && o = 0xF
  let spec : Code :=
    if chanCache m.cls && (!s.feat fCACHE || bit m.sheaf 8) || m.extMeta then DECODE
    else if m.cls = 0 && !m2sReqDefined o || m.cls = 1 && !m2sRwdDefined o then DECODE
    else if resv && (!s.feat fRESERVED_RW || m.flowOf.isSome || m.comb || getBits m.opc 6 4 ≠ 0) then DECODE
    else if m.cls = 1 && resv && m.bmask = 0 then DECODE
    else if m.cls = 0 && m.blen ≠ 0 && !(o = 1 || o = 2 || o = 8) then SIZE
    else if m.cls = 1 && m.blen ≠ 0 && !(o = 1 || o = 2) then SIZE
    else if (m.cls = 1 || m.cls = 0xC) && m.lidx ≠ 0 then SIZE
    else if m.cls = 6 && !(m.ansCnt = 1 || m.ansCnt = 2) then DECODE
    else if m.group.isSome && (!s.feat fSHEAF || s.ring || m.blen ≠ 0 ||
        !s.sheafRoot (Config.niRouter n) ((m.group.getD 0).toNat)) then DECODE
    else if m.cls = 0xC && !ioPostedType m.opc || m.cls = 0xD && !ioNonPostedType m.opc then DECODE
    else if m.cls = 0xD && tlpHasData m.opc && sDwlen m.sidecar ≠ 1 then SIZE
    else if m.cls = 0xF && mgtKind m.opc = .response then DECODE
    else if s.flowBad n m then DECODE
    else if (m.key n).isNone && m.group.isNone && m.flowOf.isNone then DECODE
    else OK
  spec

/-! Refusals before an entry is allocated (R238, R246, R501) -/

/-- The stand-in for the entry that a refused message never took. -/
def msgGhost (m : Msg) (part : BitVec 9) : LEntry :=
  { etag := m.etag, part := part, chan := m.cls, opc := m.opc, hdr := m.sidecar, lines := m.ledLines,
    addr := m.addr.setWidth 52 }

/-- A message discarded or refused is journaled as kind SOURCE (R238, R243, R448). -/
def State.sourceJ (s : State) (n : Nat) (m : Msg) (part : Option (BitVec 9)) (code : Code) : State :=
  s.journal { code := code, kind := kSOURCE, where_ := whereNi n, part := part, init := s.node n, addr := m.addr,
              posted := m.posted }

/-- A request refused before it takes an entry (R501 steps 1 and 2). One that draws no answer is journaled (R238, R499). -/
def State.refuse (s : State) (n : Nat) (m : Msg) (part : BitVec 9) (code : Code) : State :=
  if m.posted || m.cls = 8 || noCompletion (chanCls m.cls) m.opc then s.sourceJ n m (some part) code
  else (List.range m.ledLines).foldl (fun s j =>
    match failMsg (msgGhost m part) j code with
    | some a => s.answerUnit n { a with src := s.node n } 0
    | none => s) s

/-! Taking -/

/-- The burst of a channel class whose lines are still being taken: who they belong to, and the lines to come (R250). -/
def Ni.burstOf (x : Ni) (c : BitVec 4) : Option (BitVec 12 × Nat) × Nat := Tbl.get (fun _ => (none, 0)) x.burst c.toNat
def Ni.setBurst (x : Ni) (c : BitVec 4) (b : Option (BitVec 12 × Nat) × Nat) : Ni :=
  { x with burst := Tbl.set (fun _ => (none, 0)) c.toNat b x.burst }
/-- One line of the burst has been taken. -/
def Ni.burstTaken (x : Ni) (c : BitVec 4) (who : Option (BitVec 12 × Nat)) : Ni :=
  let left := (x.burstOf c).2 - 1
  x.setBurst c (if left = 0 then (none, 0) else (who, left))

/-- The message is one line of a burst of its class that began before (R250). -/
def Ni.continues (x : Ni) (m : Msg) : Bool :=
  (m.cls = 1 || m.cls = 0xC) && m.lidx ≠ 0 && 0 < (x.burstOf m.cls).2

/-- The next line of a burst: it joins what is left of its message, unless it must wait (R186) or the message has ended,
and is checked as it is taken (R320). -/
def State.takeLine (s : State) (n : Nat) (m : Msg) : State :=
  let x := s.niOf n
  match (x.burstOf m.cls).1 with
  | none => (s.setNi n (x.burstTaken m.cls none)).credUse n m.cls
  | some (tag, j) =>
    match (x.queue j).findIdx? (fun it => it.tag = tag && it.pkt.isNone) with
    | none => (s.setNi n (x.burstTaken m.cls none)).credUse n m.cls
    | some i =>
      if !s.roomFor n j 1 then s else
      match ((x.queue j).drop i).head? with
      | none => s
      | some it =>
        let l := it.lidx + it.body.length
        let it := { it with body := it.body ++ [(m.sidecar, m.payload)], taken := s.fc }
        let s := (s.setNi n ((x.putItem j i [it]).burstTaken m.cls (some (tag, j)))).credUse n m.cls
        let s := s.checkLines n j i [l]
        if ((((s.niOf n).queue j).drop i).head?).any (fun it => it.flow.isSome && it.tag = tag) then s.buildAt n j i else s

/-- Flits that a message needs in its queue: its packets, or its first line (R186). -/
def State.need (s : State) (n : Nat) (m : Msg) (gran : Option Nat) : Nat :=
  if dataCls (chanCls m.cls) then 1 else cutCount (s.maxPkt n (chanCls m.cls)) gran 65 m.addr.toNat m.lines

/-- The queue item of a message (R183, R250). -/
def msgItem (m : Msg) (n fc j : Nat) (tag : BitVec 12) (part : BitVec 9) (any : Bool) (ord nfl : Nat) (hz : List Nat) :
    QItem :=
  { tag := tag, cls := chanCls m.cls, opc := m.opc, key := (m.key n).getD (.node 0), part := part, anyPart := any,
    ra := m.ra || isSpecRd (chanCls m.cls) m.opc, ord := ord, addr := m.addr, lines := m.lines,
    body := [(m.sidecar, m.payload)], nfl := nfl, flow := m.flowOf, taken := fc, hold := m.hold, sheaf := m.group,
    qsel := BitVec.ofNat 8 j, hazard := hz }

/-- The Ledger entry of a message (R442). -/
def State.entryOf (s : State) (n j : Nat) (m : Msg) (part : BitVec 9) (ord : Nat) : LEntry :=
  { etag := m.etag, part := part, qsel := BitVec.ofNat 8 j, cls := chanCls m.cls, opc := m.opc, sched := m.flowOf.isSome,
    lines := m.ledLines, addr := m.addr.setWidth 52, ord := ord, chan := m.cls, hdr := m.sidecar,
    write := m.cls = 1 || m.cls = 8 || m.posted,
    sheaf := (m.group.map fun g => s.sheafCount (Config.niRouter n) g.toNat).getD 0, flow := m.flowOf,
    pbr := (match m.key n with | some (.pbr p) => p | _ => 0),
    arb := m.cls = 0 || m.cls = 1 || m.cls = 6 || m.cls = 8 || m.cls = 0xD }

/-- A store that may be combined, with what its lookup gives (R215). -/
def State.combines (s : State) (n : Nat) (m : Msg) (f : Found) : Bool :=
  s.feat fWCB && s.rbit (WCB_CTRL n) 0 && m.comb && m.cls = 1 && (m.opc = 0x01 || m.opc = 0x02) && m.blen = 0 &&
  m.flowOf.isNone && !m.psn && f.code = OK

/-- What a message's lookup, or its flow context, gives (R59, R158, R501 step 7). -/
def State.lookFor (s : State) (n : Nat) (m : Msg) : Found :=
  match m.flowOf with
  | some fl => { part := some (fcPart (s.flowOf fl.toNat)) }
  | none => s.look { n := n, key := (m.key n).getD (.node 0), vn := vnOf (chanCls m.cls), cls := chanCls m.cls,
                     resv := isResvOp (chanCls m.cls) m.opc, mask := s.fenceMask }

/-- The code of steps 3 to 5 of R501. -/
def State.stateCode (s : State) (n j : Nat) : Code :=
  let qp := s.qPart n j
  if privileged (s.node n) || s.qAny n j then (if s.fenced (niTile n) then FENCED else OK)
  else if s.partState qp.toNat ≠ 2 then FENCED
  else if !s.member n qp.toNat then RULE
  else if s.fenced (niTile n) then FENCED
  else OK

/-- What a store accesses, for the check before it is combined (R215). -/
def State.storeAccess (s : State) (n j : Nat) (m : Msg) : Option Access :=
  (msgItem m n s.fc j 0 (s.qPart n j) (s.qAny n j) 0 0 []).accessAt 0 m.sidecar

/-- A store goes to the write-combining buffer (R215, R501). -/
def State.toWcb (s : State) (n j : Nat) (m : Msg) : Bool :=
  let f := s.lookFor n m
  let any := s.qAny n j
  s.stateCode n j = OK && s.combines n m f && (any || f.part.getD (s.qPart n j) = s.qPart n j) &&
  (s.storeAccess n j m).all fun a => (s.check n false any (s.qPart n j) (s.node n) a).code = OK

/-- The flits that a message asks of queue `j` (R186). -/
def State.asks (s : State) (n : Nat) (m : Msg) : Nat := s.need n m (if m.flowOf.isSome then none else (s.lookFor n m).gran)

/-- A message that is not taken: its partition holds it (R338), or the queue's limits do (R186). -/
def State.heldBack (s : State) (n j : Nat) (m : Msg) : Bool :=
  let qp := s.qPart n j
  (!privileged (s.node n) && !s.qAny n j && 3 ≤ s.partState qp.toNat && s.rbit (PART_CTRL qp.toNat) 4) ||
  (!s.toWcb n j m && !s.roomFor n j (s.asks n m))

/-- A message passes step 2 and is taken into queue `j`: steps 3 to 6 (R501), then the write-combining buffer or the
queue. It waits while no Ledger entry is free. -/
def State.enqueue (s : State) (n j : Nat) (m : Msg) : State :=
  let any := s.qAny n j
  let qp := s.qPart n j
  let f := s.lookFor n m
  let part := f.part.getD qp
  let code3 := s.stateCode n j
  if s.toWcb n j m then
    (if (s.storeAccess n j m).isNone then s else s.readShadow n false).wcbStore n j ((m.key n).getD (.node 0)) m.etag part f.dst
      m.sidecar m.data m.hold
  else
    let x := s.niOf n
    let part := if any then part else qp
    match x.alloc m.posted (s.entryOf n j m part x.ordN) with
    | none => s
    | some (k, x) =>
      let bad := code3 ≠ OK
      let x := { x with ordN := x.ordN + 1 }
      let x := if dataCls (chanCls m.cls) && 1 < m.lines then
          x.setBurst m.cls (if bad then none else some (keyTag k, j), m.lines - 1) else x
      let need := s.asks n m
      let s := (s.setNi n x).credUse n m.cls
      if bad then (if code3 = RULE then s.injErr n 2 else s).failAll n k code3
      else
        let (s, hz) := if m.hazardous then s.hazards n part m.addr.toNat m.lines else (s, [])
        let it := { msgItem m n s.fc j (keyTag k) part any (x.ordN - 1) need hz with
                    gran := if m.flowOf.isSome then none else f.gran }
        let i := ((s.niOf n).queue j).length
        let s := (s.modNi n fun x => x.setQueue j (x.queue j ++ [it])).checkLines n j i [0]
        if it.flow.isSome || it.sheaf.isSome then s.buildAt n j i else s

/-- A request message of a class other than control (R501). -/
def State.takeRequest (s : State) (n : Nat) (m : Msg) : State :=
  let j := m.qsel.toNat
  if (s.niOf n).continues m then s.takeLine n m
  else
    let dropRest (s : State) : State :=
      let s := s.credUse n m.cls
      if dataCls (chanCls m.cls) && 1 < m.lines then s.modNi n fun x => x.setBurst m.cls (none, m.lines - 1) else s
    if !s.qValid n j then dropRest ((s.injErr n 1).refuse n m 0 DECODE)
    else
      let c := s.step2 n m
      if s.heldBack n j m then s
      else if c ≠ OK then dropRest (s.refuse n m (s.qPart n j) c) else s.enqueue n j m

/-! Handshake errors (R243) -/

/-- The credits of an inbound class at the start of the channel (R241, R485). -/
def State.startCred (s : State) (n : Nat) (c : BitVec 4) : Nat := Tbl.get (fun _ => 0) (s.niOf n).inStart c.toNat

/-- CTRL subtypes that are defined inbound (R243, R485). -/
def subOk (n : Nat) (m : Msg) : Bool :=
  match m.sub with
  | 0 | 2 => true
  | 3 | 4 => Config.niKind n ≠ .pni
  | _ => false

/-- The PMC_STAT bits of the handshake errors of a message (R243). -/
def State.handshake (s : State) (n : Nat) (m : Msg) : List Nat :=
  (if (s.niOf n).inCredit m.cls = 0 then [0] else []) ++
  (if s.startCred n m.cls = 0 || (m.cls = 0xF && !subOk n m) then [1] else []) ++ (if m.unstable then [2] else [])

/-- Handshake errors of a message recorded in a PNI's PMC_STAT (R243, R263). -/
def State.pmcErr (s : State) (n : Nat) (bits : List Nat) (cls : Nat) : State :=
  if Config.niKind n ≠ .pni then s else
  let s := if s.fld (PMC_STAT n) 3 0 = 0 then s.setFld (PMC_STAT n) 11 8 cls else s
  (bits.foldl (fun s b => s.setBit (PMC_STAT n) b) s).niErr n 11

/-- An inbound message discarded for its handshake errors (R243). -/
def State.badMessage (s : State) (n : Nat) (m : Msg) (bits : List Nat) : State :=
  ((s.pmcErr n bits m.cls.toNat).sourceJ n m none DECODE).credUse n m.cls

/-! Modes (R415, R417) -/

/-- The mode carries traffic of attached units. -/
def State.carries (s : State) : Bool := [Mode.reserved, .dynamic, .scheduled, .recovery, .test].contains s.mode

/-- The NI takes this message in the present mode: in DRAIN it takes no message that would become a request packet, but
for D2H Data and the lines of a message it has begun to take. -/
def State.takesNow (s : State) (n : Nat) (m : Msg) : Bool :=
  s.carries || (s.mode = .drain &&
    ((!chanRequest m.cls && !(m.cls = 0xF && m.sub = 3)) || m.cls = 8 || (s.niOf n).continues m))

/-! Sideband events (R260) -/

/-- An EVENT message: a PNI with sb_en keeps it for its packet, any other NI discards it (R260, R485). -/
def State.takeEvent (s : State) (n : Nat) (m : Msg) : State :=
  let s := s.credUse n m.cls
  if Config.niKind n ≠ .pni || !s.rbit (PNI_CTRL n) 3 then s
  else s.modNi n fun x =>
    { x with events := x.events ++ [{ opc := m.ctrl.extractLsb' 8 8, data := m.ctrl.extractLsb' 16 32, ord := x.ordN }],
             ordN := x.ordN + 1 }

/-- The oldest event becomes a request when every message before it has been injected and every write before it, earlier
events among them, has ended (R260). -/
def State.eventReady (s : State) (n : Nat) : State :=
  let x := s.niOf n
  match x.events with
  | [] => s
  | e :: rest =>
    let waiting := x.queues.any (fun q => q.2.any fun it => it.ord < e.ord && it.owner = .unit) ||
      x.wcb.any (fun l => l.ord < e.ord) || x.answers.any (fun a => !a.isReq && a.ord ≤ e.ord) ||
      (x.gran ++ x.work).any (fun h => h.ansOrd.any fun o => decide (o ≤ e.ord)) ||
      x.ledger.any (fun (_, l) => l.isOpen && (l.owner = .sideband || (l.write && l.owner = .unit && l.ord < e.ord)))
    if waiting then s else
    let sc := mkMgt e.opc (BitVec.ofNat 32 (s.node n).toNat) 0 0 (e.data.setWidth 68)
    match s.sendOwn n none .sideband cMGT e.opc true (.node (BitVec.ofNat 10 (s.fld (PNI_SB_DST n) 9 0))) 0 (s.node n).toNat [(sc, 0)] with
    | some s => s.modNi n fun x => { x with events := rest }
    | none => s

end Sys2Proof.Machine
end

