-- ==== Sys2Proof/Machine/Journal.lean ====
section
/-! DEFINITION. The Journal writer: the global ring, the partition rings and the partition events (R449 to R453). -/

namespace Sys2Proof.Machine

/-! The layout of an entry (R449) -/

/-- An entry as its 64 bytes. -/
def JEntry.image (e : JEntry) : List (BitVec 8) :=
  let opt {w : Nat} (x : Option (BitVec w)) : Nat := match x with | some v => v.toNat + 2 ^ 15 | none => 0
  leBytes 8 (e.t.toNat / 65536) ++ leBytes 2 (e.t.toNat % 65536) ++ leBytes 1 e.code.toNat ++ leBytes 1 e.kind.toNat ++
  leBytes 2 e.where_.toNat ++ leBytes 2 (opt e.part) ++ leBytes 2 e.init.toNat ++ leBytes 2 e.tgt.toNat ++
  leBytes 2 e.tag.toNat ++ leBytes 2 e.detail.toNat ++ leBytes 8 e.addr.toNat ++ leBytes 8 e.split.toNat ++
  leBytes 16 ((e.raw.getD 0).toNat) ++ leBytes 4 e.seq.toNat ++ leBytes 2 (opt e.flow) ++
  leBytes 1 (flag e.posted + 2 * flag e.injected + 4 * flag e.splitUnk + 8 * flag e.raw.isSome + 16 * flag e.gap) ++
  leBytes 1 0

/-! Events (R453) -/

/-- An event of partition `p` becomes due; one EVT_JOURNAL announces every entry that became due before it. -/
def State.partEvent (s : State) (p : Nat) (opc : BitVec 8) (arg : Nat) : State :=
  if !s.rbit (PEV_CFG p) 0 then s else
  s.modPart p fun x =>
    if opc = 0x20 && x.events.any (fun e => e.opc = 0x20) then
      { x with events := modFirst (fun e => e.opc = 0x20) (fun e => { e with arg := BitVec.ofNat 32 arg }) x.events }
    else { x with events := x.events ++ [{ opc := opc, arg := BitVec.ofNat 32 arg }] }

/-- The oldest event of partition `p` that may go is sent as a posted MGT packet (R453). -/
def State.eventSend (s : State) (p : Nat) : State :=
  let x := s.partOf p
  let may (e : PEvt) : Bool := e.opc ≠ 0x20 ||
    (match x.lastEvt with | some t => t + s.fld (PEV_CFG p) 31 16 ≤ s.mc | none => true)
  match x.events.find? may with
  | none => s
  | some e =>
    let sc := mkMgt e.opc 0 0 0 (e.arg.setWidth 68)
    match s.sendVia (76 + s.fld (PEV_CFG p) 2 1) (s.fld (PEV_CFG p) 15 8) (.partEvent p) cMGT e.opc true
        (.node (BitVec.ofNat 10 (s.fld (PEV_DST p) 9 0))) (BitVec.ofNat 9 p) 0 [(sc, 0)] with
    | none => s
    | some s => (s.modPart p fun x =>
        { x with events := eraseFirst (· = e) x.events, lastEvt := if e.opc = 0x20 then some s.mc else x.lastEvt }).wrapFld
          (PEV_STAT p) 15 0 1

/-! Rings (R451, R452) -/

/-- The kinds that EVT_JOURNAL announces (R453). -/
def announces (e : JEntry) : Bool :=
  ((e.kind = kENDED || e.kind = kTARGET) && e.posted) || e.kind = kFAR || e.kind = kLATE || e.kind = kESCALATE

/-- The partition ring's copy of an entry: none while no Ledger entry is free for it (R442, R452). -/
def State.ringCopy (s : State) (e : JEntry) : Option State :=
  match e.part with
  | none => some s
  | some q =>
    let p := q.toNat
    if !s.rbit (PJ_CFG p) 0 then some s
    else
      let w := s.rd (PJ_WIDX p)
      let size := 2 ^ s.fld (PJ_CFG p) 20 16
      if size ≤ (w - s.rd (PJ_RIDX p)).toNat then
        let s := s.satFld (PJ_STAT p) 15 0 1
        if (s.partOf p).ringFull then some s
        else some ((s.modPart p fun x => { x with ringFull := true }).partEvent p 0x22 (w.toNat % 2 ^ 24))
      else
        let base := s.fld (PJ_BASE_HI p) 19 0 * 2 ^ 32 + s.fld (PJ_BASE_LO p) 31 6 * 64
        let a := (base + 64 * (w.toNat % size)) % 2 ^ 52
        let sc := setBmask (setAddr (setOpc 0 0x01) (BitVec.ofNat 52 a)) (BitVec.allOnes 64)
        let data := BitVec.ofNat 512 (leNat e.image)
        (s.sendVia (76 + s.fld (PJ_CFG p) 2 1) (s.fld (PJ_CFG p) 15 8) (.partRing p) cRWD 0x01 false
            (.addr (BitVec.ofNat 52 a)) q a [(sc, data)]).map fun s =>
          let s := s.wrapFld (PJ_WIDX p) 31 0 1
          if announces e then s.partEvent p 0x20 (e.seq.toNat % 2 ^ 24 + e.code.toNat * 2 ^ 24) else s

/-- The Journal writer writes the oldest entry of its queue, at most one in an mc, while MCLK runs (R412, R451). -/
def State.journalStep (s : State) : State :=
  if s.mclkOff || s.jmc = s.mc + 1 then s else
  match s.jq with
  | [] => s
  | e :: rest =>
    let w := s.rd JRN_WIDX
    if !s.rbit JRN_CTRL 0 && 4096 ≤ (w - s.rd JRN_RIDX).toNat then ({ s with jq := rest }).jdrop
    else
      let e := { e with seq := w, gap := s.jgap }
      match ({ s with jq := rest }).ringCopy e with
      | none => s
      | some s =>
        let s := { s with jring := Tbl.set (fun _ => {}) (w.toNat % 4096) e s.jring, jgap := false, jmc := s.mc + 1 }
        (s.wrapFld JRN_WIDX 31 0 1).countG 0x64 8 1

/-- A write of JRN_SEL copies a ring slot into JRN_DATA (R463). -/
def State.jrnSelect (s : State) (slot : Nat) : State :=
  let img := if s.jring.any (fun x => x.1 = slot) then (Tbl.get (fun _ => {}) s.jring slot).image else []
  forN 16 (fun i s => s.wr (JRN_DATA i) (BitVec.ofNat 32 (imgNat img (4 * i) 4))) s

/-! Commands -/

/-- JOURNAL_WRITE (R451). -/
def execJournalWrite  (s : State) : Out := .next (s.journalStep)
/-- PARTITION_EVENT_SEND (R453). -/
def execPartitionEventSend (p : Fin 512) (s : State) : Out := .next (s.eventSend p)

end Sys2Proof.Machine
end

