-- ==== Sys2Proof/Machine/SchedBank.lean ====
section
/-! DEFINITION. The bank in force (R139, R140, R148), the slot and injection tables (R138, R141, R143, R159), and what a
violation of a published bound does (R178, R179). -/

namespace Sys2Proof.Machine

/-! The bank in force -/

/-- SW_STAT.state (R144): 0 IDLE, 1 LOADED, 2 ARMED, 3 COMMITTED, 4 SWITCHING. -/
def State.swState (s : State) : Nat := s.fld SW_STAT 2 0
/-- SW_STAT.active. -/
def State.activeBank (s : State) : Nat := s.fld SW_STAT 3 3

/-- The mode whose service runs: that from which DRAIN was entered (R415). -/
def State.serviceMode (s : State) : Mode :=
  match s.mode, s.change with
  | .drain, some c => c.from_
  | m, _ => m

/-- The bank in force in fc `t` for a router or NI whose offset registers are at `a` (R148); none is the null table of
R140. A committed switchover is known from its commit on (R147). -/
def State.bankAt (s : State) (a t : Nat) : Option Nat :=
  let act := s.activeBank
  if s.swState = 4 || s.swState = 3 then
    let inc := 1 - act
    let src := if s.sw.kind = 2 then act else inc
    let moved : Bool := decide (s.sw.b + s.fld a (8 * src + 7) (8 * src) ≤ t)
    match s.sw.kind, moved with
    | 0, m => some (if m then inc else act)
    | 1, m => if m then some inc else none
    | _, m => if m then none else some act
  else if s.serviceMode = .scheduled then some act
  else none

/-- The bank in force at router `k`. -/
def State.rtrBank (s : State) (k : Nat) : Option Nat := s.bankAt (RTR_OFF k) s.fc
/-- The bank in force at NI `n`. -/
def State.niBank (s : State) (n : Nat) : Option Nat := s.bankAt (NI_OFF n) s.fc

/-! Slot tables -/

/-- The address of the slot word of router `k`, bank `b`, output `o`, word `w`; its check byte is 0x2000 above (R141). -/
abbrev SLOT (k b o w : Nat) : Nat := 0x2400000 + 0x4000 * k + 0x1000 * b + 0x200 * o + 4 * w
/-- The address of the injection entry of NI `n`, bank `b`, position `p`; its check byte is 0x2000 above (R159). -/
abbrev INJE (n b p : Nat) : Nat := 0x2500000 + 0x4000 * n + 0x1000 * b + 4 * p

/-- A slot word as a router reads it: its value, none when uncorrectable, and whether it was corrected (R143). -/
def State.slotWord (s : State) (k b o w : Nat) : Option Nat × Bool :=
  let d := (s.rd (SLOT k b o w)).toNat
  match eccCheck 6 38 d (s.rd (SLOT k b o w + 0x2000)).toNat with
  | .clean => (some d, false)
  | .fixed d => (some d, true)
  | .bad => (none, false)

/-- Entry `p` of a router output: the input that owns it (R138). -/
def State.slotOwner (s : State) (k b o p : Nat) : Option Nat :=
  match (s.slotWord k b o (p / 8)).1 with
  | none => none
  | some d =>
    let e := d / 16 ^ (p % 8) % 16
    let i := e % 8
    if 8 ≤ e && Config.port k i ≠ .none then some i else none

/-- The owner of output `o` of router `k` in this fc (R138, R139). -/
def State.slotNow (s : State) (k o : Nat) : Option Nat :=
  match s.rtrBank k with
  | some b => s.slotOwner k b o s.rotPos
  | none => none

/-- The marks of reading the slot words of router `k` in this fc (R143). -/
def State.slotMarks (s : State) (k : Nat) : State :=
  match s.rtrBank k with
  | none => s
  | some b => forN 8 (fun o s =>
      match s.slotWord k b o (s.rotPos / 8) with
      | (none, _) => s.pageErr .sched 1
      | (some _, true) => (s.pageErr .sched 2).countR k 0x0D o unfiltered
      | _ => s) s

/-- An injection word as NI `n` reads it: its value, none when uncorrectable, and whether it was corrected (R143, R159). -/
def State.injWord (s : State) (n b p : Nat) : Option Nat × Bool :=
  let d := (s.rd (INJE n b p)).toNat
  match eccCheck 5 21 d (s.rd (INJE n b p + 0x2000)).toNat with
  | .clean => (some d, false)
  | .fixed d => (some d, true)
  | .bad => (none, false)

/-- The flow that a valid injection entry names (R159). -/
def State.injFlow (s : State) (n b p : Nat) : Option Nat :=
  (s.injWord n b p).1.bind fun d => if d.testBit 15 then some (d % 4096) else none

/-- The marks of reading the injection word of the present position at NI `n` (R143, R159), one read in an fc. Tally's
SLOT_CE is a router's event (R379). -/
def State.injMarks (s : State) (n : Nat) : State :=
  match s.niBank n with
  | none => s
  | some b => match s.injWord n b s.rotPos with
    | (none, _) => s.pageErr .sched 1
    | (some _, true) => s.pageErr .sched 2
    | _ => s

/-- Whether bank `b` holds an injection entry of flow `f` at NI `n`. -/
def State.hasInjIn (s : State) (n b f : Nat) : Bool := (List.range 1024).any fun p => s.injFlow n b p = some f

/-- Whether the bank in force at NI `n` holds an injection entry of flow `f` (R161). -/
def State.hasInj (s : State) (n f : Nat) : Bool := (s.niBank n).any fun b => s.hasInjIn n b f

/-! Violations (R178, R179) -/

/-- Flow `f` is demoted. -/
def State.demoted (s : State) (f : Nat) : Bool := s.rbit (FLOW_DEM (f / 32)) (f % 32)

/-- One flow newly demoted: its bit, the count, and its partition's event. -/
def State.demote (s : State) (det f : Nat) : State :=
  let s := ((s.setBit (FLOW_DEM (f / 32)) (f % 32)).satFld DEM_CNT 15 0 1).setFld DEM_CNT 27 16 f
  (s.countG 0x67 8 1).partEvent (fcPart (s.flowOf f)).toNat 0x21 (f + det * 4096)

/-- A violation seen by detector `det` (1 router, 2 entering KNI, 3 destination NI, 4 TIME, 5 audit, 6 adapter) that
demotes the given flows (R179). -/
def State.violation (s : State) (det : Nat) (where_ : BitVec 16) (flows : List Nat) : State :=
  let new := flows.filter fun f => !s.demoted f
  let s := new.foldl (fun s f => s.demote det f) s
  let f := flows.head?
  let c := s.flowOf (f.getD 0)
  (s.pageErr .sched 4).journal
    { code := SCHED_VIOLATION, kind := kSCHED, where_ := where_, part := f.map (fun _ => fcPart c),
      detail := BitVec.ofNat 16 (det + min new.length 4095 * 16), flow := f.map (BitVec.ofNat 12) }

/-- The valid flow contexts whose descriptor satisfies `p`, in ascending order. -/
def State.flowsWhere (s : State) (p : BitVec 256 → Bool) : List Nat :=
  (s.flows.filter fun (_, c) => fcValid c && p c).map (·.1)

end Sys2Proof.Machine
end

