-- ==== Sys2Proof/Machine/Router.lean ====
section
/-! DEFINITION. Routers: arrival at an input (R99 to R102, R106, R116), the allocation and traversal of one router cycle
(R21, R107, R108, R122, R402), links, relays and credits (R103, R104, R504). -/

namespace Sys2Proof.Machine

/-! Links -/

/-- Link cycles of output `o` of router `k` (R125); a change takes effect in the fc after the write (R504). -/
def State.depth (s : State) (k o : Nat) : Nat := getBits (s.rdFc (LINK_DEPTH k)) (2 * o + 1) (2 * o)

/-- The dynamic VC of a VN. -/
def vcOf (vn v : Nat) : Nat := 2 * vn + v
/-- The number that stands for the scheduled bypass on a link. -/
abbrev bypVc : Nat := 16

/-- The link into input `i` of router `k`, and the link into NI `n`. -/
abbrev linkIn (k i : Nat) : Nat := 8 * k + i
abbrev linkNi (n : Nat) : Nat := 448 + n

/-- Credits of output `o` of router `k` for a VC downstream, and whether an unfinished packet holds it (R102). -/
def Rtr.credits (x : Rtr) (o vc : Nat) : Nat := Tbl.get (fun _ => 4) x.cred (16 * o + vc)
def Rtr.isBusy (x : Rtr) (o vc : Nat) : Bool := Tbl.get (fun _ => false) x.busy (16 * o + vc)
def Rtr.setCredits (x : Rtr) (o vc c : Nat) : Rtr := { x with cred := Tbl.set (fun _ => 4) (16 * o + vc) c x.cred }
def Rtr.setBusy (x : Rtr) (o vc : Nat) (b : Bool) : Rtr := { x with busy := Tbl.set (fun _ => false) (16 * o + vc) b x.busy }
def Rtr.vc (x : Rtr) (i vc : Nat) : Vc := Tbl.get (fun _ => {}) x.vcs (16 * i + vc)
def Rtr.setVc (x : Rtr) (i vc : Nat) (v : Vc) : Rtr := { x with vcs := Tbl.set (fun _ => {}) (16 * i + vc) v x.vcs }
def Rtr.bypass (x : Rtr) (i : Nat) : List VFlit := Tbl.get (fun _ => []) x.byp i
def Rtr.setBypass (x : Rtr) (i : Nat) (l : List VFlit) : Rtr := { x with byp := Tbl.set (fun _ => []) i l x.byp }
def Rtr.relayOf (x : Rtr) (o : Nat) : Relay := Tbl.get (fun _ => {}) x.relay o
def Rtr.setRelay (x : Rtr) (o : Nat) (r : Relay) : Rtr := { x with relay := Tbl.set (fun _ => {}) o r x.relay }

/-- Two packets belong to one stream (R45). -/
def sameStream (g h : BitVec 128) : Bool := hSrc g = hSrc h && hDst g = hDst h && hVn g = hVn h

/-- A packet with header `h` would pass packets of its stream that have the headers `before`. DESIGN CHOICE (log 127): no
NI, relay or router lets one VC of a VN do that, as R208 needs; on VN7 the two VCs hold requests and responses, which R102
keeps apart. -/
def passes (h : BitVec 128) (before : List (BitVec 128)) : Bool := hVn h ≠ 7 && before.any (sameStream · h)

/-- The fc from which a credit is usable that would be so from `due`, behind those already on the sideband, which carries
one in an fc (R103). -/
def credDue (fly : List (Nat × Nat)) (due : Nat) : Nat := fly.foldl (fun d c => max d (c.2 + 1)) due

/-- A flit goes onto the link at output `o` of router `k` in this fc (R99, R104). -/
def State.send (s : State) (k o vc : Nat) (f : Flit) (la : Nat) : State :=
  match Config.port k o with
  | .ni n => s.setLink (linkNi n) (s.linkOf (linkNi n) ++ [{ flit := f, due := s.fc + 1 + s.depth k o, vc := vc, la := la }])
  | .router j =>
    if s.depth k o = 2 then
      s.modRtr k fun x => let r := x.relayOf o
                          x.setRelay o { r with flits := r.flits ++ [{ flit := f, due := s.fc + 1, vc := vc, la := la }] }
    else
      let l := linkIn j (Config.inputFrom j k)
      s.setLink l (s.linkOf l ++ [{ flit := f, due := s.fc + 1 + s.depth k o, vc := vc, la := la }])
  | .none => s

/-- A credit for VC `vc` is issued upstream of input `i` of router `k` (R103, R104); credits given up in one fc leave one
after the other. -/
def State.creditUp (s : State) (k i vc : Nat) : State :=
  match Config.port k i with
  | .ni n => s.modNi n fun x => { x with credFly := x.credFly ++ [(vc, credDue x.credFly (s.fc + s.depth k i + 1))] }
  | .router j =>
    let o := Config.inputFrom j k
    if s.depth j o = 2 then
      s.modRtr j fun x => let r := x.relayOf o
                          x.setRelay o { r with fly := r.fly ++ [(vc, credDue r.fly (s.fc + 2))] }
    else
      let fly := s.credOf (8 * j + o)
      s.setCred (8 * j + o) (fly ++ [(vc, credDue fly (s.fc + s.depth j o + 1))])
  | .none => s

/-- The relay of output `o` of router `k` (R104): credits that have come are counted, and one flit that may leave does.
DESIGN CHOICE (log 129): the spec does not say which of several; a scheduled flit goes first, then the oldest that passes
none of its stream (log 127). -/
def State.relayStep (s : State) (k o : Nat) : State :=
  match Config.port k o with
  | .router j =>
    let r := (s.rtrOf k).relayOf o
    if r.flits.isEmpty && r.fly.isEmpty then s else
    let cred := (r.fly.filter (·.2 ≤ s.fc)).foldl (fun c (vc, _) => Tbl.upd (fun _ => 4) vc (fun n => min (n + 1) 4) c) r.cred
    let r := { r with cred := cred, fly := r.fly.filter fun x => s.fc < x.2 }
    let before (y : Fly) : List (BitVec 128) :=
      ((r.flits.takeWhile (· ≠ y)).filter fun z => z.vc ≠ bypVc && z.vc ≠ y.vc).map (·.flit.hdr)
    let may (y : Fly) : Bool := y.due ≤ s.fc &&
      (y.vc = bypVc || (0 < Tbl.get (fun _ => 4) cred y.vc && !passes y.flit.hdr (before y)))
    match (r.flits.find? (fun y => may y && y.vc = bypVc)) <|> (r.flits.find? may) with
    | none => s.modRtr k fun x => x.setRelay o r
    | some y =>
      let r := { r with flits := eraseFirst (· = y) r.flits,
                        cred := if y.vc = bypVc then cred else Tbl.upd (fun _ => 4) y.vc (· - 1) cred }
      let s := s.modRtr k fun x => x.setRelay o r
      let l := linkIn j (Config.inputFrom j k)
      let s := s.setLink l (s.linkOf l ++ [{ y with due := s.fc + 2 }])
      if y.vc = bypVc then s
      else
        let fly := s.credOf (8 * k + o)
        s.setCred (8 * k + o) (fly ++ [(y.vc, credDue fly (s.fc + 2))])
  | _ => s

/-- The oldest credit that has come back to output `o` of router `k` is counted (R103, R126). -/
def State.creditArrive (s : State) (k o : Nat) : State :=
  match (s.credOf (8 * k + o)).find? (·.2 ≤ s.fc) with
  | none => s
  | some c =>
    let s := s.setCred (8 * k + o) (eraseFirst (· = c) (s.credOf (8 * k + o)))
    let n := (s.rtrOf k).credits o c.1
    if 4 ≤ n then (s.pageErr (rtrPage k) 5).tileFault k 3 k
    else s.modRtr k fun x => x.setCredits o c.1 (n + 1)

/-! Outputs -/

/-- The ring number of a packet: select 0 (R122). -/
def ringOf (h : BitVec 128) : Nat := hSel h 0 % 2

/-- The output of a packet at router `k` by its header (R63, R99, R122). -/
def State.headerOut (s : State) (k : Nat) (h : BitVec 128) : Nat :=
  if s.ring then
    let d := nodeNi (hDst h)
    if nodeDie (hDst h) = s.die && d ≤ 86 && Config.niRouter d = k then
      ((List.range 8).find? fun o => Config.port k o = .ni d).getD 0
    else Config.ringOut k (ringOf h)
  else hSel h (hHop h)

/-- The link from router `k` by output `o` is the dateline of a ring (R122). -/
def dateline (k o : Nat) : Bool :=
  match Config.port k o with | .router j => (k = 27 && j = 38) || (k = 38 && j = 27) | _ => false

/-- What lies behind output `o` of router `k` is in a domain whose outputs are held disabled (R402). -/
def State.cutOff (s : State) (k o : Nat) : Bool :=
  let off (d : Nat) : Bool := match s.dom d with | .isolated | .off => true | _ => false
  match Config.port k o with
  | .router j => off j
  | .ni n => off (niTile n)
  | .none => true

/-! Arrival -/

/-- The header groups of an arriving flit checked and corrected: the flit, how many were corrected and how many are
uncorrectable, and whether the first is (R50). -/
def fixHeader (f : Flit) : Flit × Nat × Nat × Bool :=
  let a := fixGroup f 0
  let b := fixGroup a.1 1
  (b.1, flag a.2.1 + flag b.2.1, flag a.2.2 + flag b.2.2, a.2.2)

/-- What the check of the header groups leaves behind at a flit for output `o`: `c` were corrected, `u` are uncorrectable,
and `u0` says that the first is (R50, R125). DESIGN CHOICE (log 146): the port of an event at an input is the output that
the flit asks for. -/
def State.headerMarks (s : State) (k i o c u : Nat) (u0 : Bool) : State :=
  let s := if c ≠ 0 then (s.pageErr (rtrPage k) 1).countRs k 0x0A o c unfiltered else s
  if u ≠ 0 then
    let s := if s.rbit (HDR_ERR k) 31 then s else (s.setFld (HDR_ERR k) 2 0 i).setFld (HDR_ERR k) 3 3 (flag (!u0))
    let s := ((s.satFld (HDR_ERR k) 23 16 1).setBit (HDR_ERR k) 31).pageErr (rtrPage k) 0
    (s.countRs k 0x0B o u unfiltered).tileFault k 1 k
  else s

/-- A scheduled flit for output `o` is discarded at a full bypass register (R106). -/
def State.bypassOverflow (s : State) (k i o : Nat) (f : Flit) : State :=
  let s := if s.rbit (SCHED_ERR k) 31 then s
    else ((s.setFld (SCHED_ERR k) 11 0 (hFlow f.hdr).toNat).setFld (SCHED_ERR k) 14 12 i).setBit (SCHED_ERR k) 31
  let s := (s.pageErr (rtrPage k) 3).countR k 0x0C o (s.hits k (flitSeen f))
  (s.violation 1 (whereRtr k) [(hFlow f.hdr).toNat]).tileFault k 2 k

/-- The order that the next flit to arrive at input `i` takes among those it holds. -/
def Rtr.nextOrd (x : Rtr) (i : Nat) : Nat :=
  (List.range 16).foldl (fun m vc => (x.vc i vc).flits.foldl (fun m y => max m (y.ord + 1)) m) 0

/-- The mask of group `g` at router `k` (R116, R125). -/
def State.sheafMaskOf (s : State) (k g : Nat) : Nat := s.fld (SHEAF k (g / 2)) (7 + 16 * (g % 2)) (16 * (g % 2))

/-- The flit at the end of the link into input `i` of router `k` is written into its VC or the bypass register, struck on
its way by `err`; `laErr` says that the look-ahead's parity failed (R99, R100, R116, R119). DESIGN CHOICE (log 147): the fc
that R100 adds passes before the flit is in its VC, so it may leave, and waits, from the fc after. DESIGN CHOICE (log 129): a
Sheaf flit with no output to serve, its mask being empty or naming only its own input, is discarded, and its credit goes
back in the fc of its arrival; the spec does not say what becomes of it. -/
def State.routerArrive (s : State) (k i : Nat) (err : FlitErr) (laErr : Bool) : State :=
  let l := linkIn k i
  match s.linkOf l with
  | [] => s
  | y :: rest =>
    if s.fc < y.due || !s.runs k then s else
    let s := s.setLink l rest
    let (f, ce, bad, u0) := fixHeader (strike y.flit err)
    let out := if laErr || s.ring then s.headerOut k f.hdr else y.la
    let s := s.headerMarks k i out ce bad u0
    let s := if laErr then s.pageErr (rtrPage k) 2 else s
    let ue := decide (bad ≠ 0)
    let s := s.modRtr k fun x => { x with lastFc := s.fc }
    let at_ := if laErr then s.fc + 1 else s.fc
    if y.vc = bypVc then
      let q := (s.rtrOf k).bypass i
      if 2 ≤ q.length then s.bypassOverflow k i out f
      else s.modRtr k fun x => x.setBypass i (q ++ [{ flit := f, fc := at_, la := out, ue := ue }])
    else
      let v := (s.rtrOf k).vc i y.vc
      let head := sFidx f.sc = 0
      let sheaf := isSheaf s.die f.hdr && head
      let mask := s.sheafMaskOf k (getBits f.hdr 56 49)
      let s := if sheaf && mask.testBit i then s.pageErr (rtrPage k) 4 else s
      let m := if sheaf then some (BitVec.ofNat 8 (if mask.testBit i then mask - 2 ^ i else mask)) else none
      if sheaf && (m.getD 0) = 0 then s.creditUp k i y.vc
      else s.modRtr k fun x => x.setVc i y.vc
        { v with flits := v.flits ++ [{ flit := f, fc := at_, ord := (s.rtrOf k).nextOrd i, la := out, ue := ue, sheaf := m }] }

/-- A head flit has waited in its VC for another 64 fc, at the front or behind other packets (R107). -/
def VFlit.aged (y : VFlit) (fc : Nat) : Bool := sFidx y.flit.sc = 0 && decide (y.fc + 64 * (y.add + 1) ≤ fc)

/-- The first head flit in a VC that has waited for another 64 fc ages by one (R107). -/
def State.ageUp (s : State) (k i vc : Nat) : State :=
  let v := (s.rtrOf k).vc i vc
  if v.flits.any (·.aged s.fc) && s.runs k then
    s.modRtr k fun x => x.setVc i vc { v with flits := modFirst (·.aged s.fc) (fun y => { y with add := y.add + 1 }) v.flits }
  else s

/-! Allocation -/

/-- AGE of a VC's first flit as it would leave (R107). -/
def Vc.ageNow (v : Vc) (y : VFlit) : Nat := if sFidx y.flit.sc = 0 then min (hAge y.flit.hdr + y.add) 255 else v.age

/-- The urgency of a VC's first flit (R108). -/
def State.urgency (s : State) (k : Nat) (v : Vc) (y : VFlit) : Nat :=
  let c := (hCls y.flit.hdr).toNat
  min (v.ageNow y + s.fld (URG_BASE0 k + 4 * (c / 4)) (8 * (c % 4) + 7) (8 * (c % 4))) 511

/-- The VCs downstream of output `o` that a head flit from VC `vc` may use, in order (R102, R122). -/
def State.vcsFor (s : State) (k o vc : Nat) (h : BitVec 128) (opc : BitVec 8) : List Nat :=
  if s.ring then [vcOf (hVn h) (if dateline k o then 1 else vc % 2)]
  else if hVn h = 7 then [vcOf 7 (if isResponse cMGT opc then 1 else 0)]
  else [vcOf (hVn h) 0, vcOf (hVn h) 1]

/-- The downstream VC that a head flit obtains at output `o`, if any (R102, R122). -/
def State.pickVc (s : State) (k o vc : Nat) (h : BitVec 128) (opc : BitVec 8) : Option Nat :=
  let x := s.rtrOf k
  (s.vcsFor k o vc h opc).find? fun d => !x.isBusy o d && 0 < x.credits o d

/-- Only a credit keeps a head flit from a downstream VC of output `o` (R102, R108). -/
def State.creditOnly (s : State) (k o vc : Nat) (h : BitVec 128) (opc : BitVec 8) : Bool :=
  let x := s.rtrOf k
  let open_ := (s.vcsFor k o vc h opc).filter fun d => !x.isBusy o d
  !open_.isEmpty && open_.all fun d => x.credits o d = 0

/-- The output that a VC's first flit asks for, and the downstream VC it would use. DESIGN CHOICE (log 37): of several
outputs that a Sheaf flit could take, it is nominated for the lowest-numbered free one with a VC; the spec names none. -/
def State.wants (s : State) (k vc : Nat) (v : Vc) (y : VFlit) (free : Nat → Bool) : Option (Nat × Nat) :=
  match y.sheaf with
  | some m =>
    (List.range 8).findSome? fun o =>
      if bit m o && free o then (s.pickVc k o vc y.flit.hdr (sOpc y.flit.sc)).map fun d => (o, d) else none
  | none =>
    match v.out with
    | some (o, d) => if free o && 0 < (s.rtrOf k).credits o d then some (o, d) else none
    | none =>
      let o := y.la
      if free o then (s.pickVc k o vc y.flit.hdr (sOpc y.flit.sc)).map fun d => (o, d) else none

/-- A nominee: its input, VC, output, downstream VC and urgency. -/
structure Nominee where
  i  : Nat
  vc : Nat
  o  : Nat
  d  : Nat
  u  : Nat
deriving DecidableEq, Repr

/-- The best of a list by urgency, ties going to the first in round-robin order (R108). -/
def best (rank : Nominee → Nat) (l : List Nominee) : Option Nominee :=
  l.foldl (fun (b : Option Nominee) n => match b with
    | none => some n
    | some m => if m.u < n.u || (m.u = n.u && rank n < rank m) then some n else some m) none

/-- The first flit of a VC of input `i` has been written, and passes none of its stream in another VC that arrived before it
(log 127). -/
def State.mayGo (s : State) (k i vc : Nat) (y : VFlit) : Bool :=
  let x := s.rtrOf k
  let before := ((List.range 16).filter (· ≠ vc)).flatMap fun w => ((x.vc i w).flits.filter fun z => z.ord < y.ord).map (·.flit.hdr)
  y.fc ≤ s.fc && !passes y.flit.hdr before

/-- The nominee of input `i` (R108 stage 1). A flit that would pass one of its stream in another VC is not eligible
(log 127). -/
def State.nominate (s : State) (k i : Nat) (free : Nat → Bool) : Option Nominee :=
  let x := s.rtrOf k
  let last := Tbl.get (fun _ => 15) x.lastVc i
  let all := (List.range 16).filterMap fun vc =>
    let v := x.vc i vc
    match v.flits with
    | [] => none
    | y :: _ =>
      if !s.mayGo k i vc y then none
      else (s.wants k vc v y free).map fun (o, d) => { i := i, vc := vc, o := o, d := d, u := s.urgency k v y }
  best (fun n => (n.vc + 15 - last) % 16) all

/-- The output at which a head flit is held by its credit alone, if it is (R379): one it asks for is open but for that, and
none that it asks for would take it. -/
def State.noCredit (s : State) (k i vc : Nat) (y : VFlit) (free : Nat → Bool) : Option Nat :=
  let asks := match y.sheaf with | some m => (List.range 8).filter (bit m ·) | none => [y.la]
  let asks := asks.filter free
  if sFidx y.flit.sc ≠ 0 || !s.mayGo k i vc y || asks.any (fun o => (s.pickVc k o vc y.flit.hdr (sOpc y.flit.sc)).isSome) then none
  else asks.find? fun o => s.creditOnly k o vc y.flit.hdr (sOpc y.flit.sc)

/-- The header of a flit as it leaves router `k`, and the next look-ahead (R99, R107, R116, R122). -/
def State.leave (s : State) (h : BitVec 128) (age : Nat) : BitVec 128 × Nat :=
  let h := if hSch h then h else setAge h age
  let h := if s.ring || isSheaf s.die h then h else setHop h (hHop h + 1)
  (h, hSel h (hHop h))

/-- A stored flit as it leaves router `k`, with its next look-ahead: one whose header groups are uncorrectable goes
unchanged (R50), and the look-ahead is then the select its HOP names (DESIGN CHOICE, log 129). -/
def State.leaving (s : State) (y : VFlit) (age : Nat) : Flit × Nat :=
  if y.ue then (y.flit, hSel y.flit.hdr (hHop y.flit.hdr))
  else let (h, la) := s.leave y.flit.hdr age
       (rewriteHdr y.flit h, la)

/-- What a flit leaving an output counts and shows to probes (R379, R381). -/
def State.seenOut (s : State) (k o : Nat) (f : Flit) : State :=
  let p := s.hits k (flitSeen f)
  let head := sFidx f.sc = 0
  let s := s.countR k 0x02 o p
  let s := if head then s.countR k 0x03 o p else s
  let s := if hSch f.hdr then s.countR k 0x04 o p else s
  let s := if head && hAge f.hdr = 255 then s.countR k 0x08 o p else s
  let s := s.sampleOut k o (!hSch f.hdr) head (hAge f.hdr)
  s.probes false k o false f

/-- A flit discarded at an output towards a cut-off domain (R402). -/
def State.backstop (s : State) (k : Nat) (f : Flit) : State :=
  ((s.satFld PWR_CNT 31 16 1).pageErr .power 4).journal (transitEntry (whereRtr k) FENCED f.hdr f.sc 0)

/-- The flit that leaves the bypass register of input `i` in this fc: the oldest whose look-ahead output has a slot of
this input (R106); an input sends one flit in an fc (R103). -/
def State.bypassNow (s : State) (k i : Nat) : Option VFlit :=
  ((s.rtrOf k).bypass i).find? fun y => y.fc ≤ s.fc && s.slotNow k y.la = some i

/-- A scheduled flit leaves the bypass register of input `i` by its look-ahead output (R21, R106). -/
def State.schedOut (s : State) (k i : Nat) (y : VFlit) : State :=
  let s := s.modRtr k fun x => x.setBypass i (eraseFirst (· = y) (x.bypass i))
  if s.cutOff k y.la then s.backstop k y.flit
  else
    let (f, la) := s.leaving y 0
    (s.seenOut k y.la f).send k y.la bypVc f la

/-- Scheduled grants of one fc: the outputs taken, each with its input (R21, R106, R178). -/
def State.schedGrants (s : State) (k : Nat) : State × List (Nat × Nat) :=
  let owners := (List.range 8).filterMap fun o => (s.slotNow k o).map fun i => (o, i)
  let flits := (List.range 8).filterMap fun i => (s.bypassNow k i).map fun y => (i, y)
  let wins := flits.map fun (i, y) => (y.la, i)
  let s := owners.foldl (fun s (o, i) => if wins.contains (o, i) then s else s.countR k 0x05 o unfiltered) s
  let s := flits.foldl (fun s (i, y) => s.schedOut k i y) s
  let s := forN 8 (fun i s =>
    match ((s.rtrOf k).bypass i).find? (fun y => y.fc ≤ s.fc && y.add = 0) with
    | some y =>
      let s := s.modRtr k fun x => x.setBypass i (modFirst (· = y) (fun y => { y with add := 1 }) (x.bypass i))
      (s.countR k 0x0C y.la (s.hits k (flitSeen y.flit))).violation 1 (whereRtr k) [(hFlow y.flit.hdr).toNat]
    | none => s) s
  (s, wins)

/-- A granted dynamic flit crosses the switch (R99, R102, R116). -/
def State.dynOut (s : State) (k : Nat) (n : Nominee) : State :=
  let x := s.rtrOf k
  let v := x.vc n.i n.vc
  match v.flits with
  | [] => s
  | y :: rest =>
    let age := v.ageNow y
    let last := sFidx y.flit.sc = hLen y.flit.hdr
    let left : BitVec 8 := match y.sheaf with | some m => putBit m n.o false | none => 0
    let gone := y.sheaf.isNone || left = 0
    let v' : Vc :=
      if !gone then { v with flits := { y with sheaf := some left } :: rest }
      else if last then { flits := rest }
      else { v with flits := rest, out := some (n.o, n.d), age := age }
    let x := (x.setVc n.i n.vc v').setCredits n.o n.d (x.credits n.o n.d - 1)
    let x := { x.setBusy n.o n.d (!last) with lastVc := Tbl.set (fun _ => 15) n.i n.vc x.lastVc,
                                              lastIn := Tbl.set (fun _ => 7) n.o n.i x.lastIn }
    let s := s.setRtr k x
    let (f, la) := s.leaving y age
    let s := if y.sheaf.isSome then s.countR k 0x09 n.o (s.hits k (flitSeen f)) else s
    let s := (s.seenOut k n.o f).send k n.o n.d f la
    if gone then s.creditUp k n.i n.vc else s

/-- Dynamic flits at outputs towards cut-off domains are discarded (R402). -/
def State.dropCut (s : State) (k : Nat) : State :=
  if !((List.range 8).any fun o => s.cutOff k o && Config.port k o ≠ .none) then s else
  forN 8 (fun i s => forN 16 (fun vc s =>
    let v := (s.rtrOf k).vc i vc
    match v.flits with
    | [] => s
    | y :: rest =>
      let o := match v.out with | some (o, _) => o | none => y.la
      let m : BitVec 8 := match y.sheaf with
        | some m => BitVec.ofNat 8 (((List.range 8).filter fun o => bit m o && !s.cutOff k o).map fun o => 2 ^ o).sum
        | none => 0
      if y.sheaf.isSome then
        if m = y.sheaf.getD 0 then s
        else
          let s := s.backstop k y.flit
          if m ≠ 0 then s.modRtr k fun x => x.setVc i vc { v with flits := { y with sheaf := some m } :: rest }
          else (s.modRtr k fun x => x.setVc i vc { flits := rest }).creditUp k i vc
      else if !s.cutOff k o || s.fc < y.fc then s
      else
        let last := sFidx y.flit.sc = hLen y.flit.hdr
        let v' : Vc := if last then { flits := rest } else { v with flits := rest }
        let s := if last then (match v.out with | some (o, d) => s.modRtr k fun x => x.setBusy o d false | none => s) else s
        ((s.modRtr k fun x => x.setVc i vc v').backstop k y.flit).creditUp k i vc) s) s

/-- One router cycle of router `k`, of which an fc has one (R20, R21, R99, R108). An input whose scheduled flit leaves sends
no dynamic one (R103). -/
def State.traverse (s : State) (k : Nat) : State :=
  if !s.runs k || (s.rtrOf k).ranFc = s.fc + 1 then s else
  let s := s.modRtr k fun x => { x with ranFc := s.fc + 1 }
  let s := forN 8 (fun o s => s.relayStep k o) s
  let s := s.slotMarks k
  let (s, taken) := s.schedGrants k
  let s := s.dropCut k
  let free (o : Nat) : Bool := !(taken.any fun t => t.1 = o) && !s.cutOff k o
  let noms := (List.range 8).filterMap fun i => if taken.any (fun t => t.2 = i) then none else s.nominate k i free
  let last (o : Nat) : Nat := Tbl.get (fun _ => 7) (s.rtrOf k).lastIn o
  let wins := (List.range 8).filterMap fun o => best (fun n => (n.i + 7 - last o) % 8) (noms.filter fun n => n.o = o)
  let s := noms.foldl (fun s n =>
    if wins.contains n then s else
    match ((s.rtrOf k).vc n.i n.vc).flits with
    | y :: _ => s.countR k 0x06 n.o (s.hits k (flitSeen y.flit))
    | [] => s) s
  let s := forN 8 (fun i s => forN 16 (fun vc s =>
    match ((s.rtrOf k).vc i vc).flits with
    | [] => s
    | y :: _ => match s.noCredit k i vc y free with | some o => s.countR k 0x07 o unfiltered | none => s) s) s
  wins.foldl (fun s n => s.dynOut k n) s

/-! Commands -/

/-- ROUTER_FLIT_ARRIVE (R99). -/
def execRouterFlitArrive (k : Fin 56) (i : Fin 8) (err : FlitErr) (laErr : Bool) (s : State) : Out := .next (s.routerArrive k i err laErr)
/-- ROUTER_TRAVERSE (R108). -/
def execRouterTraverse (k : Fin 56) (s : State) : Out := .next (s.traverse k)
/-- AGE_INCREMENT (R107). -/
def execAgeIncrement (k : Fin 56) (i : Fin 8) (vc : Fin 16) (s : State) : Out := .next (s.ageUp k i vc)
/-- CREDIT_ARRIVE (R103). -/
def execCreditArrive (k : Fin 56) (o : Fin 8) (s : State) : Out := .next (s.creditArrive k o)

end Sys2Proof.Machine
end

