-- ==== Sys2Proof/Machine/Inject.lean ====
section
/-! DEFINITION. Injection at an NI: reservations (R38, R110, R111), eligibility (R189, R208, R209, R336), the precedence of
R188, the weighted group (R190), scheduled injection (R160, R161, R180), throttling (R191), the release of held grants
(R198, R199), and the routes of answers (R503). -/

namespace Sys2Proof.Machine

/-! The Granary's limits -/

/-- The Granary limit with key 0 to 6 for VN0 to VN6, 7 for VN7 requests and 8 for VN7 responses (R110, R127). -/
def State.granLimit (s : State) (n key : Nat) : Nat := s.fld (GRAN_LIM0 n + 4 * (key / 2)) (16 * (key % 2) + 10) (16 * (key % 2))

/-- The limit key of a packet (R110). -/
def granKey (h : BitVec 128) (opc : BitVec 8) : Nat := if hVn h = 7 then (if isResponse cMGT opc then 8 else 7) else hVn h

/-- Flits of a limit that the Granary holds from requests, with those granted in the ring personality (R111, R124). The
flits of an answer stay counted through its reservation until the answer is taken. -/
def Ni.granUsed (x : Ni) (key : Nat) : Nat :=
  let mine (h : BitVec 128) (body : List (BitVec 128 × BitVec 512)) : Bool := granKey h (sOpc (body.headD (0, 0)).1) = key
  ((x.gran.filter (fun p => !p.sched && mine p.hdr p.body)).map fun p => p.total).sum +
  ((x.asm.map fun l => ((l.2.filter (fun a => a.admitted && !a.discard && mine a.hdr a.body)).map fun a => hLen a.hdr + 1).sum)).sum +
  ((x.grants.filter (fun g => g.vn = key)).map (·.flits)).sum

/-- Flits reserved for answers under a limit (R38). -/
def Ni.reserved (x : Ni) (key : Nat) : Nat := Tbl.get (fun _ => 0) x.resv key

/-- A reservation of `m` flits fits (R111). -/
def State.canReserve (s : State) (n key m : Nat) : Bool :=
  let x := s.niOf n
  x.granUsed key + x.reserved key + m ≤ s.granLimit n key

/-- The reservation made. -/
def Ni.reserve (x : Ni) (key m : Nat) : Ni := { x with resv := Tbl.upd (fun _ => 0) key (· + m) x.resv }

/-- The limit key and flits that a request packet reserves for its answer (R38, R118, R247, R499). -/
def answerSpace (p : Pkt) (sheaf : Nat) : Nat × Nat :=
  let c := hCls p.hdr
  let sc := (p.body.headD (0, 0)).1
  let opc := sOpc sc
  let posted := isPosted c (hTag p.hdr)
  let key := if posted then 2 else if c = cBSNP then 4 else if c = cMGT then 8 else 2
  let m :=
    if sheaf ≠ 0 then sheaf
    else if c = cREQ then (if noCompletion c opc then 1 else sRlen sc + 1)
    else if c = cION then (if tlpHasData opc then 1 else ioLines opc sc)
    else 1
  (key, m)

/-! Attachment credits -/

def Ni.attCredits (x : Ni) (vc : Nat) : Nat := Tbl.get (fun _ => 4) x.attCred vc
def Ni.attIsBusy (x : Ni) (vc : Nat) : Bool := Tbl.get (fun _ => false) x.attBusy vc

/-- Credits that have come back to an NI's attachment output are counted (R103). -/
def State.takeCredits (s : State) (n : Nat) : State :=
  s.modNi n fun x =>
    let now := x.credFly.filter fun c => c.2 ≤ s.fc
    { x with credFly := x.credFly.filter (fun c => s.fc < c.2),
             attCred := now.foldl (fun c (vc, _) => Tbl.upd (fun _ => 4) vc (fun k => min (k + 1) 4) c) x.attCred }

/-- A packet that started now would pass one of its stream that has flits still to leave the NI. -/
def Ni.streamBusy (x : Ni) (h : BitVec 128) : Bool := passes h (x.cur.flatMap fun c => c.flits.map (·.hdr))

/-- The VC that a packet's head obtains at the attachment (R102, R122). A packet does not start beside an unfinished one
of its stream: the two VCs of its VN would let it pass that packet (R208, log 127). -/
def State.attVc (s : State) (n : Nat) (h : BitVec 128) (opc : BitVec 8) : Option Nat :=
  let x := s.niOf n
  let vn := hVn h
  let may (v : Nat) : Bool := !x.attIsBusy (vcOf vn v) && 0 < x.attCredits (vcOf vn v)
  if x.streamBusy h then none
  else if s.ring then (if may 0 then some (vcOf vn 0) else none)
  else if vn = 7 then
    let v := if isResponse cMGT opc then 1 else 0
    if may v then some (vcOf 7 v) else none
  else if may 0 then some (vcOf vn 0) else if may 1 then some (vcOf vn 1) else none

/-! Leaving flits -/

/-- A flit leaves NI `n` in this fc: it reaches its router's input in the next (R162). -/
def State.niSend (s : State) (n vc : Nat) (f : Flit) : State :=
  let k := Config.niRouter n
  let l := linkIn k (Config.niPort n)
  let s := s.setLink l (s.linkOf l ++ [{ flit := f, due := s.fc + 1, vc := vc, la := s.headerOut k f.hdr }])
  let s := s.modNi n fun x => { x with sentFc := s.fc + 1 }
  let p := s.hits (niTile n) (flitSeen f)
  let s := s.countN n 0x20 1 p
  let s := if sFidx f.sc = 0 then s.countN n 0x21 1 p else s
  s.probes true n 0 false f

/-- A dynamic flit leaves on a VC: it uses a credit (R102, R103). -/
def State.dynSend (s : State) (n vc : Nat) (f : Flit) : State :=
  let last := sFidx f.sc = hLen f.hdr
  let s := s.modNi n fun x => { x with attCred := Tbl.upd (fun _ => 4) vc (· - 1) x.attCred,
                                       attBusy := Tbl.set (fun _ => false) vc (!last) x.attBusy }
  s.niSend n vc f

/-- A flit of queue `j` of NI `n` has left (R184). -/
def State.servedFlit (s : State) (n j : Nat) : State := s.wrapFld (QD (s.qDesc n j) 3) 31 0 1

/-- A dynamic request flit of queue `j` of NI `n` is counted, and charged to the frame it leaves in (R184, R191, R336). -/
def State.charge (s : State) (n j : Nat) : State :=
  if 256 ≤ j || 81 ≤ n then s
  else
    let s := s.servedFlit n j
    let p := (s.qPart n j).toNat
    let any := s.qAny n j || !s.member n p
    s.modNi n fun x => { x with thrUsed := x.thrUsed + 1,
                                shUsed := if any then x.shUsed else Tbl.upd (fun _ => 0) p (· + 1) x.shUsed }

/-- The next sequence number of the stream to `d` on VN `vn` (R45). -/
def State.takeSeq (s : State) (n : Nat) (d : NodeId) (vn : Nat) : BitVec 16 × State :=
  let k := d.toNat * 8 + vn
  let q := Tbl.get (fun _ => (0 : BitVec 16)) (s.niOf n).stream k
  (q, s.modNi n fun x => { x with stream := Tbl.set (fun _ => 0) k (q + 1) x.stream })

/-- A packet starts on VC `vc`: its first flit leaves, the others follow (R43, R45). -/
def State.startPkt (s : State) (n vc : Nat) (q : Option Nat) (p : Pkt) : State :=
  let (seq, s) := s.takeSeq n (hDst p.hdr) (hVn p.hdr)
  let fl := ({ p with hdr := setSeq p.hdr seq } : Pkt).flits
  match fl with
  | [] => s
  | f :: rest =>
    let s := s.dynSend n vc f
    let s := match q with | some j => s.charge n j | none => s
    if rest.isEmpty then s else s.modNi n fun x => { x with cur := x.cur ++ [{ flits := rest, vc := vc, q := q }] }

/-! The Ledger at injection (R443, R445) -/

/-- Lines of a request packet. -/
def pktLines (p : Pkt) : Nat :=
  let sc := (p.body.headD (0, 0)).1
  match (hCls p.hdr).toNat with
  | 0 => if bit (sOpc sc) 7 then 1 else sRlen sc + 1
  | 1 => p.body.length
  | 7 | 8 => ioLines (sOpc sc) sc
  | _ => 1

/-- RADDR of the answers to a request packet (R500). -/
def pktRaddr (p : Pkt) : BitVec 46 :=
  let sc := (p.body.headD (0, 0)).1
  match (hCls p.hdr).toNat with
  | 0 | 1 => if bit (sOpc sc) 7 then 0 else BitVec.ofNat 46 ((sAddr sc).toNat / 64)
  | 7 => if tlpAddrRouted (sOpc sc) then BitVec.ofNat 46 ((sAddr64 sc).toNat / 64) else 0
  | _ => 0

/-- A request packet of an entry is injected: the entry is ISSUED, its timer runs, and the part awaits its answer. -/
def State.issue (s : State) (n : Nat) (it : QItem) (p : Pkt) : State :=
  let k := tagKey (hTag p.hdr)
  let x := s.niOf n
  let e := x.led k
  let (rkey, rn) := answerSpace p e.sheaf
  let part : LPart := { raddr := pktRaddr p, lidx := it.lidx, lines := pktLines p, dst := hDst p.hdr, vn := hVn p.hdr,
                        need := if e.sheaf ≠ 0 then e.sheaf else if hCls p.hdr = cREQ && bit e.opc 7 then e.lines else 1,
                        rkey := rkey, rn := rn, counted := it.sheaf.isNone }
  let filt := s.ledgerHits n { hdr := p.hdr, sc := (p.body.headD (0, 0)).1 }
  let x := (x.reserve rkey rn).setLed k
    { e with st := if e.st = .notStarted then .issued else e.st, injected := true,
             leftFc := if e.injected then e.leftFc else s.fc,
             timer := if e.injected then e.timer else some (s.fc + 2 ^ min (max (s.fld (TXN_TMO n) 4 0) 10) 24),
             dst := if e.dstSet then e.dst else hDst p.hdr, dstSet := true,
             filt := if e.injected then e.filt else filt, injSch := hSch p.hdr, parts := e.parts ++ [part] }
  s.setNi n x

/-! Eligibility (R189) -/

/-- The schedule leaves `len` fc free from this one on at NI `n`. -/
def State.fits (s : State) (n len : Nat) : Bool :=
  (List.range len).all fun j =>
    match s.bankAt (NI_OFF n) (s.fc + j) with
    | some b => (s.injFlow n b ((s.time.pos + j) % 1024)).isNone
    | none => true

/-- The first line of a request packet, for the order of accesses (R208). -/
def pktLine (p : Pkt) : Nat :=
  let sc := (p.body.headD (0, 0)).1
  match (hCls p.hdr).toNat with
  | 7 | 8 => if tlpAddrRouted (sOpc sc) then (sAddr64 sc).toNat / 64 else 0
  | _ => (sAddr sc).toNat / 64

/-- Of the entries that satisfy `earlier`, one has an unanswered packet that holds the request `p` (R208). -/
def Ni.heldBy (x : Ni) (earlier : LEntry → Bool) (p : Pkt) : Bool :=
  let c := hCls p.hdr
  let line := pktLine p
  let k := pktLines p
  let relaxed := bit (sAttr (p.body.headD (0, 0)).1) 1
  x.ledger.any fun (_, e) =>
    earlier e && e.owner = .unit && !e.injSch &&
    e.parts.any fun q => q.open_ && q.dst = hDst p.hdr &&
      ((((e.cls = cRWD && c = cREQ) || (e.cls = cREQ && c = cRWD)) &&
          e.addr.toNat / 64 + q.lidx < line + k && line < e.addr.toNat / 64 + q.lidx + q.lines) ||
       (e.cls = cIOP && c = cION && !relaxed))

/-- An unanswered packet of a write-combining line that the message waited for holds it, from whichever queue (R220). -/
def Ni.hazardHeld (x : Ni) (it : QItem) (p : Pkt) : Bool := x.heldBy (fun e => it.hazard.contains e.ord) p

/-- The earlier unanswered packets that hold a request: those of its order domain (R208), and those of such lines. -/
def Ni.orderHeld (x : Ni) (j : Nat) (it : QItem) (p : Pkt) : Bool :=
  j < 256 && (x.heldBy (fun e => e.qsel.toNat = j && e.ord < it.ord) p || x.hazardHeld it p)

/-- The stream key of a request packet (R45, R209). -/
def streamKey (p : Pkt) : Nat := (hDst p.hdr).toNat * 8 + hVn p.hdr

/-- A packet would take another route than the last request packet of its stream while one of the stream's is unanswered
(R209). -/
def Ni.routeChange (x : Ni) (p : Pkt) : Bool :=
  (x.lastRt.any fun r => r.1 = streamKey p) && Tbl.get (fun _ => 0) x.lastRt (streamKey p) ≠ hRoute p.hdr &&
  ((hVn p.hdr = 7 && x.rsvWaits (hDst p.hdr)) ||
   x.ledger.any fun (_, e) => e.parts.any fun q => q.open_ && q.dst = hDst p.hdr && q.vn = hVn p.hdr)

/-- A route change waits for the answers of the stream's earlier request packets (R209). -/
def Ni.routeHeld (x : Ni) (it : QItem) (p : Pkt) : Bool := !it.sprayed && it.sheaf.isNone && x.routeChange p

/-- The route of a stream's last request packet is kept (R209). -/
def Ni.noteRoute (x : Ni) (p : Pkt) : Ni :=
  { x with lastRt := Tbl.erase (streamKey p) x.lastRt |> Tbl.insert (streamKey p) (hRoute p.hdr) }

/-- The packet is an arbitrated one (R193). -/
def arbitrated (h : BitVec 128) : Bool :=
  !hSch h && !tagPosted (hTag h) && (hCls h = cREQ || hCls h = cRWD || hCls h = cION)

/-- Flow `f` is injected in scheduled form at NI `n` (R160, R161, R180). -/
def State.flowSched (s : State) (n : Nat) (f : BitVec 12) : Bool :=
  (s.mode = .scheduled || s.swState = 4) && (s.niBank n).isSome && !s.demoted f.toNat && s.hasInj n f.toNat

/-- A message of a flow waits for scheduled injection here. -/
def State.schedWaits (s : State) (n : Nat) (it : QItem) : Bool := it.flow.any fun f => s.flowSched n f

/-- The packets of flow `f` injected one way that are still in ISSUED hold those of the other way (R161, R180, R181). -/
def Ni.flowBusy (x : Ni) (f : BitVec 12) (sch : Bool) : Bool :=
  x.ledger.any fun (_, e) => e.flow = some f && e.st = .issued && e.injSch = sch

/-- Flits of started packets of the queues that satisfy `p` that have not left. -/
def Ni.curFlits (x : Ni) (p : Nat → Bool) : Nat :=
  ((x.cur.filter fun c => c.q.any fun j => j < 256 && p j).map fun c => c.flits.length).sum

/-- The rate of NI `n` leaves room in this frame for `m` flits beside those of started packets (R191). -/
def Ni.throttleOk (x : Ni) (m : Nat) : Bool := 256 ≤ x.thrRate || x.thrUsed + x.curFlits (fun _ => true) + m ≤ x.thrRate

/-- The share of a queue's partition leaves room in this frame for `m` flits beside those of started packets, at a member NI
(R336). -/
def State.shareOk (s : State) (n j m : Nat) : Bool :=
  if s.qAny n j || !s.member n (s.qPart n j).toNat then true else
  let p := (s.qPart n j).toNat
  let r := Tbl.get (fun _ => 256) s.shRate p
  256 ≤ r || Tbl.get (fun _ => 0) (s.niOf n).shUsed p +
    (s.niOf n).curFlits (fun j => !s.qAny n j && (s.qPart n j).toNat = p) + m ≤ r

/-- The transaction of a packet that is its first has the tag that the last ARB_REL of its requester to the packet's target
carried, or to one that a later part of it goes to or may go to (R199). -/
def Ni.tagUsed (x : Ni) (p : Pkt) : Bool :=
  arbitrated p.hdr && !(x.led (tagKey (hTag p.hdr))).injected &&
  x.holds.any fun r => r.part = hPart p.hdr && r.relTag = some (hTag p.hdr) &&
    (r.node = hDst p.hdr || x.queues.any fun q => q.2.any fun it => it.tag = hTag p.hdr && it.pkt.all fun y => hDst y.hdr = r.node)

/-- Such a transaction waits while no entry is free to move it to (R199). -/
def Ni.tagHeld (x : Ni) (p : Pkt) : Bool := x.tagUsed p && (x.freeKey false).isNone

/-- The head of queue `j` may start, but for the throttles (R189). -/
def State.ready (s : State) (n j : Nat) (it : QItem) (p : Pkt) : Bool :=
  let x := s.niOf n
  let opc := sOpc (p.body.headD (0, 0)).1
  let (rkey, rn) := answerSpace p (x.led (tagKey it.tag)).sheaf
  s.fits n p.body.length && (s.attVc n p.hdr opc).isSome && s.canReserve n rkey rn &&
  !(arbitrated p.hdr && x.backingOff (hPart p.hdr) (hDst p.hdr)) &&
  (it.sheaf.isSome || x.unansTo (hDst p.hdr) < 128) &&
  !x.barredItem j it && !(it.hazard.any fun h => x.wcb.any fun l => l.ord = h) &&
  !x.orderHeld j it p && !x.routeHeld it p && !x.tagHeld p &&
  (!s.ring || it.ring = 2 || it.sheaf.isSome) &&
  (match it.flow with | some f => !x.flowBusy f true | none => true)

/-- The head of queue `j`: its first message that does not wait for scheduled injection. -/
def State.headOf (s : State) (n j : Nat) : Option (Nat × QItem × Pkt) :=
  let q := (s.niOf n).queue j
  match q.findIdx? (fun it => !s.schedWaits n it) with
  | none => none
  | some i => match (q.drop i).head? with
    | some it => it.pkt.map fun p => (i, it, p)
    | none => none

/-- The head of queue `j` is eligible (R189). -/
def State.eligible (s : State) (n j : Nat) : Bool :=
  match s.headOf n j with
  | none => false
  | some (_, it, p) => s.ready n j it p && (256 ≤ j || ((s.niOf n).throttleOk p.body.length && s.shareOk n j p.body.length))

/-! Injecting a head -/

/-- The transaction moves to another free entry of its kind, and the entry it leaves is free again (R199, R443). -/
def State.moveTag (s : State) (n : Nat) (tag : BitVec 12) : State × BitVec 12 :=
  let x := s.niOf n
  let old := tagKey tag
  match x.freeKey false with
  | none => (s, tag)
  | some k =>
    let e := x.led old
    let x := (x.setLed k e).setLed old { freed := x.freedN + 1 }
    let re (it : QItem) : QItem := if it.tag = tag then
      { it with tag := keyTag k, pkt := it.pkt.map fun p => { p with hdr := setTag p.hdr (keyTag k) } } else it
    let x := { x with freedN := x.freedN + 1, queues := x.queues.map fun (j, q) => (j, q.map re),
                      burst := x.burst.map fun (c, w, l) => (c, w.map fun (t, j) => (if t = tag then keyTag k else t, j), l) }
    (s.setNi n x, keyTag k)

/-- What injecting an arbitrated packet records of its requester (R198, R199). -/
def Ni.noteArb (x : Ni) (h : BitVec 128) : Ni :=
  if !arbitrated h then x else
  let same (r : HoldRec) : Bool := r.part = hPart h && r.node = hDst h
  let upd (r : HoldRec) : HoldRec := { r with lastTag := hTag h, relTag := if r.relTag = some (hTag h) then r.relTag else none }
  if x.holds.any same then { x with holds := modFirst same upd x.holds }
  else { x with holds := x.holds ++ [{ part := hPart h, node := hDst h, lastTag := hTag h }] }

/-- What injecting a reserved read or conditional write does to RSV_OWN (R231): the entries, and the target to which
RSV_CLR goes. -/
def Ni.noteResv (x : Ni) (cls : BitVec 4) (part : BitVec 9) (d : NodeId) (fc : Nat) : Ni × Option RsvOwn :=
  let same (o : RsvOwn) : Bool := o.node = d && o.part = part
  if cls = cRWD then ({ x with own := eraseFirst same x.own }, none)
  else if x.own.any same then ({ x with own := modFirst same (fun o => { o with used := fc }) x.own }, none)
  else if x.own.length < 8 then
    let slot := ((List.range 8).find? fun i => !(x.own.any fun o => o.slot = i)).getD 0
    ({ x with own := x.own ++ [{ node := d, part := part, slot := slot, used := fc }] }, none)
  else
    match x.own.foldl (fun (b : Option RsvOwn) o => match b with
        | some m => if o.used < m.used then some o else b | none => some o) none with
    | some old => ({ x with own := eraseFirst (· = old) x.own ++ [{ node := d, part := part, slot := old.slot, used := fc }] }, some old)
    | none => (x, none)

/-- A control packet of NI `n` waits with its answers (R188 item 3). -/
def State.control (s : State) (n : Nat) (opc : BitVec 8) (part : BitVec 9) (d : NodeId) (tag : BitVec 12) : State :=
  let h := mkHdr cNDR false 0 part (s.node n) d 0 tag 0
  s.modNi n fun x => { x with answers := x.answers ++ [{ pkt := { hdr := h, body := [(setOpc 0 opc, 0)] }, ord := x.ordN }] }

/-- RSV_CLR to a target (R231). -/
def State.rsvClr (s : State) (n : Nat) (o : RsvOwn) : State := s.control n opRSV_CLR o.part o.node 0

/-- The head of queue `j` is injected. -/
def State.injectHead (s : State) (n j i : Nat) (it : QItem) (p : Pkt) : State :=
  let x := s.niOf n
  let (s, tag) := if x.tagUsed p then s.moveTag n it.tag else (s, it.tag)
  let p := { p with hdr := setTag p.hdr tag }
  let it := { it with tag := tag }
  let opc := sOpc (p.body.headD (0, 0)).1
  let d := hDst p.hdr
  if isResvOp it.cls opc && it.cls = cRWD && !(s.niOf n).own.any (fun o => o.node = d && o.part = hPart p.hdr) then
    (s.modNi n fun x => x.putItem j i []).failAll n (tagKey tag) RESV_LOST
  else
  match s.attVc n p.hdr opc with
  | none => s
  | some vc =>
    let s := s.modNi n fun x => (x.putItem j i []).noteArb p.hdr
    let s := s.issue n it p
    let s := s.startPkt n vc (some j) p
    let s := if it.sprayed || it.sheaf.isSome then s else s.modNi n fun x => x.noteRoute p
    let s := if it.wcb then (s.modNi n fun x => x.dropLine it.tag).countN n 0x31 1 unfiltered else s
    if isResvOp it.cls opc then
      let (x, old) := (s.niOf n).noteResv it.cls (hPart p.hdr) d s.fc
      let s := s.setNi n x
      match old with | some o => s.rsvClr n o | none => s
    else s

/-! Release (R198) -/

/-- Target `d` is listed in the NI's ARB_TGT registers (R199). -/
def State.arbListed (s : State) (n : Nat) (d : NodeId) : Bool :=
  (List.range 8).any fun i =>
    let w := s.rd (ARB_TGT n i)
    (bit w 15 && getBits w 9 0 = d.toNat) || (bit w 31 && getBits w 25 16 = d.toNat)

/-- Entry `k` has a part in a queue that goes to node `d`, or whose target is not yet known. -/
def Ni.toCome (x : Ni) (k : Nat) (d : NodeId) : Bool :=
  x.queues.any fun q => q.2.any fun it => tagKey it.tag = k && it.pkt.all fun p => hDst p.hdr = d

/-- The requester of a hold record still requests its target (R198). -/
def State.requesting (s : State) (n : Nat) (r : HoldRec) : Bool :=
  let x := s.niOf n
  (r.hold && bit s.niAlive n) ||
  x.ledger.any fun (k, e) => e.arb && !(e.flow.any fun f => if e.injected then e.injSch else s.flowSched n f) && e.part = r.part && (e.isOpen || e.retained) && (!e.dstSet || e.dst = r.node ||
    (e.parts.any fun q => q.open_ && q.dst = r.node) || x.toCome k r.node)

/-- Requests that have dropped send ARB_REL (R198). -/
def State.releases (s : State) (n : Nat) : State :=
  (s.niOf n).holds.foldl (fun s r =>
    if r.granted && s.arbListed n r.node && !s.requesting n r then
      let s := s.control n opARB_REL r.part r.node r.lastTag
      s.modNi n fun x => { x with holds := modFirst (· = r) (fun r => { r with granted := false, relTag := some r.lastTag }) x.holds }
    else s) s

/-! Answers -/

/-- An IOP has a part for node `d` that is not acknowledged, or one whose target is not yet known (R249). -/
def Ni.iopOpen (x : Ni) (k : Nat) (e : LEntry) (d : NodeId) : Bool :=
  e.isOpen && ((e.parts.any fun q => q.open_ && q.dst = d) || x.toCome k d)

/-- A completion may go: every IOP its engine presented before it to its DST has been acknowledged (R249). -/
def Ni.iocOk (x : Ni) (a : AItem) : Bool :=
  let sc := (a.pkt.body.headD (0, 0)).1
  let ats := cAttr sc
  hCls a.pkt.hdr ≠ cIOC || bit ats 1 ||
  !(x.ledger.any fun (k, e) => e.cls = cIOP && e.ord < a.ord && x.iopOpen k e (hDst a.pkt.hdr) &&
      !(bit ats 2 && sReqid e.hdr ≠ cCplid sc))

/-- An RSV_REQ is a request packet: the count of R84 and a route change of its stream hold it (R84, R209). -/
def Ni.reqOk (x : Ni) (a : AItem) : Bool := !a.isReq || (x.unansTo (hDst a.pkt.hdr) < 128 && !x.routeChange a.pkt)

/-- A route change holds an RSV_REQ (R209, R237). -/
def Ni.reqHeld (x : Ni) : Bool := x.answers.any fun a => a.isReq && a.routed && x.routeChange a.pkt

/-- The oldest answer, control packet or RSV_REQ that may start. -/
def State.nextAnswer (s : State) (n : Nat) : Option (AItem × Nat) :=
  (s.niOf n).answers.findSome? fun a =>
    if a.routed && (s.niOf n).iocOk a && (s.niOf n).reqOk a then (s.attVc n a.pkt.hdr (sOpc (a.pkt.body.headD (0, 0)).1)).map fun v => (a, v) else none

/-- The LNI's NI index. -/
abbrev lniN : Nat := 80

def State.setLni (s : State) (l : Lni) : State := { s with lni := l }
def Lni.read (l : Lni) (i : Nat) : Option EhRead := Tbl.get (fun _ => none) l.reads i
def Lni.setRead (l : Lni) (i : Nat) (e : Option EhRead) : Lni := { l with reads := Tbl.set (fun _ => none) i e l.reads }

/-- The words of a read as data. -/
def ehData (l : List Word) : BitVec 512 := BitVec.ofNat 512 ((l.getD 0 0).toNat + (l.getD 1 0).toNat * 2 ^ 32)

/-- A read entry is given up: its slot stays in use while a return is still to come (R276). -/
def EhRead.freed (e : EhRead) : Option EhRead := if e.hang then some { e with gone := true } else none

/-- The packet of answer `a` as it is injected: an EH_RSP with data takes it from its read entry, which is freed (R269). -/
def State.ehFill (s : State) (a : AItem) : State × Pkt :=
  match a.eh with
  | none => (s, a.pkt)
  | some i =>
    let e := (s.lni.read i).getD {}
    (s.setLni (s.lni.setRead i e.freed), { a.pkt with body := a.pkt.body.map fun b => (b.1, ehData e.words) })

/-- The route of the oldest answer that has none is looked up by its node key; one that finds none is discarded and
journaled with its raw header (R503). DESIGN CHOICE (log 128): SEQ and ROUTE of that header are 0, for the packet was never
injected and no route was found. -/
def State.routeAnswer (s : State) (n : Nat) : State :=
  match (s.niOf n).answers.find? (fun a => !a.routed) with
  | none => s
  | some a =>
    let h := a.pkt.hdr
    let f := s.look { n := n, key := .node (hDst h), vn := hVn h, cls := hCls h, isReq := false, mask := s.fenceMask }
    let s := s.lookCount n f
    let code := if f.code ≠ OK then f.code else if f.fenced then FENCED else OK
    if code ≠ OK then
      let s := (s.rtFail n code f.idx).countN n 0x25 1 unfiltered
      ((s.ehFill a).1.modNi n fun x => { x with answers := eraseFirst (· = a) x.answers }).journal
        (transitEntry (whereNi n) code h (a.pkt.body.headD (0, 0)).1 0)
    else
      (s.sprayed n (hVn h) f).modNi n fun x =>
        { x with answers := modFirst (· = a) (fun a => { a with routed := true, pkt := { a.pkt with hdr := setRoute h f.route } }) x.answers }

/-! Ring reservations at the source (R123, R124) -/

/-- The head of queue `j` asks its destination for room, in the ring personality. -/
def State.askRoom (s : State) (n j : Nat) : State :=
  match s.headOf n j with
  | none => s
  | some (i, it, p) =>
    let d := hDst p.hdr
    if s.ring && it.ring = 0 && it.sheaf.isNone && !(s.niOf n).rsvOut.contains d && s.canReserve n 8 1 then
      let arg : BitVec 68 := BitVec.ofNat 68 (p.body.length - 1 + hVn p.hdr * 8)
      let h := mkHdr cMGT false 0 (hPart p.hdr) (s.node n) d (hRoute p.hdr) it.tag 0
      let a : AItem := { pkt := { hdr := h, body := [(mkMgt opRSV_REQ 0 0 0 arg, 0)] }, routed := true, isReq := true }
      s.modNi n fun x => { ((x.reserve 8 1).putItem j i [{ it with ring := 1 }]) with
        rsvOut := x.rsvOut ++ [d], answers := x.answers ++ [{ a with ord := x.ordN }] }
    else s

/-! The injection of one fc (R188) -/

/-- The weights of the queues (R184, R190). -/
def State.weight (s : State) (n j : Nat) : Nat := s.fld (QD (s.qDesc n j) 1) 8 0

/-- The first element of a list after `last` in round-robin order of 256. -/
def afterRR (last : Nat) (l : List Nat) : Option Nat := firstFrom ((last + 1) % 256) 256 fun j => l.contains j

/-- Refills of the weighted group until a queue of `p` has credit (R190). -/
def refill (w : Nat → Nat) (group p : List Nat) : Nat → Tbl Int → Tbl Int
  | 0, c => c
  | fuel + 1, c =>
    if p.any fun q => 0 < Tbl.get (fun _ => 0) c q then c
    else refill w group p fuel (group.foldl (fun c q => Tbl.upd (fun _ => 0) q (fun v => min v 0 + (w q : Int)) c) c)

/-- The queue that the weighted group serves (R190), with its credits updated. -/
def State.weighted (s : State) (n : Nat) (strict : Nat) : State × Option Nat :=
  let group := (List.range (s.qCount n)).filter fun j => strict ≤ j && s.qValid n j
  let e := group.filter fun j => s.eligible n j
  let p := e.filter fun j => 0 < s.weight n j
  let x := s.niOf n
  if p.isEmpty then
    match afterRR x.lastZero e with
    | some q => (s.modNi n fun x => { x with lastZero := q }, some q)
    | none => (s, none)
  else
    let c := refill (s.weight n) group p 64 x.qcred
    match afterRR x.lastServed (p.filter fun q => 0 < Tbl.get (fun _ => 0) c q) with
    | none => (s, none)
    | some q =>
      let len : Int := match s.headOf n q with | some (_, _, p) => p.body.length | none => 0
      (s.modNi n fun x => { x with qcred := Tbl.upd (fun _ => 0) q (· - len) c, lastServed := q }, some q)

/-- The scheduled flit of this fc, if there is one (R160): the next flit of a scheduled packet, or the first flit of the
oldest waiting message of the flow that holds this position. -/
def State.schedInject (s : State) (n : Nat) : State :=
  let x := s.niOf n
  if !s.runs (niTile n) || x.sentFc = s.fc + 1 then s else
  let s := s.injMarks n
  match x.schRest with
  | f :: rest =>
    let s := match x.schQ with | some j => s.servedFlit n j | none => s
    (s.modNi n fun x => { x with schRest := rest, schQ := if rest.isEmpty then none else x.schQ }).niSend n bypVc f
  | [] =>
    match s.niBank n with
    | none => s
    | some b =>
      match s.injFlow n b s.rotPos with
      | none => s
      | some f =>
        let miss (s : State) : State := s.countOnce n 0x2F
        let fl := BitVec.ofNat 12 f
        let cand : List (Nat × Nat × QItem) := x.queues.filterMap fun (j, q) =>
          (q.findIdx? fun it => it.flow = some fl).bind fun i => (q.drop i).head?.map fun it => (j, i, it)
        let old := cand.foldl (fun (o : Option (Nat × Nat × QItem)) c => match o with
          | some m => if c.2.2.ord < m.2.2.ord then some c else o | none => some c) none
        match old.bind fun c => c.2.2.pkt.map fun p => (c, p) with
        | none => miss s
        | some ((j, i, it), p) =>
          let (rkey, rn) := answerSpace p 0
          if !s.schedWaits n it || s.fc < it.taken + 4 || !s.canReserve n rkey rn || 128 ≤ x.unansTo (hDst p.hdr) ||
              x.flowBusy fl false || x.barred j it.ord || x.hazardHeld it p ||
              (it.hazard.any fun h => x.wcb.any fun l => l.ord = h) then miss s
          else
            let p := { p with hdr := setSch p.hdr true }
            let s := (s.modNi n fun x => x.putItem j i []).issue n it p
            let (seq, s) := s.takeSeq n (hDst p.hdr) (hVn p.hdr)
            match ({ p with hdr := setSeq p.hdr seq } : Pkt).flits with
            | [] => s
            | f :: rest =>
              let s := s.servedFlit n j
              (s.modNi n fun x => { x with schRest := rest, schQ := some j }).niSend n bypVc f

/-- The head of a queue is injected, if it has one. -/
def State.injectFrom (s : State) (n j : Nat) : State :=
  match s.headOf n j with
  | some (i, it, p) => s.injectHead n j i it p
  | none => s

/-- A head that only R191 or R336 keeps back (R379 THROTTLE), and the mark of R209. -/
def State.holdMarks (s : State) (n j : Nat) : State :=
  match s.headOf n j with
  | none => s
  | some (_, it, p) =>
    let s := if (s.niOf n).routeHeld it p then s.setBit (ORD_STAT n) 1 else s
    if s.ready n j it p && !s.eligible n j then s.countOnce n 0x37 else s

/-- A flit that came from pool `i` of a Skidway receive buffer has been injected: its credit is owed to the peer (R297). The
scheduled reservation counts as pool 10, which has no credits. -/
def State.poolCredit (s : State) (n : Nat) (i : Option Nat) : State :=
  match i with
  | some i => if i < 9 then s.modSkw (n - 81) fun x => { x with owed := Tbl.upd (fun _ => 0) i (· + 1) x.owed } else s
  | none => s

/-- The dynamic flit of this fc, by the precedence of R188 items 2 to 5. DESIGN CHOICE (log 17): a request on the fabric's
own behalf goes before the strict queues. -/
def State.dynInject (s : State) (n : Nat) : State :=
  let x := s.niOf n
  match x.cur.find? (fun c => 0 < x.attCredits c.vc) with
  | some c =>
    match c.flits with
    | [] => s.modNi n fun x => { x with cur := eraseFirst (· = c) x.cur }
    | f :: rest =>
      let left : List CurPkt :=
        if rest.isEmpty then eraseFirst (· = c) x.cur else modFirst (· = c) (fun c => { c with flits := rest }) x.cur
      let s := s.modNi n fun x => { x with cur := left }
      let s := match c.q with | some j => s.charge n j | none => s
      (s.dynSend n c.vc f).poolCredit n c.pool
  | none =>
    let s := if x.reqHeld then s.setBit (ORD_STAT n) 1 else s
    match s.nextAnswer n with
    | some (a, vc) =>
      let s := s.modNi n fun x =>
        let x : Ni := { x with answers := eraseFirst (· = a) x.answers }
        if a.isReq then x.noteRoute a.pkt else x
      let (s, p) := s.ehFill a
      s.startPkt n vc none p
    | none =>
      let js := (s.niOf n).queues.map (·.1)
      let s := js.foldl (fun s j => (s.askRoom n j).holdMarks n j) s
      if s.eligible n ownQueue then s.injectFrom n ownQueue
      else
        let strict := min (s.fld (INJ_CTRL n) 2 0) 4
        match (List.range strict).find? fun j => s.qValid n j && s.eligible n j with
        | some j => s.injectFrom n j
        | none =>
          match s.weighted n strict with
          | (s, some j) => s.injectFrom n j
          | (s, none) => s

/-- KNI queues: packets that came from the peer, one queue for each VN, round-robin (R192). In the ring personality a request
packet needs a reservation (R123), and a KNI can be given none, for it discards what is sent to it (R304): there the packet
waits (DEDUCED, log 126). -/
def State.kniInject (s : State) (n : Nat) : State :=
  let x := s.niOf n
  let can (j : Nat) : Bool := match x.queue j with
    | it :: _ => (match it.pkt with
      | some p => let opc := sOpc (p.body.headD (0, 0)).1
        (s.attVc n p.hdr opc).isSome && s.fits n p.body.length && !(s.ring && !isResponse (hCls p.hdr) opc)
      | none => false)
    | [] => false
  match firstFrom ((x.lastServed + 1) % 8) 8 can with
  | none => s
  | some j =>
    match x.queue j with
    | it :: rest =>
      match it.pkt with
      | some p =>
        match s.attVc n p.hdr (sOpc (p.body.headD (0, 0)).1) with
        | some vc =>
          let s := s.modNi n fun x => { (x.setQueue j rest) with lastServed := j }
          match p.flits with
          | [] => s
          | f :: more =>
            let s := (s.dynSend n vc f).poolCredit n it.pool
            if more.isEmpty then s
            else s.modNi n fun x => { x with cur := x.cur ++ [{ flits := more, vc := vc, q := some j, pool := it.pool }] }
        | none => s
      | none => s
    | [] => s

/-- A KNI's flit of this fc: flits under way, then answers it sends itself, then its queues (R188, R192). -/
def State.kniDyn (s : State) (n : Nat) : State :=
  let x := s.niOf n
  match x.cur.find? (fun c => 0 < x.attCredits c.vc) with
  | some _ => s.dynInject n
  | none => match s.nextAnswer n with
    | some _ => s.dynInject n
    | none => s.kniInject n

/-- NI `n` fills its attachment output for this fc (R188): `sched` is its scheduled injection. -/
def State.inject (s : State) (n : Nat) (sched : State → State) : State :=
  if !s.runs (niTile n) || (s.niOf n).sentFc = s.fc + 1 then s else
  let s := s.takeCredits n
  let s := s.releases n
  let s := sched s
  if (s.niOf n).sentFc = s.fc + 1 then s
  else if 81 ≤ n then s.kniDyn n else s.dynInject n

/-- The lookup of a waiting place of NI `n`: of a queue's oldest unbuilt message, or of its answers, events and requests
of the fabric's own. -/
def State.lookupAt (s : State) (n : Nat) (q : QRef) : State :=
  if !s.runs (niTile n) then s else
  match q with
  | .queue j => s.buildQueue n j.toNat
  | .answers =>
    if (s.niOf n).answers.any (fun a => !a.routed) then s.routeAnswer n
    else (s.eventReady n).buildQueue n ownQueue

/-- A throttle frame begins: every NI samples its rate and every partition its share (R191, R336). -/
def State.frame (s : State) : State :=
  if s.fc % 256 ≠ 0 || s.mode = .frozen || s.fclkDead then s else
  let s := forN 87 (fun n s => s.modNi n fun x => { x with thrRate := s.fld (INJ_THR n) 8 0, thrUsed := 0, shUsed := [] }) s
  { s with shRate := (List.range 512).foldl (fun t p =>
      let r := s.fld (PART_SHARE p) 24 16
      if r = 256 then t else t ++ [(p, r)]) [] }

/-! Commands -/

/-- ROUTE_LOOKUP (R70, R503). -/
def execRouteLookup (n : Fin 81) (q : QRef) (s : State) : Out := .next (s.lookupAt n q)
/-- SCHED_INJECT (R160). -/
def execSchedInject (n : Fin 81) (s : State) : Out := .next (s.schedInject n)
/-- THROTTLE_FRAME (R191, R336). -/
def execThrottleFrame  (s : State) : Out := .next (s.frame)

end Sys2Proof.Machine
end

