-- ==== Sys2Proof/Machine/Eject.lean ====
section
/-! DEFINITION. The ejecting side of an NI: the answers an NI makes (R39, R257, R500, R503), the flits that arrive and
the discards of R35, R51, R74, R117, R124 and R304, the target check (R321 to R327), and the Granary (R110 to R114). -/

namespace Sys2Proof.Machine

/-! Answers that an NI makes -/

/-- The own level of NI `n` (R257). -/
def State.ownLevel (s : State) (n : Nat) : Nat :=
  let x := s.niOf n
  let held (v : Nat) : Nat := ((x.gran.filter fun h => !h.sched && hVn h.hdr = v).map fun h => h.total).sum +
    ((x.asm.map fun l => ((l.2.filter fun a => !a.discard && hVn a.hdr = v).map fun a => a.moved).sum)).sum
  let cap := s.granLimit n 0 + s.granLimit n 1
  if cap = 0 then 0 else min (255 * (held 0 + held 1) / cap) 255

/-- The level of the engine of PNI `n` (R257). -/
def State.devLevel (s : State) (n : Nat) : Nat :=
  let d := (s.niOf n).devD
  s.fld (DL_EXP n) (8 * d + 7) (8 * d)

/-- The congestion level that NI `n` places in an answer; a PNI records its own level in DL_STAT (R257, R259). -/
def State.loadNow (s : State) (n : Nat) : Nat × State :=
  let own := s.ownLevel n
  if Config.niKind n = .pni then
    ((if s.feat fDEVLOAD then max own (s.devLevel n) else (s.niOf n).devD * 64), s.setFld (DL_STAT n) 7 0 own)
  else (if s.feat fDEVLOAD then own else 0, s)

/-- An answer or control packet that waits with the answers of NI `n`. A KNI, which has no lookups of its own queue,
finds its route at once; an answer without a route is discarded and journaled (R503). -/
def State.sendAnswer (s : State) (n : Nat) (p : Pkt) : State :=
  let s := s.modNi n fun x => { x with answers := x.answers ++ [{ pkt := p, ord := x.ordN }] }
  if 81 ≤ n then s.routeAnswer n else s

/-- The answer to a request with header `h`: class, opcode and class-specific sidecar bits of each flit, and its data
(R39, R42, R500). -/
def State.reply (s : State) (n : Nat) (h : BitVec 128) (cls : BitVec 4) (body : List (BitVec 128 × BitVec 512)) : State :=
  s.sendAnswer n { hdr := mkHdr cls false 0 (hPart h) (s.node n) (hSrc h) 0 (hTag h) (body.length - 1),
                   body := body.zipIdx.map fun ((x, d), i) => (trimSc cls (setFidx x i), d) }

/-- RADDR of an answer to a request packet (R500). -/
def reqRaddr (h sc : BitVec 128) : BitVec 46 := pktRaddr { hdr := h, body := [(sc, 0)] }

/-- One NDR flit for a request, with the METAFIELD and METAVALUE of an answer (R39, R252, R499). -/
def State.ndrMeta (s : State) (n : Nat) (h sc : BitVec 128) (opc : BitVec 8) (code : Code) (meta_ : Nat) : State :=
  let (l, s) := s.loadNow n
  s.reply n h cNDR [(setRaddr (setLoad (setStatus (setOpc (putBits 0 19 16 meta_) opc) code) l) (reqRaddr h sc), 0)]

/-- One NDR flit for a request that the NI itself ends. -/
def State.ndr (s : State) (n : Nat) (h sc : BitVec 128) (opc : BitVec 8) (code : Code) : State := s.ndrMeta n h sc opc code 0

/-- The posted packets that PACK answers: IOP and posted MGT (R39, R498). -/
def packed (h sc : BitVec 128) : Bool := postedPkt h sc && (hCls h = cIOP || hCls h = cMGT)

/-- The answer of an NI that ends a request itself (R39, R498, R499). -/
def State.endReply (s : State) (n : Nat) (h sc : BitVec 128) (code : Code) : State :=
  let opc := sOpc sc
  if packed h sc then s.ndr n h sc opPACK code
  else if hCls h = cBSNP then s.reply n h cBRSP [(setStatus (setOpc 0 (snoopOpc opc)) code, 0)]
  else if hCls h = cMGT then
    let o := if opc = opRSV_REQ then opRSV_NAK else opEH_RSP
    s.reply n h cMGT [(mkMgt o (mAddr sc) code (mMid sc) (mArg sc), 0)]
  else s.ndr n h sc (if noCompletion (hCls h) opc then 0 else opFERR) code

/-- The Journal entry of a target NI for a request (R448, R450): `done` lines performed, `detail` in bits [15:8]. -/
def State.targetJ (s : State) (n : Nat) (h : BitVec 128) (code : Code) (addr split done hi : Nat) : State :=
  s.journal { code := code, kind := kTARGET, where_ := whereNi n, part := some (hPart h), init := hSrc h, tgt := hDst h,
              tag := hTag h, detail := BitVec.ofNat 16 (done + hi * 256), addr := BitVec.ofNat 64 addr,
              split := BitVec.ofNat 64 split, flow := if hSch h then some (hFlow h) else none,
              posted := isPosted (hCls h) (hTag h), injected := true }

/-- The first address of a request packet by its first flit, for its Journal entry: the first byte it accesses (R319). -/
def pktAddr (h sc : BitVec 128) : Nat :=
  match (hCls h).toNat with
  | 7 | 8 => if tlpAddrRouted (sOpc sc) then (sAddr64 sc).toNat / 4 * 4 + (tlpBytes sc).headD 0 else (sAddr64 sc).toNat
  | 9 => (mAddr sc).toNat
  | 1 => (sAddr sc).toNat + (rwdBytes [(sc, 0)]).headD 0
  | _ => (sAddr sc).toNat

/-- A request ended by the target NI: answered in the form of R39, and journaled when it is posted or `jnl` asks. -/
def State.refuseAt (s : State) (n : Nat) (h sc : BitVec 128) (code : Code) (jnl : Bool) : State :=
  let s := if jnl || postedPkt h sc then s.targetJ n h code (pktAddr h sc) 0 0 0 else s
  let s := if code = BACKOFF then (s.countN n 0x2C 1 (s.hits (niTile n) { hdr := h, sc := sc })).sentBackoff n else s
  s.endReply n h sc code

/-- A request that finds its partition or its unit closed: a posted one is dropped and journaled, another is answered
(R254, R338, R342). Every request of a squashed partition is journaled, and what `jnl` names. -/
def State.closedAt (s : State) (n : Nat) (h sc : BitVec 128) (code : Code) (jnl : Bool) : State :=
  if postedPkt h sc then s.targetJ n h code (pktAddr h sc) 0 0 0
  else
    let s := if code = SQUASH || jnl then s.targetJ n h code (pktAddr h sc) 0 0 0 else s
    s.endReply n h sc code

/-! Skidway's side of a KNI -/

/-- The state of a Skidway port (R298). -/
def State.skwState (s : State) (p : Nat) : Nat := s.fld (SKW_STAT p) 2 0

/-- The port takes packets, or keeps them while it retrains (R300, R308). -/
def State.skwOpen (s : State) (p : Nat) : Bool :=
  let x := s.skwOf p
  (s.skwState p = 5 || x.retr) && !x.closing

/-- What becomes of a packet at a port that takes none (R308, R309). -/
def State.skwRefuse (s : State) (n : Nat) (h sc : BitVec 128) : State :=
  let code := if s.skwState (n - 81) = 7 then LINK else FENCED
  if isResponse (hCls h) (sOpc sc) || postedPkt h sc then s.journal (transitEntry (whereNi n) code h sc 0)
  else s.endReply n h sc code

/-! Discards -/

/-- An arriving packet discarded with DECODE (R35, R41, R74, R117, R124, R304). -/
def State.discardPkt (s : State) (n : Nat) (h sc : BitVec 128) : State :=
  (s.niErr n 8).journal (transitEntry (whereNi n) DECODE h sc 0)

/-- The grant that a request packet uses in the ring personality (R124). -/
def Ni.grantOf (x : Ni) (h : BitVec 128) : Option RsvGrant := x.grants.find? fun g => g.src = hSrc h && g.vn = hVn h

/-- A packet that is discarded on arrival: its class, VN or length, a reserved NDR opcode, its DST, or a request without
a reservation in the ring personality. -/
def State.badArrival (s : State) (n : Nat) (h sc : BitVec 128) : Bool :=
  let c := hCls h
  9 < c.toNat || hVn h ≠ vnOf c || maxLen c < hLen h ||
  (c = cNDR && 0x84 ≤ (sOpc sc).toNat && (sOpc sc).toNat ≤ 0x9F) ||
  (if 81 ≤ n then isSheaf s.die h || nodeDie (hDst h) = s.die else !isSheaf s.die h && hDst h ≠ s.node n) ||
  (s.ring && n < 81 && !isResponse c (sOpc sc) && !isRsvReq h sc && ((s.niOf n).grantOf h).isNone)

/-! Flits that leave a VC -/

/-- The credit of a flit that has left a VC of NI `n`'s input; credits given up in one fc leave one after the other
(R103). -/
def State.ejCredit (s : State) (n vc : Nat) : State :=
  if vc = bypVc then s else
  let l := 8 * Config.niRouter n + Config.niPort n
  let fly := s.credOf l
  s.setCred l (fly ++ [(vc, credDue fly (s.fc + s.depth (Config.niRouter n) (Config.niPort n) + 1))])

/-- The credits of `k` flits. -/
def State.ejCredits (s : State) (n vc : Nat) : Nat → State
  | 0 => s
  | k + 1 => (s.ejCredit n vc).ejCredits n vc k

/-! The target check -/

/-- Whether an access is a write to memory, whose refusal by rule is journaled (R327). -/
def Access.memWrite (a : Access) : Bool := a.space = 0 && a.kind = 1

/-- A request packet is a write to memory (R327, R448). -/
def memWritePkt (h sc : BitVec 128) : Bool := (accessOf (hCls h) [(sc, 0)] 0).any Access.memWrite

/-- The code of step 1 of R502: the state of the packet's partition (R338). -/
def State.partCode (s : State) (h : BitVec 128) : Code :=
  if privileged (hSrc h) then OK
  else match s.partState (hPart h).toNat with
    | 2 | 3 | 5 => OK
    | 6 => SQUASH
    | _ => FENCED

/-- The destination PBR ID with which an ID-routed TLP was routed (R65, R319), where its source NI is on this die. -/
def State.pbrOf (s : State) (h : BitVec 128) : Option Nat :=
  let e := (s.niOf (nodeNi (hSrc h))).led (tagKey (hTag h))
  if nodeDie (hSrc h) = s.die && e.isOpen && e.injected && e.cls = hCls h then some e.pbr.toNat else none

/-- The first sidecar of a packet. -/
def HPkt.sc (h : HPkt) : BitVec 128 := (h.body.headD (0, 0)).1

/-- The target check has refused the packet. -/
def HPkt.refused (h : HPkt) : Bool := h.verdict ≠ OK && h.verdict ≠ PARTIAL

/-- A request that its target check has refused is ended: by the state of its partition (FENCED, SQUASH), or by a rule. -/
def State.endRefused (s : State) (n : Nat) (h sc : BitVec 128) (code : Code) : State :=
  if code = FENCED || code = SQUASH then s.closedAt n h sc code (memWritePkt h sc) else s.refuseAt n h sc code (memWritePkt h sc)

/-- A refused packet is ended at once; at the LNI one that takes an answer keeps its place in the Granary (R269). -/
def State.refused (s : State) (n : Nat) (p : HPkt) (code : Code) : State × Option HPkt :=
  if n = lniN && !(code = FENCED && postedPkt p.hdr p.sc) then (s, some { p with verdict := code })
  else (s.endRefused n p.hdr p.sc code, none)

/-- A request packet whose flits have all arrived is checked under the rules its check began with (R321 to R327). An
ID-routed TLP does not carry the PBR ID it was routed with: for one from another die the key of its check is a free value
(log 1). What remains, if it is to be performed, is the packet to offer. -/
def State.targetCheck (s : State) (n : Nat) (a : Asm) : State × Option HPkt :=
  let h := a.hdr
  let sc := (a.body.headD (0, 0)).1
  let pkt : HPkt := { hdr := h, body := a.body, sched := hSch h, total := a.body.length,
                      asked := pktLines { hdr := h, body := a.body }, checkOrd := a.ckOrd }
  if a.code ≠ OK then s.refused n pkt a.code
  else
    let idr := (hCls h = cIOP || hCls h = cION) && !tlpAddrRouted (sOpc sc)
    let known := s.pbrOf h
    let pbr := if idr then known.getD (s.freeNow.toNat % 4096) else 0
    let s := if idr && known.isNone then s.drawn else s
    match accessOf (hCls h) a.body pbr with
    | none => (s, some pkt)
    | some acc =>
      let v := verdictOf (decideByte a.rules (privileged (hSrc h) && a.dflt) acc false (hPart h) (hSrc h)) acc
      let s := (s.ruleNote n true v).countN n 0x2A (flag (v.code ≠ OK)) (s.hits (niTile n) { hdr := h, sc := sc })
      if v.code = OK then (s, some pkt)
      else if v.code = PARTIAL then
        let lines := pktLines { hdr := h, body := reduceBody (hCls h) a.body v.done }
        let s := s.targetJ n h PARTIAL v.first v.split lines 0
        (s, some { pkt with body := reduceBody (hCls h) a.body v.done, verdict := PARTIAL, failCode := v.fail,
                            split := BitVec.ofNat 52 v.split })
      else s.refused n pkt v.code

/-! Flits that arrive -/

/-- The list of packets on a VC of NI `n`. -/
def Ni.vcAsm (x : Ni) (vc : Nat) : List Asm := if vc = bypVc then x.schAsm else Tbl.get (fun _ => []) x.asm vc
def Ni.setVcAsm (x : Ni) (vc : Nat) (l : List Asm) : Ni :=
  if vc = bypVc then { x with schAsm := l } else { x with asm := Tbl.set (fun _ => []) vc l x.asm }

/-- The order that the next packet to begin on a VC takes. -/
def Ni.nextAsm (x : Ni) : Nat := x.asm.foldl (fun m l => l.2.foldl (fun m a => max m (a.ord + 1)) m) 0

/-- Every flit of a packet has arrived. -/
def Asm.full (a : Asm) : Bool := a.body.length = hLen a.hdr + 1

/-- A packet that needs no room in the Granary: an answer of this NI's own requests, a control packet, or RSV_REQ
(R111, R123, R199, R231). -/
def roomless (n : Nat) (h sc : BitVec 128) : Bool :=
  n < 81 && (isResponse (hCls h) (sOpc sc) || isRsvReq h sc)

/-- A packet without Granary needs joins the answers that have arrived. -/
def Ni.toAnswers (x : Ni) (a : Asm) : Ni :=
  { x with answersIn := x.answersIn ++ [{ hdr := a.hdr, body := a.body, total := a.body.length }] }

/-- A new packet begins on a VC: its check takes the rules in force (R321), and in the ring personality its grant is used
(R124). -/
def State.beginPkt (s : State) (n vc : Nat) (h sc : BitVec 128) : State × Asm :=
  let x := s.niOf n
  let transit := 81 ≤ n
  let free := roomless n h sc
  let acc := accessOf (hCls h) [(sc, 0)] 0
  let granted := s.ring && !transit && !free && (x.grantOf h).isSome
  let code := if transit || free then OK else s.partCode h
  let a : Asm := { hdr := h, vc := vc, admitted := granted || vc = bypVc, code := code,
                   rules := if transit || free then [] else s.shadowRules n true,
                   dflt := (acc.map s.ruleDflt).getD false, ckOrd := if transit || free then 0 else x.ckN + 1 }
  let x := if transit || free then x else { x with ckN := x.ckN + 1 }
  let x := if granted then { x with grants := eraseFirst (fun g => some g = x.grantOf h) x.grants } else x
  (if transit || free || code ≠ OK || acc.isNone then s.setNi n x else (s.setNi n x).readShadow n true, a)

/-- A packet that has ended on its VC: its flits need no room, and leave it one by one (R112). -/
def Asm.ended (a : Asm) : Asm := { a with discard := true, ckOrd := 0, pkt := none }

/-- A packet on a VC is complete: an answer waits for its flits to leave the VC, a request is checked. -/
def State.completePkt (s : State) (n : Nat) (a : Asm) : State × Asm :=
  let sc := (a.body.headD (0, 0)).1
  if 81 ≤ n then
    if a.code ≠ OK then (s.closedAt n a.hdr sc a.code (memWritePkt a.hdr sc), a.ended)
    else if s.skwOpen (n - 81) then (s, { a with pkt := some { hdr := a.hdr, body := a.body, total := a.body.length } })
    else (s.skwRefuse n a.hdr sc, a.ended)
  else if roomless n a.hdr sc then (s, a)
  else match s.targetCheck n a with
    | (s, some p) => (s, { a with pkt := some p })
    | (s, none) => (s, a.ended)

/-- A packet of the scheduled reservation, once complete, is held for its unit (R114). -/
def State.holdPkt (s : State) (n : Nat) (p : HPkt) : State :=
  s.modNi n fun x => { x with gran := x.gran ++ [{ p with pid := x.pidN + 1 }], pidN := x.pidN + 1 }

/-- A packet whose flits have all left their VC, or that came as scheduled flits: it is held for its unit, it joins the
answers that have arrived, or it has ended. -/
def State.settle (s : State) (n : Nat) (a : Asm) : State :=
  if a.discard then s
  else match a.pkt with
    | some p => s.holdPkt n p
    | none => s.modNi n fun x => x.toAnswers a

/-- One checked flit joins a packet on its VC. -/
def State.joinFlit (s : State) (n vc : Nat) (a : Asm) (others : List Asm) (f : Flit) : State :=
  let a := { a with body := a.body ++ [(f.sc, f.data)] }
  if !a.full then s.modNi n fun x => x.setVcAsm vc (others ++ [a])
  else
    let (s, a) := s.completePkt n a
    if vc = bypVc then (s.modNi n fun x => x.setVcAsm vc others).settle n a
    else s.modNi n fun x => x.setVcAsm vc (others ++ [a])

/-- Flits of the scheduled reservation in use (R114). A packet one of whose flits was discarded holds none. -/
def Ni.schUsed (x : Ni) : Nat :=
  ((x.gran.filter (·.sched)).map (·.total)).sum + ((x.schAsm.filter (!·.discard)).map fun a => a.body.length).sum

/-- A scheduled flit finds the reservation full (R178). -/
def State.schedFull (s : State) (n : Nat) (h : BitVec 128) : State :=
  (s.niErr n 9).violation 3 (whereNi n) [(hFlow h).toNat]

/-- What PSN, the checks and the probes of an NI show of a flit (R51, R53, R379, R381). -/
def State.ejectMarks (s : State) (n : Nat) (f : Flit) (ce : Nat) (ue setPsn : Bool) : State :=
  let p := s.hits (niTile n) (flitSeen f)
  let s := (s.countN n 0x22 1 p).countN n 0x27 ce unfiltered
  let s := if sFidx f.sc = 0 then s.countN n 0x23 1 p else s
  let s := if sPsn f.sc && !setPsn then s.countN n 0x29 1 p else s
  let s := if setPsn then s.countN n 0x28 1 unfiltered else s
  let s := if ce ≠ 0 then s.niErr n 1 else s
  let s := if ue then s.niErr n 0 else s
  s.probes true n 0 true f

/-- A flit with an uncorrectable data group, or a continuation flit with an uncorrectable control group, is poisoned
(R51). -/
def poisonFlit (h : BitVec 128) (ctl : Bool) (f : Flit) : Flit :=
  let sc := setPsn f.sc true
  rewriteSc f (if ctl && hCls h = cRWD then setBmask sc (BitVec.allOnes 64) else sc)

/-- The journal entry and fault for a PSN that the NI sets (R51, R458). The initiator and the target are those of the request,
also where the packet is its answer (R449). -/
def State.poisonJ (s : State) (n : Nat) (h : BitVec 128) (opc : BitVec 8) : State :=
  let g := if isResponse (hCls h) opc then setSrc (setDst h (hSrc h)) (hDst h) else h
  (s.targetJ n g POISON 0 0 0 0).partFault (hPart h)

/-- A scheduled flit is taken for the peer; a packet with flits to come stays open. -/
def Skw.takeSched (x : Skw) (f : Flit) (t : Nat) : Skw :=
  let left := hLen f.hdr - sFidx f.sc
  let rest := x.schOpen.filter fun e => e.1 ≠ f.hdr
  { x with schOut := x.schOut ++ [{ flit := f, fc := t }],
           schOpen := if left = 0 then rest else rest ++ [(f.hdr, t + left)] }

/-- A scheduled flit ejected to a KNI departs towards the peer four fc after its arrival (R162, R291). A port that closes
takes the flits of a packet it has begun to take, and no others (R308). -/
def State.kniSched (s : State) (n : Nat) (f : Flit) (due : Nat) : State :=
  let p := n - 81
  if (s.skwOpen p && sFidx f.sc = 0) || (s.skwOf p).schOpen.any (fun e => e.1 = f.hdr) then s.modSkw p fun x => x.takeSched f (due + 4)
  else if sFidx f.sc = 0 then s.skwRefuse n f.hdr f.sc else s

/-- Where a discard under way is kept: by VC, or by flow for scheduled flits, whose packets come interleaved. -/
def discKey (vc : Nat) (h : BitVec 128) : Nat := if vc = bypVc then bypVc + (hFlow h).toNat else vc
def Ni.disc (x : Ni) (k : Nat) : Nat := Tbl.get (fun _ => 0) x.discVc k
def Ni.setDisc (x : Ni) (k v : Nat) : Ni := { x with discVc := Tbl.set (fun _ => 0) k v x.discVc }
/-- The discard of the `k` flits that follow, and what is left of a discard after one of its flits (R35, R51). -/
def discLen (k : Nat) : Nat := if k = 0 then 0 else 2 + k
def discNext (d : Nat) : Nat := if d ≤ 1 then d else discLen (d - 3)

/-- The scheduled reservation of NI `n` is full (R114, R178). -/
def State.schFull (s : State) (n : Nat) : Bool := s.fld (GRAN_LIM4 n) 26 16 ≤ (s.niOf n).schUsed

/-- A flit that no packet on its VC awaits: it begins one, or it is discarded (R35, R51, R178). -/
def State.newFlit (s : State) (n : Nat) (y : Fly) (f : Flit) (ce ue : List Nat) : State :=
  let vc := y.vc
  let key := discKey vc f.hdr
  let d := (s.niOf n).disc key
  let bad := !ue.isEmpty
  if ue.any (· ≤ 2) then
    let s := (s.ejectMarks n f ce.length true false).ejCredit n vc
    if d ≠ 0 then s.modNi n fun x => x.setDisc key (discNext d)
    else (((s.niErr n 8).journal (transitEntry (whereNi n) POISON f.hdr f.sc 0)).partFault (hPart f.hdr)).modNi n fun x =>
      x.setDisc key 1
  else if sFidx f.sc ≠ 0 then
    let s := (s.ejectMarks n f ce.length bad false).modNi n fun x => x.setDisc key (discNext d)
    if vc = bypVc && 81 ≤ n && d = 0 then s.kniSched n f y.due else s.ejCredit n vc
  else if s.badArrival n f.hdr f.sc then
    ((((s.ejectMarks n f ce.length bad false).ejCredit n vc).discardPkt n f.hdr f.sc)).modNi n fun x =>
      x.setDisc key (discLen (hLen f.hdr))
  else
    let s := s.modNi n fun x => x.setDisc key 0
    let f := if bad then poisonFlit f.hdr false f else f
    let s := s.ejectMarks n f ce.length bad bad
    let s := if bad then s.poisonJ n f.hdr (sOpc f.sc) else s
    let others := (s.niOf n).vcAsm vc
    if vc = bypVc && 81 ≤ n then s.kniSched n f y.due
    else if vc = bypVc && s.schFull n then
      let s := s.schedFull n f.hdr
      if hLen f.hdr = 0 then s
      else s.modNi n fun x => x.setVcAsm vc (others ++ [{ hdr := f.hdr, vc := vc, admitted := true, discard := true,
                                                           body := [(f.sc, f.data)] }])
    else
      let (s, a) := s.beginPkt n vc f.hdr f.sc
      s.joinFlit n vc { a with fc := s.fc, ord := (s.niOf n).nextAsm } others f

/-- A flit with another FIDX than the packet on its VC awaits (R44). DESIGN CHOICE (log 130): the spec does not say what
follows; that packet is discarded with DECODE, and the flit begins a packet of its own or is discarded with it. -/
def State.misplaced (s : State) (n vc : Nat) (a : Asm) (others : List Asm) : State :=
  (((s.ejCredits n vc (a.body.length - a.moved)).modNi n fun x =>
    (x.setVcAsm vc others).setDisc (discKey vc a.hdr) 1)).discardPkt n a.hdr (a.body.headD (0, 0)).1

/-- A flit off the link into NI `n` after its correction: `ce` are its groups corrected, `ue` those uncorrectable. It is
discarded or poisoned, and joins its packet (R44, R51, R178, R321). DESIGN CHOICE (log 73): one that finds the reservation full is discarded with its whole packet, the flits
already there and those to come; the spec speaks of the flit alone. -/
def State.ejectFlit (s : State) (n : Nat) (y : Fly) (f : Flit) (ce ue : List Nat) : State :=
  let vc := y.vc
  let held := (s.niOf n).vcAsm vc
  let same (a : Asm) : Bool := a.hdr.extractLsb' 29 20 = f.hdr.extractLsb' 29 20 && hSeq a.hdr = hSeq f.hdr && hVn a.hdr = hVn f.hdr
  match held.find? fun a => !a.full && (vc ≠ bypVc || same a) with
  | none => s.newFlit n y f ce ue
  | some a =>
    let others := eraseFirst (· = a) held
    let ctl := ue.any (· ≤ 2)
    let bad := !ue.isEmpty
    if !ctl && sFidx f.sc ≠ a.body.length then (s.misplaced n vc a others).newFlit n y f ce ue
    else
      let f := if bad then poisonFlit a.hdr ctl f else f
      let s := s.ejectMarks n f ce.length bad bad
      let s := if bad then s.poisonJ n a.hdr (sOpc (a.body.headD (0, 0)).1) else s
      if vc = bypVc && (a.discard || s.schFull n) then
        let s := if s.schFull n then s.schedFull n a.hdr else s
        let a := { a with discard := true, body := a.body ++ [(f.sc, f.data)] }
        s.modNi n fun x => x.setVcAsm vc (if a.full then others else others ++ [a])
      else s.joinFlit n vc a others f

/-- A scheduled flit leaves the bypass register of the attachment (R101) for the scheduled reservation. DEDUCED (log 131): it
does so in the fc of its arrival, since it goes into the reservation then or is discarded (R114, R178). -/
def State.leaveByp (s : State) (n : Nat) (ce ue : List Nat) : State :=
  match (s.niOf n).byp with
  | [] => s
  | y :: rest => (s.modNi n fun x => { x with byp := rest }).ejectFlit n y y.flit ce ue

/-- The flit at the end of the link into NI `n`, struck on its way by `err`, is decoded and taken (R51). DESIGN CHOICE
(log 131): a KNI applies R51 also to the packets that it ejects towards its Skidway link; R51 names a destination NI and an
entering KNI. -/
def State.ejectArrive (s : State) (n : Nat) (err : FlitErr) : State :=
  match s.linkOf (linkNi n) with
  | [] => s
  | y :: rest =>
    if s.fc < y.due || !s.runs (niTile n) then s
    else
      let r := fixFlit (strike y.flit err)
      let s := s.setLink (linkNi n) rest
      if y.vc = bypVc then (s.modNi n fun x => { x with byp := x.byp ++ [{ y with flit := r.1 }] }).leaveByp n r.2.1 r.2.2
      else s.ejectFlit n y r.1 r.2.1 r.2.2

/-! The Granary (R112) -/

/-- The first packet on a VC of NI `n` moves one flit into the Granary, once all of its flits fit under its limit; an
answer and a packet that has ended need no room. It does not pass one of its stream that came before on another VC
(log 127). -/
def State.granAdmit (s : State) (n vc : Nat) : State :=
  let x := s.niOf n
  if !s.runs (niTile n) || x.admFc = s.fc + 1 then s else
  match x.vcAsm vc with
  | [] => s
  | a :: rest =>
    let key := granKey a.hdr (sOpc (a.body.headD (0, 0)).1)
    let before := (x.asm.flatMap fun l => l.2.filter fun b => b.vc ≠ vc && b.ord < a.ord).map (·.hdr)
    let room := !roomless n a.hdr (a.body.headD (0, 0)).1 && (a.code = OK || n = lniN) && !a.discard
    if room && !a.admitted && s.granLimit n key < x.granUsed key + x.reserved key + hLen a.hdr + 1 then s.countOnce n 0x36
    else if a.moved = 0 && passes a.hdr before then s
    else if a.body.length ≤ a.moved then s.modNi n fun x => x.setVcAsm vc ({ a with admitted := room || a.admitted } :: rest)
    else
      let a := { a with admitted := room || a.admitted, moved := a.moved + 1 }
      let s := (s.modNi n fun x => { x with admFc := s.fc + 1 }).ejCredit n vc
      if a.full && a.moved = a.body.length then (s.modNi n fun x => x.setVcAsm vc rest).settle n a
      else s.modNi n fun x => x.setVcAsm vc (a :: rest)

/-! Commands -/

/-- DEST_FLIT_ARRIVE (R51). -/
def execDestFlitArrive (n : Fin 87) (err : FlitErr) (s : State) : Out := .next (s.ejectArrive n err)
/-- GRANARY_ADMIT (R112). -/
def execGranaryAdmit (n : Fin 87) (vc : Fin 16) (s : State) : Out := .next (s.granAdmit n vc)

end Sys2Proof.Machine
end

