-- ==== Sys2Proof/Machine/Target.lean ====
section
/-! DEFINITION. The target side of an NI: the offer checks of R502, the shared-target arbiter (R193 to R202), monitors
(R227 to R230), the messages offered to the unit (R244, R245, R252), and the answers built from its unit's (R246 to R252,
R254, R326, R441). -/

namespace Sys2Proof.Machine

/-! Packets held or under way -/

def Ni.pktOf (x : Ni) (pid : Nat) : Option HPkt := (x.gran ++ x.work).find? fun h => h.pid = pid
def Ni.dropPkt (x : Ni) (pid : Nat) : Ni :=
  { x with gran := x.gran.filter (fun h => h.pid ≠ pid), work := x.work.filter (fun h => h.pid ≠ pid) }
def Ni.modPkt (x : Ni) (pid : Nat) (f : HPkt → HPkt) : Ni :=
  let g (h : HPkt) : HPkt := if h.pid = pid then f h else h
  { x with gran := x.gran.map g, work := x.work.map g }

/-- The requester of a packet (R193). -/
def HPkt.req (h : HPkt) : Requester := { src := hSrc h.hdr, part := hPart h.hdr }

/-- A PTAG's entry, and the PTAGs freed of a packet. -/
def Ni.ptag (x : Ni) (t : Nat) : Option PTag := Tbl.get (fun _ => none) x.ptags t
def Ni.setPtag (x : Ni) (t : Nat) (p : Option PTag) : Ni := { x with ptags := Tbl.set (fun _ => none) t p x.ptags }
def Ni.freePtags (x : Ni) (pid : Nat) : Ni :=
  { x with ptags := x.ptags.filter fun e => match e.2 with | some p => p.pid ≠ pid | none => true }
/-- The lowest free PTAG (R245). -/
def Ni.nextPtag (x : Ni) : Option Nat := (List.range 512).find? fun t => (x.ptag t).isNone

/-! Monitors (R228 to R230) -/

/-- Bytes of a granule of NI `n`. -/
def State.granule (s : State) (n : Nat) : Nat := 64 * 2 ^ min (s.fld (RSV_CTRL n) 2 0) 6

/-- A reserved read sets its owner's monitor. -/
def State.setMonitor (s : State) (n : Nat) (r : Requester) (a : Nat) : State :=
  let g := s.granule n
  let x := s.niOf n
  let mons := x.mons.filter fun m => !(m.src = r.src && m.part = r.part)
  let s := if 32 ≤ mons.length then s.satFld (RSV_STAT n) 15 8 1 else s
  let mons := if 32 ≤ mons.length then mons.drop 1 else mons
  s.modNi n fun x => { x with mons := mons ++ [{ src := r.src, part := r.part, base := BitVec.ofNat 52 (a / g * g) }] }

/-- A write by requester `r` to the granules of the addresses clears the monitors of others there. -/
def State.loseMonitors (s : State) (n : Nat) (r : Requester) (addrs : List Nat) : State :=
  let g := s.granule n
  let hit (m : Monitor) : Bool := !(m.src = r.src && m.part = r.part) && addrs.any fun a => a / g * g = m.base.toNat
  let k := ((s.niOf n).mons.filter hit).length
  let s := if k = 0 then s else s.satFld (RSV_STAT n) 23 16 k
  s.modNi n fun x => { x with mons := x.mons.filter fun m => !hit m }

/-- The owner's monitor over the granule of an address. -/
def State.hasMonitor (s : State) (n : Nat) (r : Requester) (a : Nat) : Bool :=
  (s.niOf n).mons.any fun m => m.src = r.src && m.part = r.part && a / s.granule n * s.granule n = m.base.toNat

/-- The monitors that satisfy `p` are cleared. -/
def Ni.clearMons (x : Ni) (p : Monitor → Bool) : Ni := { x with mons := x.mons.filter fun m => !p m }

/-! The arbiter's entries (R196, R197) -/

/-- A field of an arbitration register as it is in force: a write counts from the first fc after it (R202). -/
def State.arbFld (s : State) (a hi lo : Nat) : Nat := getBits (s.rdFc a) hi lo

/-- The first valid ARB_REQ entry of a requester. -/
def State.reqEntry (s : State) (n : Nat) (r : Requester) : Option Nat :=
  (List.range 64).find? fun i =>
    let w := s.rdFc (ARB_REQ_W0 n i)
    bit w 31 && getBits w 9 0 = r.src.toNat && getBits w 24 16 = r.part.toNat

def State.tickets (s : State) (n : Nat) (r : Requester) : Nat :=
  match s.reqEntry n r with | some i => s.arbFld (ARB_REQ_W1 n i) 7 0 | none => s.arbFld (ARB_CTRL n) 23 16
/-- The entry of a high-priority requester. -/
def State.hiEntry (s : State) (n : Nat) (r : Requester) : Option Nat :=
  (s.reqEntry n r).filter fun i => bit (s.rdFc (ARB_REQ_W0 n i)) 28
/-- The quota of entry `i`, and whether its count has reached it (R197). -/
def State.quota (s : State) (n i : Nat) : Nat := max (s.arbFld (ARB_REQ_W1 n i) 15 8) 1
def State.quotaOut (s : State) (n i : Nat) : Bool := s.quota n i ≤ Tbl.get (fun _ => 0) (s.niOf n).arb.counts i

/-- A requester on this die whose NI_ALIVE is low is masked (R200). -/
def State.masked (s : State) (r : Requester) : Bool :=
  nodeDie r.src = s.die && nodeNi r.src < 80 && !bit s.niAlive (nodeNi r.src)

/-- Arbitration runs at NI `n` (R193). -/
def State.arbOn (s : State) (n : Nat) : Bool := s.arbFld (ARB_CTRL n) 0 0 = 1 && (s.mode = .dynamic || s.mode = .scheduled)
/-- NI `n` is frozen: a freeze acts in the fc of its write, which a draw of that fc meets (R202). -/
def State.frozenNi (s : State) (n : Nat) : Bool := s.rbit (ARB_CTRL n) 1 || s.arbFld (ARB_CTRL n) 1 1 = 1

def State.setArb (s : State) (n : Nat) (a : Arb) : State := s.modNi n fun x => { x with arb := a }

/-- Requesters in ascending order of (SRC, PART). -/
def Requester.key (r : Requester) : Nat := r.src.toNat * 512 + r.part.toNat
def sortReq (l : List Requester) : List Requester := l.mergeSort fun a b => a.key ≤ b.key

/-- The LFSR after one draw (R196). -/
def lfsrStep (s : Nat) : Nat := if s % 2 = 1 then (s / 2) ^^^ 0x80200003 else s / 2
def lfsr32 (s : Nat) : Nat := (List.range 32).foldl (fun s _ => lfsrStep s) s

/-- The arbiter's LFSR: its reset value holds the node ID. -/
def State.lfsr (s : State) (n : Nat) : Nat := ((s.niOf n).arb.lfsr.map (·.toNat)).getD (0x6A090000 + (s.node n).toNat)

/-- The LFSR state that a draw uses: a write of ARB_SEED in its fc comes after it (R202). -/
def State.drawState (s : State) (n : Nat) : Nat :=
  match (s.niOf n).arb.seedWas with
  | some (f, v) => if f = s.fc then v else s.lfsr n
  | none => s.lfsr n

/-- The LFSR state after a draw: it advances, but not past a value written in this fc (R196, R202). -/
def State.lfsrNext (s : State) (n : Nat) : Option (BitVec 32) :=
  match (s.niOf n).arb.seedWas with
  | some (f, _) => if f = s.fc then (s.niOf n).arb.lfsr else some (BitVec.ofNat 32 (lfsr32 (s.lfsr n)))
  | none => some (BitVec.ofNat 32 (lfsr32 (s.lfsr n)))

/-- The first requester at which the running sum of tickets exceeds `v`. -/
def runningSum (tix : Requester → Nat) (v : Nat) : Nat → List Requester → Option Requester
  | _, [] => none
  | acc, r :: t => if v < acc + tix r then some r else runningSum tix v (acc + tix r) t

/-- The winner of a draw among candidates in ascending order (R195). -/
def drawWinner (tix : Requester → Nat) (lfsr : Nat) (cands : List Requester) : Option Requester :=
  let t := (cands.map tix).sum
  if t = 0 then cands.head? else runningSum tix (lfsr * t / 2 ^ 32) 0 cands

/-- A cause of R200 for the holder. Its quota is the one its draw read (R202). -/
def State.yieldCause (s : State) (n : Nat) : Bool :=
  let a := (s.niOf n).arb
  s.frozenNi n || s.masked a.holder ||
  (a.boGiven && (s.hiEntry n a.holder).isSome &&
    (match a.quota with | some (i, q) => decide (q ≤ Tbl.get (fun _ => 0) a.counts i) | none => false))

/-- The holder must yield when a cause has arisen. -/
def State.arbYield (s : State) (n : Nat) : State :=
  let a := (s.niOf n).arb
  if a.st = .held && s.yieldCause n then s.setArb n { a with st := .yielding } else s

/-- The tenure ends without a tail. -/
def Arb.release (a : Arb) : Arb := { a with st := .idle, holder := {}, htagSet := false, boGiven := false, quota := none }

/-- The tenure ends at a break point: the former holder keeps its tail, beside those of others (R200, R201). -/
def Arb.endTenure (a : Arb) : Arb :=
  { a.release with tails := if a.htagSet then (a.holder, a.htag) :: a.tails.filter (·.1 ≠ a.holder) else a.tails }

/-- A packet of a requester remains in the Granary, whole or in part, or unanswered (R200). -/
def Ni.holds_ (x : Ni) (r : Requester) : Bool :=
  (x.gran ++ x.work).any (fun h => h.req = r) ||
  x.asm.any fun l => l.2.any fun a => !a.discard && a.moved ≠ 0 && hSrc a.hdr = r.src && hPart a.hdr = r.part

/-- A yielding holder with no packet left is at its break point (R200). -/
def State.arbBreak (s : State) (n : Nat) : State :=
  let s := s.arbYield n
  let x := s.niOf n
  if x.arb.st = .yielding && !x.holds_ x.arb.holder then s.setArb n x.arb.endTenure else s

/-- BACKOFF to a packet (R194). -/
def State.backOff (s : State) (n : Nat) (h : HPkt) : State :=
  (s.modNi n fun x => x.dropPkt h.pid).refuseAt n h.hdr h.sc BACKOFF false

/-- A packet is accepted under its requester's tenure. -/
def State.accept (s : State) (n : Nat) (h : HPkt) (tenure : Bool) : State :=
  s.modNi n fun x =>
    let x := x.modPkt h.pid fun h => { h with arb := 2 }
    if tenure then { x with arb := { x.arb with htag := hTag h.hdr, htagSet := true } } else x

/-- An arbitrated packet is judged (R194, R201). -/
def State.judge (s : State) (n : Nat) (h : HPkt) : State :=
  let s := s.arbYield n
  let a := (s.niOf n).arb
  let r := h.req
  let wait (s : State) : State := s.modNi n fun x => x.modPkt h.pid fun h => { h with arb := 1 }
  if a.tails.contains (r, hTag h.hdr) then s.accept n h false
  else
    let a := { a with tails := a.tails.filter (·.1 ≠ r) }
    let s := s.setArb n a
    match a.st with
    | .idle => wait (s.setArb n { a with st := .window, openFc := s.fc, conts := [r] })
    | .window =>
      if a.conts.contains r then wait s
      else if a.conts.length < 32 then wait (s.setArb n { a with conts := a.conts ++ [r] })
      else s.backOff n h
    | .held =>
      if r = a.holder then s.accept n h true
      else ((s.setArb n { a with boGiven := true }).backOff n h).arbYield n
    | .yielding =>
      if r = a.holder then
        if a.htagSet && hTag h.hdr ≠ a.htag then (s.setArb n a.endTenure).backOff n h else s.accept n h true
      else s.backOff n h

/-- The waiting packets of the contenders. -/
def Ni.waiting (x : Ni) : List HPkt := x.gran.filter fun h => h.arb = 1

/-- Counts of the quota window are cleared when it has ended: the windows follow one another from the last write of ARB_WIN
(R197). -/
def State.quotaEnd (s : State) (n : Nat) : State :=
  let a := (s.niOf n).arb
  let len := max (s.fld (ARB_WIN n) 23 0) 256
  if a.winStart + len ≤ s.fc && s.mode ≠ .frozen then
    s.setArb n { a with counts := [], winStart := a.winStart + (s.fc - a.winStart) / len * len }
  else s

/-- The draw at the end of a window (R195, R197, R202). None is made where arbitration does not run (R193, R417). DESIGN CHOICE
(log 150): a window that ends with no eligible contender is no draw for the LFSR and the count of draws, and shows its
contenders all the same. -/
def State.draw (s : State) (n : Nat) : State :=
  let a := (s.niOf n).arb
  if a.st ≠ .window || s.fc < a.openFc + s.arbFld (ARB_CTRL n) 15 8 || !s.arbOn n then s else
  let s := s.quotaEnd n
  let a := (s.niOf n).arb
  let ok (r : Requester) : Bool := !s.masked r && (match s.hiEntry n r with | some i => !s.quotaOut n i | none => true)
  let elig := if s.frozenNi n then [] else sortReq (a.conts.filter ok)
  let hi := elig.filter fun r => (s.hiEntry n r).isSome
  let cands := if hi.isEmpty then elig else hi
  let waits := (s.niOf n).waiting
  let s := if s.frozenNi n then s else s.setFld (ARB_STAT n) 13 8 a.conts.length
  match drawWinner (s.tickets n) (s.drawState n) cands with
  | none =>
    let s := s.setArb n { a with st := .idle, conts := [] }
    waits.foldl (fun s h => s.backOff n h) s
  | some w =>
    let counts := match s.hiEntry n w with | some i => Tbl.upd (fun _ => 0) i (· + 1) a.counts | none => a.counts
    let s := s.setArb n { a with st := .held, conts := [], holder := w, htagSet := false, boGiven := false,
                                 quota := (s.hiEntry n w).map fun i => (i, s.quota n i), counts := counts, lfsr := s.lfsrNext n }
    let s := s.countN n 0x2E 1 unfiltered
    waits.foldl (fun s h => if h.req = w then s.accept n h true else s.backOff n h) s

/-- The arbiter's holder, window, counts and tails are cleared; waiting packets are judged afresh (R202). -/
def Ni.clearArb (x : Ni) : Ni :=
  { x with arb := { winStart := x.arb.winStart, lfsr := x.arb.lfsr },
           gran := x.gran.map fun h => if h.arb = 1 then { h with arb := 0 } else h }

/-! What an NI performs, and the messages of a packet -/

/-- Lines or messages that a packet is offered as (R247, R248, R252). -/
def HPkt.lines (h : HPkt) : Nat :=
  let c := hCls h.hdr
  if c = cREQ then (if bit (sOpc h.sc) 7 then 1 else sRlen h.sc + 1)
  else if c = cRWD || c = cIOP then h.body.length else 1

/-- A posted request towards the unit, whose taking ends it: IOP, D2H Data, and MGT events (R246, R247). -/
def HPkt.endsTaken (h : HPkt) : Bool :=
  hCls h.hdr = cIOP || hCls h.hdr = cMGT || (hCls h.hdr = cRWD && sOpc h.sc = 0x80)

/-- A request that draws no answer from the unit (R499, R246). -/
def HPkt.silent (h : HPkt) : Bool := h.endsTaken || noCompletion (hCls h.hdr) (sOpc h.sc)

/-- Step 3 of R502: the MGT opcodes an NI with a unit performs are the events (R261, R404, R453). -/
def performs (h : HPkt) : Bool :=
  hCls h.hdr ≠ cMGT || mgtKind (sOpc h.sc) = .posted && sOpc h.sc ≠ 0x00

/-- The LD-ID of a packet (R245); none when no entry matches. -/
def State.ldid (s : State) (n : Nat) (h : HPkt) : Option Nat :=
  if Config.niKind n ≠ .pni || !s.rbit (PNI_CTRL n) 0 || hCls h.hdr = cMGT then some 0
  else (List.range 16).find? fun i => s.rbit (LDID_MAP n i) 31 && s.fld (LDID_MAP n i) 8 0 = (hPart h.hdr).toNat

/-- The channel class in which a packet is offered (R244). -/
def chanOf (cls : BitVec 4) (opc : BitVec 8) : BitVec 4 :=
  match cls.toNat with
  | 0 => if bit opc 7 then 6 else 0
  | 1 => if opc = 0x80 then 8 else 1
  | 2 => if bit opc 7 then 0xA else 3
  | 3 => if bit opc 7 then 0xB else 4
  | 4 => 0xE
  | 5 => if bit opc 7 then 9 else 5
  | 6 => if bit opc 7 then 7 else 2
  | 7 => 0xC
  | 8 => 0xD
  | _ => 0xF

/-- The HDR of a message built from a sidecar (R244): its class-specific bits and opcode. -/
def hdrOf (sc : BitVec 128) : BitVec 128 := setPsn (setFidx sc 0) false

/-- The byte enables of line `j` of a TLP with a payload (R36, R242). -/
def tlpMask (sc : BitVec 128) (j : Nat) : BitVec 64 :=
  let a := if tlpAddrRouted (sOpc sc) then (sAddr64 sc).toNat / 4 * 4 else 0
  BitVec.ofNat 64 (((tlpBytes sc).filter fun b => (a + b) / 64 = a / 64 + j).map fun b => 2 ^ ((a + b) % 64)).sum

/-- Line `j` of a packet as a message (R227, R242, R244, R252, R326). -/
def State.lineMsg (s : State) (n : Nat) (h : HPkt) (j ptag : Nat) : Msg :=
  let c := hCls h.hdr
  let (sc, d) := if c = cREQ then (h.sc, 0) else h.body.getD j (0, 0)
  let opc := sOpc sc
  let sc := if c = cREQ then (if bit opc 7 then sc else setRlen (setAddr sc (sAddr sc + BitVec.ofNat 52 (64 * j))) 0) else sc
  let full := sBmask sc = BitVec.allOnes 64
  let opc' : BitVec 8 :=
    if isResvOp c opc then (if c = cREQ then 0x01 else if full then 0x01 else 0x02)
    else if c = cRWD && !bit opc 7 && h.verdict = PARTIAL && h.split.toNat / 64 = (sAddr sc).toNat / 64 then putBits opc 3 0 2
    else opc
  let ev : BitVec 48 := BitVec.ofNat 48 (2 + opc.toNat * 256 + getBits (mArg sc) 31 0 * 65536)
  { cls := chanOf c opc, ptag := BitVec.ofNat 9 ptag, lidx := BitVec.ofNat 6 j, hdr := if c = cMGT then 0 else hdrOf (setOpc sc opc'),
    bmask := if c = cRWD then sBmask sc else if c = cIOP then tlpMask h.sc j else 0, data := d, psn := sPsn sc && (c = cRWD || c = cIOP), src := hSrc h.hdr,
    vn := BitVec.ofNat 3 (hVn h.hdr), seq := hSeq h.hdr, part := hPart h.hdr, ldid := BitVec.ofNat 4 ((s.ldid n h).getD 0),
    ctrl := if c = cMGT then ev else 0 }

/-- Answers that a line's PTAG waits for (R245, R247, R248). -/
def HPkt.answersOf (h : HPkt) : Nat :=
  if h.silent then 0
  else if hCls h.hdr = cREQ && bit (sOpc h.sc) 7 then sRlen h.sc + 1
  else if hCls h.hdr = cION && !tlpHasData (sOpc h.sc) then ioLines (sOpc h.sc) h.sc
  else 1

/-- Answers that a packet waits for in all. -/
def HPkt.needed (h : HPkt) : Nat :=
  if h.silent then h.lines else if hCls h.hdr = cREQ && !bit (sOpc h.sc) 7 || hCls h.hdr = cRWD then h.lines else h.answersOf

/-- The class's outbound credits cover one more message than wait (R240). -/
def Ni.canOffer (x : Ni) (c : BitVec 4) : Bool :=
  (x.outq.filter fun m => m.msg.cls = c).length < Tbl.get (fun _ => 0) x.outCred c.toNat

/-! Answers built from the unit's (R246 to R252, R326) -/

/-- The common code of lines, or PARTIAL (R252). -/
def commonCode (l : List Code) : Code :=
  match l with
  | [] => OK
  | c :: t => if t.all (· = c) then c else PARTIAL

/-- The outcome of line `j` of a packet: its answer, or the code of what was not performed (R326). -/
def HPkt.lineAns (h : HPkt) (j : Nat) : Code × BitVec 128 × BitVec 512 :=
  match h.ans.find? fun a => a.1 = j with
  | some (_, c, sc, d) => (c, sc, d)
  | none => (h.failCode, 0, 0)

/-- The NDR of a packet (R252): PARTIAL when the packet was reduced, else the common code; a mixed outcome is
journaled with the first line that failed. -/
def State.answerNdr (s : State) (n : Nat) (h : HPkt) (opc : BitVec 8) : State :=
  let outs : List (Nat × Code) := (List.range h.lines).map fun j => (j, (h.lineAns j).1)
  let common := commonCode (outs.map fun o => o.2)
  let good := (outs.filter fun o => o.2 = OK).length
  let code := if h.verdict = PARTIAL then PARTIAL else common
  let s := match outs.find? (fun o => o.2 ≠ OK) with
    | some (j, c) => if common = PARTIAL then s.targetJ n h.hdr c ((sAddr h.sc).toNat / 64 * 64 + 64 * j) 0 good 0 else s
    | none => s
  s.ndrMeta n h.hdr h.sc opc code (getBits (h.lineAns 0).2.1 19 16)

/-- The DRS of a packet: as many flits as lines were asked for (R252, R326). -/
def State.answerDrs (s : State) (n : Nat) (h : HPkt) (opc : BitVec 8) : State :=
  let (l, s) := s.loadNow n
  let flit (j : Nat) : BitVec 128 × BitVec 512 :=
    let (c, sc, d) := h.lineAns j
    let ok := c = OK || c = PARTIAL
    (setPsn (setRaddr (setLoad (setStatus (setOpc (putBits 0 19 16 (getBits sc 19 16)) opc) c) l) (reqRaddr h.hdr h.sc))
      (ok && sPsn sc), if ok then d else 0)
  s.reply n h.hdr cDRS ((List.range h.asked).map flit)

/-- The bytes of a completion from line `j` that lie before the split, the rest zero (R326). -/
def cutData (d : BitVec 512) (k : Nat) : BitVec 512 := BitVec.ofNat 512 (d.toNat % 2 ^ (8 * k))

/-- The completions of a non-posted TLP (R248, R326). In one performed in part, BCNT holds the bytes of the line below the
split, from which the source takes the split address (R327, log 21). -/
def State.answerIoc (s : State) (n : Nat) (h : HPkt) : State :=
  let read := !tlpHasData (sOpc h.sc)
  let k := if read then h.asked else 1
  let base := (sAddr64 h.sc).toNat / 64 * 64
  let flit (j : Nat) : BitVec 128 × BitVec 512 :=
    let (c, sc, d) := h.lineAns j
    let part := h.verdict = PARTIAL && (!read || (h.split.toNat / 64 * 64 = base + 64 * j && h.split.toNat % 64 ≠ 0))
    let c := if part && c = OK then PARTIAL else c
    let sc := if sOpc sc = 0 then setOpc sc 0x0A else sc
    let done := h.split.toNat - (base + 64 * j)
    let sc := if part then putBits sc 19 8 (min done 64) else sc
    let ok := c = OK || c = PARTIAL
    (setPsn (setStatus (hdrOf sc) c) (ok && sPsn sc), if !ok then 0 else if part && read then cutData d done else d)
  s.reply n h.hdr cIOC ((List.range k).map flit)

/-- The answer of a packet whose lines have all ended (R39, R246 to R252, R499). -/
def State.answerPkt (s : State) (n : Nat) (h : HPkt) : State :=
  let s := s.modNi n fun x => (x.dropPkt h.pid).freePtags h.pid
  let c := hCls h.hdr
  let opc := sOpc h.sc
  let (c0, sc0, _) := h.lineAns 0
  if h.endsTaken then
    let code := if h.verdict = PARTIAL then PARTIAL else commonCode ((List.range h.lines).map fun j => (h.lineAns j).1)
    s.ndr n h.hdr h.sc opPACK code
  else if c = cREQ && bit opc 7 then s
  else if noCompletion c opc then s.answerNdr n h 0
  else if c = cREQ && (drawsData opc || h.ans.any fun a => sFidx a.2.2.1 = 1) then s.answerDrs n h (sOpc sc0)
  else if c = cREQ || c = cRWD then s.answerNdr n h (sOpc sc0)
  else if c = cBSNP then s.reply n h.hdr cBRSP [(setStatus (setOpc 0 (sOpc sc0)) c0, 0)]
  else s.answerIoc n h

/-- A packet whose answers have all come, and which is wholly offered, is answered. -/
def State.tryAnswer (s : State) (n pid : Nat) : State :=
  match (s.niOf n).pktOf pid with
  | none => s
  | some h => if h.lines ≤ h.offered && h.needed ≤ h.ans.length then s.answerPkt n h else s

/-! Offering (R502 steps 3 to 8) -/

/-- The code of steps 3 to 6 of R502, and whether the request ends as one that finds its unit closed. -/
def State.offerCode (s : State) (n : Nat) (h : HPkt) : Code :=
  let c := hCls h.hdr
  if !performs h then DECODE
  else if (c = cION || c = cMGT) && sPsn h.sc then POISON
  else if !s.unitUp n then FENCED
  else if (s.ldid n h).isNone then DECODE
  else OK

/-- A packet still has to be judged by the arbiter: one offered in part before arbitration ran has been accepted (R193). -/
def State.unjudged (s : State) (n : Nat) (h : HPkt) : Bool := h.arb = 0 && h.offered = 0 && arbitrated h.hdr && !isSheaf s.die h.hdr && s.arbOn n

/-- A packet waits for the draw; where arbitration does not run, none does (R193, R417). -/
def State.awaitsDraw (s : State) (n : Nat) (h : HPkt) : Bool := h.arb = 1 && s.arbOn n

/-- A packet in the Granary stands behind an earlier one of its SRC and VN, which it must not pass (R208, R262). -/
def Ni.behind (x : Ni) (h : HPkt) : Bool :=
  (x.gran.takeWhile (·.pid ≠ h.pid)).any fun e => hSrc e.hdr = hSrc h.hdr && hVn e.hdr = hVn h.hdr

/-- A packet's next line can be offered in this fc. -/
def State.offerable (s : State) (n : Nat) (h : HPkt) : Bool :=
  let x := s.niOf n
  !s.unjudged n h && !s.awaitsDraw n h && x.nextPtag.isSome && x.canOffer (chanOf (hCls h.hdr) (sOpc h.sc)) && !x.behind h

/-- A packet is still to be refused or judged, which no other holds up (R194, R502). -/
def State.unsorted (s : State) (n : Nat) (h : HPkt) : Bool := h.offered = 0 && (s.offerCode n h ≠ OK || s.unjudged n h)

/-- The packet to act on: one to be refused or judged, else one whose next line can be offered. -/
def State.nextOffer (s : State) (n : Nat) : Option HPkt :=
  let g := (s.niOf n).gran
  g.find? (s.unsorted n) <|> g.find? (s.offerable n)

/-- The addresses that a line of a write touches, for R230. -/
def lineAddrs (h : HPkt) (m : Msg) : List Nat :=
  match (hCls h.hdr).toNat with
  | 1 => [(sAddr m.hdr).toNat]
  | 7 | 8 => if tlpAddrRouted (sOpc h.sc) && (hCls h.hdr = cIOP || tlpHasData (sOpc h.sc)) then
      (tlpBytes h.sc).map fun j => (sAddr64 h.sc).toNat / 4 * 4 + j else []
  | _ => []

/-- One line of a packet is offered to the unit with a PTAG (R245, R252), with its effect on monitors. -/
def State.offerLine (s : State) (n : Nat) (h : HPkt) (t : Nat) : State :=
  let m := s.lineMsg n h h.offered t
  let opc := sOpc h.sc
  let s := if isResvOp (hCls h.hdr) opc && hCls h.hdr = cREQ then s.setMonitor n h.req (sAddr h.sc).toNat else s
  let s := s.loseMonitors n h.req (lineAddrs h m)
  s.modNi n fun x =>
    let x : Ni := { (x.setPtag t (some { pid := h.pid, line := h.offered, left := h.answersOf })) with
               outq := x.outq ++ [{ msg := m, pid := h.pid }] }
    let h' := { h with offered := h.offered + 1, arb := if h.arb = 1 then 2 else h.arb }
    if h.lines ≤ h.offered + 1 then { x with gran := x.gran.filter (fun g => g.pid ≠ h.pid), work := x.work ++ [h'] }
    else x.modPkt h.pid fun _ => h'

/-- The monitor check of a conditional write (R229): it clears its owner's monitor, or the write is answered
RESV_LOST. -/
def State.condWrite (s : State) (n : Nat) (h : HPkt) (t : Nat) : State :=
  let a := (sAddr h.sc).toNat
  if s.hasMonitor n h.req a then
    (s.modNi n fun x => x.clearMons fun m => m.src = hSrc h.hdr && m.part = hPart h.hdr).offerLine n h t
  else (s.modNi n fun x => x.dropPkt h.pid).endReply n h.hdr h.sc RESV_LOST

/-- The destination NI acts on one packet: it ends it under steps 3 to 6, has it judged, or offers its next line (R502,
R262). -/
def State.offer (s : State) (n : Nat) : State :=
  if !s.runs (niTile n) then s else
  match s.nextOffer n with
  | none => s
  | some h =>
    let code := if h.offered = 0 then s.offerCode n h else OK
    if code ≠ OK then
      let s := s.modNi n fun x => x.dropPkt h.pid
      if code = FENCED then s.closedAt n h.hdr h.sc FENCED false
      else s.refuseAt n h.hdr h.sc code (performs h && !((hCls h.hdr = cION || hCls h.hdr = cMGT) && sPsn h.sc))
    else
      let s := if s.unjudged n h then s.judge n h else s
      match (s.niOf n).pktOf h.pid with
      | none => s
      | some h =>
        match (s.niOf n).nextPtag with
        | some t =>
          if !s.offerable n h then s
          else if isResvOp (hCls h.hdr) (sOpc h.sc) && hCls h.hdr = cRWD then s.condWrite n h t
          else s.offerLine n h t
        | none => s

/-! Messages the unit takes, and its answers -/

/-- The oldest outbound message of a class is taken by the unit (R240, R246, R499). -/
def State.outTaken (s : State) (n : Nat) (c : BitVec 4) : State :=
  let x := s.niOf n
  let k := Tbl.get (fun _ => 0) x.outCred c.toNat
  if !s.unitUp n || k = 0 then s else
  match x.outq.find? (fun m => m.msg.cls = c) with
  | none => s
  | some m =>
    let x := { x with outq := eraseFirst (· = m) x.outq, outCred := Tbl.set (fun _ => 0) c.toNat (k - 1) x.outCred }
    let s := s.setNi n x
    match x.pktOf m.pid with
    | none => s
    | some h =>
      let s := s.modNi n fun x => x.modPkt h.pid fun h =>
        { h with taken := h.taken + 1, ans := if h.silent then h.ans ++ [(m.msg.lidx.toNat, OK, 0, 0)] else h.ans }
      let s := if h.endsTaken then s.modNi n fun x => x.setPtag m.msg.ptag.toNat none else s
      s.tryAnswer n h.pid

/-- The sidecar that an answer message gives its flit, with FIDX 1 to say that it carries data (R244). -/
def answerSc (m : Msg) : BitVec 128 :=
  setFidx (setPsn (setOpc m.hdr m.opc) m.psn) (flag (m.cls = 4 || m.cls = 0xB))

/-- A D2H Req's answer is forwarded as a packet of its own (R247). -/
def State.forwardAns (s : State) (n : Nat) (h : HPkt) (m : Msg) (code : Code) : State :=
  let (l, s) := s.loadNow n
  let data := m.cls = 0xB
  let ok := code = OK || code = PARTIAL
  let sc := setPsn (setRaddr (setLoad (setStatus (hdrOf (answerSc m)) code) l) 0) (ok && m.psn && data)
  s.reply n h.hdr (if data then cDRS else cNDR) [(putBits sc 115 66 0, if data && ok then m.data else 0)]

/-- The DevLoad of a CXL.mem answer (R257). -/
def State.takeDevload (s : State) (n : Nat) (m : Msg) : State :=
  if Config.niKind n ≠ .pni || !(m.cls = 3 || m.cls = 4) then s else
  let d := m.devload.toNat
  (s.modNi n fun x => { x with devD := d }).setFld (DL_STAT n) 17 16 d

/-- An answer of the unit (R245, R247, R252, R254, R441): one whose PTAG awaits none is discarded and journaled. -/
def State.unitAnswer (s : State) (n : Nat) (m : Msg) : State :=
  let s := s.credUse n m.cls
  let t := m.ptag.toNat
  let x := s.niOf n
  match (x.ptag t).bind fun p => (x.pktOf p.pid).map fun h => (p, h) with
  | none => s.journal { code := DECODE, kind := kTARGET, where_ := whereNi n, tgt := s.node n }
  | some (p, h) =>
    if p.left = 0 then
      s.journal { code := DECODE, kind := kTARGET, where_ := whereNi n, part := some (hPart h.hdr), init := hSrc h.hdr,
                  tgt := s.node n, tag := hTag h.hdr }
    else
      let good := m.status = OK || m.status = POISON || m.status = FAR
      let code := if good then m.status else FAR
      let s := if good then s else (s.targetJ n h.hdr FAR (pktAddr h.hdr h.sc) 0 0 m.status.toNat).niErr n 10
      let s := s.takeDevload n m
      let cache := hCls h.hdr = cREQ && bit (sOpc h.sc) 7
      let s := if cache then s.forwardAns n h m code else s
      let line := if cache || hCls h.hdr = cION then h.ans.length else p.line
      let s := s.modNi n fun x => (x.setPtag t (if p.left = 1 then none else some { p with left := p.left - 1 })).modPkt h.pid fun h =>
        { h with ans := h.ans ++ [(line, code, answerSc m, m.data)], ansOrd := some (h.ansOrd.getD x.ordN) }
      s.tryAnswer n h.pid

/-! The unit falls (R254) -/

/-- Every request the NI holds for its unit is answered: FENCED where the unit has not taken it, TIMEOUT where it has. One no
line of which the unit has answered is ended by the NI itself (R39). -/
def State.dropUnitWork (s : State) (n : Nat) : State :=
  let x := s.niOf n
  let waiting (pid j : Nat) : Bool := x.outq.any fun m => m.pid = pid && m.msg.lidx.toNat = j
  let fill (h : HPkt) : HPkt :=
    let sc := if hCls h.hdr = cBSNP then setOpc 0 (snoopOpc (sOpc h.sc)) else 0
    { h with offered := h.lines, ans := h.ans ++ ((List.range h.needed).filter fun j => !(h.ans.any fun a => a.1 = j)).map fun j =>
        (j, if h.offered ≤ min j (h.lines - 1) || waiting h.pid (min j (h.lines - 1)) then FENCED else TIMEOUT, sc, 0) }
  let s := s.setNi n { x with outq := [], ptags := [] }
  (x.gran ++ x.work).foldl (fun s h =>
    let f := fill h
    if hCls h.hdr = cREQ && bit (sOpc h.sc) 7 then
      let code := ((f.ans.drop h.ans.length).head?.map fun a => a.2.1).getD OK
      (s.modNi n fun x => x.dropPkt h.pid).ndr n h.hdr h.sc opFERR code
    else if h.ans.isEmpty && !h.endsTaken then
      let code := if f.ans.all fun a => a.2.1 = FENCED then FENCED else TIMEOUT
      (s.modNi n fun x => x.dropPkt h.pid).endReply n h.hdr h.sc code
    else s.answerPkt n f) s

/-! Control packets and ring reservations -/

/-- The first answer that satisfies `p` is taken from those that have arrived. -/
def Ni.takeIn (x : Ni) (p : BitVec 128 → BitVec 128 → Bool) : Option (HPkt × Ni) :=
  (x.answersIn.find? fun h => p h.hdr h.sc).map fun h => (h, { x with answersIn := eraseFirst (· = h) x.answersIn })

/-- An ARB_REL is consumed (R199): it ends the holder's tenure when its TAG is that of the last accepted packet. -/
def State.arbRelArrive (s : State) (n : Nat) : State :=
  match (s.niOf n).takeIn fun h sc => hCls h = cNDR && sOpc sc = opARB_REL with
  | none => s
  | some (p, x) =>
    let a := x.arb
    let mine := (a.st = .held || a.st = .yielding) && p.req = a.holder && a.htagSet && hTag p.hdr = a.htag
    s.setNi n (if mine then { x with arb := a.release } else x)

/-- An RSV_CLR is consumed (R230, R231). -/
def State.rsvClrArrive (s : State) (n : Nat) : State :=
  match (s.niOf n).takeIn fun h sc => hCls h = cNDR && sOpc sc = opRSV_CLR with
  | none => s
  | some (p, x) => s.setNi n (x.clearMons fun m => m.src = hSrc p.hdr && m.part = hPart p.hdr)

/-- An RSV_REQ is queued in its source's control slot, or refused (R54, R124, R338). -/
def State.rsvReqArrive (s : State) (n : Nat) : State :=
  match (s.niOf n).takeIn isRsvReq with
  | none => s
  | some (p, x) =>
    let s := s.setNi n x
    let k := getBits (mArg p.sc) 2 0 + 1
    let vn := getBits (mArg p.sc) 5 3
    let code := s.partCode p.hdr
    if code ≠ OK then s.closedAt n p.hdr p.sc code false
    else if sPsn p.sc then s.endReply n p.hdr p.sc POISON
    else if s.fenced (niTile n) then s.endReply n p.hdr p.sc FENCED
    else if s.granLimit n vn < k then s.endReply n p.hdr p.sc SIZE
    else s.modNi n fun x => { x with slots := x.slots ++ [{ src := hSrc p.hdr, vn := vn, flits := k, hdr := p.hdr, sc := p.sc }] }

/-- The oldest queued reservation is granted once its flits fit (R124). -/
def State.rsvGrant (s : State) (n : Nat) : State :=
  let x := s.niOf n
  if !s.runs (niTile n) then s else
  match x.slots with
  | [] => s
  | q :: rest =>
    if s.granLimit n q.vn < x.granUsed q.vn + x.reserved q.vn + q.flits then s
    else
      let s := s.setNi n { x with slots := rest, grants := x.grants ++ [{ src := q.src, vn := q.vn, flits := q.flits, due := s.fc + 65536 }] }
      s.reply n q.hdr cMGT [(mkMgt opRSV_GNT (mAddr q.sc) 0 (mMid q.sc) (mArg q.sc), 0)]

/-- A grant of source NI `src` of this die that has not been used for 65,536 fc is released (R124). -/
def State.rsvGrantExpire (s : State) (n src : Nat) : State :=
  let x := s.niOf n
  let old (g : RsvGrant) : Bool := g.src = s.node src && g.due ≤ s.fc
  if x.grants.any old && s.mode ≠ .frozen then
    (s.setNi n { x with grants := eraseFirst old x.grants }).pageErr (rtrPage (niTile n)) 6
  else s

/-! Commands -/

/-- OFFER_TO_UNIT (R502). -/
def execOfferToUnit (n : Fin 80) (s : State) : Out := .next (s.offer n)
/-- OUTBOUND_MESSAGE_TAKEN (R240, R246). -/
def execOutboundMessageTaken (n : Fin 80) (cls : BitVec 4) (s : State) : Out := .next (s.atTile (niTile n) fun s => s.outTaken n cls)
/-- ARB_DRAW (R195). -/
def execArbDraw (n : Fin 80) (s : State) : Out := .next (s.atTile (niTile n) fun s => s.draw n)
/-- ARB_QUOTA_WINDOW_END (R197). -/
def execArbQuotaWindowEnd (n : Fin 80) (s : State) : Out := .next (s.atTile (niTile n) fun s => s.quotaEnd n)
/-- ARB_REL_ARRIVE (R199). -/
def execArbRelArrive (n : Fin 80) (s : State) : Out := .next (s.atTile (niTile n) fun s => s.arbRelArrive n)
/-- ARB_BREAK_POINT (R200). -/
def execArbBreakPoint (n : Fin 80) (s : State) : Out := .next (s.atTile (niTile n) fun s => s.arbBreak n)
/-- RSV_REQ_ARRIVE (R124). -/
def execRsvReqArrive (n : Fin 87) (s : State) : Out := .next (s.atTile (niTile n) fun s => s.rsvReqArrive n)
/-- RSV_GRANT (R124). -/
def execRsvGrant (n : Fin 87) (s : State) : Out := .next (s.rsvGrant n)
/-- RSV_GRANT_EXPIRE (R124). -/
def execRsvGrantExpire (n src : Fin 87) (s : State) : Out := .next (s.atTile (niTile n) fun s => s.rsvGrantExpire n src)
/-- RSV_CLR_ARRIVE (R231). -/
def execRsvClrArrive (n : Fin 80) (s : State) : Out := .next (s.atTile (niTile n) fun s => s.rsvClrArrive n)

end Sys2Proof.Machine
end

