-- ==== Sys2Proof/Machine/Answers.lean ====
section
/-! DEFINITION. The source side of an answer (R246 to R251, R256, R274, R443 to R446, R500), backoff (R203, R204), the
transaction timer (R445), and what an attached unit's channel brings (R239 to R262). -/

namespace Sys2Proof.Machine

/-! Backoff -/

/-- fc of the wait after the `k`-th consecutive loss (R203). -/
def backoffWait (k : Nat) : Nat := 32 * 2 ^ min (k - 1) 12

/-- The least of a list by a measure. -/
def leastBy {α : Type} (f : α → Nat) (l : List α) : Option α :=
  l.foldl (fun (b : Option α) a => match b with | some m => if f a < f m then some a else some m | none => some a) none

/-- A read-ahead read that waits for target `d` (R235). -/
def QItem.ahead (it : QItem) (part : BitVec 9) (d : NodeId) : Bool :=
  it.ra && it.pkt.any fun p => hPart p.hdr = part && hDst p.hdr = d

/-- A backoff wait has begun: the read-ahead reads that wait for its target are answered BACKOFF at once (R235). -/
def State.failAhead (s : State) (n : Nat) (part : BitVec 9) (d : NodeId) : State :=
  let lost := (((s.niOf n).queues.map (·.2)).flatten).filter fun it => it.ahead part d
  if lost.isEmpty then s else
  let s := s.modNi n fun x =>
    { x with queues := Tbl.mapWith (fun _ => []) (fun _ q => q.filter fun it => !it.ahead part d) x.queues }
  lost.foldl (fun s it => s.failLines n (tagKey it.tag) ((List.range it.left).map (it.lidx + ·)) BACKOFF) s

/-- A loss of requester `part` to target `d` is entered in the backoff table (R203, R204). -/
def State.enterLoss (s : State) (n : Nat) (part : BitVec 9) (d : NodeId) : State :=
  let x := s.niOf n
  let same (b : Backoff) : Bool := b.part = part && b.node = d
  let new (k : Nat) : Backoff := { part := part, node := d, k := k, until_ := s.fc + backoffWait k, waiting := true }
  match x.backoff.find? same with
  | some b =>
    let e := new (b.k + 1)
    let e := if b.waiting then { e with until_ := max e.until_ b.until_ } else e
    s.setNi n { x with backoff := modFirst same (fun _ => e) x.backoff }
  | none =>
    if x.backoff.length < 32 then s.setNi n { x with backoff := x.backoff ++ [new 1] }
    else match leastBy (fun (b : Backoff) => b.until_) (x.backoff.filter fun b => !b.waiting) with
      | some old => s.setNi n { x with backoff := modFirst (· = old) (fun _ => new 1) x.backoff }
      | none => match leastBy (fun (b : Backoff) => b.until_) x.backoff with
        | some old => (s.setNi n { x with backoff := modFirst (· = old) (fun _ => new 1) x.backoff }).satFld (BO_STAT n) 15 8 1
        | none => s

/-- A loss of requester `part` to target `d` (R203, R204, R235). -/
def State.noteLoss (s : State) (n : Nat) (part : BitVec 9) (d : NodeId) : State := (s.enterLoss n part d).failAhead n part d

/-- An answer other than BACKOFF from target `d`: the losses are forgotten, while a wait that runs still ends at its time, and a
grant may be released (R198, R203). -/
def Ni.noteGrant (x : Ni) (part : BitVec 9) (d : NodeId) (arb : Bool) : Ni :=
  let mine (b : Backoff) : Bool := b.part = part && b.node = d
  let x := { x with backoff := (x.backoff.filter fun b => !(mine b && !b.waiting)).map fun b => if mine b then { b with k := 0 } else b }
  if arb then { x with holds := modFirst (fun h => h.part = part && h.node = d) (fun h => { h with granted := true }) x.holds } else x

/-- The wait of backoff entry `i` has passed (R203); an entry that counts no loss goes with it. -/
def State.backoffEnd (s : State) (n i : Nat) : State :=
  match (s.niOf n).backoff.drop i |>.head? with
  | some b => if b.waiting && b.until_ ≤ s.fc && s.mode ≠ .frozen then
      s.modNi n fun x => { x with backoff := x.backoff.take i ++ (if b.k = 0 then [] else [{ b with waiting := false }]) ++ x.backoff.drop (i + 1) } else s
  | none => s

/-! Lines that end by an answer -/

/-- A line of an entry takes the outcome of an answer, and its message goes to the unit (R246, R251). Where the target too has
split the line at which the initiator check split the entry, the split address is unknown (R327). -/
def State.lineDone (s : State) (n k j : Nat) (code : Code) (m : Option Msg) (load : Nat) : State :=
  let e := (s.niOf n).led k
  if !e.awaited.contains j then s else
  let s := if code = PARTIAL && e.cls ≠ cION && e.inl.any (fun l => l.1 = j) then s.modLed n k fun e => { e with inl := none } else s
  let code := if code = OK && e.inl.any (fun l => l.1 = j) then PARTIAL else code
  let s := if e.owner ≠ .unit || e.mute || 256 ≤ k then s else
    match m with
    | some m => s.answerUnit n { m with status := code, hdr := if m.cls = 0xF then m.hdr else setStatus m.hdr code } load
    | none => s
  s.modLed n k fun e => ({ e with answered := e.answered + 1 } : LEntry).take [(j, code)]

/-- The message of one flit of an answer for line `j` (R242, R244, R251, R262). -/
def ansMsg (e : LEntry) (h sc : BitVec 128) (d : BitVec 512) (j : Nat) : Msg :=
  let c := hCls h
  { cls := chanOf c (sOpc sc), etag := e.etag, lidx := e.lidxOf j, hdr := hdrOf sc, data := d,
    psn := sPsn sc && (c = cDRS || c = cIOC), src := hSrc h, vn := BitVec.ofNat 3 (hVn h), seq := hSeq h, part := hPart h,
    ctrl := if c = cMGT then BitVec.ofNat 48 (4 + (sOpc sc).toNat * 256) else 0 }

/-- The code of an answer's flit. -/
def ansCode (h sc : BitVec 128) : Code := if hCls h = cMGT then mStatus sc else sStatus sc

/-- The answer may be that of a packet sent to `d`: it comes from there, or from a KNI that ended a request for another die
(R39, R308, R309, R446; log 22). -/
def answersFor (h : BitVec 128) (d : NodeId) : Bool :=
  d = hSrc h || (81 ≤ nodeNi (hSrc h) && nodeNi (hSrc h) ≤ 86 && nodeDie d ≠ nodeDie (hDst h))

/-- The entry is cut: its one part, if it has only one so far, does not hold all its lines (R500). -/
def LEntry.isCut (e : LEntry) : Bool :=
  match e.parts with
  | [p] => !(e.cls = cREQ && bit e.opc 7) && p.lidx + p.lines < e.lines
  | _ => true

/-- The part of an entry that an answer belongs to (R446, R500): that of its TAG when the entry is not cut, else the part
that RADDR names. A completion, which has no RADDR, belongs to the oldest unanswered part sent to its SRC (log 20). -/
def LEntry.partFor (e : LEntry) (h sc : BitVec 128) : Option Nat :=
  let named := e.isCut && (hCls h = cNDR || hCls h = cDRS)
  e.parts.findIdx? fun p => p.open_ && (e.sheaf ≠ 0 || answersFor h p.dst) && (!named || p.raddr = sRaddr sc)

/-- A part has one more answer, of `k` flits: its reserved space is given back as it is used (R38), and the part is closed
by its last answer. -/
def State.partAnswered (s : State) (n key i k : Nat) : State :=
  let x := s.niOf n
  let e := x.led key
  match (e.parts.drop i).head? with
  | none => s
  | some p =>
    let last := p.need ≤ p.answered + 1
    let give := if last then p.rn else min k p.rn
    let p' := { p with answered := p.answered + 1, open_ := !last, rn := p.rn - give }
    s.setNi n ((x.unreserve p.rkey give).setLed key { e with parts := e.parts.take i ++ [p'] ++ e.parts.drop (i + 1) })

/-! Sheaf collections (R118, R256) -/

/-- One member's answer: the strongest state and the first bad code are kept; the last one ends the entry. -/
def State.sheafAnswer (s : State) (n k : Nat) (p : HPkt) (code : Code) : State :=
  let e := (s.niOf n).led k
  let s := if code = OK then s else
    let s := if Config.niKind n = .pni then s.satFld (BI_STAT n) 15 8 1 else s
    s.journal { code := code, kind := kENDED, where_ := whereNi n, part := some e.part, init := s.node n, tgt := hSrc p.hdr,
                tag := keyTag k, addr := e.addr.setWidth 64, posted := 256 ≤ k, injected := true }
  let s := s.modLed n k fun e =>
    { e with answered := e.answered + 1, ok := e.ok + flag (code = OK), biState := max e.biState (getBits (sOpc p.sc) 1 0),
             firstBad := if e.firstBad = OK then code else e.firstBad }
  let e := (s.niOf n).led k
  if e.answered < e.sheaf then s else
  let opc := BitVec.ofNat 8 (e.biState + (if bit e.opc 2 then 4 else 0))
  let m : Msg := { cls := 2, etag := e.etag, hdr := setStatus (setOpc 0 opc) e.firstBad, status := e.firstBad, src := s.node n,
                   vn := 4, part := e.part }
  let s := if e.owner ≠ .unit || e.mute || 256 ≤ k then s else s.answerUnit n m 0
  s.endEntry n k (if e.firstBad = OK then .done else .failed) e.firstBad 0 false

/-! Completions in address order (R248) -/

/-- The flits of a completion packet are delivered for the part that begins at line `from_`. -/
def State.deliverIoc (s : State) (n k from_ : Nat) (p : HPkt) : State :=
  (p.body.zipIdx).foldl (fun s ((sc, d), i) =>
    let e := (s.niOf n).led k
    let j := from_ + i
    let (la, bc) := ioRemain e.opc e.hdr j
    let m := ansMsg e p.hdr sc d j
    let m := if tlpHasData e.opc then m else { m with hdr := putBits (putBits m.hdr 19 8 bc) 26 20 la }
    let s := if ansCode p.hdr sc = PARTIAL then
      s.modLed n k fun e => { e with inl := some (j, e.addr.toNat / 64 * 64 + 64 * j + cBcnt sc) } else s
    s.lineDone n k j (ansCode p.hdr sc) (some m) 0) s

/-- A held completion, or an answer in its place, is delivered. -/
def State.giveHeld (s : State) (n k : Nat) (h : Nat × Pkt) : State :=
  let sc := (h.2.body.headD (0, 0)).1
  if hCls h.2.hdr = cIOC then s.deliverIoc n k h.1 { hdr := h.2.hdr, body := h.2.body }
  else
    let lines := (List.range h.2.body.length).map (h.1 + ·)
    (s.failUnitBy n k lines (sStatus sc) (some h.2.hdr) 0).modLed n k fun e => e.take (lines.map fun j => (j, sStatus sc))

/-- The held completions, and answers in their place, that the earlier parts no longer hold back are delivered. -/
def State.flushIoc (s : State) (n k : Nat) : Nat → State
  | 0 => s
  | fuel + 1 =>
    let e := (s.niOf n).led k
    match e.heldIoc.find? (fun h => e.awaited.head? = some h.1) with
    | none => s
    | some h =>
      let s := s.modLed n k fun e => { e with heldIoc := eraseFirst (· = h) e.heldIoc }
      (s.giveHeld n k h).flushIoc n k fuel

/-- The unanswered lines of an entry end towards the unit with a code, in address order with the completions that are held
for earlier ones (R248). -/
def State.endInOrder (s : State) (n k : Nat) (code : Code) : Nat → State
  | 0 => s
  | fuel + 1 =>
    let e := (s.niOf n).led k
    match e.awaited with
    | [] => s
    | j :: _ =>
      match e.heldIoc.find? (fun h => h.1 = j) with
      | some h => ((s.modLed n k fun e => { e with heldIoc := eraseFirst (· = h) e.heldIoc }).giveHeld n k h).endInOrder n k code fuel
      | none => ((s.failUnit n k [j] code).modLed n k fun e => e.take [(j, code)]).endInOrder n k code fuel

/-- The unit is answered for every line of an entry that has no outcome; answers that are held are delivered in their place. -/
def State.endUnit (s : State) (n k : Nat) (code : Code) : State :=
  let e := (s.niOf n).led k
  if e.heldIoc.isEmpty then s.failUnit n k e.awaited code else s.endInOrder n k code (e.lines + e.heldIoc.length)

/-! Answers (R443) -/

/-- The lines of a part all end with the code of a FERR or BACKOFF; the unit is answered in the form of R246, in place of
that packet (R39, R258, R262). -/
def State.endPart (s : State) (n k i : Nat) (p : HPkt) (code : Code) : State :=
  match (((s.niOf n).led k).parts.drop i).head? with
  | some q =>
    let e := (s.niOf n).led k
    let lines := if bit e.opc 7 && e.cls = cREQ then List.range e.lines else (List.range q.lines).map (q.lidx + ·)
    ((s.failLinesBy n k lines code (some p.hdr) (sLoad p.sc).toNat).flushIoc n k e.lines).finish n k
  | none => s

/-- What an answer does to its open entry. -/
def State.applyAnswer (s : State) (n k i : Nat) (p : HPkt) : State :=
  let e := (s.niOf n).led k
  let part := ((e.parts.drop i).head?).getD {}
  let c := hCls p.hdr
  let code := ansCode p.hdr p.sc
  let load := (sLoad p.sc).toNat
  let s := s.partAnswered n k i p.body.length
  let s := if code = BACKOFF then (s.noteLoss n e.part (hSrc p.hdr)).countN n 0x2D 1 unfiltered
    else s.modNi n fun x => x.noteGrant e.part (hSrc p.hdr) (e.arb && !e.injSch)
  if e.sheaf ≠ 0 then s.sheafAnswer n k p code
  else if c = cNDR && (sOpc p.sc = opFERR || code = BACKOFF) then s.endPart n k i p code
  else
    let quiet := noCompletion e.cls e.opc || (c = cNDR && sOpc p.sc = opPACK)
    let all := (List.range part.lines).map (part.lidx + ·)
    let s :=
      if c = cDRS && !bit e.opc 7 then
        p.body.zipIdx.foldl (fun s ((sc, d), f) =>
          s.lineDone n k (part.lidx + f) (ansCode p.hdr sc) (some (ansMsg e p.hdr sc d (part.lidx + f))) load) s
      else if bit e.opc 7 && e.cls = cREQ then
        match e.awaited with
        | j :: _ => s.lineDone n k j code (if quiet then none else some (ansMsg e p.hdr p.sc (p.body.headD (0, 0)).2 j)) load
        | [] => s
      else if c = cIOC then
        if e.awaited.head? = some part.lidx then s.deliverIoc n k part.lidx p
        else s.modLed n k fun e => e.holdIoc part.lidx { hdr := p.hdr, body := p.body }
      else
        all.foldl (fun s j =>
          s.lineDone n k j code (if quiet then none else some (ansMsg e p.hdr p.sc (p.body.headD (0, 0)).2 j)) load) s
    (s.flushIoc n k e.lines).finish n k

/-- The late answer of a STUCK or retained entry (R342, R443, R445): it is discarded, and the last one frees the entry. -/
def State.applyLate (s : State) (n k i : Nat) (p : HPkt) : State :=
  let e := (s.niOf n).led k
  let s := (s.partAnswered n k i p.body.length).lateAnswer n p.hdr (ansCode p.hdr p.sc) false
  let s := if e.st = .stuck then s
    else (s.satFld (PART_SQ_CNT e.part.toNat) 31 16 1).pageErr (partPage e.part.toNat) 2
  let more := ((s.niOf n).led k).parts.any (·.open_)
  let s := if e.st = .stuck then s.modLed n k fun e => { e with late := true } else s
  if more then s
  else
    let s := if e.st = .stuck then (s.modLed n k fun e => { e with st := .failed }).countN n 0x34 1 (fun f => bit e.filt f) else s
    s.modNi n fun x => x.freeEntry k

/-- RETRY from the LNI (R274): it closes the packet it answers, the entry stays ISSUED, and the EH_RD goes again after
256 fc. -/
def State.applyRetry (s : State) (n k i : Nat) (p : HPkt) : State :=
  let x := s.niOf n
  let e := x.led k
  match (e.parts.drop i).head? with
  | none => s
  | some q =>
    let mid : BitVec 8 := if bit (mArg p.sc) 4 then 0 else if e.mid = 255 then 255 else e.mid + 1
    let q' := { q with rn := 0, open_ := false }
    s.setNi n ((x.unreserve q.rkey q.rn).setLed k
      { e with mid := mid, retryAt := some (s.fc + 256), parts := e.parts.take i ++ [q'] ++ e.parts.drop (i + 1) })

/-- EH_RD of non-posted entry `k` is sent again as a request packet of its entry (R274): it is looked up, held, counted and
injected as any request. -/
def State.ehRetry (s : State) (n k : Nat) : State :=
  let x := s.niOf n
  let e := x.led k
  match e.retryAt with
  | none => s
  | some t =>
    if s.fc < t || !e.isOpen || e.mute || s.mode = .frozen then s else
    let it : QItem := { tag := keyTag k, cls := cMGT, opc := e.opc, key := .node e.dst, part := e.part, anyPart := true,
                        ord := e.ord, addr := e.addr.setWidth 64, body := [(setOpc (putBits e.hdr 47 40 e.mid.toNat) e.opc, 0)],
                        owner := e.owner, qsel := e.qsel, taken := s.fc, retry := true }
    s.setNi n ((x.setLed k { e with retryAt := none }).setQueue ownQueue (x.queue ownQueue ++ [it]))

/-- RSV_GNT or RSV_NAK for the request that waits for room at its SRC (R123, R124). -/
def State.ringAnswer (s : State) (n : Nat) (p : HPkt) : State :=
  let x := s.niOf n
  let d := hSrc p.hdr
  if !x.rsvOut.contains d then s.lateAnswer n p.hdr (mStatus p.sc) true
  else
    let s := s.setNi n ({ x with rsvOut := x.rsvOut.erase d } : Ni)
    let s := s.modNi n fun x => x.unreserve 8 1
    let x := s.niOf n
    let mine (it : QItem) : Bool := it.ring = 1 && it.tag = hTag p.hdr
    match x.queues.find? fun q => q.2.any mine with
    | none => s
    | some (j, q) =>
      match q.findIdx? mine, q.find? mine with
      | some i, some it =>
        if sOpc p.sc = opRSV_GNT then s.modNi n fun x => x.putItem j i [{ it with ring := 2 }]
        else
          let s := s.modNi n fun x => x.putItem j i []
          s.failLines n (tagKey it.tag) ((List.range it.left).map (it.lidx + ·)) (mStatus p.sc)
      | _, _ => s

/-- The oldest answer that has arrived at NI `n` is matched to its entry (R443, R446). -/
def State.answerArrive (s : State) (n : Nat) : State :=
  match (s.niOf n).takeIn isAnswer with
  | none => s
  | some (p, x) =>
    let s := s.setNi n x
    let code := ansCode p.hdr p.sc
    if hCls p.hdr = cMGT && sOpc p.sc ≠ opEH_RSP then s.ringAnswer n p
    else
      let k := tagKey (hTag p.hdr)
      let e := x.led k
      match e.partFor p.hdr p.sc with
      | none => s.lateAnswer n p.hdr code true
      | some i =>
        if e.st = .issued then
          if hCls p.hdr = cMGT && code = RETRY then s.applyRetry n k i p else s.applyAnswer n k i p
        else if e.st = .stuck || e.retained then s.applyLate n k i p
        else s.lateAnswer n p.hdr code true

/-! The transaction timer (R445) -/

/-- The parts of an entry that are not injected leave the queues. -/
def Ni.dropItems (x : Ni) (k : Nat) : Ni :=
  { x with queues := (x.queues.map fun (j, q) => (j, q.filter fun it => tagKey it.tag ≠ k)).filter fun q => !q.2.isEmpty }

/-- The timer of entry `k` has expired. -/
def State.txnTimeout (s : State) (n k : Nat) : State :=
  let e := (s.niOf n).led k
  match e.timer with
  | none => s
  | some t =>
    if s.fc < t || s.mode = .frozen then s
    else if e.retained then s.modNi n fun x => x.freeEntry k
    else if e.isOpen then
      let s := s.modNi n fun x => x.dropItems k
      let s := (s.endUnit n k TIMEOUT).stickEntry n k
      if e.owner.ofPart then s.partFault e.part else s
    else s

/-- A STUCK entry is released by a write of its index to LDG_REL (R445). -/
def State.releaseEntry (s : State) (n k : Nat) : State :=
  let e := (s.niOf n).led k
  if e.st = .stuck then
    let s := (s.modLed n k fun e => { e with st := .failed }).countN n 0x34 1 (fun f => bit e.filt f)
    s.modNi n fun x => x.freeEntry k
  else s

/-! What the channel brings -/

/-- The scope of a BARRIER message (R242, R485). -/
def barScope (m : Msg) : BarScope :=
  match getBits m.ctrl 7 6 with | 0 => .queue | 1 => .ni | 2 => .die | _ => .undefined

/-- A barrier of a kind, from a message (R222, R243). -/
def State.inboundBarrier (s : State) (n : Nat) (k : BarKind) (sc : BarScope) (m : Msg) : State :=
  if !s.unitUp n || !s.runs (niTile n) || !(s.carries || s.mode = .drain) then s
  else match s.handshake n { m with cls := 0xF, ctrl := 0 } with
    | [] => s.takeBarrier n k sc m.qsel m.etag
    | bad => s.badMessage n { m with cls := 0xF } bad

/-- An answer message that R238 does not carry: CXL.cache when inactive or with a Sheaf group, extended metadata, or a
completion with a TLP prefix. -/
def State.answerRefused (s : State) (m : Msg) : Bool :=
  (chanCache m.cls && (!s.feat fCACHE || bit m.sheaf 8)) || m.extMeta || (m.cls = 0xE && bit m.opc 7)

/-- x_I_TAKE of NI `n`: an offered message transfers (R239, R241, R483). -/
def State.iTake (s : State) (n : Nat) (m : Msg) : Bool := s.unitUp n && s.runs (niTile n) && s.takesNow n m

/-- A message of the attached unit (R239 to R262, R485): ignored while the unit is not up (R241). -/
def State.inbound (s : State) (n : Nat) (m : Msg) : State :=
  if !s.iTake n m then s
  else match s.handshake n m with
    | _ :: _ => s.badMessage n m (s.handshake n m)
    | [] =>
      if m.cls = 0xF then
        match m.sub with
        | 0 => match getBits m.ctrl 5 4 with
          | 0 => s.takeBarrier n .order (barScope m) m.qsel m.etag
          | 1 => s.takeBarrier n .drain (barScope m) m.qsel m.etag
          | 2 => s.takeBarrier n .rule (barScope m) m.qsel m.etag
          | _ => s.takeBarrier n .order .undefined m.qsel m.etag
        | 2 => s.takeEvent n m
        | 3 => s.takeRequest n m
        | _ => s.unitAnswer n m
      else if chanRequest m.cls then s.takeRequest n m
      else if s.answerRefused m then (s.credUse n m.cls).sourceJ n m none DECODE
      else s.unitAnswer n m

/-- The unit returns one outbound credit of a class (R241, R243). -/
def State.creditReturn (s : State) (n : Nat) (c : BitVec 4) : State :=
  if !s.unitUp n then s else
  let k := Tbl.get (fun _ => 0) (s.niOf n).outCred c.toNat
  if 255 ≤ k then s.pmcErr n [3] c.toNat
  else s.modNi n fun x => { x with outCred := Tbl.set (fun _ => 0) c.toNat (k + 1) x.outCred }

/-! Commands -/

/-- ANSWER_ARRIVE (R443). -/
def execAnswerArrive (n : Fin 80) (s : State) : Out := .next (s.atTile (niTile n) fun s => s.answerArrive n)
/-- BACKOFF_WAIT_END (R203). -/
def execBackoffWaitEnd (n : Fin 80) (i : Fin 32) (s : State) : Out := .next (s.atTile (niTile n) fun s => s.backoffEnd n i)
/-- EH_RD_RETRY (R274). -/
def execEhRdRetry (n : Fin 80) (i : Fin 256) (s : State) : Out := .next (s.atTile (niTile n) fun s => s.ehRetry n i)
/-- TXN_TIMEOUT (R445): of posted entry `i`, or of non-posted entry `i` below 256. -/
def execTxnTimeout (n : Fin 80) (posted : Bool) (i : Fin 512) (s : State) : Out := .next (if posted then s.txnTimeout n (256 + i) else if i.val < 256 then s.txnTimeout n i else s)
/-- INBOUND_REQUEST_MESSAGE (R244, R501). -/
def execInboundRequestMessage (n : Fin 80) (msg : Msg) (s : State) : Out := .next (s.inbound n msg)
/-- INBOUND_ANSWER_MESSAGE (R245, R252). -/
def execInboundAnswerMessage (n : Fin 80) (msg : Msg) (s : State) : Out := .next (s.inbound n msg)
/-- BARRIER_ORDER (R223). -/
def execBarrierOrder (n : Fin 80) (msg : Msg) (s : State) : Out := .next (s.inboundBarrier n .order (barScope msg) msg)
/-- BARRIER_DRAIN (R224). -/
def execBarrierDrain (n : Fin 80) (msg : Msg) (s : State) : Out := .next (s.inboundBarrier n .drain (barScope msg) msg)
/-- BARRIER_RULE (R225). -/
def execBarrierRule (n : Fin 80) (msg : Msg) (s : State) : Out := .next (s.inboundBarrier n .rule (barScope msg) msg)
/-- SIDEBAND_EVENT_MESSAGE (R260). -/
def execSidebandEventMessage (n : Fin 80) (msg : Msg) (s : State) : Out := .next (s.inbound n msg)
/-- MGT_REQ_MESSAGE (R485). -/
def execMgtReqMessage (n : Fin 80) (msg : Msg) (s : State) : Out := .next (s.inbound n msg)
/-- OUTBOUND_CREDIT_RETURN (R241). -/
def execOutboundCreditReturn (n : Fin 80) (cls : BitVec 4) (s : State) : Out := .next (s.creditReturn n cls)

end Sys2Proof.Machine
end

