-- ==== Sys2Proof/Machine/Ehrup.lean ====
section
/-! DEFINITION. The Ehrup bridge at the LNI, NI 80 (R265 to R277). -/

namespace Sys2Proof.Machine

def Lni.modWrite (l : Lni) (id : Nat) (f : EhWrite → EhWrite) : Lni :=
  { l with writes := modFirst (fun w => w.id = id) f l.writes }

/-- ARG[3:0] of a register access (R265). -/
def ehSize (sc : BitVec 128) : Nat := getBits (mArg sc) 3 0

/-- The size and alignment rules (R267). -/
def ehSizeOk (sc : BitVec 128) : Bool :=
  (ehSize sc = 4 && (mAddr sc).toNat % 4 = 0) || (ehSize sc = 8 && (mAddr sc).toNat % 8 = 0)

/-- The LNI may take a packet: one per fc, while the answer buffer, which holds the answers without data, has room for one
flit (R269). -/
def State.ehRoom (s : State) : Bool := s.lni.took ≠ s.fc + 1 && ((s.niOf lniN).answers.filter fun a => a.eh.isNone).length < 8

/-- The packet that the LNI takes next (R269), and any packet outside the VN7 request part, which it does not perform. -/
def State.ehHead (s : State) : Option HPkt :=
  (s.niOf lniN).gran.find? (fun h => hCls h.hdr ≠ cMGT) <|> (s.niOf lniN).gran.head?

/-- A packet leaves the LNI's Granary. -/
def State.ehTake (s : State) (h : HPkt) : State :=
  (s.setLni { s.lni with took := s.fc + 1 }).modNi lniN fun x => x.dropPkt h.pid

/-- The code with which the LNI refuses a register access: that of its target check (R321), PSN, EH_CTRL.en and the size
rules (R54, R267, R283). -/
def State.ehCode (s : State) (h : HPkt) : Code :=
  if h.refused then h.verdict else if !s.rbit (EH_CTRL lniN) 0 then FENCED else if sPsn h.sc then POISON
  else if !ehSizeOk h.sc then SIZE else OK

/-- A packet that the LNI does not perform (R266). -/
def isEh (h : HPkt) : Bool := hCls h.hdr = cMGT && (sOpc h.sc = 0x00 || sOpc h.sc = 0x01)

/-- The LNI ends a packet without performing it (R266, R268). One that its target check refused has waited in the Granary
for its place and for room in the answer buffer (R269). -/
def State.ehRefuse (s : State) (h : HPkt) (code : Code) : State :=
  if h.refused then (s.ehTake h).endRefused lniN h.hdr h.sc h.verdict else (s.ehTake h).refuseAt lniN h.hdr h.sc code false

/-- The lowest free write slot (R272). -/
def Lni.wrSlot (l : Lni) : Option Nat :=
  ((List.range 16).map (16 + ·)).find? fun t => !(l.writes.any fun w => w.slot = some t) && !(l.zombie.any fun z => z.1 = t)

/-- The oldest entry without a write slot takes the one that is free (R272). -/
def Lni.giveSlot (l : Lni) : Lni :=
  match l.writes.find? (·.slot.isNone) with
  | some w => l.modWrite w.id fun w => { w with slot := l.wrSlot }
  | none => l

/-- The LNI takes an EH_WR into a posted-write entry and answers PACK (R272). One that finds the buffer full stays. -/
def State.ehTakeWr (s : State) : State :=
  match s.ehHead with
  | none => s
  | some h =>
    if !s.ehRoom then s
    else if !isEh h then s.ehRefuse h DECODE
    else if sOpc h.sc ≠ 0x00 then s
    else
      let code := s.ehCode h
      if code ≠ OK then s.ehRefuse h code
      else if 32 ≤ s.lni.writes.length then s
      else
        let l := s.lni
        let w : EhWrite := { id := l.wn, addr := mAddr h.sc, two := ehSize h.sc = 8, hdr := h.hdr, slot := l.wrSlot,
                             data := ((h.body.headD (0, 0)).2).extractLsb' 0 64 }
        let s := s.setLni { l with writes := l.writes ++ [w], order := l.order ++ [(true, l.wn)], wn := l.wn + 1 }
        (s.ehTake h).ndr lniN h.hdr h.sc opPACK OK

/-- EH_RSP to an EH_RD (R265), without its data. -/
def State.ehRsp (s : State) (h : HPkt) (code : Code) (noEntry : Bool) : State :=
  let arg := BitVec.ofNat 68 (ehSize h.sc + (if noEntry then 16 else 0))
  s.reply lniN h.hdr cMGT [(mkMgt opEH_RSP (mAddr h.sc) code (mMid h.sc) arg, 0)]

/-- EH_RSP with the result of read entry `i` (R273). One with data keeps its entry until it is injected (R269); any other
frees it at once. -/
def State.ehDeliver (s : State) (h : HPkt) (i : Nat) (e : EhRead) : State :=
  if e.code ≠ OK then (s.setLni (s.lni.setRead i e.freed)).ehRsp h e.code false
  else
    ((s.setLni (s.lni.setRead i (some { e with answered := true }))).ehRsp h OK false).modNi lniN fun x =>
      { x with answers := x.answers.dropLast ++ x.answers.getLast?.toList.map fun a => { a with eh := some i } }

/-- RETRY to an EH_RD (R273). -/
def State.ehRetryRsp (s : State) (h : HPkt) (noEntry : Bool) : State :=
  (s.ehRsp h RETRY noEntry).countN lniN 0x38 1 (s.hits (niTile lniN) { hdr := h.hdr, sc := h.sc })

/-- Whether a read entry matches an EH_RD (R273). -/
def EhRead.matches_ (e : EhRead) (h : HPkt) : Bool :=
  !e.gone && !e.answered && hSrc e.hdr = hSrc h.hdr && hPart e.hdr = hPart h.hdr && hTag e.hdr = hTag h.hdr && e.addr = mAddr h.sc &&
  e.two = decide (ehSize h.sc = 8)

/-- The Journal entry of the LNI for a register access (R272, R273, R276). -/
def State.ehJ (s : State) (h : BitVec 128) (addr : BitVec 32) (kind : BitVec 8) (code : Code) (detail : Nat) : State :=
  s.journal { code := code, kind := kind, where_ := whereNi lniN, part := some (hPart h), init := hSrc h, tgt := s.node lniN,
              tag := hTag h, detail := BitVec.ofNat 16 detail, addr := addr.setWidth 64, posted := tagPosted (hTag h),
              injected := true }

/-- A result held for its 4,096 fc is freed unread (R273). -/
def State.ehExpire (s : State) (i : Nat) : State :=
  match s.lni.read i with
  | some e =>
    match e.done with
    | some t =>
      if e.gone || e.answered || s.fc < t + 4096 then s
      else
        let s := s.setLni (s.lni.setRead i e.freed)
        (s.ehJ e.hdr e.addr kFAR (if e.code = OK then RETRY else e.code) e.flt).satFld (EH_CNT lniN) 15 8 1
    | none => s
  | none => s

/-- A slot is free for a new read. -/
def Lni.readFree (l : Lni) (i : Nat) : Bool := (l.read i).isNone && !(l.zombie.any fun z => z.1 = i)

/-- The LNI handles an EH_RD (R273, R277). -/
def State.ehTakeRd (s : State) : State :=
  match s.ehHead with
  | none => s
  | some h =>
    if !s.ehRoom then s
    else if !isEh h then s.ehRefuse h DECODE
    else if sOpc h.sc ≠ 0x01 then s
    else
      let code := s.ehCode h
      if code ≠ OK then s.ehRefuse h code
      else
        let s := forN 16 (fun i s => match s.lni.read i with
          | some e => if e.matches_ h then s.ehExpire i else s
          | none => s) (s.ehTake h)
        let l := s.lni
        match (List.range 16).find? fun i => (match l.read i with | some e => e.matches_ h | none => false) with
        | some i =>
          let e := (l.read i).getD {}
          if e.done.isSome && e.done ≠ some s.fc then s.ehDeliver h i e
          else s.ehRetryRsp h false
        | none =>
          if mMid h.sc ≠ 0 then (s.ehJ h.hdr (mAddr h.sc) kTARGET TIMEOUT 0).ehRsp h TIMEOUT false
          else match (List.range 16).find? l.readFree with
            | some i =>
              let e : EhRead := { hdr := h.hdr, addr := mAddr h.sc, two := ehSize h.sc = 8 }
              (s.setLni { (l.setRead i (some e)) with order := l.order ++ [(false, i)] }).ehRetryRsp h false
            | none => (s.satFld (EH_CNT lniN) 7 0 1).ehRetryRsp h true

/-- The command that the LNI presents on Ehrup (R270, R271): the oldest one that has not transferred, a two-word write
word by word. A write without a slot presents none. A command is never withdrawn: only a tile 55 in reset or without power
presents none (R482). -/
def State.ehCmd (s : State) : EhCmd :=
  let l := s.lni
  if s.held.isSome || !s.tileOn 55 then {} else
  match l.order with
  | [] => {}
  | (false, i) :: _ =>
    match l.read i with
    | some e => { cmd := 1, slot := BitVec.ofNat 5 i, a := e.addr.extractLsb' 2 30, w8 := e.two }
    | none => {}
  | (true, id) :: _ =>
    match l.writes.find? (fun w => w.id = id) with
    | none => {}
    | some w =>
      match w.slot with
      | none => {}
      | some t => { cmd := 2, slot := BitVec.ofNat 5 t, a := w.addr.extractLsb' 2 30, w8 := w.two, wsel := w.sent = 1,
                    wdat := w.data.extractLsb' (32 * w.sent) 32 }

/-- The presented command transfers (R271 items 1 and 2). -/
def State.ehTransfer (s : State) : State :=
  let l := s.lni
  let c := s.ehCmd
  match l.order with
  | (_, id) :: rest =>
    if c.cmd = 1 then
      s.setLni { (l.setRead id ((l.read id).map fun e => { e with sent := true, sentFc := s.fc })) with order := rest }
    else if c.cmd = 2 then
      let l := l.modWrite id fun w => { w with sent := w.sent + 1, sentFc := s.fc }
      s.setLni (if c.w8 && !c.wsel then l else { l with order := rest })
    else s
  | [] => s

/-- The first fault since EH_ERR was cleared (R272, R283). -/
def State.ehErr (s : State) (flt : Nat) (wr : Bool) (slot : Nat) (addr : BitVec 32) : State :=
  let a := EH_ERR lniN
  let s := if s.rbit a 31 then s
    else ((((s.setFld a 1 0 flt).setFld a 2 2 (flag wr)).setFld a 7 3 slot).wr (EH_ERR_ADDR lniN) addr)
  (s.setBit a 31).niErr lniN 12

/-- A return that belongs to no waiting command, or comes late (R271 item 8, R276). The Journal entry of the first names no
request (R449). -/
def State.ehLate (s : State) (h : BitVec 128) (addr : BitVec 32) (flt : Nat) (unmatched : Bool) : State :=
  let code : Code := if flt = 0 then OK else FAR
  let s := if unmatched then s.journal { code := code, kind := kLATE, where_ := whereNi lniN, detail := BitVec.ofNat 16 (code.toNat + 256) }
    else s.ehJ h addr kLATE code code.toNat
  s.satFld (EH_CNT lniN) 23 16 1

/-- Returns of a read of `two` words. -/
def ehWords (two : Bool) : Nat := if two then 2 else 1

/-- A return for a slot whose entry a reset lost is discarded (R277). -/
def State.ehZombie (s : State) (t : Nat) : State :=
  let left := (modFirst (fun z => z.1 = t) (fun z => (z.1, z.2 - 1)) s.lni.zombie).filter fun z => z.2 ≠ 0
  s.setLni ({ s.lni with zombie := left } : Lni).giveSlot

/-- EH_CTRL's timeout in fc (R276). -/
def State.ehTmo (s : State) : Nat := 2 ^ max (s.fld (EH_CTRL lniN) 8 4) 10

/-- The request of a slot has had no answer for the timeout (R276). -/
def State.ehTimeout (s : State) (slot : Nat) : State :=
  let l := s.lni
  if s.mode = .frozen then s
  else if slot < 16 then
    match l.read slot with
    | some e =>
      if !e.sent || e.done.isSome || s.fc < e.sentFc + s.ehTmo then s
      else ((s.setLni (l.setRead slot (some { e with done := some s.fc, code := HANG_ABORT, hang := true, flt := 0 }))).niErr lniN 13).partFault
            (hPart e.hdr)
    | none => s
  else
    match l.writes.find? (fun w => w.slot = some slot && w.sent = ehWords w.two && !w.hang) with
    | some w =>
      if s.fc < w.sentFc + s.ehTmo then s
      else
        let s := s.setLni (l.modWrite w.id fun w => { w with hang := true })
        ((s.niErr lniN 13).ehJ w.hdr w.addr kFAR HANG_ABORT 0).partFault (hPart w.hdr)
    | none => s

/-- A return of type `rtype`, other than none, for a slot that no reset has lost (R271 to R276). -/
def State.ehTaken (s : State) (rtype slot : Nat) (word : Word) (fin : Bool) (flt : Nat) : State :=
  let l := s.lni
  if rtype = 1 then
    match l.read slot with
    | some e =>
      if !e.sent || (e.done.isSome && !e.hang) then s.ehLate 0 0 flt true
      else
        let words := e.words ++ [word]
        let last := fin || ehWords e.two ≤ words.length
        if e.hang then
          let s := s.ehLate e.hdr e.addr flt false
          s.setLni (s.lni.setRead slot (if !last then some { e with words := words } else if e.gone then none else some { e with hang := false }))
        else
          let f := if e.flt ≠ 0 then e.flt else flt
          let s := if flt ≠ 0 then s.ehErr flt false slot e.addr else s
          s.setLni (s.lni.setRead slot (some { e with words := words, flt := f, done := if last then some s.fc else none,
                                                       code := if f = 0 then OK else FAR }))
    | none => s.ehLate 0 0 flt true
  else if rtype = 2 then
    match l.writes.find? (fun w => w.slot = some slot && w.sent = ehWords w.two) with
    | some w =>
      let s := s.setLni ({ l with writes := l.writes.filter fun v => v.id ≠ w.id } : Lni).giveSlot
      if w.hang then s.ehLate w.hdr w.addr flt false
      else if flt = 0 then s
      else (s.ehErr flt true slot w.addr).ehJ w.hdr w.addr kFAR FAR flt
    | none => s.ehLate 0 0 flt true
  else s.ehLate 0 0 flt true

/-- The return completes a far-side error for its slot (R275). -/
def Lni.faulted (l : Lni) (slot flt : Nat) : Bool := flt ≠ 0 || ((l.read slot).map (·.flt)).getD 0 ≠ 0

/-- A return on Ehrup (R271 to R276). A far-side error in the fc in which the timeout of its slot is due finds the slot timed
out (R277). -/
def State.ehReturn (s : State) (rtype slot : Nat) (word : Word) (fin : Bool) (flt : Nat) : State :=
  let flt := if flt = 3 then 1 else flt
  if rtype = 0 then s
  else if (if slot < 16 then rtype = 1 else rtype = 2) && s.lni.zombie.any (fun z => z.1 = slot) then s.ehZombie slot
  else (if s.lni.faulted slot flt then s.ehTimeout slot else s).ehTaken rtype slot word fin flt

/-- Tile 55 is reset: entries are lost, and returns for slots already transferred will be discarded (R277). -/
def Lni.lost (l : Lni) : Lni :=
  let rz := (l.reads.filterMap fun (i, e) => match e with
    | some e => let left := ehWords e.two - e.words.length
                if e.sent && left ≠ 0 && (e.done.isNone || e.hang) then some (i, left) else none
    | none => none)
  let wz := l.writes.filterMap fun w => w.slot.bind fun t => if w.sent = 0 then none else some (t, 1)
  { zombie := l.zombie ++ rz ++ wz }

/-! Commands -/

/-- LNI_TAKE_EH_WR (R272). -/
def execLniTakeEhWr (s : State) : Out := .next (s.atTile 55 State.ehTakeWr)
/-- LNI_TAKE_EH_RD (R273). -/
def execLniTakeEhRd (s : State) : Out := .next (s.atTile 55 State.ehTakeRd)
/-- EHRUP_COMMAND_TRANSFER (R271). -/
def execEhrupCommandTransfer (s : State) : Out := .next s.ehTransfer
/-- EHRUP_RETURN (R271). -/
def execEhrupReturn (rtype : BitVec 2) (slot : BitVec 5) (word : Word) (fin : Bool) (flt : BitVec 2) (s : State) : Out :=
  .next (s.ehReturn rtype.toNat slot.toNat word fin flt.toNat)
/-- EH_RESULT_EXPIRE (R273). -/
def execEhResultExpire (e : Fin 16) (s : State) : Out := .next (s.atTile 55 fun s => s.ehExpire e)
/-- EHRUP_TIMEOUT (R276). -/
def execEhrupTimeout (slot : Fin 32) (s : State) : Out := .next (s.ehTimeout slot)

end Sys2Proof.Machine
end

