-- ==== Sys2Proof/Machine/Time.lean ====
section
/-! DEFINITION. Fabric time, the servo and rotations (R128 to R137), and the timed switchover (R144 to R148). -/

namespace Sys2Proof.Machine

/-- FENCED answers of Hayloft are counted (R282, R478). -/
def State.hlFenced (s : State) (k : Nat := 1) : State := if k = 0 then s else (s.satFld HL_STAT 15 8 k).pageErr .global 5

/-- HL_MISS or HL_HANG takes the first access since its valid bit was cleared (R282, R284). -/
def State.hlFirst (s : State) (reg bitNo m : Nat) (wr : Bool) (a : Nat) : State :=
  if s.rbit reg 31 then s
  else ((s.wr reg (packFields [(a % 2 ^ 26, 0), (m, 26), (flag wr, 29)])).setBit reg 31).pageErr .global bitNo

/-- The segment is parked on the master it grants (R280). -/
def State.hlPark (s : State) (m seg : Nat) : State := s.setFld HL_PARK (3 * seg + 2) (3 * seg) m

/-- `k` accesses of the Gleaner, the loader or RESTORE, master `m`, to words of one 4 KiB page from `a` on, of domain `d` and
segment `seg`: what they do is `f`, unless the page hangs or the domain is cut off (R280, R282). A loader's fence goes to
LOAD_STAT.xcode. A tile's page without FCLK hangs (R412): the timeout of the first access is not awaited (log 101). -/
def State.hlWords (s : State) (m seg d a k : Nat) (f : State → State) : State :=
  let hang (s : State) : State := (s.satFld HL_STAT 23 16 k).hlFirst HL_HANG 6 m false a
  if s.hung.contains (a / 0x1000) then hang s
  else
    let s := s.hlPark m seg
    if (s.dom d).cut then (if m = 7 then s.setFld LOAD_STAT 23 16 FENCED.toNat else s).hlFenced k
    else if d < 62 && s.fclkDead then hang { s with hung := s.hung ++ [a / 0x1000] }
    else f s

/-! The counter -/

/-- A signed field of a register. -/
def State.sfld (s : State) (a hi lo : Nat) : Int := (BitVec.ofNat (hi + 1 - lo) (s.fld a hi lo)).toInt
/-- A signed field of a register replaced by the low bits of a number. -/
def State.setSfld (s : State) (a hi lo : Nat) (v : Int) : State := s.setFld a hi lo (BitVec.ofInt (hi + 1 - lo) v).toNat

/-- A number kept within bounds. -/
def clampI (v lo hi : Int) : Int := max lo (min v hi)

/-- One second in units of 2^-32 ns. -/
abbrev secSub : Nat := 1000000000 * 2 ^ 32

/-- RATE in force: F alone in FREE and HOLDOVER, F + P otherwise, within 200 ppm (R132, R133). -/
def State.newRate (s : State) : State :=
  let f := s.sfld FREQ 18 0
  let st := s.fld TIME_STAT 1 0
  s.setSfld RATE 18 0 (clampI (if st = 1 || st = 2 then f + s.time.p else f) (-200000) 200000)

/-- What a TCLK edge adds (R129). -/
def State.incEff (s : State) : Nat := (s.time.inc.toNat * (1000000000 + s.sfld RATE 18 0).toNat) / 1000000000

/-- One TCLK edge: a value to load takes the counter's place, a step adds to the increment (R129, R130, R133). -/
def State.tclkEdge (s : State) : State :=
  let t := s.time
  let now := match t.load with
    | some v => v
    | none => BitVec.ofInt 96 ((t.now.toNat : Int) + s.incEff + t.stepBy)
  s.setTime { t with now := now, load := none, stepBy := 0 }

/-- A write of TIME_INC_NS or TIME_INC_FRAC: a valid INC goes to the counter (R129). -/
def State.incWritten (s : State) (nsWrite : Bool) : State :=
  let ns := s.fld TIME_INC_NS 7 0
  if 3 ≤ ns && ns ≤ 10 then
    s.setTime { s.time with inc := BitVec.ofNat 40 (ns * 2 ^ 32 + (s.rd TIME_INC_FRAC).toNat) }
  else if nsWrite then s.pageErr .time 4 else s

/-! Steps -/

/-- A step of fabric time by `-e` units of 2^-32 ns (R133): an armed switchover is cancelled by half a second or more
(R146), and the time of the last accepted edge moves with the counter. The state becomes ACQUIRING (R132). DESIGN CHOICE
(log 134): an accepted edge before it does not count toward LOCKED. -/
def State.stepped (s : State) (e : Int) : State :=
  let s := (s.pageErr .time 0).satFld TIME_STAT 31 16 1
  let s := s.setTime { s.time with p := 0, pEnd := none, consec := 0,
                                   lastC := s.time.lastC.map fun c => BitVec.ofInt 96 ((c.toNat : Int) - e) }
  let s := s.setFld TIME_STAT 1 0 1
  let s := if s.swState = 2 && secSub / 2 ≤ e.natAbs then ((s.setFld SW_STAT 2 0 1).setFld SW_STAT 7 4 8).setBit SW_STAT 8 else s
  s.newRate

/-- A write of 1 to set_now: SET is loaded at the next TCLK edge (R130). -/
def State.setNow (s : State) : State :=
  let v : BitVec 96 := BitVec.ofNat 96
    (((s.rd SET_HI).toNat * 2 ^ 32 + (s.rd SET_LO).toNat) * 2 ^ 32 + s.fld SET_SUB 15 0 * 2 ^ 16)
  let s := s.stepped ((s.time.now.toNat : Int) - v.toNat)
  s.setTime { s.time with load := some v, stepBy := 0 }

/-- A write of servo_en (R132): 1 enters ACQUIRING, 0 enters FREE. The phase correction under way keeps its W ms (R133).
DESIGN CHOICE (log 134): an accepted edge before it does not count toward LOCKED. -/
def State.servoWritten (s : State) : State :=
  let s := s.setTime { s.time with consec := 0 }
  (s.setFld TIME_STAT 1 0 (flag (s.rbit TIME_CTRL 0))).newRate

/-- A write of 1 to rot_acq (R136). -/
def State.rotAcq (s : State) : State :=
  if s.mode = .scheduled || s.swState = 2 || s.swState = 3 then s else s.setFld TIME_STAT 3 2 1

/-! PPS edges (R131, R133) -/

/-- The capture of an edge seen now. -/
def State.capture (s : State) : BitVec 96 := s.time.now - (2 * s.time.inc.setWidth 96)
/-- The nearest whole second of a capture. -/
def nearSec (c : BitVec 96) : Nat := (c.toNat + secSub / 2) / secSub
/-- The error of a capture in whole ns, truncated toward zero. -/
def capErr (c : BitVec 96) : Int := Int.tdiv ((c.toNat : Int) - nearSec c * secSub) (2 ^ 32)

/-- The edge is accepted (R131). -/
def State.edgeOk (s : State) (c : BitVec 96) : Bool :=
  if s.fld TIME_STAT 1 0 = 2 then decide ((capErr c).natAbs ≤ s.fld PPS_CFG 23 16 * 1000)
  else match s.time.lastC with
    | none => true
    | some l => decide (secSub / 2 ≤ (c - l).toNat)

/-- The servo's procedure for an accepted edge (R133), with the moves of R132. -/
def State.servo (s : State) (e : Int) : State :=
  if 2000 < e.natAbs then
    let s := s.stepped (e * 2 ^ 32)
    s.setTime { s.time with stepBy := -e * 2 ^ 32, consec := 1 }
  else
    let w := max (s.fld TIME_CTRL 15 8) 1
    let f := clampI (s.sfld FREQ 18 0 - e / 2 ^ s.fld TIME_CTRL 7 4) (-200000) 200000
    let p := -(Int.tdiv (e * 1000) w)
    let s := s.setSfld FREQ 18 0 f
    let s := s.setTime { s.time with p := p, pEnd := some (s.time.now + BitVec.ofNat 96 (w * 1000000 * 2 ^ 32)),
                                     consec := s.time.consec + 1 }
    let st := s.fld TIME_STAT 1 0
    let s := if st = 3 || (st = 1 && 2 ≤ s.time.consec) then s.setFld TIME_STAT 1 0 2 else s
    s.newRate

/-- Fc per second by the rotation counter (R135). -/
def State.secFc (s : State) : Nat := max s.time.rps 1 * 1024

/-- The flows that cross a Skidway port of this die (R137). -/
def State.crossFlows (s : State) : List Nat := s.flowsWhere fun c => fcExits c || bit c 26

/-- The difference of R137 in the fc of an accepted edge: from the nearest start of a rotation with r = 0. -/
def State.phaseErr (s : State) : Int :=
  let d := (s.time.r * 1024 + s.time.pos + s.fld PPS_CFG 9 0) % s.secFc
  if s.secFc < 2 * d then (d : Int) - s.secFc else d

/-- The label is set to the second of an accepted edge: the nearest start of a rotation with r = 0 begins second `near`, and
is still to come while the error is below fc_dly (R137, log 57). -/
def State.relabel (s : State) (near : Nat) : State :=
  s.setTime { s.time with s := BitVec.ofNat 64 near - (if s.phaseErr < s.fld PPS_CFG 9 0 then 1 else 0) }

/-- The measurement of R137 at an accepted edge, with phase_state LOCKED. -/
def State.measure (s : State) : State :=
  let err := s.phaseErr
  let s := if -1024 ≤ err && err ≤ 1023 then s.setSfld PHASE_ERR 10 0 err
           else (s.setFld PHASE_ERR 10 0 (s.freeNow.toNat % 2048)).drawn
  let s := s.setBit PHASE_ERR 31
  if 3 < err.natAbs then
    let s := (s.setFld TIME_STAT 3 2 3).pageErr .time 2
    (s.violation 4 whereTime s.crossFlows).ladder .time 0 0
  else s

/-- The acquisition of R136: the rotation counter restarts `fc_dly` fc from now. -/
def State.acquire (s : State) (near : Nat) : State :=
  let dly := s.fld PPS_CFG 9 0
  let s := s.setFld TIME_STAT 3 2 2
  if dly = 0 then s.setTime { s.time with s := BitVec.ofNat 64 near, r := 0, pos := 0, restart := none }
  else s.setTime { s.time with restart := some (s.fc + dly, BitVec.ofNat 64 near) }

/-- A PPS edge as the TIME block takes it, and whether it was accepted (R131, R133, R136, R137). -/
def State.ppsTime (s : State) : State × Bool :=
  let c := s.capture
  if !s.edgeOk c then ((s.satFld TIME_STAT 15 8 1).pageErr .time 3, false)
  else
    let e := capErr c
    let near := nearSec c
    let s := ((s.setFld PPS_CAP_SUB 15 0 (getBits c 31 16)).wr PPS_CAP_LO (c.extractLsb' 32 32)).wr PPS_CAP_HI (c.extractLsb' 64 32)
    let s := s.setSfld PPS_ERR 31 0 e
    let s := s.setTime { s.time with lastC := some c }
    let ph := s.fld TIME_STAT 3 2
    let s := if ph = 1 then s.acquire near else if ph = 2 then s.measure.relabel near else if ph = 3 then s.relabel near else s
    (if s.rbit TIME_CTRL 0 then s.servo e else s, true)

/-- The phase correction has lasted W ms (R133). -/
def State.phaseEnd (s : State) : State :=
  match s.time.pEnd with
  | some t => if t.toNat ≤ s.time.now.toNat then (s.setTime { s.time with p := 0, pEnd := none }).newRate else s
  | none => s

/-- HOLDOVER is entered (R132). -/
def State.enterHoldover (s : State) : State := ((s.setFld TIME_STAT 1 0 3).pageErr .time 1).newRate

/-- LOCKED has missed miss_max seconds (R132). -/
def State.holdover (s : State) : State :=
  match s.time.lastC with
  | some c =>
    if s.fld TIME_STAT 1 0 = 2 &&
        (nearSec c + s.fld PPS_CFG 27 24) * secSub + s.fld PPS_CFG 23 16 * 1000 * 2 ^ 32 ≤ s.time.now.toNat then
      s.enterHoldover
    else s
  | none => s

/-! Rotations -/

/-- One fc of the rotation counter (R135, R136). -/
def State.rotStep (s : State) : State :=
  let t := s.time
  let next : FTime :=
    if t.pos < 1023 then { t with pos := t.pos + 1 }
    else if t.r + 1 < t.rps then { t with pos := 0, r := t.r + 1 }
    else { t with pos := 0, r := 0, s := t.s + 1 }
  match t.restart with
  | some (f, sec) => s.setTime (if f ≤ s.fc then { t with pos := 0, r := 0, s := sec, restart := none } else next)
  | none => s.setTime next

/-! Switchovers (R144 to R148) -/

/-- A refused arm or cancel (R146). -/
def State.swErr (s : State) (e : Nat) : State := (s.setFld SW_STAT 7 4 e).setBit SW_STAT 8

/-- The stamp of the switch rotation for the target in SW_TGT (R145). -/
def State.swStamp (s : State) : Nat × Nat :=
  let t := ((s.rd SW_TGT_HI).toNat * 2 ^ 32 + (s.rd SW_TGT_LO).toNat) * 65536 + s.fld SW_TGT_SUB 15 0
  let sec := 1000000000 * 65536
  let rps := s.time.rps
  let r := t % sec * rps / sec + 1
  if rps ≤ r then (t / sec + 1, 0) else (t / sec, r)

/-- Fc from the present one to the first of rotation (sec, r); none for a rotation that has begun. -/
def State.fcUntil (s : State) (sec r : Nat) : Option Nat :=
  let rps := s.time.rps
  let here := (s.time.s.toNat * rps + s.time.r) * 1024 + s.time.pos
  let there := (sec * rps + r) * 1024
  if here ≤ there then some (there - here) else none

/-- The code with which an arm of a kind is refused (R146). Causes are tested in ascending order, but for the states of 0x7,
which come first. -/
def State.armRefusal (s : State) (kind : Nat) : Option Nat :=
  let st := s.swState
  let (sec, r) := s.swStamp
  let tgt := ((s.rd SW_TGT_HI).toNat * 2 ^ 32 + (s.rd SW_TGT_LO).toNat) * 65536 + s.fld SW_TGT_SUB 15 0
  if 2 ≤ st then some 7
  else if (kind = 0 || kind = 1) && st ≠ 1 then some 1
  else if s.fld TIME_STAT 3 2 ≠ 2 then some 2
  else if (s.fcUntil sec r).all (· < 2048) then some 3
  else if s.time.now.toNat / 65536 + 3600 * 1000000000 * 65536 < tgt then some 4
  else if kind = 3 || (kind = 1 && s.mode ≠ .dynamic) || ((kind = 0 || kind = 2) && s.mode ≠ .scheduled) then some 5
  else none

/-- The code with which a write of SW_CTRL is refused: by its arm, or by its cancel in COMMITTED or SWITCHING (R146). -/
def State.swRefusal (s : State) (v : Word) : Option Nat :=
  match if bit v 0 then s.armRefusal (getBits v 3 2) else none with
  | some e => some e
  | none => if bit v 1 && 3 ≤ s.swState then some 6 else none

/-- Arm of the kind in SW_CTRL by master `m`, which nothing refuses (R145). -/
def State.swArm (s : State) (m : Nat) : State :=
  let (sec, r) := s.swStamp
  let s := (s.setFld SW_STAT 2 0 2).setFld SW_STAT 11 9 m
  let s := ((s.setFld SW_IDX 21 0 r).setFld SW_SEC_LO 31 0 sec).setFld SW_SEC_HI 31 0 (sec / 2 ^ 32)
  { s with sw := { s.sw with kind := s.fld SW_CTRL 3 2, fixed := false } }

/-- Cancel by master `m`, which nothing refuses (R147). DESIGN CHOICE (log 131): a cancel in IDLE or LOADED, which is in no
row of R146, has no effect and sets no code. -/
def State.swCancel (s : State) (m : Nat) : State :=
  if s.swState = 2 then (s.setFld SW_STAT 2 0 1).setFld SW_STAT 11 9 m else s

/-- mark_loaded (R144). -/
def State.swMark (s : State) : State := if s.swState = 0 then s.setFld SW_STAT 2 0 1 else s

/-- The action bits of a write of SW_CTRL that is not refused, in ascending order (R155). -/
def State.swCtrl (s : State) (m : Nat) (v : Word) : State :=
  let s := if bit v 0 then s.swArm m else s
  let s := if bit v 1 then s.swCancel m else s
  if bit v 4 then s.swMark else s

/-- The start of the rotation before the switch rotation commits an armed switchover (R147). -/
def State.swCommitStep (s : State) : State :=
  if s.swState ≠ 2 then s else
  let sec := (s.rd SW_SEC_HI).toNat * 2 ^ 32 + (s.rd SW_SEC_LO).toNat
  match s.fcUntil sec (s.fld SW_IDX 21 0) with
  | some d => if d ≤ 1024 then { (s.setFld SW_STAT 2 0 3) with sw := { s.sw with b := s.fc + d, fixed := true } } else s
  | none => s

/-- The image of which bank `b` holds a variant (R176). -/
def State.bankImg (s : State) (b : Nat) : BankImage := Tbl.get (fun _ => {}) s.loader.bank b

/-- The reservation that the image active after the switchover under way gives NI `n`: 0 after a LEAVE (R176). -/
def State.resvOf (s : State) (n : Nat) : Nat :=
  if s.sw.kind = 2 then 0 else Tbl.get (fun _ => 0) (s.bankImg (1 - s.activeBank)).resv n

/-- SWITCHING ends 256 fc after B (R148, R176). -/
def State.swEnd (s : State) : State :=
  if s.swState ≠ 4 || s.fc < s.sw.b + 256 then s else
  let leave := s.sw.kind = 2
  let s := forN 87 (fun n s => s.setFld (GRAN_LIM4 n) 26 16 (s.resvOf n)) s
  let v := s.rd VAR_STAT
  let s := if leave then s else
    let s := s.setFld SW_STAT 3 3 (1 - s.activeBank)
    let s := (s.setFld VAR_STAT 3 0 (getBits v 7 4)).setFld VAR_STAT 7 4 (getBits v 3 0)
    s.setFld VAR_STAT 15 8 (if bit v 7 then (s.bankImg s.activeBank).mask else 0)
  (s.setFld SW_STAT 2 0 0).pageIrq .sched 1

end Sys2Proof.Machine
end

