-- ==== Sys2Proof/Machine/Sched.lean ====
section
/-! DEFINITION. The schedule loader: the image (R166 to R172), its checks (R173 to R175), its writes (R176), and the
inactive bank's window (R142). -/

namespace Sys2Proof.Machine

/-! The image -/

/-- A section of the directory, with the offset of its entry (R168). -/
structure Sec where
  at_   : Nat := 0
  ty    : Nat := 0
  var   : Nat := 0
  off   : Nat := 0
  len   : Nat := 0
  count : Nat := 0
deriving DecidableEq, Repr, Inhabited

/-- The record size of a section type (R168). -/
def recSize : Nat → Nat
  | 1 => 128 | 2 => 32 | 3 => 12 | 4 => 4 | 5 => 152 | 6 => 520 | _ => 2056

/-- The sections that the directory names. -/
def imgSecs (img : List (BitVec 8)) : List Sec :=
  (List.range (imgNat img 0x0E 2)).map fun i =>
    let a := imgNat img 0x20 4 + 16 * i
    { at_ := a, ty := imgNat img a 2, var := imgNat img (a + 2) 1, off := imgNat img (a + 4) 4, len := imgNat img (a + 8) 4,
      count := imgNat img (a + 12) 4 }

/-- The offsets of the records of the sections of a type, of a variant where it matters. -/
def imgRecs (img : List (BitVec 8)) (ty : Nat) (var : Option Nat) : List Nat :=
  (((imgSecs img).filter fun c => c.ty = ty && var.all (c.var = ·)).map fun c =>
    (List.range c.count).map fun i => c.off + i * recSize ty).flatten

/-- The first offset in `[a, a + n)` whose byte is not zero. -/
def notZero (img : List (BitVec 8)) (a n : Nat) : Option Nat := ((List.range n).map (a + ·)).find? fun o => imgNat img o 1 ≠ 0

/-- A check: `where_` is the offset it reports when it fails. -/
def must (ok : Bool) (where_ : Nat) : Option Nat := if ok then none else some where_

/-- The first failing check of a list. -/
def firstBad (l : List (Option Nat)) : Option Nat := l.findSome? id

/-- The first record whose key an earlier record of the list has. -/
def firstTwice (key : Nat → Nat) : List Nat → List Nat → Option Nat
  | _, [] => none
  | seen, o :: t => if seen.contains (key o) then some o else firstTwice key (key o :: seen) t

/-! Step 3: the format -/

/-- The checks on one section (R168). -/
def secBad (img : List (BitVec 8)) (len : Nat) (c : Sec) : Option Nat :=
  let dir := imgNat img 0x20 4
  let nsec := imgNat img 0x0E 2
  firstBad [must (1 ≤ c.ty && c.ty ≤ 7) c.at_, must (if c.ty ≤ 4 then c.var = 0xFF else c.var ≤ 7) (c.at_ + 2),
            must (imgNat img (c.at_ + 3) 1 = 0) (c.at_ + 3), must (c.off % 4 = 0 && 64 ≤ c.off) (c.at_ + 4),
            must (c.len = c.count * recSize c.ty && c.off + c.len ≤ len - 4) (c.at_ + 8),
            must (c.len = 0 || c.off + c.len ≤ dir || dir + 16 * nsec ≤ c.off) (c.at_ + 4)]

/-- Two sections overlap (R168). DESIGN CHOICE (log 135): a section of length zero overlaps one that it lies inside. -/
def secsOverlap : List Sec → Option Nat
  | [] => none
  | c :: t => if t.any fun d => c.off < d.off + d.len && d.off < c.off + c.len then some c.at_ else secsOverlap t

/-- Reserved bytes and fields of the records (R169 to R172). -/
def recBad (img : List (BitVec 8)) (ty o : Nat) : Option Nat :=
  match ty with
  | 1 => notZero img (o + 0x0A) 6
  | 2 => notZero img (o + 0x16) 10
  | 5 => firstBad [notZero img (o + 2) 6, notZero img (o + 0x97) 1]
  | 6 => firstBad [must (imgNat img o 1 < 56) o, must (imgNat img (o + 1) 1 < 8) (o + 1), notZero img (o + 2) 6]
  | 7 => firstBad [must (imgNat img o 1 < 87) o, notZero img (o + 1) 7,
                   ((List.range 1024).map fun p => o + 8 + 2 * p).find? fun a => imgNat img a 2 / 4096 % 8 ≠ 0]
  | _ => none

/-- The first unassigned byte that is not zero (R166). -/
def gapBad (img : List (BitVec 8)) (len : Nat) : Option Nat :=
  let dir := imgNat img 0x20 4
  let nsec := imgNat img 0x0E 2
  let used (o : Nat) : Bool := o < 64 || (dir ≤ o && o < dir + 16 * nsec) || len - 4 ≤ o ||
    (imgSecs img).any fun c => c.off ≤ o && o < c.off + c.len
  (List.range len).find? fun o => imgNat img o 1 ≠ 0 && !used o

/-- Step 3: the offset of what breaks the format (R166 to R168, R172). -/
def formatBad (img : List (BitVec 8)) : Option Nat :=
  let len := imgNat img 0x18 4
  let nvar := imgNat img 0x0D 1
  let nsec := imgNat img 0x0E 2
  let dir := imgNat img 0x20 4
  let secs := imgSecs img
  let one (ty var : Nat) : Bool := (secs.filter fun c => c.ty = ty && c.var = var).length = 1
  let recs (ty : Nat) : List Nat := imgRecs img ty none
  firstBad [
    must (imgNat img 0 4 = 0x4953424F) 0, must (imgNat img 4 2 = 1) 4, must (imgNat img 6 2 = 64) 6,
    must (1 ≤ nvar && nvar ≤ 8) 0x0D, must (5 ≤ nsec) 0x0E,
    must (len % 4 = 0 && 68 ≤ len && len ≤ 2 ^ 24) 0x18, must (dir % 4 = 0 && 64 ≤ dir && dir + 16 * nsec ≤ len - 4) 0x20,
    notZero img 0x28 24, firstBad (secs.map (secBad img len)), secsOverlap secs,
    must (one 1 0xFF && one 2 0xFF && one 3 0xFF && one 4 0xFF && (List.range nvar).all fun v => one 5 v) dir,
    firstBad (secs.map fun c => must (!(c.ty = 1 || c.ty = 5) || c.count = 1) (c.at_ + 12)),
    firstBad (secs.map fun c => must (c.ty ≠ 2 || c.count ≤ 4096) (c.at_ + 12)),
    firstBad (secs.map fun c => must (c.ty ≠ 5 || (c.var < nvar && imgNat img c.off 1 = c.var)) c.off),
    firstBad ([1, 2, 5, 6, 7].map fun ty => firstBad ((recs ty).map (recBad img ty))),
    firstBad ((List.range 8).map fun v => firstTwice (fun o => imgNat img o 2) [] (imgRecs img 6 (some v))),
    firstBad ((List.range 8).map fun v => firstTwice (fun o => imgNat img o 1) [] (imgRecs img 7 (some v))),
    firstTwice (fun o => imgNat img o 2) [] (recs 3), firstTwice (fun o => imgNat img o 2) [] (recs 4), gapBad img len]

/-! Flows -/

/-- The context that a FLOWS record holds (R170). -/
def flowRec (img : List (BitVec 8)) (o : Nat) : BitVec 256 := BitVec.ofNat 256 (imgNat img o 32)
/-- The index of a context. -/
def fcIdx (c : BitVec 256) : Nat := getBits c 11 0
def fcEnters (c : BitVec 256) : Bool := bit c 26

/-- The selects of a flow's route. -/
def fcSelList (c : BitVec 256) : List Nat := (List.range (fcSels c)).map fun i => getBits (fcRoute c) (3 * i + 2) (3 * i)

/-- The hops of a route from router `k` entered on input `i` at distance `d`: router, output, input, distance (R162). -/
def State.hopsFrom (s : State) : List Nat → Nat → Nat → Nat → List (Nat × Nat × Nat × Nat)
  | [], _, _, _ => []
  | o :: rest, k, i, d =>
    (k, o, i, d) :: match Config.port k o with
      | .router j => s.hopsFrom rest j (Config.inputFrom j k) (d + 1 + s.fld (LINK_DEPTH k) (2 * o + 1) (2 * o))
      | _ => []

/-- The hops of a flow's segment. -/
def State.hops (s : State) (c : BitVec 256) : List (Nat × Nat × Nat × Nat) :=
  s.hopsFrom (fcSelList c) (Config.niRouter (fcSrc c)) (Config.niPort (fcSrc c)) 1

/-- The latency of a segment (R162). -/
def State.segLat (s : State) (c : BitVec 256) : Nat :=
  let d := ((s.hops c).getLast?.map fun h => h.2.2.2).getD 1
  d + 2 + (if fcExits c then 4 else 9)

/-- The first failing part of a FLOWS record (R157, R170). -/
def State.flowBadAt (s : State) (img : List (BitVec 8)) (o : Nat) : Option Nat :=
  let c := flowRec img o
  let cls := imgNat img (o + 4) 1
  let src := fcSrc c
  let w := walk (Config.niRouter src) [] (fcSelList c)
  let endOk := match w.2.1 with
    | some e => if fcExits c then decide (81 ≤ e) else decide (e = nodeNi (fcDst c))
    | none => false
  firstBad [
    must (imgNat img o 2 < 4096) o, must (src ≤ 86) (o + 2), must (imgNat img (o + 3) 1 < 8) (o + 3),
    must ([0, 1, 5, 7, 8].contains cls) (o + 4), must (imgNat img (o + 5) 1 = vnOf (BitVec.ofNat 4 cls)) (o + 5),
    must (imgNat img (o + 6) 2 < 512) (o + 6), must (imgNat img (o + 8) 2 < 1024) (o + 8),
    must (imgNat img (o + 10) 1 ≤ maxLen (BitVec.ofNat 4 cls)) (o + 10),
    must (1 ≤ fcSels c && fcSels c ≤ 12) (o + 11), must (imgNat img (o + 12) 8 < 2 ^ 36) (o + 12),
    must (fcExits c = decide (nodeDie (fcDst c) ≠ s.die)) (o + 3), must (fcEnters c = decide (81 ≤ src)) (o + 3),
    must (w.2.2 = 0 && endOk) (o + 12), must (imgNat img (o + 20) 2 = s.segLat c) (o + 20)]

/-! Uses of slots by a variant -/

/-- The injection entries of a variant of an image: record offset, NI, position, flow. -/
def imgInj (img : List (BitVec 8)) (var : Nat) : List (Nat × Nat × Nat × Nat) :=
  ((imgRecs img 7 (some var)).map fun o => (List.range 1024).filterMap fun p =>
    let e := imgNat img (o + 8 + 2 * p) 2
    if e.testBit 15 then some (o, imgNat img o 1, p, e % 4096) else none).flatten

/-- The entry of a variant's slot table (R172). -/
def imgSlot (img : List (BitVec 8)) (var k o p : Nat) : Nat :=
  match (imgRecs img 6 (some var)).find? fun r => imgNat img r 1 = k && imgNat img (r + 1) 1 = o with
  | some r => imgNat img (r + 8 + p / 2) 1 / (if p % 2 = 0 then 1 else 16) % 16
  | none => 0

/-- The flits that an injection entry launches: router, output, input, position, distance with the flit's number. -/
def State.flitUses (s : State) (c : BitVec 256) (p : Nat) : List (Nat × Nat × Nat × Nat × Nat) :=
  ((List.range (fcLen c + 1)).map fun j => (s.hops c).map fun (k, o, i, d) => (k, o, i, (p + j + d) % 1024, j + d)).flatten

/-- The context that a flow has once the load is made (R176). -/
def State.ctxAfter (s : State) (img : List (BitVec 8)) (full : Bool) (f : Nat) : BitVec 256 :=
  if full then
    match (imgRecs img 2 none).find? fun o => fcIdx (flowRec img o) = f with
    | some o => flowRec img o
    | none => s.flowOf f
  else s.flowOf f

/-- Step 12: two flits need one output in one position, or two flows overlap at an NI. -/
def State.collisionBad (s : State) (ctx : Nat → BitVec 256) (inj : List (Nat × Nat × Nat × Nat)) : Option Nat :=
  let go := inj.foldl (fun (b : Option Nat × List (Nat × Nat × Nat) × List (Nat × Nat × Nat)) e =>
    match b.1 with
    | some _ => b
    | none =>
      let (r, n, p, f) := e
      let c := ctx f
      if !fcValid c then b else
      let new := (s.flitUses c p).map fun (k, o, _, q, _) => (k, o, q)
      let mine := (List.range (fcLen c + 1)).map fun j => (n, (p + j) % 1024, f)
      if new.any (b.2.1.contains ·) || mine.any (fun m => b.2.2.any fun x => x.1 = m.1 && x.2.1 = m.2.1 && x.2.2 ≠ m.2.2) then
        (some r, b.2)
      else (none, new ++ b.2.1, mine ++ b.2.2)) (none, [], [])
  go.1

/-- Step 13: a slot that its input does not own, a flow that is not this NI's, or an entry too close behind a head. -/
def State.claimBad (s : State) (img : List (BitVec 8)) (var : Nat) (ctx : Nat → BitVec 256)
    (inj : List (Nat × Nat × Nat × Nat)) : Option Nat :=
  inj.findSome? fun (r, n, p, f) =>
    let c := ctx f
    let own := (s.flitUses c p).all fun (k, o, i, q, _) => imgSlot img var k o q = 8 + i
    let close := (List.range (fcLen c)).any fun j => inj.any fun e => e.2.1 = n && e.2.2.1 = (p + j + 1) % 1024
    if fcValid c && fcSrc c = n && own && !close then none else some (r + 8 + 2 * p)

/-- The first condition of R149 for an entry under offsets. -/
def State.oldOk (s : State) (c : BitVec 256) (n p : Nat) (offR offN : Nat → Nat) : Bool :=
  let p' : Int := if p < offN n then p else (p : Int) - 1024
  (s.flitUses c p).all fun (k, _, _, _, d) => p' + d < offR k
/-- The second condition of R149. -/
def State.newOk (s : State) (c : BitVec 256) (n p : Nat) (offR offN : Nat → Nat) : Bool :=
  let p' := if offN n ≤ p then p else p + 1024
  (s.flitUses c p).all fun (k, _, _, _, d) => offR k ≤ p' + d

/-- Step 15 (R175). -/
def State.switchBad (s : State) (img : List (BitVec 8)) (var : Nat) (ctx : Nat → BitVec 256)
    (inj : List (Nat × Nat × Nat × Nat)) : Option Nat :=
  let info := ((imgRecs img 5 (some var)).head?).getD 0
  let offR (k : Nat) : Nat := imgNat img (info + 8 + k) 1
  let offN (n : Nat) : Nat := imgNat img (info + 0x40 + n) 1
  let own := inj.findSome? fun (r, n, p, f) =>
    if s.oldOk (ctx f) n p offR offN && s.newOk (ctx f) n p offR offN then none else some (r + 8 + 2 * p)
  match own with
  | some w => some w
  | none =>
    let act := s.activeBank
    if s.mode = .scheduled && (List.range 87).any fun n => (List.range 1024).any fun p =>
        match s.injFlow n act p with
        | some f => !s.oldOk (s.flowOf f) n p offR offN
        | none => false
    then some (info + 8) else none

/-! The other checks -/

/-- Step 7: the bounds (R169), and the locks of the router pages. -/
def State.boundBad (s : State) (img : List (BitVec 8)) : Option Nat :=
  match (imgRecs img 1 none).head? with
  | none => some 0
  | some o =>
    let b (i : Nat) : Nat := imgNat img (o + i) 1
    let skw := s.rd BOUND_SKW
    let stg := s.rd BOUND_STG
    firstBad ([must (b 0 ≤ getBits skw 7 0) o, must (getBits skw 15 8 ≤ b 1) (o + 1), must (getBits skw 23 16 ≤ b 2) (o + 2),
      must (getBits skw 31 24 ≤ b 3) (o + 3), must (b 4 ≤ getBits stg 7 0) (o + 4), must (getBits stg 15 8 ≤ b 5) (o + 5),
      must (b 6 = getBits stg 23 16) (o + 6), must (b 7 = getBits stg 31 24) (o + 7), must (b 8 = 1) (o + 8), must (b 9 = 1) (o + 9)] ++
      (List.range 56).map fun k => must (imgNat img (o + 0x10 + 2 * k) 2 = s.fld (LINK_DEPTH k) 15 0 &&
        s.rbit (pageBase (rtrPage k) + 0x10) 2) (o + 0x10 + 2 * k))

/-- Step 10: a CARVE record (R171). -/
def State.carveBad (s : State) (img : List (BitVec 8)) (o : Nat) : Option Nat :=
  let n := imgNat img o 2
  let lo := imgNat img (o + 2) 2
  let hi := imgNat img (o + 4) 2
  let ents := ((List.range (hi + 1 - lo)).map fun i => leBytes 16 (((s.bankOf (niTile n / 7)).at (lo + i)).toNat % 2 ^ 128)).flatten
  firstBad [must (n ≤ 86) o, must (lo = s.fld (RT_CARVE n) 13 0) (o + 2), must (hi = s.fld (RT_CARVE n) 29 16) (o + 4),
            must (imgNat img (o + 6) 2 < 2) (o + 6),
            must (imgNat img (o + 6) 1 % 2 = 0 || imgNat img (o + 8) 4 = crc32c ents) (o + 8)]

/-- The sum of the nine Granary limits of an NI (R113). -/
def State.limSum (s : State) (n : Nat) : Nat :=
  ((List.range 9).map fun k => s.fld (GRAN_LIM0 n + 4 * (k / 2)) (16 * (k % 2) + 10) (16 * (k % 2))).sum

/-- The reservation that an image gives an NI (R171). -/
def imgResv (img : List (BitVec 8)) (n : Nat) : Nat :=
  match (imgRecs img 4 none).find? fun o => imgNat img o 2 = n with
  | some o => imgNat img (o + 2) 2
  | none => 0

/-- Step 11: the sum condition of R113 for every NI. DESIGN CHOICE (log 131): a RESV record whose NI is above 86 fails
here, and an NI without a record reports offset 0; the spec names no code for the one and no offset for the other. -/
def State.granBad (s : State) (img : List (BitVec 8)) : Option Nat :=
  let fits (n : Nat) : Bool := s.limSum n + max (s.fld (GRAN_LIM4 n) 26 16) (imgResv img n) ≤ s.fld (GRAN_CAP n) 11 0
  let recs := imgRecs img 4 none
  (recs.findSome? fun o => let n := imgNat img o 2; must (n ≤ 86 && fits n) o) <|>
    must ((List.range 87).all fits) 0

/-- The checks of R174 from step 3 on: the code and the offset of the first that fails. -/
def State.imageBad (s : State) (img : List (BitVec 8)) (full : Bool) (var : Nat) : Option (Nat × Nat) :=
  let len := imgNat img 0x18 4
  let nvar := imgNat img 0x0D 1
  let flows := imgRecs img 2 none
  let ctx := s.ctxAfter img full
  let inj := imgInj img var
  let crc := imgNat img (len - 4) 4
  let featReq := imgNat img 0x10 8
  let feats : Nat := (s.rd FEAT_ACTIVE_LO).toNat + (s.rd FEAT_ACTIVE_HI).toNat * 2 ^ 32
  let asked (i : Nat) : Bool := featReq.testBit i || i = 0 || (i = 1 && 1 < nvar) ||
    (i = 4 && flows.any fun o => fcExits (flowRec img o) || fcEnters (flowRec img o))
  let step (code : Nat) (w : Option Nat) : Option (Nat × Nat) := w.map fun o => (code, o)
  [fun (_ : Unit) => step 0x03 (formatBad img),
   fun _ => step 0x04 (firstBad [must (imgNat img 8 4 = 0x00020400) 8, must (imgNat img 0x0C 1 = s.die) 0x0C,
                                 must (imgNat img 0x1C 4 = s.fld ROT_PER_SEC 21 0) 0x1C]),
   fun _ => step 0x05 (must (crc = crc32c (img.take (len - 4)) && (full || crc = (s.rd IMG_CRC).toNat)) (len - 4)),
   fun _ => step 0x06 (must ((List.range 64).all fun i => !asked i || feats.testBit i) 0x10),
   fun _ => step 0x07 (s.boundBad img),
   fun _ => step 0x08 (firstBad [firstBad (flows.map (s.flowBadAt img)), firstTwice (fun o => imgNat img o 2) [] flows]),
   fun _ => step 0x09 (if full then flows.find? fun o => (List.range 87).any fun n => (List.range 1024).any fun p =>
              s.injFlow n s.activeBank p = some (fcIdx (flowRec img o)) else none),
   fun _ => step 0x0A (firstBad ((imgRecs img 3 none).map (s.carveBad img))),
   fun _ => step 0x0B (s.granBad img),
   fun _ => step 0x0C (s.collisionBad ctx inj),
   fun _ => step 0x0D (s.claimBad img var ctx inj),
   fun _ => step 0x0E (must (var < nvar && (full || s.mode ≠ .scheduled || !s.rbit VAR_STAT 3 || (s.bankImg s.activeBank).crc ≠ s.rd IMG_CRC ||
              s.rbit VAR_STAT (8 + var))) (((imgRecs img 5 (some var)).head?).getD 0x0D)),
   fun _ => step 0x0F (s.switchBad img var ctx inj)].findSome? fun f => f ()

/-! The load -/

/-- A load ends with a code (R174). -/
def State.loadEnd (s : State) (code where_ : Nat) (xcode : Code) : State :=
  let s := ((s.setBit LOAD_STAT 1).setFld LOAD_STAT 15 8 code).setFld LOAD_STAT 23 16 xcode.toNat
  let s := (s.setFld LOAD_WHERE 23 0 where_).pageIrq .sched 0
  if code = 0 then s else s.pageErr .sched 5

/-- Where LOAD_ADDR points (R182). -/
def State.loadAddr (s : State) : Nat := s.fld LOAD_ADDR_HI 19 0 * 2 ^ 32 + s.fld LOAD_ADDR_LO 31 3 * 8

/-- The fetch takes its Ledger entry at MNI `76 + mni`, if one is free (R173, R442). -/
def State.loadEntry (s : State) (mni : Nat) : State :=
  match s.loader.entry with
  | some _ => s
  | none => match s.memOpen (76 + mni) .loader false s.loader.addr with
    | some (k, s) => { s with loader := { s.loader with entry := some k } }
    | none => s

/-- The load in progress is over: its Ledger entry ends with the code of its fetch. -/
def State.loadOver (s : State) (mni : Nat) (xcode : Code) : State :=
  let s := match s.loader.entry with | some k => s.memClose (76 + mni) k .loader xcode | none => s
  { (s.clrBit LOAD_STAT 0) with loader := { s.loader with busy := none, entry := none } }

/-- The present mode and SW_STAT.state permit a load (R173, R174 step 1). -/
def State.loadMay (s : State) : Bool :=
  (s.mode = .reserved || s.mode = .dynamic || s.mode = .scheduled) && s.swState < 2

/-- A start of a load by master `m` (R173, R174 step 1). A refused start in LOADED leaves IDLE (R174); a switchover that is
armed or under way goes on (log 76). -/
def State.loadStart (s : State) (m : Nat) : State :=
  if s.loader.busy.isSome || !s.loadMay then
    (if s.swState = 1 then s.setFld SW_STAT 2 0 0 else s).loadEnd 1 0 0
  else
    let s := (s.setFld SW_STAT 2 0 0).setFld LOAD_STAT 26 24 m
    let c := LOAD_CTRL
    ({ (s.setBit LOAD_STAT 0) with
      loader := { s.loader with busy := some (s.fld c 1 1, s.fld c 6 4, s.fld c 9 8, m), addr := s.loadAddr } }).loadEntry
        (s.fld c 9 8)

/-- A slot or injection word written with its check byte (R141, R159). -/
def State.putSlot (s : State) (k b o w : Nat) (v : Word) : State :=
  (s.wr (SLOT k b o w) v).wr (SLOT k b o w + 0x2000) (BitVec.ofNat 32 (slotCheck v))
def State.putInj (s : State) (n b p : Nat) (v : Word) : State :=
  (s.wr (INJE n b p) v).wr (INJE n b p + 0x2000) (BitVec.ofNat 32 (injCheck v))

/-- The tables and offsets of a variant written into bank `b` (R176 item 3); the words of a tile that is cut off are
answered FENCED (R282). -/
def State.putVariant (s : State) (img : List (BitVec 8)) (var b : Nat) : State :=
  let info := ((imgRecs img 5 (some var)).head?).getD 0
  let inj := imgInj img var
  let s := forN 56 (fun k s => s.hlWords 7 5 k (SLOT k b 0 0) 1024 (forN 8 fun o s => forN 128 (fun w s =>
    s.putSlot k b o w (BitVec.ofNat 32 (((List.range 8).map fun j => imgSlot img var k o (8 * w + j) * 16 ^ j).sum))) s)) s
  let s := forN 87 (fun n s => s.hlWords 7 5 (niTile n) (INJE n b 0) 1024 fun s =>
    (inj.filter fun e => e.2.1 = n).foldl (fun s (_, _, p, f) => s.putInj n b p (BitVec.ofNat 32 (2 ^ 15 + f)))
      (forN 1024 (fun p s => s.putInj n b p 0) s)) s
  let s := s.hlPark 7 0
  let s := forN 56 (fun k s => (s.setFld (RTR_OFF k) (8 * b + 7) (8 * b) (imgNat img (info + 8 + k) 1)).seq .sched) s
  forN 87 (fun n s => (s.setFld (NI_OFF n) (8 * b + 7) (8 * b) (imgNat img (info + 0x40 + n) 1)).seq .sched) s

/-- The bits of a word that the spec does not make zero take free values (log 1). -/
def State.freeWord (s : State) (a : Nat) (mask : Word) : State := (s.wr a (s.freeNow.extractLsb' 0 32 &&& mask)).drawn

/-- The content of bank `b` is undefined (R176): its tables, check bytes and offsets take free values, and it holds no loaded
variant (R182). Bits that read zero stay zero (R141, R159). -/
def State.freeBank (s : State) (b : Nat) : State :=
  let s := forN 56 (fun k s => forN 8 (fun o s => forN 128 (fun w s =>
    (s.freeWord (SLOT k b o w) 0xFFFFFFFF).freeWord (SLOT k b o w + 0x2000) 0x7F) s) s) s
  let s := forN 87 (fun n s => forN 1024 (fun p s =>
    (s.freeWord (INJE n b p) 0x8FFF).freeWord (INJE n b p + 0x2000) 0x3F) s) s
  let s := s.clrBit VAR_STAT 7
  let s := forN 56 (fun k s => (s.setFld (RTR_OFF k) (8 * b + 7) (8 * b) s.freeNow.toNat).drawn) s
  forN 87 (fun n s => (s.setFld (NI_OFF n) (8 * b + 7) (8 * b) s.freeNow.toNat).drawn) s

/-- The writes of an accepted FULL load that precede the tables (R176 items 1 and 2). -/
def State.putCommon (s : State) (img : List (BitVec 8)) : State :=
  let s := (imgRecs img 2 none).foldl (fun s o =>
    { s with flows := Tbl.set (fun _ => 0) (fcIdx (flowRec img o)) (flowRec img o) s.flows }) s
  forN 87 (fun n s => s.hlWords 7 1 (niTile n) (GRAN_LIM4 n) 1 fun s =>
    s.setFld (GRAN_LIM4 n) 26 16 (max (s.fld (GRAN_LIM4 n) 26 16) (imgResv img n))) s

/-- The writes of a load whose image `img` of `len` bytes has passed its checks (R176); a read that failed after `got` bytes
fails during them. What the loader keeps of the image goes with the bank. -/
def State.loadWrites (s : State) (img : List (BitVec 8)) (full : Bool) (var len got : Nat) (xcode : Code) : State :=
  let b := 1 - s.activeBank
  let s := s.setFld LOAD_STAT 23 16 0
  let s := if full then s.putCommon img else s
  if xcode ≠ OK then ((s.freeBank b).setFld SW_STAT 2 0 0).loadEnd 2 got xcode
  else
    let nvar := imgNat img 0x0D 1
    let s := s.putVariant img var b
    let s := s.setFld IMG_CRC 31 0 (imgNat img (len - 4) 4)
    let s := ((s.setFld VAR_STAT 6 4 var).setBit VAR_STAT 7).setFld VAR_STAT 19 16 nvar
    let image : BankImage :=
      { crc := BitVec.ofNat 32 (imgNat img (len - 4) 4), mask := imgNat img (((imgRecs img 5 (some var)).head?).getD 0 + 1) 1,
        resv := ((List.range 87).map fun n => (n, imgResv img n)).filter fun e => e.2 ≠ 0 }
    let s := { s with loader := { s.loader with bank := Tbl.set (fun _ => {}) b image s.loader.bank } }
    (s.setFld SW_STAT 2 0 1).loadEnd 0 0 (BitVec.ofNat 8 (s.fld LOAD_STAT 23 16))

/-- The fetch of the load in progress is over (R174, R176): the bytes it brought from the LOAD_ADDR of its start, and the
code of a read that failed. A load that the mode or a switchover no longer permits ends with STATE, and the switchover goes
on (R173, log 76). The initiator check of the MNI ends it at the first byte that is not permitted (R322). A read that fails once the
whole image has passed its checks fails during the writes. While no Ledger entry is free the fetch waits (R442). -/
def State.loadDone (s : State) (image : List (BitVec 8)) (xcode : Code) : State :=
  if !codeOk xcode then s else
  match s.loader.busy with
  | none => s
  | some (kind, var, mni, _) =>
    let s := s.loadEntry mni
    if s.loader.entry.isNone then s else
    let (s, k, fail) := s.memCheck (76 + mni) false s.loader.addr image.length
    let (image, xcode) := if fail = OK then (image, xcode) else (image.take k, fail)
    let len := imgNat image 0x18 4
    let img := image.take len
    let s := s.loadOver mni xcode
    if !s.loadMay then (if s.swState = 1 then s.setFld SW_STAT 2 0 0 else s).loadEnd 1 0 0
    else if xcode ≠ OK && (image.length < 64 || image.length < len) then (s.setFld SW_STAT 2 0 0).loadEnd 2 image.length xcode
    else match s.imageBad img (kind = 0) var with
      | some (code, w) =>
        if xcode ≠ OK then (s.setFld SW_STAT 2 0 0).loadEnd 2 image.length xcode
        else (s.setFld SW_STAT 2 0 0).loadEnd code w 0
      | none => s.loadWrites img (kind = 0) var len image.length xcode

/-- A write of an offset or a table word of bank `b` may be made (R142): it returns LOADED to IDLE, and the bank no longer
holds the variant that was loaded (R182); none when refused. -/
def State.bankWrite (s : State) (b : Nat) : Option State :=
  if b = s.activeBank || 2 ≤ s.swState then none else some ((s.setFld SW_STAT 2 0 0).clrBit VAR_STAT 7)

/-- A window write of a slot or injection word (R141, R142, R159): check bytes are read-only. DESIGN CHOICE (log 136): bits
[14:12] of an injection entry are stored as written. -/
def State.tableWrite (s : State) (a : Nat) (v : Word) : State :=
  let inSlot := a < 0x24E0000
  let off := if inSlot then (a - 0x2400000) % 0x4000 else (a - 0x2500000) % 0x4000
  if 0x2000 ≤ off then s else
  match s.bankWrite (off / 0x1000) with
  | none => s.pageErr .sched 0
  | some s =>
    if inSlot then (s.wr a v).wr (a + 0x2000) (BitVec.ofNat 32 (slotCheck v))
    else
      let v := BitVec.ofNat 32 (v.toNat % 2 ^ 16)
      (s.wr a v).wr (a + 0x2000) (BitVec.ofNat 32 (injCheck v))

/-- A write of RTR_OFF or NI_OFF: the inactive bank's field is written where R142 allows, and a change of the active
bank's is refused. -/
def State.offWrite (s : State) (a : Nat) (v : Word) : State :=
  let b := 1 - s.activeBank
  let hi (b : Nat) : Nat := 8 * b + 7
  let s := if getBits v (hi (1 - b)) (8 * (1 - b)) ≠ s.fld a (hi (1 - b)) (8 * (1 - b)) then s.pageErr .sched 0 else s
  match s.bankWrite b with
  | none => s.pageErr .sched 0
  | some s => s.setFld a (hi b) (8 * b) (getBits v (hi b) (8 * b))

/-- FLOW_DATA as FLOW_SEL names it (R182). -/
def State.flowData (s : State) (i : Nat) : Word := (s.flowOf (s.fld FLOW_SEL 11 0)).extractLsb' (32 * i) 32

end Sys2Proof.Machine
end

