-- ==== Sys2Proof/Machine/Kni.lean ====
section
/-! DEFINITION. The entering side of a KNI: the flits that come from the peer (R51, R297), the packets that are routed
again (R86, R87), and the scheduled reservation (R152, R153, R178, R297). -/

namespace Sys2Proof.Machine

/-- The NI index of the KNI of Skidway port `p` (R16). -/
abbrev kniOf (p : Nat) : Nat := 81 + p

/-- The pool of a packet: VN0 to VN6, VN7 requests, VN7 responses (R296). -/
def skPool (h sc : BitVec 128) : Nat := granKey h (sOpc sc)

/-- Credits owed to the peer for flits that have left pool `i`; a packet of an earlier link owes none. -/
def State.oweCredits (s : State) (p i n : Nat) : State :=
  if i < 9 then s.modSkw p fun x => { x with owed := Tbl.upd (fun _ => 0) i (· + n) x.owed } else s

/-! The scheduled reservation -/

/-- The mark of the scheduled reservation where a pool is named. -/
abbrev schPool : Nat := 10

/-- Flits of the scheduled reservation in use: those that wait, and those queued for injection from it (R152, R297). -/
def State.kniUsed (s : State) (p : Nat) : Nat :=
  let x := s.niOf (kniOf p)
  ((s.skwOf p).sched.filter (!·.lost)).length +
  ((x.queues.map fun (_, q) => ((q.filter fun it => it.pool = some schPool).map fun it => it.body.length).sum)).sum +
  ((x.cur.filter fun c => c.pool = some schPool).map fun c => c.flits.length).sum

/-- The context under which flow `f` enters this die (R297). -/
def State.enterCtx (s : State) (f : BitVec 12) : Option (BitVec 256) :=
  let c := s.flowOf f.toNat
  if fcValid c && fcEnters c then some c else none

/-- Two flits belong to one packet. -/
def samePkt (a b : BitVec 128) : Bool := hSrc a = hSrc b && hDst a = hDst b && hSeq a = hSeq b && hVn a = hVn b

/-- How the first flit `y` of a packet in the reservation is to be injected (R152, R153, R161, R180, R297), or that its
packet is answered FENCED (R417). -/
inductive SkWay where
  | at (fc : Nat)
  | context
  | lookup
  | fenced
deriving DecidableEq, Repr

/-- The p_b of a first flit of flow `f` that departed in position `pa` and arrives at port `p` now (R152). DEDUCED (log 148):
it is the flow's first position 25 fc or more after p_a, in the bank in force there, that no earlier packet of the flow has
taken. -/
def State.schedPb (s : State) (p pa f : Nat) : Option Nat :=
  let n := kniOf p
  let first := max (s.fc + 25 - (s.rotPos + 1024 - pa) % 1024) (Tbl.get (fun _ => 0) (s.skwOf p).schPb f)
  let names (t : Nat) : Bool := (s.bankAt (NI_OFF n) (max t s.fc)).any fun b =>
    s.injFlow n b ((s.rotPos + t + 2048 - s.fc) % 1024) = some f
  ((List.range 1024).find? fun j => names (first + j)).map (first + ·)

/-- A first flit `f` that arrives now is of a request that DRAIN does not let in (R417). -/
def State.drains (s : State) (f : Flit) : Bool := s.mode = .drain && !isResponse (hCls f.hdr) (sOpc f.sc)

/-- A flit that arrives in the reservation of port `p` now, having departed in position `pa`. -/
def State.arrived (s : State) (p pa : Nat) (f : Flit) : SkSched :=
  if sFidx f.sc ≠ 0 then { flit := f, fc := s.fc }
  else { flit := f, fc := s.fc, pb := s.schedPb p pa (hFlow f.hdr).toNat,
         fence := s.drains f }

/-- The way of a first flit. In DRAIN no new scheduled packet is injected (R417), and one whose p_b has passed with no bank in
force is not late (R161). -/
def State.skWay (s : State) (p : Nat) (y : SkSched) : SkWay :=
  let f := hFlow y.flit.hdr
  if y.fence then .fenced
  else match s.enterCtx f with
    | none => .lookup
    | some _ =>
      if s.demoted f.toNat || s.mode = .drain then .context
      else match y.pb with
        | some t => if t < s.fc && (s.niBank (kniOf p)).isNone then .context else .at t
        | none => .context

/-- The flits of a packet that the reservation holds, from flit `i` on. -/
def Skw.schedOf (x : Skw) (h : BitVec 128) (i : Nat) : List SkSched :=
  x.sched.filter fun y => samePkt y.flit.hdr h && i ≤ sFidx y.flit.sc

/-- Every flit of a packet from flit `i` on has arrived. -/
def Skw.schedWhole (x : Skw) (h : BitVec 128) (i : Nat) : Bool := (x.schedOf h i).length = hLen h + 1 - i

/-- The reservation without the flits of a packet. -/
def Skw.schedDrop (x : Skw) (h : BitVec 128) : Skw := { x with sched := x.sched.filter fun y => !samePkt y.flit.hdr h }

/-- A violation of the entering KNI that names a flow without a valid context: none is demoted (R297). -/
def State.unnamed (s : State) (p : Nat) (h : BitVec 128) : State :=
  (s.pageErr .sched 4).journal
    { code := SCHED_VIOLATION, kind := kSCHED, where_ := whereNi (kniOf p), part := some (hPart h), detail := 2,
      flow := some (hFlow h) }

/-- A scheduled flit finds the reservation full: it is discarded, and its flow is demoted where it has a context
(R297). The other flits of its packet go on without it. -/
def State.kniFull (s : State) (p : Nat) (h sc : BitVec 128) : State :=
  let n := kniOf p
  let s := (s.niErr n 9).journal (transitEntry (whereNi n) SCHED_VIOLATION h sc 0)
  if fcValid (s.flowOf (hFlow h).toNat) then (s.pageErr .sched 3).violation 2 (whereNi n) [(hFlow h).toNat] else s

/-! Flits from the peer -/

/-- What the check of a flit shows at the KNI (R51). -/
def State.kniMarks (s : State) (n ce : Nat) (ue psn : Bool) : State :=
  let s := s.countN n 0x27 ce unfiltered
  let s := if psn then s.countN n 0x28 1 unfiltered else s
  let s := if ce ≠ 0 then s.niErr n 1 else s
  if ue then s.niErr n 0 else s

/-- A packet from the peer that is discarded on arrival (R35, R41). -/
def badEnter (h sc : BitVec 128) : Bool :=
  let c := hCls h
  9 < c.toNat || hVn h ≠ vnOf c || maxLen c < hLen h || (c = cNDR && 0x84 ≤ (sOpc sc).toNat && (sOpc sc).toNat ≤ 0x9F)

/-- A scheduled flit joins the reservation; a continuation flit whose packet was discarded on arrival is dropped (R35, R51,
R297). -/
def State.schedFlit (s : State) (p : Nat) (f : Flit) (pa : Nat) : State :=
  let x := s.skwOf p
  let known := sFidx f.sc = 0 || x.sched.any (fun y => samePkt y.flit.hdr f.hdr) ||
    (match x.schCur with | some (h, _, _) => samePkt h f.hdr | none => false)
  if !known then s
  else
    let full := s.fld (GRAN_LIM4 (kniOf p)) 26 16 ≤ s.kniUsed p
    let y := s.arrived p pa f
    let s := s.setSkw p { x with sched := x.sched ++ [{ y with lost := full }],
                                 schPb := match y.pb with
                                   | some t => Tbl.set (fun _ => 0) (hFlow f.hdr).toNat (t + 1) x.schPb
                                   | none => x.schPb }
    if full then s.kniFull p f.hdr f.sc else s

/-- A flit with an uncorrectable group that the KNI keeps is poisoned, and the KNI shows what it found (R51). -/
def State.kniKeep (s : State) (p : Nat) (h : BitVec 128) (f : Flit) (ctl : Bool) (ce ue : List Nat) : State × Flit :=
  let bad := !ue.isEmpty
  let s := s.kniMarks (kniOf p) ce.length bad bad
  if bad then (s.poisonJ (kniOf p) h (sOpc f.sc), poisonFlit h ctl f) else (s, f)

/-- A flit that begins no packet under way: it begins one, it is scheduled, or it is discarded. `pool` is the pool whose
credit it holds, and `pa` the position of its departure. -/
def State.slotNew (s : State) (p : Nat) (f : Flit) (ce ue : List Nat) (pool pa : Nat) : State :=
  let n := kniOf p
  let ctl := ue.any (· ≤ 2)
  let bad := !ue.isEmpty
  let d := (s.skwOf p).rxLost
  let lose (k : Nat) (s : State) : State := s.modSkw p fun x => { x with rxLost := k }
  if ctl && !(hSch f.hdr && 0 < sFidx f.sc) then
    let s := (s.kniMarks n ce.length true false).oweCredits p pool 1
    if d ≠ 0 then lose (discNext d) s
    else lose 1 (((s.niErr n 8).journal (transitEntry (whereNi n) POISON f.hdr f.sc 0)).partFault (hPart f.hdr))
  else if sFidx f.sc ≠ 0 then
    if hSch f.hdr then
      let (s, f) := s.kniKeep p f.hdr f ctl ce ue
      s.schedFlit p f pa
    else lose (discNext d) ((s.kniMarks n ce.length bad false).oweCredits p pool 1)
  else if badEnter f.hdr f.sc then
    let s := ((s.kniMarks n ce.length bad false).oweCredits p pool 1).discardPkt n f.hdr f.sc
    if hSch f.hdr then s else lose (discLen (hLen f.hdr)) s
  else
    let (s, f) := (if hSch f.hdr then s else lose 0 s).kniKeep p f.hdr f false ce ue
    if hSch f.hdr then s.schedFlit p f pa
    else
      let fence := s.drains f
      let r : SkRx := { hdr := f.hdr, body := [(f.sc, f.data)], chks := [f.chk], pool := pool, fence := fence }
      if hLen f.hdr = 0 then s.modSkw p fun x => { x with rx := x.rx ++ [r] }
      else s.modSkw p fun x => { x with rxCur := some r }

/-- One flit of a frame taken in order, after its correction: `ce` are its groups corrected, `ue` those uncorrectable (R51,
R294, R297). It joins the dynamic packet under way, whose flits come one after the other (R291). DESIGN CHOICE (log 130):
one with another FIDX than the packet awaits ends that packet with DECODE (R44). A flit of a link that has ended owes no
credit. -/
def State.slotFixed (s : State) (p : Nat) (f : Flit) (ce ue : List Nat) (owes : Bool) (pa : Nat) : State :=
  let n := kniOf p
  let ctl := ue.any (· ≤ 2)
  let x := s.skwOf p
  let pool := if hSch f.hdr || !owes then 9 else skPool f.hdr f.sc
  let joins : Bool := match x.rxCur with | some r => !hSch f.hdr || (ctl && !samePkt r.hdr f.hdr) | none => false
  match (if joins then x.rxCur else none) with
  | none => s.slotNew p f ce ue pool pa
  | some r =>
    if !ctl && sFidx f.sc ≠ r.body.length then
      let s := (s.oweCredits p r.pool r.body.length).discardPkt n r.hdr (r.body.headD (0, 0)).1
      (s.modSkw p fun x => { x with rxCur := none, rxLost := 1 }).slotNew p f ce ue pool pa
    else
      let (s, f) := s.kniKeep p r.hdr f ctl ce ue
      let r := { r with body := r.body ++ [(f.sc, f.data)], chks := r.chks ++ [f.chk] }
      if r.body.length = hLen r.hdr + 1 then s.modSkw p fun x => { x with rx := x.rx ++ [r], rxCur := none }
      else s.modSkw p fun x => { x with rxCur := some r }

/-- One flit of a frame that the receiver releases (R51, R292, R294, R297). -/
def State.slotFlit (s : State) (p : Nat) (f : Flit) (owes : Bool) (pa : Nat) : State :=
  let r := fixFlit f
  s.slotFixed p r.1 r.2.1 r.2.2 owes pa

/-- The slots of accepted frames whose fc has come are released (R292). -/
def State.releaseSlots (s : State) (p : Nat) : State :=
  let q := (s.skwOf p).rxq
  (q.filter fun y => y.fc ≤ s.fc).foldl (fun s y => s.slotFlit p y.flit y.owes y.pa)
    (s.modSkw p fun x => { x with rxq := q.filter fun y => s.fc < y.fc })

/-! Routing again (R86, R87) -/

/-- A node lookup of the KNI, with what it leaves behind: the code and what it found. -/
def State.kniLook (s : State) (p : Nat) (d : NodeId) (h : BitVec 128) (opc : BitVec 8) (isReq : Bool) : State × Code × Found :=
  let n := kniOf p
  let f := s.look { n := n, key := .node d, vn := hVn h, cls := hCls h, isReq := isReq,
                    resv := isResvOp (hCls h) opc, mask := s.fenceMask }
  let s := s.lookCount n f
  let code := if f.code ≠ OK then f.code else if f.fenced then FENCED else OK
  if code ≠ OK then ((s.rtFail n code f.idx).countN n 0x25 1 unfiltered, code, f) else (s, OK, f)

/-- The class of the answer with which an NI ends a request itself (R39). -/
def endCls (h sc : BitVec 128) : BitVec 4 :=
  if packed h sc then cNDR else if hCls h = cBSNP then cBRSP else if hCls h = cMGT then cMGT else cNDR

/-- A packet that the KNI does not forward: a non-posted request is answered where its source has a route for the answer,
another is discarded and journaled (R87). -/
def State.kniEnd (s : State) (p : Nat) (h sc : BitVec 128) (code : Code) : State :=
  let n := kniOf p
  let gone (s : State) : State := s.journal (transitEntry (whereNi n) code h sc 0)
  if isResponse (hCls h) (sOpc sc) || postedPkt h sc then gone s
  else
    let (s', c, _) := s.kniLook p (hSrc h) (mkHdr (endCls h sc) false 0 (hPart h) (s.node n) (hSrc h) 0 (hTag h) 0) 0 false
    if c ≠ OK then gone s' else s.endReply n h sc code

/-- A packet for the queue of its VN, on a route, with HOP and AGE zero; its check bytes 2 to 7 are kept (R33, R192). -/
def State.kniQueue (s : State) (p : Nat) (r : SkRx) (route : BitVec 36) : State :=
  let h := setAge (setHop (setSch (setRoute r.hdr route) false) 0) 0
  let it : QItem := { tag := hTag h, cls := hCls h, opc := sOpc (r.body.headD (0, 0)).1, part := hPart h, body := r.body,
                      pkt := some { hdr := h, body := r.body, chks := r.chks }, pool := some r.pool, taken := s.fc }
  if r.body.isEmpty then s else s.modNi (kniOf p) fun x => x.setQueue (hVn h) (x.queue (hVn h) ++ [it])

/-- A packet that enters dynamically by a node lookup on its DST (R86); a request that arrived in DRAIN is FENCED (R417). -/
def State.kniRoute (s : State) (p : Nat) (r : SkRx) : State :=
  let h := r.hdr
  let sc := (r.body.headD (0, 0)).1
  let req := !isResponse (hCls h) (sOpc sc)
  if req && r.fence then (s.kniEnd p h sc FENCED).oweCredits p r.pool r.body.length
  else
    let (s, code, f) := s.kniLook p (hDst h) h (sOpc sc) req
    if code ≠ OK then (s.kniEnd p h sc code).oweCredits p r.pool r.body.length
    else (s.sprayed (kniOf p) (hVn h) f).kniQueue p r f.route

/-- A packet of flits that the reservation holds. -/
def schPkt (h : BitVec 128) (l : List SkSched) : SkRx :=
  let l := l.filter (!·.lost)
  { hdr := h, body := l.map fun y => (y.flit.sc, y.flit.data), chks := l.map fun y => y.flit.chk, pool := schPool }

/-- The oldest whole packet of the reservation on VN `vn` that is to enter dynamically without being late. -/
def State.schedDyn (s : State) (p vn : Nat) : Option SkSched :=
  let x := s.skwOf p
  x.sched.find? fun y => sFidx y.flit.sc = 0 && hVn y.flit.hdr = vn && x.schedWhole y.flit.hdr 0 &&
    (match s.skWay p y with | .at _ => false | _ => true)

/-- The oldest packet of a VN enters the queue of its VN: responses of VN7 before its requests (R297). -/
def State.kniEnter (s : State) (p vn : Nat) : State :=
  if !s.runs (niTile (kniOf p)) || !(s.carries || s.mode = .drain) then s else
  let x := s.skwOf p
  match s.schedDyn p vn with
  | some y =>
    let h := y.flit.hdr
    let r := schPkt h (x.schedOf h 0)
    let s := s.setSkw p (x.schedDrop h)
    if y.fence then (if r.body.isEmpty then s else s.kniEnd p h (r.body.headD (0, 0)).1 FENCED)
    else match s.enterCtx (hFlow h) with
    | some c => s.kniQueue p r (fcRoute c)
    | none => if r.body.isEmpty then s else (s.unnamed p h).kniRoute p { r with hdr := setSch h false }
  | none =>
    let pick (q : SkRx → Bool) : Option SkRx := x.rx.find? fun r => hVn r.hdr = vn && q r
    let resp (r : SkRx) : Bool := isResponse (hCls r.hdr) (sOpc (r.body.headD (0, 0)).1)
    match (pick resp) <|> (pick fun _ => true) with
    | none => s
    | some r => (s.setSkw p { x with rx := eraseFirst (· = r) x.rx }).kniRoute p r

/-! Scheduled injection (R152, R153) -/

/-- A flit of the reservation leaves the KNI on the bypass with SCH = 1 (R33). One that was discarded leaves its fc
unused. -/
def State.kniSchedSend (s : State) (p : Nat) (c : BitVec 256) (y : SkSched) : State :=
  let h := setAge (setHop (setRoute y.flit.hdr (fcRoute c)) 0) 0
  let s := s.modSkw p fun x => { x with sched := eraseFirst (· = y) x.sched }
  if y.lost then s else s.niSend (kniOf p) bypVc (recoded (mkFlit h y.flit.sc y.flit.data) y.flit.chk)

/-- The entry of the bank in force at NI `n` for this fc names flow `f` (R160). -/
def State.injHere (s : State) (n f : Nat) : Bool := (s.niBank n).any fun b => s.injFlow n b s.rotPos = some f

/-- The scheduled flit of this fc is injected: the next flit of the packet under way, or a first flit whose p_b this
is. DESIGN CHOICE (log 149): a position that passes unused here counts no miss, which R160 gives for an NI's own messages. -/
def State.kniSchedInject (s : State) (p : Nat) : State :=
  let n := kniOf p
  if !s.runs (niTile n) || (s.niOf n).sentFc = s.fc + 1 then s else
  let s := s.injMarks n
  let x := s.skwOf p
  match x.schCur with
  | some (h, i, due) =>
    match (x.schedOf h i).head?, s.enterCtx (hFlow h) with
    | some y, some c =>
      if due ≠ s.fc || sFidx y.flit.sc ≠ i then s
      else (s.kniSchedSend p c y).modSkw p fun x => { x with schCur := if i < hLen h then some (h, i + 1, due + 1) else none }
    | _, _ => s
  | none =>
    match x.sched.find? fun y => sFidx y.flit.sc = 0 && s.skWay p y = .at s.fc && s.injHere n (hFlow y.flit.hdr).toNat with
    | none => s
    | some y =>
      let h := y.flit.hdr
      match s.enterCtx (hFlow h) with
      | some c => (s.kniSchedSend p c y).modSkw p fun x => { x with schCur := if hLen h = 0 then none else some (h, 1, s.fc + 1) }
      | none => s

/-- A packet that has missed its position: it is queued as a dynamic packet on the route of its context, and reported
(R153). -/
def State.kniLate (s : State) (p : Nat) (h : BitVec 128) (i : Nat) : State :=
  let x := s.skwOf p
  let r := schPkt h (x.schedOf h i)
  let s := ((s.setSkw p (x.schedDrop h)).pageErr .sched 3).violation 2 (whereNi (kniOf p)) [(hFlow h).toNat]
  s.kniQueue p r (fcRoute (s.flowOf (hFlow h).toNat))

/-- The oldest packet of the reservation that has missed its position, once its flits are there. -/
def State.kniSchedLate (s : State) (p : Nat) : State :=
  if !s.runs (niTile (kniOf p)) then s else
  let x := s.skwOf p
  match x.schCur with
  | some (h, i, due) =>
    if due < s.fc && x.schedWhole h i then (s.modSkw p fun x => { x with schCur := none }).kniLate p h i else s
  | none =>
    match x.sched.find? fun y => sFidx y.flit.sc = 0 && x.schedWhole y.flit.hdr 0 &&
        (match s.skWay p y with | .at t => decide (t < s.fc) | _ => false) with
    | some y => s.kniLate p y.flit.hdr 0
    | none => s

/-! Commands -/

/-- INJECT_PACKET (R188). -/
def execInjectPacket (n : Fin 87) (s : State) : Out :=
  .next (s.inject n fun s => if 81 ≤ n.val then s.kniSchedInject (n - 81) else s.schedInject n)
/-- KNI_ENTER_PACKET (R86, R297). -/
def execKniEnterPacket (p : Fin 6) (vn : Fin 8) (s : State) : Out := .next (s.kniEnter p vn)
/-- KNI_SCHED_INJECT (R152). -/
def execKniSchedInject (p : Fin 6) (s : State) : Out := .next (s.kniSchedInject p)
/-- KNI_SCHED_LATE (R153). -/
def execKniSchedLate (p : Fin 6) (s : State) : Out := .next (s.kniSchedLate p)

end Sys2Proof.Machine
end

