-- ==== Sys2Proof/Machine/Skidway.lean ====
section
/-! DEFINITION. Skidway links (R285 to R312): the state of a port, frames, replay, credits, control messages, time
synchronisation and lane rotation. A port's state, fault code and counters are in its page. -/

namespace Sys2Proof.Machine

/-- The adapter of port `p` runs. -/
def State.skwRuns (s : State) (p : Nat) : Bool :=
  s.held.isNone && !(s.dom (56 + p)).cut && !s.fclkDead && s.mode != .off && s.mode != .fuse

/-- Fc per frame, F of R290. -/
def State.fpf (s : State) (p : Nat) : Nat := max (s.fld (SKW_CFG p) 3 0) 1

/-! Frames (R287 to R289) -/

/-- The 832 bits of a slot. -/
def slotBits : Option Flit → Nat
  | some f => flitBits f + f.chk.toNat * 2 ^ 768
  | none => 0

/-- Frame bits [10,207:0]. -/
def frameBits (f : Frame) : Nat :=
  ((List.range 12).map fun j => slotBits (f.slots.getD j none) * 2 ^ (832 * j)).sum + f.fcw.toNat % 2 ^ 224 * 2 ^ 9984

/-- The CRC of a frame (R289). -/
def frameCrc (f : Frame) : Nat := crc32c (leBytes 1276 (frameBits f))

end Sys2Proof.Machine

namespace Sys2Proof

/-- A frame with its CRC. -/
def Frame.sealed (f : Frame) : Frame := { f with fcw := Machine.putBits f.fcw 255 224 (Machine.frameCrc f) }

/-- A good frame (R289). -/
def Frame.good (f : Frame) : Bool := Machine.getBits f.fcw 255 224 = Machine.frameCrc f

def Frame.svalid (f : Frame) : Nat := Machine.getBits f.fcw 11 0
def Frame.fseq (f : Frame) : Nat := Machine.getBits f.fcw 23 12
def Frame.aseq (f : Frame) : Nat := Machine.getBits f.fcw 35 24
def Frame.aval (f : Frame) : Bool := bit f.fcw 36
def Frame.nak (f : Frame) : Bool := bit f.fcw 37
/-- CRED of pool `i`. -/
def Frame.credit (f : Frame) (i : Nat) : Nat := Machine.getBits f.fcw (4 * i + 43) (4 * i + 40)
def Frame.ctype (f : Frame) : Nat := Machine.getBits f.fcw 79 76
def Frame.cdata (f : Frame) : BitVec 64 := f.fcw.extractLsb' 80 64
def Frame.txpos (f : Frame) : Nat := Machine.getBits f.fcw 153 144

/-- A frame is loaded (R293). -/
def Frame.loaded (f : Frame) : Bool := f.svalid ≠ 0 || f.ctype ≠ 0 || Machine.getBits f.fcw 75 40 ≠ 0

end Sys2Proof

namespace Sys2Proof.Machine

/-! The state of a port (R298) -/

/-- The state of a port replaced. -/
def State.setSkwState (s : State) (p st : Nat) : State :=
  (s.setFld (SKW_STAT p) 2 0 st).modSkw p fun x => { x with since := s.fc }

/-- The permitted range of a lane base (R305). -/
def State.laneRange (s : State) (p : Nat) : Nat × Nat :=
  let bad := s.fld (SKW_LANE p) 30 24
  if s.rbit (SKW_LANE p) 31 then (bad - 3, min bad 64) else (0, 64)

/-- The base at training (R305). -/
def State.trainBase (s : State) (p : Nat) : Nat :=
  let b := s.fld (SKW_LANE p) 22 16
  let (lo, hi) := s.laneRange p
  if s.rbit (SKW_LANE p) 31 && (b < lo || hi < b) then hi else b

/-- The step of the transmit direction is abandoned (R307). -/
def State.laneDrop (s : State) (p : Nat) : State :=
  let x := s.skwOf p
  let had := x.step.isSome || x.ctl.any (fun c => c.1 = 4)
  let s := s.setSkw p { x with step := none, stepGo := false, ctl := x.ctl.filter fun c => !(c.1 = 4 || c.1 = 6) }
  if had then (s.pageErr (skwPage p) 7).satFld (SKW_LANE_STAT p) 23 16 1 else s

/-- The steps of both directions are abandoned: RETRAIN, CLOSE or FAULT begins (R307). -/
def State.laneAbort (s : State) (p : Nat) : State :=
  (s.laneDrop p).modSkw p fun x => { x with stepRx := none, ctl := x.ctl.filter fun c => c.1 ≠ 5 }

/-- The flows that exit through KNI `81 + p` or enter at it (R178). -/
def State.skwFlows (s : State) (p : Nat) : List Nat :=
  s.flowsWhere fun c => (fcEnters c && fcSrc c = kniOf p) ||
    (fcExits c && (walk (Config.niRouter (fcSrc c)) [] ((List.range (fcSels c)).map fun i =>
      getBits (fcRoute c) (3 * i + 2) (3 * i))).2.1 = some (kniOf p))

/-- A packet that a closed or failed port does not take (R308, R309): an answer goes by node key on SRC. -/
def State.skwDrop (s : State) (p : Nat) (h sc : BitVec 128) : State := s.skwRefuse (kniOf p) h sc

/-- The packets that wait at the KNI for the port are refused (R308, R309); those still on a VC leave it flit by flit. -/
def State.flushGran (s : State) (p : Nat) : State :=
  let n := kniOf p
  let x := s.niOf n
  let s := s.setNi n { x with gran := [], asm := Tbl.mapWith (fun _ => []) (fun _ l => l.map fun a => if a.pkt.isSome then a.ended else a) x.asm }
  (x.gran ++ (x.asm.flatMap fun l => l.2.filterMap (·.pkt))).foldl (fun s h => s.skwDrop p h.hdr h.sc) s

/-- The packets of a list of flits, one flit each. -/
def pktsOf (l : List Flit) : List Flit :=
  l.foldl (fun o f => if o.any fun g => samePkt g.hdr f.hdr then o else o ++ [f]) []

/-- The packets that the flits of a list belong to are refused: what their first flit said (R500). -/
def State.flushFlits (s : State) (p : Nat) (l : List Flit) : State :=
  (pktsOf l).foldl (fun s f => s.skwDrop p f.hdr (flitSeen f).sc) s

/-- What outlives a link: received packets, which owe no credits to a later one, the reservation, δ. -/
def Skw.closed (x : Skw) (fc : Nat) : Skw :=
  { since := fc, rx := x.rx.map fun r => { r with pool := 9 }, rxCur := x.rxCur.map fun r => { r with pool := 9 }, rxLost := x.rxLost,
    rxq := x.rxq.map fun y => { y with owes := false }, sched := x.sched, schCur := x.schCur, schPb := x.schPb, delta := x.delta,
    raw := x.raw, txPos := x.txPos, stamp := x.stamp, out := x.out, frameFc := x.frameFc }

/-- The packets of port `p` that are already queued for injection owe no credits. -/
def State.unpool (s : State) (p : Nat) : State :=
  let keep (o : Option Nat) : Option Nat := if o = some schPool then o else none
  s.modNi (kniOf p) fun x =>
    { x with queues := Tbl.mapWith (fun _ => []) (fun _ q => q.map fun it => { it with pool := keep it.pool }) x.queues,
             cur := x.cur.map fun c => { c with pool := keep c.pool } }

/-- The port is DISABLED (R298): what waits for it is refused as at a closed port. -/
def State.skwDisable (s : State) (p : Nat) : State :=
  if s.skwState p = 0 then s else
  let s := (s.laneAbort p).setFld (SKW_STAT p) 7 4 0
  let out := (s.skwOf p).schOut
  let s := ((s.setSkwState p 0).modSkw p fun x => x.closed s.fc).unpool p
  (s.flushGran p).flushFlits p (out.map (·.flit))

/-- The port enters FAULT with a code (R309). It is no fault of R458, so its Journal entry has no cause (R450). -/
def State.skwFault (s : State) (p code : Nat) : State :=
  let s := s.laneAbort p
  let x := s.skwOf p
  let s := (((s.setSkwState p 7).setFld (SKW_STAT p) 7 4 code).pageErr (skwPage p) 3).journal
    { code := LINK, kind := kFAULT, where_ := whereSkw p }
  let s := s.violation 6 (whereSkw p) (s.skwFlows p)
  let s := (s.modSkw p fun x => x.closed s.fc).unpool p
  let held := (x.held.map fun k => k.frame.slots.filterMap id).flatten
  (s.flushGran p).flushFlits p (held ++ x.txCur ++ x.schOut.map (·.flit))

/-- The start of training (R298, R305): PHY_TRAIN on the base for training. -/
def State.skwTrain (s : State) (p : Nat) : State :=
  let b := s.trainBase p
  (((s.setSkwState p 1).setFld (SKW_LANE p) 6 0 b).setFld (SKW_LANE p) 14 8 b).setFld (SKW_STAT p) 15 15 0

/-- en written 1 in DISABLED (R298). -/
def State.skwStart (s : State) (p : Nat) : State :=
  if s.skwState p ≠ 0 || s.dom (56 + p) ≠ .open_ || !s.feat fSKIDWAY || !s.skwRuns p then s
  else
    let s := (s.modSkw p fun x => x.closed s.fc).unpool p
    ((s.setFld (SKW_STAT p) 7 4 0).setFld (SKW_STAT p) 14 14 0).skwTrain p

/-- SKWs_TRAIN of port `p`: high in PHY_TRAIN (R490), 0 in a domain that is cut off (R482). -/
def State.trainPin (s : State) (p : Nat) : Bool := s.held.isNone && s.tileOn (56 + p) && s.skwState p = 1

/-- SKWs_TXVLD of port `p`: high from ALIGN until DISABLED or FAULT (R490), so that it stays high while the port retrains. -/
def State.txvldPin (s : State) (p : Nat) : Bool :=
  s.held.isNone && s.tileOn (56 + p) &&
    (decide (2 ≤ s.skwState p && s.skwState p ≤ 6) || (s.skwState p = 1 && (s.skwOf p).retr))

/-- RETRAIN (R298, R300): straight to PHY_TRAIN, or FAULT after max_retrain in succession. -/
def State.skwRetrain (s : State) (p : Nat) : State :=
  if s.skwState p ≠ 5 then s else
  let s := ((s.laneAbort p).satFld (SKW_STAT p) 23 16 1).pageErr (skwPage p) 2
  let s := s.modSkw p fun x => { x with trains := x.trains + 1, retr := true, paramGot := false, paramSent := false,
                                        good := 0, ctl := [], replays := 0 }
  if s.fld (SKW_CFG p) 19 16 < (s.skwOf p).trains then s.skwFault p 6 else s.skwTrain p

/-- A control message waits for a frame. -/
def State.skwSay (s : State) (p ty : Nat) (d : BitVec 64) : State :=
  s.modSkw p fun x => { x with ctl := x.ctl ++ [(ty, d)] }

/-- TSYNC waits for the next frame, ahead of any other control message (R302). -/
def State.saySync (s : State) (p : Nat) : State :=
  s.modSkw p fun x => { x with ctl := (3, 0) :: x.ctl.filter fun c => c.1 ≠ 3 }

/-- CDATA of PARAM (R299). -/
def State.paramData (s : State) (p : Nat) : BitVec 64 :=
  BitVec.ofNat 64 (s.die + p * 2 ^ 3 + s.fld (SKW_CFG p) 3 0 * 2 ^ 6 + flag (s.feat fLANE) * 2 ^ 10 + 2 ^ 16 +
    s.time.s.toNat % 2 ^ 32 * 2 ^ 32)

/-- ACTIVE is entered (R302): TSYNC is sent. -/
def State.skwActive (s : State) (p : Nat) : State :=
  ((s.setSkwState p 5).modSkw p fun x => { x with retr := false }).saySync p

/-- The port leaves PARAM once both sides have sent PARAM (R298). -/
def State.paramDone (s : State) (p : Nat) : State :=
  let x := s.skwOf p
  if s.skwState p ≠ 3 || !x.paramGot || !x.paramSent then s
  else if x.retr then s.skwActive p
  else
    let owed : Tbl Nat := ((List.range 9).map fun i => (i, s.fld (SKW_POOL p i) 8 0)).filter fun e => e.2 ≠ 0
    (s.setSkwState p 4).setSkw p { s.skwOf p with owed := owed, since := s.fc }

/-- The port leaves CREDIT once READY has been sent and received (R298). -/
def State.readyDone (s : State) (p : Nat) : State :=
  let x := s.skwOf p
  if s.skwState p = 4 && x.readyGot && x.readySent then s.skwActive p else s

/-! Control messages received (R288) -/

/-- PARAM received (R299). One that comes before this port has left ALIGN is checked at once. -/
def State.gotParam (s : State) (p : Nat) (d : BitVec 64) : State :=
  let st := s.skwState p
  if st ≠ 2 && st ≠ 3 then s
  else
    let die := getBits d 2 0
    let port := getBits d 5 3
    let was := (s.skwOf p).retr && s.rbit (SKW_STAT p) 14
    if die = s.die then s.skwFault p 3
    else if getBits d 23 16 ≠ 1 then s.skwFault p 4
    else if getBits d 9 6 ≠ s.fld (SKW_CFG p) 3 0 then s.skwFault p 5
    else if was && (die ≠ s.fld (SKW_STAT p) 10 8 || port ≠ s.fld (SKW_STAT p) 13 11) then s.skwFault p 3
    else
      let s := (((s.setFld (SKW_STAT p) 10 8 die).setFld (SKW_STAT p) 13 11 port).setBit (SKW_STAT p) 14).setFld
        (SKW_STAT p) 15 15 (flag (bit d 10 && s.feat fLANE))
      (s.modSkw p fun x => { x with paramGot := true }).paramDone p

/-- READY received (R298). -/
def State.gotReady (s : State) (p : Nat) : State :=
  if s.skwState p ≠ 3 && s.skwState p ≠ 4 then s
  else (s.modSkw p fun x => { x with readyGot := true }).readyDone p

/-- A report of the adapter to SCHED (R178, R303). -/
def State.skwViolation (s : State) (p : Nat) : State := s.violation 6 (whereSkw p) (s.skwFlows p)

/-- An 8-bit field takes a value, or a free value where it cannot hold it (log 1). -/
def State.setOr (s : State) (a hi lo : Nat) (ok : Bool) (v : Int) : State :=
  if ok then s.setSfld a hi lo v else (s.setFld a hi lo s.freeNow.toNat).drawn

/-- The one-way audit of a good frame (R303). -/
def State.oneWay (s : State) (p : Nat) : State :=
  let x := s.skwOf p
  let a := SKW_TS p
  let t : Int := (x.raw : Int) - x.delta
  let s := s.setOr a 7 0 (0 ≤ t && t ≤ 255) t
  let s := if t < s.fld a 15 8 then s.setOr a 15 8 (0 ≤ t) t else s
  let s := if (s.fld a 23 16 : Int) < t then s.setOr a 23 16 (t ≤ 255) t else s
  let ow := t < 18 || 22 < t
  let ph := 3 < x.delta.natAbs
  let s := if ow then s.pageErr (skwPage p) 4 else s
  let s := if ph then s.pageErr (skwPage p) 5 else s
  let s := if ow && !x.owBad then s.skwViolation p else s
  let s := if ph && !x.phBad then s.skwViolation p else s
  s.modSkw p fun x => { x with owBad := ow, phBad := ph }

/-- TSYNC received (R301 to R303). -/
def State.gotTsync (s : State) (p : Nat) (d : BitVec 64) : State :=
  let st := s.skwState p
  if st < 2 || 5 < st then s
  else
    let x := s.skwOf p
    let rps := s.time.rps
    let mySec := x.stamp / 1024 / max rps 1
    let ds := (BitVec.ofNat 32 mySec - d.extractLsb' 32 32).toInt
    let dr : Int := (x.stamp / 1024 % max rps 1 : Nat) - (getBits d 31 10 : Int)
    let diff : Int := (ds * rps + dr) * 1024 + (x.stamp % 1024 : Nat) - (x.txPos : Int)
    let bad := diff < 0 || 63 < diff
    let s := if bad then s.pageErr (skwPage p) 6 else s
    let s := if bad && !x.stBad then s.skwViolation p else s
    let delta := Int.tdiv ((x.raw : Int) - (getBits d 9 0 : Int)) 2
    let s := s.setOr (SKW_TS p) 31 24 (-128 ≤ delta && delta ≤ 127) delta
    (s.modSkw p fun x => { x with delta := delta, stBad := bad }).oneWay p

/-- LANE_PROP received (R307). -/
def State.gotProp (s : State) (p : Nat) (d : BitVec 64) : State :=
  if s.skwState p ≠ 5 || (s.skwOf p).closing then s else s.skwSay p 5 d

/-- LANE_ACK received (R307). -/
def State.gotAck (s : State) (p : Nat) (d : BitVec 64) : State :=
  let x := s.skwOf p
  match x.step with
  | some (n, b) =>
    if s.skwState p ≠ 5 || x.stepGo || getBits d 6 0 ≠ b || getBits d 31 16 ≠ n % 65536 then s
    else if x.txN + 32 ≤ n then (s.modSkw p fun x => { x with stepGo := true }).skwSay p 6 d
    else s.laneDrop p
  | none => s

/-- LANE_GO received (R307): one that comes by frame n − 4, which is the last frame counted, is followed. -/
def State.gotGo (s : State) (p : Nat) (d : BitVec 64) : State :=
  let x := s.skwOf p
  let ahead := (getBits d 31 16 + 65536 - x.rxN % 65536) % 65536
  if s.skwState p ≠ 5 || 32768 ≤ ahead || ahead < 3 then s
  else s.setSkw p { x with stepRx := some (x.rxN + ahead, getBits d 6 0) }

/-- No LANE_ACK by frame n − 32 (R307). -/
def State.ackDeadline (s : State) (p : Nat) : State :=
  let x := s.skwOf p
  match x.step with
  | some (n, _) => if !x.stepGo && n < x.txN + 32 then s.laneDrop p else s
  | none => s

/-- A rotation step is requested (R306, R310): one at a time, on an ACTIVE link that is not closing. -/
def State.laneStep (s : State) (p : Nat) : State :=
  let x := s.skwOf p
  if s.skwState p ≠ 5 || x.closing || !s.rbit (SKW_STAT p) 15 || x.step.isSome || x.ctl.any (fun c => c.1 = 4) then s
  else
    let (lo, hi) := s.laneRange p
    let b := s.fld (SKW_LANE p) 6 0 + 1
    s.skwSay p 4 (BitVec.ofNat 64 (if b < lo || hi < b then lo else b))

/-- The link closes (R308): the adapter takes no more packets, and the flows through the port are demoted. -/
def State.skwClose (s : State) (p : Nat) : State :=
  let x := s.skwOf p
  if !(s.skwState p = 5 || x.retr) || x.closing then s
  else
    let s := s.laneAbort p
    let s := (s.modSkw p fun x => { x with closing := true }).skwViolation p
    s.flushGran p

/-- Both CLOSE messages have passed (R308). -/
def State.closeDone (s : State) (p : Nat) : State :=
  let x := s.skwOf p
  if x.closeSent && x.closeGot then s.skwDisable p else s

/-- CLOSE received (R308). -/
def State.gotClose (s : State) (p : Nat) : State :=
  if s.skwState p ≠ 5 then s
  else ((s.skwClose p).modSkw p fun x => { x with closeGot := true }).closeDone p

/-- The control message of a frame. -/
def State.gotCtl (s : State) (p ty : Nat) (d : BitVec 64) : State :=
  match ty with
  | 1 => s.gotParam p d | 2 => s.gotReady p | 3 => s.gotTsync p d | 4 => s.gotProp p d | 5 => s.gotAck p d
  | 6 => s.gotGo p d | 7 => s.gotClose p | _ => s

/-! Sending (R290 to R296) -/

/-- What the slots of a frame are filled from. -/
structure Fill where
  slots : List (Option Flit) := []
  cur   : List Flit := []
  sch   : List SkSched := []
  /-- The fc of the scheduled departures that are known. -/
  deps  : List Nat := []
  gran  : List HPkt := []
  cred  : Tbl Nat := []
  last  : Nat := 8
deriving DecidableEq, Repr, Inhabited

/-- The packet with which the next pool in turn may start in fc `t`: it has credits for all its flits, and they all depart
before the next scheduled departure (R291). -/
def Fill.start (f : Fill) (t : Nat) : Option (Nat × HPkt) :=
  (firstFrom ((f.last + 1) % 9) 9 fun i =>
    match f.gran.find? fun h => skPool h.hdr h.sc = i with
    | some h => h.body.length ≤ Tbl.get (fun _ => 0) f.cred i && !f.deps.any (fun d => t ≤ d && d < t + h.body.length)
    | none => false).bind fun i => (f.gran.find? fun h => skPool h.hdr h.sc = i).map fun h => (i, h)

/-- The departure of a scheduled flit that leaves the router of port `p`'s KNI in this fc, where it still has to (R106, R162). -/
def State.leavingNow (s : State) (p : Nat) : Option Nat :=
  let k := Config.niRouter (kniOf p)
  let o := Config.niPort (kniOf p)
  let comes (i : Nat) : Bool := ((s.rtrOf k).bypass i).any (fun y => y.la = o) ||
    (s.linkOf (linkIn k i)).head?.any fun y => y.vc = bypVc && y.due ≤ s.fc && y.la = o
  if (s.rtrOf k).ranFc ≠ s.fc + 1 && (s.slotNow k o).any comes then some (s.fc + 1 + s.depth k o + 4) else none

/-- The scheduled departures of port `p` that are known: of the flits that wait for theirs, of those on the ejection link of
its KNI, four fc after they arrive, and of one that leaves the router in this fc (R162). DEDUCED (log 72): no packet has more
than 8 flits, so these are all that it could meet. -/
def State.departures (s : State) (p : Nat) : List Nat :=
  (s.skwOf p).schOut.map (·.fc) ++ (((s.linkOf (linkNi (kniOf p))).filter fun y => y.vc = bypVc).map fun y => y.due + 4) ++
    (s.leavingNow p).toList

/-- The flit of fc `t`, which maps to slot `j` (R291). -/
def Fill.at (f : Fill) (t j : Nat) (starts : Bool) : Fill :=
  let put (x : Flit) : List (Option Flit) := f.slots.set j (some x)
  if (f.slots.getD j none).isSome then f
  else match f.cur with
    | x :: rest => { f with slots := put x, cur := rest }
    | [] =>
      match f.sch.find? (fun y => y.fc ≤ t) with
      | some y => { f with slots := put y.flit, sch := eraseFirst (· = y) f.sch }
      | none =>
        match (if starts then f.start t else none) with
        | some (i, h) =>
          match ({ hdr := h.hdr, body := h.body } : Pkt).flits with
          | x :: rest => { f with slots := put x, cur := rest, gran := eraseFirst (· = h) f.gran, last := i,
                                  cred := Tbl.upd (fun _ => 0) i (· - h.body.length) f.cred }
          | [] => f
        | none => f

/-- The slot of fc `k` of a frame (R290). -/
def slotOf (k fpf : Nat) : Nat := ceilDiv (12 * k) fpf

/-- The full stamp in fc of the fc `back` before now (R134). -/
def State.stampFc (s : State) (back : Nat) : Nat :=
  (s.time.s.toNat * s.time.rps + s.time.r) * 1024 + s.time.pos - back

/-- FCW without ACK fields, TXPOS and CRC (R288). -/
def mkFcw (svalid fseq : Nat) (cred : Nat → Nat) (ctype : Nat) (cdata : BitVec 64) : BitVec 256 :=
  BitVec.ofNat 256 (svalid + fseq * 2 ^ 12 + ((List.range 9).map fun i => cred i * 2 ^ (40 + 4 * i)).sum +
    ctype * 2 ^ 76 + cdata.toNat * 2 ^ 80)

/-- CDATA of a TSYNC that goes now (R301): the last raw, and r and s of TXPOS. -/
def State.syncData (s : State) (p : Nat) : BitVec 64 :=
  let t := s.stampFc (s.fpf p)
  let rps := max (s.time.rps) 1
  BitVec.ofNat 64 ((s.skwOf p).raw + t / 1024 % rps * 2 ^ 10 + t / 1024 / rps % 2 ^ 32 * 2 ^ 32)

/-- The current ACK fields and TXPOS of a frame (R293). A TSYNC, sent first or again, carries the stamp of that TXPOS
(R301). -/
def State.acked (s : State) (p : Nat) (nak : Bool) (f : Frame) : Frame :=
  let f := if f.ctype = 3 then { f with fcw := putBits f.fcw 143 80 (s.syncData p).toNat } else f
  let w := putBits f.fcw 35 24 ((s.skwOf p).acc.getD 0)
  let w := putBits (putBits w 36 36 (flag (s.skwOf p).acc.isSome)) 37 37 (flag nak)
  ({ f with fcw := putBits w 153 144 (s.stampFc (s.fpf p) % 1024) } : Frame).sealed

/-- The control message that goes with the next new frame; that of a rotation step names its frame only now (R307). -/
def State.ctlNow (s : State) (p : Nat) : Nat × BitVec 64 :=
  let x := s.skwOf p
  match x.ctl with
  | (4, b) :: _ => (4, BitVec.ofNat 64 (b.toNat % 128 + (x.txN + 64) % 65536 * 2 ^ 16))
  | c :: _ => c
  | [] => if x.closing && !x.closeSent && x.txCur.isEmpty && x.schOut.isEmpty && x.schOpen.all (·.2 < s.fc) && x.held.isEmpty && x.again.isEmpty &&
             s.skwState p = 5 then (7, 0) else (0, 0)

/-- What sending a control message does at its sender. -/
def State.ctlSent (s : State) (p ty : Nat) (d : BitVec 64) : State :=
  let s := s.modSkw p fun x => { x with ctl := x.ctl.drop 1 }
  match ty with
  | 1 => (s.modSkw p fun x => { x with paramSent := true }).paramDone p
  | 2 => (s.modSkw p fun x => { x with readySent := true }).readyDone p
  | 4 => s.modSkw p fun x => { x with step := some (x.txN + 64, getBits d 6 0), stepGo := false }
  | 7 => s.modSkw p fun x => { x with closeSent := true }
  | _ => s

/-- Slots, CRED and control message of a new frame, and what they take from the KNI. -/
def State.newFrame (s : State) (p : Nat) : State × Frame :=
  let n := kniOf p
  let x := s.skwOf p
  let st := s.skwState p
  let fpf := s.fpf p
  let t0 := s.fc - fpf
  let fill : Fill := { slots := List.replicate 12 none, cur := x.txCur, sch := x.schOut, deps := s.departures p, gran := (s.niOf n).gran, cred := x.cred,
                       last := x.lastPool }
  let fill := if st = 5 then (List.range fpf).foldl (fun f k =>
      if slotOf k fpf < 12 then f.at (t0 + k) (slotOf k fpf) (!x.closing) else f) fill else fill
  let give (i : Nat) : Nat := if 4 ≤ st then min (Tbl.get (fun _ => 0) x.owed i) 15 else 0
  let (ty, d) := s.ctlNow p
  let s := (s.modNi n fun y => { y with gran := fill.gran }).setSkw p
    { x with txCur := fill.cur, schOut := fill.sch, cred := fill.cred, lastPool := fill.last,
             owed := (List.range 9).foldl (fun o i => Tbl.upd (fun _ => 0) i (· - give i) o) x.owed }
  let sv := ((List.range 12).map fun j => if (fill.slots.getD j none).isSome then 2 ^ j else 0).sum
  let f : Frame := { slots := fill.slots, fcw := mkFcw sv x.fseq give ty d }
  let s := if ty = 0 then s else s.ctlSent p ty d
  let s := if s.skwState p = 4 && (s.skwOf p).owed.isEmpty && !(s.skwOf p).readySent && !(s.skwOf p).ctl.any (fun c => c.1 = 2)
    then s.skwSay p 2 0 else s
  (s, f)

/-- A frame leaves the port: it is counted, and a rotation step whose frame it is takes effect (R307). -/
def State.frameOut (s : State) (p : Nat) (f : Frame) : State :=
  let s := s.modSkw p fun x => { x with txApply := false }
  let x := s.skwOf p
  let s := match x.step with
    | some (n, b) =>
      if x.stepGo && x.txN = n then
        ((s.setFld (SKW_LANE p) 6 0 b).wrapFld (SKW_LANE_STAT p) 15 0 1).modSkw p fun x =>
          { x with step := none, stepGo := false, txApply := true }
      else s
    | none => s
  s.modSkw p fun x => { x with out := some f, txN := x.txN + 1, frameFc := s.fc }

/-- An empty frame (R293). -/
def State.emptyFrame (s : State) (p : Nat) : Frame :=
  { slots := List.replicate 12 none, fcw := mkFcw 0 (((s.skwOf p).fseq + 4095) % 4096) (fun _ => 0) 0 0 }

/-- The frame of the F fc that end now is sent (R290 to R295). While 32 loaded frames are held, in ALIGN and in FROZEN
only empty frames are sent; the PARAM of a RETRAIN goes in any case. -/
def State.frameSend (s : State) (p : Nat) : State :=
  let st := s.skwState p
  let x := s.skwOf p
  if !s.skwRuns p || st < 2 || 5 < st || s.fc < x.frameFc + s.fpf p then s else
  let nak := x.nakDue && (x.nakFc = 0 || x.nakFc + 255 ≤ s.fc)
  let s := s.setSkw p { x with nakDue := false, nakFc := if nak then s.fc + 1 else x.nakFc }
  let idle := s.mode = .frozen || st = 2
  match x.again with
  | q :: rest =>
    match (if idle || (x.retr && st ≠ 5) then none else x.held.find? fun k => k.fseq = q) with
    | some k =>
      let f := s.acked p nak k.frame
      let s := s.modSkw p fun x => { x with again := rest, held := x.held.map fun h => if h.fseq = q then { h with fc := s.fc } else h }
      (s.countN (kniOf p) 0x39 1 unfiltered).frameOut p f
    | none =>
      if x.retr && st = 3 && !idle then
        let (s, f) := s.newFrame p
        let s := s.modSkw p fun y => { y with fseq := (y.fseq + 1) % 4096, held := y.held ++ [{ fseq := x.fseq, fc := s.fc, frame := f }] }
        s.frameOut p (s.acked p nak f)
      else s.frameOut p (s.acked p nak (s.emptyFrame p))
  | [] =>
    if idle || (32 ≤ x.held.length && !(x.retr && st = 3)) then s.frameOut p (s.acked p nak (s.emptyFrame p))
    else
      let (s', f) := s.newFrame p
      if f.loaded then
        let s' := s'.modSkw p fun y =>
          { y with fseq := (y.fseq + 1) % 4096, held := y.held ++ [{ fseq := x.fseq, fc := s.fc, frame := f }] }
        let s' := s'.frameOut p (s'.acked p nak f)
        if f.ctype = 7 then s'.closeDone p else s'
      else s'.frameOut p (s'.acked p nak (s'.emptyFrame p))

/-- A replay begins (R295): for a NAK, or when the oldest held frame has been held for 256 fc. -/
def State.skwReplay (s : State) (p : Nat) : State :=
  let x := s.skwOf p
  let st := s.skwState p
  let old := match x.held with | k :: _ => decide (k.fc + 256 ≤ s.fc) | [] => false
  if !s.skwRuns p || !(x.nakGot || old) || !(st = 5 || (!x.retr && (st = 3 || st = 4))) || s.mode = .frozen then s
  else if x.held.isEmpty then s.setSkw p { x with nakGot := false }
  else
    let s := s.setSkw p { x with nakGot := false, again := x.held.map (·.fseq), replays := x.replays + 1 }
    let s := (s.satFld (SKW_REPLAY p) 7 0 1).pageErr (skwPage p) 1
    if s.fld (SKW_CFG p) 15 12 ≤ x.replays + 1 then s.skwRetrain p else s

/-! Receiving (R294, R296, R301) -/

/-- The frames up to ASEQ are acknowledged (R295). -/
def State.freeHeld (s : State) (p aseq : Nat) : State :=
  let x := s.skwOf p
  if !x.held.any (fun k => k.fseq = aseq) then s
  else
    let rest := (x.held.dropWhile fun k => k.fseq ≠ aseq).drop 1
    s.setSkw p { x with held := rest, again := x.again.filter fun q => rest.any fun k => k.fseq = q, replays := 0, trains := 0 }

/-- The credits of a frame; none when one would exceed the peer's pool (R296). Until READY they make the pool's size
known. -/
def Skw.takeCred (x : Skw) (f : Frame) : Option Skw :=
  let cred := (List.range 9).foldl (fun c i => Tbl.upd (fun _ => 0) i (· + f.credit i) c) x.cred
  let init := !x.readyGot && !x.retr
  let peer := if init then (List.range 9).foldl (fun c i => Tbl.upd (fun _ => 0) i (· + f.credit i) c) x.peer else x.peer
  if (List.range 9).any fun i => Tbl.get (fun _ => 0) peer i < Tbl.get (fun _ => 0) cred i && f.credit i ≠ 0 then none
  else some { x with cred := cred, peer := peer }

/-- The fc of a frame that maps to slot `j`: the inverse of R290. -/
def fcOfSlot (j fpf : Nat) : Nat := j * fpf / 12

/-- A loaded frame taken in order: credits, control message, and slots, which are released spaced as they were sent, after
SKW_CFG.rx_hold (R292). -/
def State.takeFrame (s : State) (p : Nat) (f : Frame) : State :=
  let x := { s.skwOf p with acc := some f.fseq }
  match x.takeCred f with
  | none => ((s.setSkw p x).pageErr (skwPage p) 8).skwFault p 7
  | some x =>
    let t := s.fc + s.fld (SKW_CFG p) 8 4
    let new : List SkSlot := ((List.range 12).filter f.svalid.testBit).map fun j =>
      { fc := t + fcOfSlot j (s.fpf p), pa := (f.txpos + fcOfSlot j (s.fpf p)) % 1024, flit := (f.slots.getD j none).getD {} }
    ((s.setSkw p { x with rxq := x.rxq ++ new }).releaseSlots p).gotCtl p f.ctype f.cdata

/-- A further frame at a word alignment of ALIGN: each of the ten is kept for 64 frames (R298). -/
def Skw.nextAlign (x : Skw) : Skw :=
  if 64 ≤ x.alignN then { x with align := (x.align + 1) % 10, alignN := 1, good := 0 } else { x with alignN := x.alignN + 1 }

/-- A frame is received (R294): counted, checked, and taken. RXPOS is the position of the fc in which its slot 0 is
released (R301). -/
def State.frameReceive (s : State) (p : Nat) (f : Frame) : State :=
  let st := s.skwState p
  if !s.skwRuns p || st < 2 || 5 < st then s else
  let x := s.skwOf p
  let s := match x.stepRx with
    | some (n, b) => if x.rxN = n then (s.setFld (SKW_LANE p) 14 8 b).modSkw p fun x => { x with stepRx := none } else s
    | none => s
  let s := s.modSkw p fun y => { (if st = 2 then y.nextAlign else y) with
    rxN := y.rxN + 1, rxApply := x.stepRx.any fun q => q.1 = x.rxN }
  if !f.good then
    ((s.satFld (SKW_REPLAY p) 15 8 1).pageErr (skwPage p) 0).modSkw p fun x => { x with nakDue := true, good := 0 }
  else
    let hold := s.fld (SKW_CFG p) 8 4
    let raw := (s.rotPos + hold + 1024 - f.txpos) % 1024
    let s := s.modSkw p fun x => { x with raw := raw, txPos := f.txpos, stamp := s.stampFc 0 + hold, nakGot := x.nakGot || f.nak,
                                          good := x.good + 1 }
    let s := if f.aval then s.freeHeld p f.aseq else s
    let s := s.oneWay p
    let next := match (s.skwOf p).acc with | some a => (a + 1) % 4096 | none => 0
    let s := if !f.loaded then s
      else if f.fseq = next then s.takeFrame p f
      else
        let s := s.modSkw p fun x => { x with nakDue := true }
        if f.ctype = 1 && (s.skwOf p).retr then s.gotParam p f.cdata else s
    if s.skwState p = 2 && 16 ≤ (s.skwOf p).good then ((s.setSkwState p 3).skwSay p 1 (s.paramData p)).paramDone p else s

/-! The PHY and the registers -/

/-- The PHY reports the link up (R298). -/
def State.linkUp (s : State) (p : Nat) : State :=
  if s.skwState p ≠ 1 || !s.skwRuns p then s
  else (s.setSkwState p 2).modSkw p fun x => { x with txN := 0, rxN := 0, good := 0, align := 0, alignN := 0, frameFc := s.fc }

/-- The link is lost in ACTIVE (R298). -/
def State.linkLoss (s : State) (p : Nat) : State := if s.skwRuns p then s.skwRetrain p else s

/-- A training state has lasted `us` µs (R298). -/
def State.trainTimeout (s : State) (p st us code : Nat) : State :=
  if s.skwRuns p && s.mode ≠ .frozen && s.skwState p = st && (s.skwOf p).since + us * s.fclkMHz ≤ s.fc then s.skwFault p code
  else s

/-- A write of SKW_CTRL (R298, R308, R311). -/
def State.skwCtrl (s : State) (p : Nat) (v : Word) : State :=
  let s := s.setFld (SKW_CTRL p) 0 0 (flag (bit v 0))
  if !bit v 0 then s.skwDisable p
  else
    let s := s.skwStart p
    let s := if bit v 1 then s.skwRetrain p else s
    if bit v 2 then s.skwClose p else s

/-- A write of SKW_TS_CLR (R311). -/
def State.tsClr (s : State) (p : Nat) : State := (s.setFld (SKW_TS p) 15 8 0xFF).setFld (SKW_TS p) 23 16 0

/-- What an accepted PPS edge with second `sec` does at a port (R302, R306, R310). -/
def State.skwPps (s : State) (p sec : Nat) : State :=
  if s.skwState p ≠ 5 then s
  else
    let s := s.saySync p
    let period := s.fld (SKW_LANE_SCH p) 11 0
    if s.rbit (SKW_LANE_SCH p) 24 && period ≠ 0 && sec % period = s.fld (SKW_LANE_SCH p) 23 12 then s.laneStep p else s

/-- A PPS edge (R131 to R137, R302, R306): the TIME block, then the ports. No edge is seen while TCLK has stopped. DESIGN
CHOICE (log 131): none is seen in mode FUSE, where fabric time already counts; the spec does not say. -/
def State.pps (s : State) : State :=
  if s.held = some .cold || s.mode = .off || s.mode = .fuse || s.rbit CLK_STAT 2 then s else
  let (s, ok) := s.ppsTime
  if !ok then s
  else
    let sec := ((s.time.lastC.map nearSec).getD 0)
    forN 6 (fun p s => s.skwPps p sec) (s.countG 0x68 8 1)

/-! Commands -/

/-- PPS_EDGE (R131). -/
def execPpsEdge (s : State) : Out := .next s.pps
/-- SKW_LINK_UP (R298). -/
def execSkwLinkUp (p : Fin 6) (s : State) : Out := .next (s.linkUp p)
/-- SKW_LINK_LOSS (R298). -/
def execSkwLinkLoss (p : Fin 6) (s : State) : Out := .next (s.linkLoss p)
/-- SKW_PHY_TRAIN_TIMEOUT (R298). -/
def execSkwPhyTrainTimeout (p : Fin 6) (s : State) : Out := .next (s.trainTimeout p 1 10000 1)
/-- SKW_ALIGN_TIMEOUT (R298). -/
def execSkwAlignTimeout (p : Fin 6) (s : State) : Out := .next (s.trainTimeout p 2 1000 2)
/-- SKW_FRAME_SEND (R291). -/
def execSkwFrameSend (p : Fin 6) (s : State) : Out := .next (s.frameSend p)
/-- SKW_FRAME_RECEIVE (R294). -/
def execSkwFrameReceive (p : Fin 6) (f : Frame) (s : State) : Out := .next (s.frameReceive p f)
/-- SKW_REPLAY (R295). -/
def execSkwReplay (p : Fin 6) (s : State) : Out := .next (s.skwReplay p)
/-- PARAM (R299). -/
def execParam (p : Fin 6) (d : BitVec 64) (s : State) : Out := .next (s.gotParam p d)
/-- READY (R298). -/
def execReady (p : Fin 6) (s : State) : Out := .next (s.gotReady p)
/-- TSYNC (R302). -/
def execTsync (p : Fin 6) (d : BitVec 64) (s : State) : Out := .next (s.gotTsync p d)
/-- LANE_PROP (R307). -/
def execLaneProp (p : Fin 6) (d : BitVec 64) (s : State) : Out := .next (s.gotProp p d)
/-- LANE_ACK (R307). -/
def execLaneAck (p : Fin 6) (d : BitVec 64) (s : State) : Out := .next (s.gotAck p d)
/-- LANE_GO (R307). -/
def execLaneGo (p : Fin 6) (d : BitVec 64) (s : State) : Out := .next (s.gotGo p d)
/-- LANE_ACK_DEADLINE (R307). -/
def execLaneAckDeadline (p : Fin 6) (s : State) : Out := .next (s.ackDeadline p)
/-- CLOSE (R308). -/
def execClose (p : Fin 6) (s : State) : Out := .next (s.gotClose p)

end Sys2Proof.Machine
end

