-- ==== Sys2Proof/Machine/Part.lean ====
section
/-! DEFINITION. Partitions (R333 to R353): the operations of PART_CTRL, the checks of OPEN, drains and squashes, and the
save image. -/

namespace Sys2Proof.Machine

/-! Queue descriptors (R184, R190) -/

/-- The weighted group of NI `n` with the weight of descriptor `q` taken as `w` (R190). -/
def State.groupSum (s : State) (n q w : Nat) : Nat :=
  let strict := min (s.fld (INJ_CTRL n) 2 0) 4
  ((List.range (s.qCount n)).map fun j =>
    if j < strict then 0 else if s.qDesc n j = q then w else s.weight n j).sum

/-- A write of word `w` of descriptor `q`: one that would raise a group's weights above 256 is ignored. -/
def State.queueWrite (s : State) (q w : Nat) (v : Word) : State :=
  match w with
  | 0 => s.wr (QD q 0) (v &&& 0x8003FF7F)
  | 1 =>
    let wt := getBits v 8 0
    let past (n : Nat) : Bool := s.groupSum n q (s.fld (QD q 1) 8 0) < s.groupSum n q wt && 256 < s.groupSum n q wt
    match (List.range 81).filter past with
    | [] => s.wr (QD q 1) (v &&& 0x03FF01FF)
    | l => l.foldl (fun s n => s.injErr n 0) s
  | _ => s

/-! The operations (R339) -/

/-- The state of a partition replaced (R338). -/
def State.setPartState (s : State) (p st : Nat) : State := s.setFld (PART_STAT p) 2 0 st
def State.partBusy (s : State) (p : Nat) : Bool := s.rbit (PART_STAT p) 3

/-- A code written to PART_STAT.err (R340). -/
def State.partErr (s : State) (p code : Nat) : State := (s.setFld (PART_STAT p) 11 8 code).setBit (PART_STAT p) 12

/-- A refused op (R339). -/
def State.partRefuse (s : State) (p code : Nat) : State := (s.partErr p code).pageErr (partPage p) 1

/-- An operation begins. -/
def State.opBegin (s : State) (p op : Nat) : State :=
  ((s.setBit (PART_STAT p) 3).setFld (PART_STAT p) 19 16 op).modPart p fun x => { x with op := op, opMc := s.mc + 1 }

/-- The operation ends. -/
def State.opEnd (s : State) (p : Nat) : State :=
  (((s.clrBit (PART_STAT p) 3).setBit (PART_STAT p) 13).pageIrq (partPage p) 0).modPart p fun x => { x with op := 0 }

/-- The operation is refused by one of its checks, and ends with the code and the place where it failed (R339, R340, R353). -/
def State.opFail (s : State) (p code value pool bank : Nat) : State :=
  (((s.partRefuse p code).setFld (PART_WHERE p) 23 0 value).setFld (PART_WHERE p) 26 24 pool).setFld (PART_WHERE p) 29 27 bank |>.opEnd p

/-- The state that op `o` is accepted in, where R339 names one, two or more. -/
def opStates : Nat → List Nat
  | 1 => [0] | 2 => [1] | 3 => [2] | 4 => [4] | 5 => [2, 4] | 6 => [2, 4, 3, 5] | 7 => [1] | 8 => [4] | 9 => [1] | _ => []

/-- The code with which a non-zero op is refused (R339, R340, R344); none when it is accepted. Of two ops that one page gets
in an mc the second is refused with BUSY even when the first has ended, unless it is RESET_SQUASH after another op (R351,
R461). -/
def State.opRefusal (s : State) (p op : Nat) : Option Nat :=
  let x := s.partOf p
  if s.partBusy p && !(op = 6 && (x.op = 3 || x.op = 5)) then some 1
  else if x.opMc = s.mc + 1 && !(op = 6 && s.fld (PART_STAT p) 19 16 ≠ 6) then some 1
  else if !(opStates op).contains (s.partState p) then some 2
  else if (op = 8 || op = 9) && !s.feat fMIGRATE then some 7
  else none

/-! What a partition holds at the NIs -/

/-- The NIs whose requests belong to partitions: PNIs and SNIs; those of MNIs are privileged (R338). -/
def partNis : List Nat := List.range 76

/-- A request of partition `p` that the operations of R341 to R344 concern. -/
def ofPart (p : Nat) (h : BitVec 128) : Bool := (hPart h).toNat = p && !privileged (hSrc h)

/-- A request of `p` in NI `n`'s Granary that has not been offered (R341). -/
def Ni.unoffered (x : Ni) (p : Nat) : Bool :=
  x.gran.any (fun h => h.offered = 0 && ofPart p h.hdr && !roomless 0 h.hdr h.sc) ||
  (x.schAsm ++ x.asm.flatMap (·.2)).any fun a =>
    a.admitted && !a.discard && a.code = OK && ofPart p a.hdr && !roomless 0 a.hdr (a.body.headD (0, 0)).1

/-- No Granary of the die, of a KNI among them, holds an unoffered request of `p` (R110). -/
def State.granClear (s : State) (p : Nat) : Bool := (List.range 87).all fun n => !(s.niOf n).unoffered p

/-- Whether a Ledger entry of a PNI or SNI that satisfies `q` belongs to `p`. -/
def State.anyEntry (s : State) (p : Nat) (q : LEntry → Bool) : Bool :=
  partNis.any fun n => (s.niOf n).ledger.any fun (_, e) => e.part.toNat = p && q e

/-- Step 4 of R341 at NI `n`. -/
def State.partClear (s : State) (n p : Nat) : State :=
  let s := s.modNi n fun x => x.clearMons fun m => m.part.toNat = p
  if 76 ≤ n && n < 80 then s else
  let own := (s.niOf n).own.filter fun o => o.part.toNat = p
  let s := own.foldl (fun s o => s.rsvClr n o) s
  s.modNi n fun x => { x with own := x.own.filter fun o => o.part.toNat ≠ p,
                              backoff := x.backoff.filter fun b => b.part.toNat ≠ p,
                              holds := x.holds.map fun h => if h.part.toNat = p then { h with hold := false } else h }

/-- Step 4 of R341 on the die. -/
def State.partClearAll (s : State) (p : Nat) : State := forN 81 (fun n s => s.partClear n p) s

/-- The write-combining lines of `p` close and drain (R221, R341). -/
def State.partLines (s : State) (p : Nat) : State :=
  partNis.foldl (fun s n => s.modNi n fun x => x.closeLines s.fc fun l => l.part.toNat = p) s

/-- A drain of `p` starts (R341). -/
def State.drainStart (s : State) (p st : Nat) : State := (s.setPartState p st).partLines p

/-- A drain of `p` has completed (R341). -/
def State.drainDone (s : State) (p : Nat) : State :=
  let st := s.partState p
  if st ≠ 3 && st ≠ 5 then s
  else if s.anyEntry p LEntry.isOpen || !s.granClear p then s
  else
    let s := s.partClearAll p
    if st = 3 then ((s.setPartState p 4).modPart p fun x => { x with frozenT := s.time.now }).opEnd p
    else (s.setPartState p 1).opEnd p

/-! Squash (R342, R343) -/

/-- Entry `k` of NI `n` ends with SQUASH: its queued parts are discarded, its unit is answered, and an injected entry is
retained. -/
def State.squashEntry (s : State) (n k p : Nat) : State :=
  let e := (s.niOf n).led k
  let s := s.modNi n fun x =>
    let x := x.dropItems k
    { x with wcb := x.wcb.filter fun l => tagKey l.tag ≠ k,
             burst := x.burst.map fun (c, w, l) => (c, w.filter fun t => tagKey t.1 ≠ k, l) }
  let s := s.endUnit n k SQUASH
  let s := s.modNi n fun x => (x.modLed k fun e => { e with st := .failed, code := SQUASH, retryAt := none }).barNote e SQUASH
  let s := s.countEnd n k
  let s := s.ledgerJ n k (if e.injected then kENDED else kSOURCE) SQUASH (if e.injected then ((s.niOf n).led k).ok else 0)
  let s := s.satFld (PART_SQ_CNT p) 15 0 1
  if e.parts.any (·.open_) then s.modLed n k fun e => { e with retained := true }
  else s.modNi n fun x => x.freeEntry k

/-- The requests of `p` that NI `n` holds and has not offered are discarded (R338, R342); those still on a VC leave it flit
by flit. -/
def State.squashGran (s : State) (n p : Nat) : State :=
  let x := s.niOf n
  let hit (h : HPkt) : Bool := h.offered = 0 && ofPart p h.hdr && !roomless 0 h.hdr h.sc
  let mine (a : Asm) : Bool :=
    !a.discard && a.code = OK && ofPart p a.hdr && !roomless 0 a.hdr (a.body.headD (0, 0)).1 && (n < 81 || a.admitted)
  let late (a : Asm) : Asm := if !mine a then a else if a.pkt.isSome then a.ended else { a with code := SQUASH }
  let s := s.setNi n { x with gran := x.gran.filter fun h => !hit h,
                              asm := Tbl.mapWith (fun _ => []) (fun _ l => l.map late) x.asm, schAsm := x.schAsm.map late }
  let whole := x.asm.flatMap fun l => (l.2.filter mine).filterMap (·.pkt)
  (x.gran.filter hit ++ whole).foldl (fun s h => s.closedAt n h.hdr h.sc SQUASH false) s

/-- The squash ends when nothing of `p` is retained or unoffered (R343). -/
def State.squashDone (s : State) (p : Nat) : State :=
  if s.partState p ≠ 6 || s.anyEntry p (fun e => e.retained) || !s.granClear p then s
  else (s.setPartState p 1).opEnd p

/-- RESET_SQUASH of `p` (R342). -/
def State.squash (s : State) (p : Nat) : State :=
  let s := (s.setPartState p 6).wr (PART_SQ_CNT p) 0
  let s := partNis.foldl (fun s n =>
    ((s.niOf n).ledger.filter fun (_, e) => e.part.toNat = p && e.isOpen && e.owner.ofPart).foldl (fun s (k, _) => s.squashEntry n k p) s) s
  let s := forN 87 (fun n s => s.squashGran n p) s
  s.partClearAll p

/-! OPEN (R334, R340) -/

/-- The pools of a partition: pool, bank, base, count and size. -/
def State.partRanges (s : State) (p : Nat) : List (Nat × Nat × Nat × Nat × Nat) :=
  let r (pool bank a bhi clo chi size : Nat) : Nat × Nat × Nat × Nat × Nat := (pool, bank, s.fld a bhi 0, s.fld a chi clo, size)
  [r 0 0 (PART_Q p) 13 16 30 16384, r 1 0 (PART_RULE p) 12 16 29 8192] ++
  (List.range 8).map (fun c => r 2 c (PART_RS p c) 13 16 30 16384) ++
  [r 3 0 (PART_FLOW p) 11 16 28 4096, r 5 0 (PART_CSET p) 7 16 23 159]

/-- The range of a pool of `p`: base and count. -/
def State.partRange (s : State) (p pool bank : Nat) : Nat × Nat :=
  match (s.partRanges p).find? fun r => r.1 = pool && r.2.1 = bank with
  | some r => (r.2.2.1, r.2.2.2.1)
  | none => (0, 0)

/-- The first index at which a range of `p` overlaps one of a partition that is not FREE (R334). -/
def State.openOverlap (s : State) (p : Nat) : Option (Nat × Nat × Nat) :=
  let others := ((List.range 512).filter fun q => q ≠ p && s.partState q ≠ 0).map s.partRanges
  (s.partRanges p).findSome? fun (pool, bank, b, c, _) =>
    let hits := others.filterMap fun rs => (rs.find? fun r => r.1 = pool && r.2.1 = bank).bind fun (_, _, b', c', _) =>
      if 0 < c && 0 < c' && b < b' + c' && b' < b + c then some (max b b') else none
    hits.min?.map fun i => (i, pool, bank)

/-- The first index of a range that runs past its pool. -/
def State.openRange (s : State) (p : Nat) : Option (Nat × Nat × Nat) :=
  (s.partRanges p).findSome? fun (pool, bank, b, c, size) => if size < b + c then some (max b size, pool, bank) else none

/-- The queue descriptors of `p`, by index. -/
def State.partDescs (s : State) (p : Nat) : List Nat :=
  s.regs.filterMap fun (a, v) =>
    if 0x2C00000 ≤ a && a < 0x2C40000 && a % 16 = 0 && bit v 31 && !bit v 17 && getBits v 16 8 = p then some ((a - 0x2C00000) / 16) else none

/-- The objects of `p` by pool and bank (R334). -/
def State.partObjects (s : State) (p : Nat) : List (Nat × Nat × List Nat) :=
  let rule (x : BitVec 144) : Bool := match (readEntry x).1 with
    | some e => getBits e 127 126 = 1 && !bit e 120 && getBits e 119 111 = p
    | none => false
  let leaf (x : BitVec 144) : Bool := match (readEntry x).1 with
    | some e => getBits e 127 126 = 1 && getBits e 125 123 = 0 && getBits e 95 87 = p
    | none => false
  [(0, 0, s.partDescs p), (1, 0, (s.rules.ent.filter fun e => rule e.2).map (·.1))] ++
  (List.range 8).map (fun c => (2, c, ((s.bankOf c).ent.filter fun e => leaf e.2).map (·.1))) ++
  [(3, 0, s.flowsWhere fun c => (fcPart c).toNat = p)]

/-- The first failure of the checks of OPEN: its code, index, pool and bank. -/
def State.openBad (s : State) (p : Nat) : Option (Nat × Nat × Nat × Nat) :=
  let c (code : Nat) (o : Option (Nat × Nat × Nat)) : Option (Nat × Nat × Nat × Nat) := o.map fun (i, pool, bank) => (code, i, pool, bank)
  (c 3 (s.openOverlap p)) <|> (c 4 (s.openRange p)) <|>
  (c 5 (((s.partDescs p).find? fun q => let n := s.fld (QD q 0) 6 0
      76 ≤ n || !s.member n p).map fun q => (q, 0, 0))) <|>
  (c 6 ((s.partObjects p).findSome? fun (pool, bank, l) =>
    let (b, k) := s.partRange p pool bank
    (l.find? fun i => i < b || b + k ≤ i).map fun i => (i, pool, bank)))

/-- The scan of OPEN ends (R340). -/
def State.openDone (s : State) (p : Nat) : State :=
  if (s.partOf p).op ≠ 2 then s
  else match s.openBad p with
    | none => (s.setPartState p 2).opEnd p
    | some (code, i, pool, bank) => s.opFail p code i pool bank

/-! The save image (R346, R347) -/

/-- The members of `p` in ascending order. -/
def State.members (s : State) (p : Nat) : List Nat := partNis.filter fun n => s.member n p

/-- A section of an image: its type, its record count and its bytes. -/
abbrev Sect := Nat × Nat × List (BitVec 8)

/-- The sections of the image of `p`. -/
def State.saveSections (s : State) (p : Nat) : List Sect :=
  let (qb, qc) := s.partRange p 0 0
  let (rb, rc) := s.partRange p 1 0
  let (cb, cc) := s.partRange p 5 0
  let ms := s.members p
  let rs := (List.range 8).map fun c => s.partRange p 2 c
  let info := leBytes 2 qc ++ leBytes 2 rc ++ leBytes 1 cc ++ leBytes 1 ms.length ++ leBytes 2 0 ++
    leBytes 4 (s.rd (PART_SHARE p)).toNat ++ leBytes 4 0 ++ (rs.map fun r => leBytes 2 r.1).flatten ++ (rs.map fun r => leBytes 2 r.2).flatten
  let qs := (List.range qc).filter fun i => s.rbit (QD (qb + i) 0) 31
  let q (i : Nat) : List (BitVec 8) := leBytes 2 i ++ leBytes 2 0 ++ leBytes 4 (s.rd (QD (qb + i) 0)).toNat ++
    leBytes 4 (s.rd (QD (qb + i) 1)).toNat ++ leBytes 4 (s.rd (QD (qb + i) 3)).toNat
  let ent (x : BitVec 144) : Nat := ((readEntry x).1.getD (x.extractLsb' 0 128)).toNat
  let rules := (s.rules.ent.filter fun e => rb ≤ e.1 && e.1 < rb + rc && ent e.2 / 2 ^ 126 = 1).map fun e =>
    leBytes 2 (e.1 - rb) ++ leBytes 2 0 ++ leBytes 16 (ent e.2)
  let routes := ((List.range 8).map fun c => let (b, k) := s.partRange p 2 c
    ((s.bankOf c).ent.filter fun e => b ≤ e.1 && e.1 < b + k && ent e.2 / 2 ^ 126 ≠ 0).map fun e =>
      leBytes 1 c ++ leBytes 1 0 ++ leBytes 2 (e.1 - b) ++ leBytes 4 0 ++ leBytes 16 (ent e.2)).flatten
  let cnts := ((List.range cc).map fun i => (List.range 8).map fun j => let k := 8 * (cb + i) + j
    leBytes 2 i ++ leBytes 1 j ++ leBytes 1 (flag (s.rbit (CNT k 3) 0)) ++ leBytes 4 0 ++ leBytes 8 (s.cntVal k)).flatten
  let sec (ty : Nat) (l : List (List (BitVec 8))) : Sect := (ty, l.length, l.flatten)
  [sec 1 [info], sec 2 (ms.map fun n => leBytes 4 n), sec 3 (qs.map q), sec 4 rules] ++
  (if s.rbit (PART_CTRL p) 5 then [sec 5 routes] else []) ++ [sec 6 cnts]

/-- The whole image of `p`: header, directory, sections, CRC. -/
def State.saveImage (s : State) (p : Nat) : List (BitVec 8) :=
  let secs := s.saveSections p
  let start := 64 + 16 * secs.length
  let dir := (secs.foldl (fun (o : Nat × List (BitVec 8)) c => (o.1 + c.2.2.length,
      o.2 ++ leBytes 2 c.1 ++ leBytes 2 0 ++ leBytes 4 o.1 ++ leBytes 4 c.2.2.length ++ leBytes 4 c.2.1)) (start, [])).2
  let body := dir ++ (secs.map fun c => c.2.2).flatten
  let t := (s.partOf p).frozenT.toNat
  let head := leBytes 4 0x5653424F ++ leBytes 2 1 ++ leBytes 2 64 ++ leBytes 4 (s.rd 0x004).toNat ++ leBytes 1 s.die ++
    leBytes 1 (flag (s.rbit (PART_CTRL p) 5)) ++ leBytes 2 p ++ leBytes 8 (t / 2 ^ 32) ++ leBytes 2 (t / 65536 % 65536) ++ leBytes 2 0 ++
    leBytes 4 (64 + body.length + 4) ++ leBytes 2 secs.length ++ leBytes 2 0 ++ leBytes 4 64 ++ leBytes 24 0
  let all := head ++ body
  all ++ leBytes 4 (crc32c all)

/-- Where PART_IO_LO and PART_IO_HI point (R346). -/
def State.imgAddr (s : State) (p : Nat) : Nat := s.fld (PART_IO_HI p) 19 0 * 2 ^ 32 + s.fld (PART_IO_LO p) 31 3 * 8

/-- The transfer of an image takes its Ledger entry at the MNI that PART_IO_CFG names, if one is free (R442). -/
def State.imgEntry (s : State) (p : Nat) (write : Bool) : State :=
  match (s.partOf p).entry with
  | some _ => s
  | none =>
    let n := 76 + s.fld (PART_IO_CFG p) 1 0
    match s.memOpen n (.image p) write (s.partOf p).io with
    | some (k, s) => s.modPart p fun x => { x with entry := some (n, k) }
    | none => s

/-- A transfer of an image begins at the address that PART_IO has now (R473). A SAVE that will end with SPACE makes no access
(R346). -/
def State.imgStart (s : State) (p : Nat) (write : Bool) : State :=
  let s := s.modPart p fun x => { x with io := s.imgAddr p }
  if write && s.fld (PART_IO_MAX p) 23 0 < (s.saveImage p).length then s else s.imgEntry p write

/-- The transfer is over: its Ledger entry ends with its code. -/
def State.imgOver (s : State) (p : Nat) (code : Code) : State :=
  let s := match (s.partOf p).entry with | some (n, k) => s.memClose n k (.image p) code | none => s
  s.modPart p fun x => { x with entry := none }

/-- SAVE ends (R346), with the code of a write that failed. The initiator check of the MNI ends it at the first byte that is
not permitted (R322); an image whose writes fail otherwise fails at an offset the spec does not give (log 1). While no
Ledger entry is free the image waits (R442). -/
def State.saveDone (s : State) (p : Nat) (xcode : Code) : State :=
  if (s.partOf p).op ≠ 8 || !codeOk xcode then s else
  let img := s.saveImage p
  let max := s.fld (PART_IO_MAX p) 23 0
  if max < img.length then (s.imgOver p OK).opFail p 0xD max 4 0
  else
    let s := s.imgEntry p true
    match (s.partOf p).entry with
    | none => s
    | some (n, _) =>
      let (s, k, fail) := s.memCheck n true (s.partOf p).io img.length
      let code := if fail = OK then xcode else fail
      let s := s.imgOver p code
      if fail ≠ OK then (s.setFld (PART_IO_STAT p) 7 0 fail.toNat).opFail p 8 k 4 0
      else if xcode ≠ OK then
        ((s.setFld (PART_IO_STAT p) 7 0 xcode.toNat).opFail p 8 s.freeNow.toNat 4 0).drawn
      else ((s.setFld (PART_IO_LEN p) 23 0 img.length).modPart p fun x => { x with image := img }).opEnd p

/-! RESTORE (R348, R349) -/

/-- The record size of a section of a save image. -/
def saveRec : Nat → Nat
  | 1 => 48 | 2 => 4 | 3 => 16 | 4 => 20 | 5 => 24 | _ => 16

/-- The directory of a save image: type, offset, length, records, with the offset of each entry. -/
def saveDir (img : List (BitVec 8)) : List (Nat × Nat × Nat × Nat × Nat) :=
  (List.range (imgNat img 0x20 2)).map fun i =>
    let a := imgNat img 0x24 4 + 16 * i
    (a, imgNat img a 2, imgNat img (a + 4) 4, imgNat img (a + 8) 4, imgNat img (a + 12) 4)

/-- The offsets of the records of a section. -/
def saveRecs (img : List (BitVec 8)) (ty : Nat) : List Nat :=
  match (saveDir img).find? fun d => d.2.1 = ty with
  | some (_, _, o, _, n) => (List.range n).map fun i => o + i * saveRec ty
  | none => []

/-- The offset of INFO. -/
def saveInfo (img : List (BitVec 8)) : Nat := ((saveRecs img 1).head?).getD 0

/-- The first member record that does not stand above the one before it (R347). -/
def membersRise (img : List (BitVec 8)) : List Nat → Option Nat
  | a :: b :: t => if imgNat img a 4 < imgNat img b 4 then membersRise img (b :: t) else some b
  | _ => none

/-- The first byte past the header that is in neither the directory nor a section, and is not zero (R346). -/
def saveGap (img : List (BitVec 8)) : Option Nat :=
  let dir := imgNat img 0x24 4
  let d := (dir, 16 * imgNat img 0x20 2) :: (saveDir img).map fun e => (e.2.2.1, e.2.2.2.1)
  (List.range (img.length - 4)).find? fun o => 64 ≤ o && !(d.any fun c => c.1 ≤ o && o < c.1 + c.2) && imgNat img o 1 ≠ 0

/-- The first offset at which an image breaks its layout (R346, R347). -/
def saveFormat (img : List (BitVec 8)) : Option Nat :=
  let len := imgNat img 0x1C 4
  let nsec := imgNat img 0x20 2
  let dir := imgNat img 0x24 4
  let d := saveDir img
  let count (ty : Nat) : Nat := (d.filter fun e => e.2.1 = ty).length
  let routes := imgNat img 0x0D 1 % 2 = 1
  let info := saveInfo img
  firstBad ([must (64 ≤ img.length) 0, must (imgNat img 0 4 = 0x5653424F) 0, must (imgNat img 4 2 = 1) 4, must (imgNat img 6 2 = 64) 6,
    must (imgNat img 0x0D 1 < 2) 0x0D, must (imgNat img 0x0E 2 < 512) 0x0E, notZero img 0x1A 2,
    must (len = img.length) 0x1C, notZero img 0x22 2, must (64 ≤ dir && dir + 16 * nsec + 4 ≤ len) 0x24, notZero img 0x28 24] ++
    d.map (fun (a, ty, o, l, n) => firstBad [must (1 ≤ ty && ty ≤ 6) a, notZero img (a + 2) 2,
      must (64 ≤ o && o + l + 4 ≤ len) (a + 4), must (l = n * saveRec ty) (a + 8)]) ++
    [must (count 1 = 1 && count 2 = 1 && count 3 = 1 && count 4 = 1 && count 6 = 1 && count 5 = flag routes) dir,
     must ((saveRecs img 1).length = 1) info, must ((saveRecs img 2).length = imgNat img (info + 5) 1) (info + 5)] ++
    [notZero img (info + 6) 2, notZero img (info + 0x0C) 4, membersRise img (saveRecs img 2)] ++
    (saveRecs img 3).map (fun o => firstBad [must (imgNat img o 2 < imgNat img info 2) o, notZero img (o + 2) 2]) ++
    (saveRecs img 4).map (fun o => firstBad [must (imgNat img o 2 < imgNat img (info + 2) 2) o, notZero img (o + 2) 2]) ++
    (saveRecs img 5).map (fun o => firstBad [must (imgNat img o 1 < 8) o,
      must (imgNat img (o + 2) 2 < imgNat img (info + 0x20 + 2 * (imgNat img o 1)) 2) o, notZero img (o + 1) 1, notZero img (o + 4) 4]) ++
    (saveRecs img 6).map (fun o => firstBad [must (imgNat img o 2 < imgNat img (info + 4) 1 && imgNat img (o + 2) 1 < 8) o,
      must (imgNat img (o + 3) 1 < 2) (o + 3), notZero img (o + 4) 4, notZero img (o + 14) 2]) ++ [saveGap img])

/-- The offset of what does not fit the destination (R349). -/
def State.saveShape (s : State) (p : Nat) (img : List (BitVec 8)) : Option Nat :=
  let info := saveInfo img
  let fits (o n pool bank : Nat) : Option Nat := must (imgNat img (info + o) n ≤ (s.partRange p pool bank).2) (info + o)
  firstBad ([must (imgNat img (info + 5) 1 = (s.members p).length) (info + 5), fits 0 2 0 0, fits 2 2 1 0, fits 4 1 5 0] ++
    (List.range 8).map fun c => fits (0x20 + 2 * c) 2 2 c)

/-- The first of the five checks of RESTORE that fails: its code and offset. -/
def State.restoreBad (s : State) (p : Nat) (img : List (BitVec 8)) (xcode : Code) : Option (Nat × Nat) :=
  let at_ (code : Nat) (o : Option Nat) : Option (Nat × Nat) := o.map fun w => (code, w)
  (at_ 8 (must (xcode = OK) img.length)) <|> (at_ 9 (saveFormat img)) <|>
  (at_ 0xA (must (imgNat img 8 4 = (s.rd 0x004).toNat) 8)) <|>
  (at_ 0xB (must (imgNat img (img.length - 4) 4 = crc32c (img.take (img.length - 4))) (img.length - 4))) <|>
  (at_ 0xC (s.saveShape p img))

/-- A queue descriptor restored (R349): ni and part rewritten, occ 0. -/
def State.restoreQueue (s : State) (p : Nat) (img : List (BitVec 8)) (o : Nat) : State :=
  let q := (s.partRange p 0 0).1 + imgNat img o 2
  let w0 := BitVec.ofNat 32 (imgNat img (o + 4) 4)
  let from_ := (saveRecs img 2).map fun r => imgNat img r 4
  let ni := match from_.idxOf? (getBits w0 6 0) with
    | some k => ((s.members p).drop k).head?.getD (getBits w0 6 0)
    | none => getBits w0 6 0
  let s := s.queueWrite q 1 (BitVec.ofNat 32 (imgNat img (o + 8) 4))
  (s.queueWrite q 0 (putBits (putBits w0 6 0 ni) 16 8 p)).setFld (QD q 3) 31 0 (imgNat img (o + 12) 4)

/-- The words of a value staged in a pool under an entry index. -/
def stagedWith (x : Pool) (idx : Nat) (e : BitVec 128) : Pool :=
  { x with stage := ((x.stage.put idx 0 (e.extractLsb' 0 32)).put idx 1 (e.extractLsb' 32 32)).put idx 2 (e.extractLsb' 64 32) }

/-- A rule restored; none when its commit is refused. -/
def State.restoreRule (s : State) (p : Nat) (img : List (BitVec 8)) (o : Nat) : State × Bool :=
  let i := (s.partRange p 1 0).1 + imgNat img o 2
  let e : BitVec 128 := BitVec.ofNat 128 (imgNat img (o + 4) 16)
  let e := if !bit e 120 && getBits e 119 111 = imgNat img 0x0E 2 then putBits e 119 111 p else e
  let s := { s with rules := stagedWith s.rules i e }
  (s.ruleCommitOp i (e.extractLsb' 96 32), ruleRefusal e = 0)

/-- A route entry restored. -/
def State.restoreRoute (s : State) (p : Nat) (img : List (BitVec 8)) (o : Nat) : State × Bool :=
  let c := imgNat img o 1
  let (b, _) := s.partRange p 2 c
  let i := b + imgNat img (o + 2) 2
  let info := saveInfo img
  let b' := imgNat img (info + 0x10 + 2 * c) 2
  let n' := imgNat img (info + 0x20 + 2 * c) 2
  let e : BitVec 128 := BitVec.ofNat 128 (imgNat img (o + 8) 16)
  let dec := getBits e 127 126 = 1
  let e := if dec && getBits e 125 123 = 0 && getBits e 95 87 = imgNat img 0x0E 2 then putBits e 95 87 p else e
  let nx := getBits e 119 106
  let e := if dec && b' ≤ nx && nx < b' + n' then putBits e 119 106 (nx + b - b') else e
  (((s.setBank c (stagedWith (s.bankOf c) i e)).rsCommit c i (e.extractLsb' 96 32)), commitRefusal c e = 0)

/-- A counter restored by master `m`; that of a tile cut off is not written (R282). -/
def State.restoreCounter (s : State) (p m : Nat) (img : List (BitVec 8)) (o : Nat) : State :=
  let k := 8 * ((s.partRange p 5 0).1 + imgNat img o 2) + imgNat img (o + 2) 1
  let f := imgNat img (o + 3) 1 % 2
  s.hlWords m 7 ((cntTile k).getD 63) (CNT k 0) 3 fun s =>
    (((s.keepWas (CNT k 1)).setCnt k (imgNat img (o + 8) 6)).setFld (CNT k 3) 0 0 f).setFld (TLY_OVF (k / 32)) (k % 32) (k % 32) f

/-- Writes in the order of a list until one is refused; the place of the refusal. -/
def putEach (f : State → Nat → State × Bool) : List Nat → State → State × Option Nat
  | [], s => (s, none)
  | o :: t, s => match f s o with
    | (s, true) => putEach f t s
    | (s, false) => (s, some o)

/-- The four writes that commit an entry at address `a`; a commit into a page that hangs is not made (R282). -/
def State.hlCommit (s : State) (m seg a : Nat) (f : State → State × Bool) : State × Bool :=
  (s.hlWords m seg 63 a 4 fun s => (f s).1, s.hung.contains (a / 0x1000) || (f s).2)

/-- The table writes of RESTORE, as master `m` of Hayloft (R280, R348, R349). -/
def State.restoreWrites (s : State) (p m : Nat) (img : List (BitVec 8)) : State :=
  let s := s.setFld (PART_IO_LEN p) 23 0 img.length
  let s := (saveRecs img 3).foldl (fun s o =>
    s.hlWords m 6 63 (QD ((s.partRange p 0 0).1 + imgNat img o 2) 0) 3 fun s => s.restoreQueue p img o) s
  match putEach (fun s o => s.hlCommit m 6 (0x2800000 + 0x20 * ((s.partRange p 1 0).1 + imgNat img o 2)) fun s => s.restoreRule p img o)
      (saveRecs img 4) s with
  | (s, some o) => s.opFail p 0xE ((s.partRange p 1 0).1 + imgNat img o 2) 1 0
  | (s, none) =>
    match putEach (fun s o => s.hlCommit m 4 (0x2000000 + 0x80000 * imgNat img o 1 +
        0x20 * ((s.partRange p 2 (imgNat img o 1)).1 + imgNat img (o + 2) 2)) fun s => s.restoreRoute p img o) (if s.rbit (PART_CTRL p) 5 then saveRecs img 5 else []) s with
    | (s, some o) => s.opFail p 0xE ((s.partRange p 2 (imgNat img o 1)).1 + imgNat img (o + 2) 2) 2 (imgNat img o 1)
    | (s, none) => ((saveRecs img 6).foldl (fun s o => s.restoreCounter p m img o) s).opEnd p

/-- The read of RESTORE through MNI `n` has brought the bytes `img`, or failed with a code (R348, R349). -/
def State.restoreRead (s : State) (p n : Nat) (img : List (BitVec 8)) (xcode : Code) : State :=
  let s := s.imgOver p xcode
  match s.restoreBad p img xcode with
  | some (code, o) =>
    (if code = 8 then s.setFld (PART_IO_STAT p) 7 0 xcode.toNat else s).opFail p code o 4 0
  | none => s.restoreWrites p (n - 76) img

/-- RESTORE ends (R348, R349): the bytes that were read, and the code of a read that failed. The initiator check of the MNI
ends the read at the first byte that is not permitted (R322). While no Ledger entry is free the read waits (R442). -/
def State.restoreDone (s : State) (p : Nat) (img : List (BitVec 8)) (xcode : Code) : State :=
  if (s.partOf p).op ≠ 9 || !codeOk xcode then s else
  let s := s.imgEntry p false
  match (s.partOf p).entry with
  | none => s
  | some (n, _) =>
    let c := s.memCheck n false (s.partOf p).io img.length
    if c.2.2 = OK then c.1.restoreRead p n img xcode else c.1.restoreRead p n (img.take c.2.1) c.2.2

/-! A write of PART_CTRL -/

/-- Op `op` as PART_CTRL or the ladder asks for it (R339). -/
def State.partOp (s : State) (p op : Nat) : State :=
  if op = 0 then s else
  match s.opRefusal p op with
  | some code => s.partRefuse p code
  | none =>
    let s := s.opBegin p op
    match op with
    | 1 => (s.setPartState p 1).opEnd p
    | 3 => s.drainStart p 3
    | 4 => (s.setPartState p 2).opEnd p
    | 5 => s.drainStart p 5
    | 6 => s.squash p
    | 7 => (s.setPartState p 0).opEnd p
    | 8 => s.imgStart p true
    | 9 => s.imgStart p false
    | _ => s

/-- A write of PART_CTRL (R339). -/
def State.partCtrl (s : State) (p : Nat) (v : Word) : State :=
  (s.setFld (PART_CTRL p) 5 4 (getBits v 5 4)).partOp p (getBits v 3 0)

/-! Commands -/

/-- PART_OPEN_SCAN_DONE (R340). -/
def execPartOpenScanDone (p : Fin 512) (s : State) : Out := .next (s.openDone p)
/-- PART_DRAIN_DONE (R341). -/
def execPartDrainDone (p : Fin 512) (s : State) : Out := .next (s.drainDone p)
/-- PART_SQUASH_DONE (R343). -/
def execPartSquashDone (p : Fin 512) (s : State) : Out := .next (s.squashDone p)
/-- PART_SAVE_DONE (R346). -/
def execPartSaveDone (p : Fin 512) (xcode : Code) (s : State) : Out := .next (s.saveDone p xcode)
/-- PART_RESTORE_DONE (R349). -/
def execPartRestoreDone (p : Fin 512) (image : List (BitVec 8)) (xcode : Code) (s : State) : Out :=
  .next (s.restoreDone p image xcode)

end Sys2Proof.Machine
end

