-- ==== Sys2Proof/Machine/Engines.lean ====
section
/-! DEFINITION. The background engines but for Foreman's rules: Cruise (R354 to R356), Foreman's decision log and the
abandonment of its variant sequence (R361, R362), Gleaner (R363 to R365) and the clock-crossing audit (R367). -/

namespace Sys2Proof.Machine

/-- The end of FUSE has been reached since the last OFF or reset (R354, R363). -/
def State.fuseOver (s : State) : Bool := s.held.isNone && s.mode != .off && s.mode != .fuse

/-- The engines run: from the end of FUSE until OFF, while MCLK runs (R354, R363, R412). -/
def State.engRuns (s : State) : Bool := s.fuseOver && !s.mclkOff

/-! Cruise (R354 to R356) -/

/-- The sweep period in units of 2^-32 ns (R354). -/
def State.sweepPeriod (s : State) : Nat := max 10 (min (s.fld CRU_CTRL 9 0) 1000) * 1000 * 2 ^ 32

/-- A sweep starts once its period of fabric time has passed. -/
def State.sweepStart (s : State) : State :=
  if !s.engRuns || s.eng.sweepFrom.isSome || s.rbit CLK_STAT 2 || (s.time.now - s.eng.lastSweep).toNat < s.sweepPeriod then s
  else { s with eng := { s.eng with sweepFrom := some s.mc, lastSweep := s.time.now, auth := s.fld FM_CTRL 1 0 } }

/-- floor(255 × a / b), at most 255. -/
def level (a b : Nat) : Nat := if b = 0 then 0 else min (255 * a / b) 255

/-- CRU_NI of NI `n` (R355): its Granary holds also the answers that have arrived (R111) and a KNI's entering reservation
(R110). -/
def State.cruNi (s : State) (n : Nat) : Word :=
  if s.fenced (niTile n) then 0 else
  let x := s.niOf n
  let flits := ((x.gran.filter fun h => !h.sched).map fun h => h.total).sum + x.schUsed + (x.answersIn.map fun h => h.total).sum +
    ((x.asm.map fun l => ((l.2.filter (!·.discard)).map fun a => a.moved).sum)).sum + (if 81 ≤ n then s.kniUsed (n - 81) else 0)
  let gran := level flits (s.fld (GRAN_CAP n) 11 0)
  let load := match Config.niKind n with
    | .pni => max (s.ownLevel n) (s.devLevel n)
    | .sni | .mni => s.ownLevel n
    | .lni | .kni => gran
  let bo := min (Tbl.get (fun _ => 0) s.eng.boSent n) 255
  let fill := if Config.niKind n = .kni then 0 else level x.bufUsed (s.fld (INJ_CAP n) 9 0)
  BitVec.ofNat 32 (load + fill * 2 ^ 8 + bo * 2 ^ 16 + gran * 2 ^ 24)

/-- CRU_RTR of router `k` for an interval of `span` fc (R355). -/
def State.cruRtr (s : State) (k span : Nat) : Word :=
  if s.fenced k then 0 else
  let util := ((List.range 8).map fun o => level (Tbl.get (fun _ => 0) s.eng.carried (8 * k + o)) span).foldl max 0
  BitVec.ofNat 32 (util + min (Tbl.get (fun _ => 0) s.eng.ageTop k) 255 * 2 ^ 8)

/-- CRU_G (R355). Which of the routers with the same util it names, or what it names when no tile is OPEN, is a free value
(log 1). -/
def State.cruG (s : State) : State :=
  let on := (List.range 56).filter fun k => !s.fenced k
  let g := (on.map fun k => s.fld (CRU_RTR k) 7 0).foldl max 0
  match on.filter fun k => s.fld (CRU_RTR k) 7 0 = g with
  | [] => (s.wr CRU_G (BitVec.ofNat 32 (s.freeNow.toNat % 64 * 2 ^ 8))).drawn
  | [k] => s.wr CRU_G (BitVec.ofNat 32 (g + k * 2 ^ 8))
  | l => (s.wr CRU_G (BitVec.ofNat 32 (g + l.getD (s.freeNow.toNat % l.length) 0 * 2 ^ 8))).drawn

/-- Foreman acts at all (R357). -/
def State.fmOn (s : State) : Bool :=
  s.feat fFOREMAN && (s.mode = .dynamic || s.mode = .scheduled) && s.eng.auth ≠ 0

/-- The last mc of a sweep: its records are written (R355, R356, R369). -/
def State.sweepDone (s : State) : State :=
  if !s.engRuns || s.eng.sweepFrom.isNone then s else
  let span := s.fc - s.eng.sampleFc
  let s := forN 87 (fun n s => s.wr (CRU_NI n) (s.cruNi n)) s
  let s := forN 56 (fun k s => s.wr (CRU_RTR k) (s.cruRtr k span)) s
  let s := (s.cruG.wrapFld CRU_STAT 31 0 1).countG 0x61 8 1
  let s := (s.setFld CRU_TIME_LO 31 0 s.nowNs).setFld CRU_TIME_HI 31 0 (s.nowNs / 2 ^ 32)
  let s := if s.eng.evalDue && s.fmOn then s.satFld FM_STAT 23 16 1 else s
  let g := s.fld CRU_G 7 0
  { s with eng := { s.eng with
      sweepFrom := none, sampleFc := s.fc, boSent := [], carried := [], ageTop := [], sweeps := s.eng.sweeps + 1,
      hiCnt := if s.fld FM_POL0 7 0 ≤ g then s.eng.hiCnt + 1 else 0,
      loCnt := if g ≤ s.fld FM_POL0 15 8 then s.eng.loCnt + 1 else 0, evalDue := s.fmOn } }

/-! The decision log (R362) -/

/-- The flits that write a record at an address: one line of part of a line, or two whole lines. -/
def recFlits (a : Nat) (b : List (BitVec 8)) : List (BitVec 128 × BitVec 512) :=
  if b.length ≤ 32 then
    let off := a % 64
    [(setBmask (setAddr (setOpc 0 0x02) (BitVec.ofNat 52 a)) (BitVec.ofNat 64 ((2 ^ 32 - 1) * 2 ^ off)), BitVec.ofNat 512 (leNat b * 2 ^ (8 * off)))]
  else
    (List.range 2).map fun i =>
      (setFidx (setBmask (setAddr (setOpc 0 0x01) (BitVec.ofNat 52 (a + 64 * i))) (BitVec.allOnes 64)) i, BitVec.ofNat 512 (leNat ((b.drop (64 * i)).take 64)))


/-- The load and the fill that an entry about register `a` gives: those of the register's NI, and for tickets the fill of
the entry's source. -/
def State.logLevels (s : State) (kind a : Nat) : Nat × Nat :=
  match pageOf a with
  | some (.ni n, o) =>
    let src : NodeId := (s.rd (ARB_REQ_W0 n ((o - 0x800) / 8))).extractLsb' 0 10
    let f := if kind = 1 then (if nodeDie src = s.die && nodeNi src < 87 then s.fld (CRU_NI (nodeNi src)) 15 8 else 0)
             else s.fld (CRU_NI n) 15 8
    (s.fld (CRU_NI n) 7 0, f)
  | _ => (0, 0)

/-- One entry is written to the ring; it waits while no Ledger entry is free. -/
def State.logWrite (s : State) (b : BitVec 256) : Option State :=
  let base := s.fld FM_LOG_HI 19 0 * 2 ^ 32 + s.fld FM_LOG_LO 31 5 * 32
  let a := (base + 32 * ((s.rd FM_LOG_WIDX).toNat % 2 ^ s.fld FM_LOG_CFG 20 16)) % 2 ^ 52
  (s.sendVia (76 + s.fld FM_LOG_CFG 1 0) (s.fld FM_LOG_CFG 15 8) .foremanLog cRWD 0x02 false (.addr (BitVec.ofNat 52 a)) 0 a
    (recFlits a (leBytes 32 b.toNat))).map fun s => s.wrapFld FM_LOG_WIDX 31 0 1

/-- The entries that wait are written, oldest first. -/
def logAll : List (BitVec 256) → State → State
  | [], s => { s with eng := { s.eng with logOut := [] } }
  | b :: t, s => match s.logWrite b with
    | some s => logAll t s
    | none => { s with eng := { s.eng with logOut := b :: t } }

/-- The decision log takes up what waits. -/
def State.logFlush (s : State) : State := logAll s.eng.logOut s

/-- A decision is logged: its kind, its outcome, the register, and its old and new values (R362). -/
def State.foremanLog (s : State) (kind : Nat) (outcome : Code) (a : Nat) (old new : Word) : State :=
  let (load, fill) := s.logLevels kind a
  let t := s.stamp.toNat
  let b := leBytes 8 (t / 2 ^ 16) ++ leBytes 2 t ++ [BitVec.ofNat 8 kind, outcome] ++ leBytes 4 a ++ leBytes 4 old.toNat ++
    leBytes 4 new.toNat ++ [BitVec.ofNat 8 (s.fld CRU_G 7 0), BitVec.ofNat 8 load, BitVec.ofNat 8 fill,
    BitVec.ofNat 8 s.eng.auth] ++ leBytes 4 (s.rd CRU_STAT).toNat
  ({ s with eng := { s.eng with logOut := s.eng.logOut ++ [BitVec.ofNat 256 (leNat b)] } } : State).logFlush

/-- Foreman abandons its variant sequence because of register `a` (R361). -/
def State.varAbandon (s : State) (a : Nat) : State :=
  if s.eng.varStep = 0 then s else
  let s := (s.clrBit FM_STAT 24).pageErr .foreman 1
  ({ s with eng := { s.eng with varStep := 0 } } : State).foremanLog 6 OK a (s.rd a) (s.rd a)

/-- The mode leaves SCHEDULED (R361, R369). -/
def State.varLeave (s : State) : State := if s.mode = .scheduled then s.varAbandon MODE_STAT else s

/-- A master other than Foreman has written register `a`: a field that Foreman may write takes a new nominal value, and a
manager's write blocks Foreman from it for a while (R358). -/
def State.managerWrote (s : State) (m a : Nat) : State :=
  let mine : Bool := match pageOf a with
    | some (.ni _, o) => o = 0x28C || o = 0x38C || (0x804 ≤ o && o < 0xA00 && o % 8 = 4)
    | _ => false
  if m = 5 || !mine then s else
  let hold := s.fld FM_CTRL 23 16
  { s with eng := { s.eng with
      nominal := Tbl.set (fun _ => none) a (some (s.rd a)) s.eng.nominal,
      blocked := if m ≤ 4 && hold ≠ 0 then Tbl.set (fun _ => 0) a (s.eng.sweeps + hold) s.eng.blocked else s.eng.blocked } }

/-! Gleaner (R363 to R365) -/

/-- Structures by their number in GLN_STAT and GLN_UE_FIRST. -/
def glnNum : GlnTable → Nat
  | .routeStore => 0 | .slot => 1 | .injection => 2 | .rule => 3

/-- Reads that make a pass: route-store banks are read in parallel (R363). -/
def glnReads : GlnTable → Nat
  | .routeStore => 16384 | .slot => 56 * 2048 | .injection => 87 * 2048 | .rule => 8192

/-- The pass period of a structure, in mc (R363). -/
def State.glnPeriod (s : State) (t : GlnTable) : Nat :=
  let ms := match t with
    | .routeStore => s.fld GLN_PER 7 0
    | .slot | .injection => s.fld GLN_PER 15 8
    | .rule => s.fld GLN_PER 23 16
  max ms 1 * 800000

/-- A corrected word is counted (R364, R371). -/
def State.glnCe (s : State) : State := ((s.satFld GLN_ERR 15 0 1).pageErr .gleaner 1).countG 0x62 8 1

/-- An uncorrectable word is counted, kept and journaled, and is a fault (R364, R371, R450, R458). -/
def State.glnUe (s : State) (t : GlnTable) (bank idx addr : Nat) (part : Option FaultItem) : State :=
  let s := ((s.satFld GLN_ERR 31 16 1).pageErr .gleaner 0).countG 0x63 8 1
  let s := if s.rbit GLN_UE_FIRST 31 then s
    else (((s.setFld GLN_UE_FIRST 2 0 (glnNum t)).setFld GLN_UE_FIRST 5 3 bank).setFld GLN_UE_FIRST 24 6 idx).setBit GLN_UE_FIRST 31
  let s := s.journal { code := POISON, kind := kTABLE, where_ := whereGln, detail := BitVec.ofNat 16 (glnNum t + bank * 8),
                       addr := BitVec.ofNat 64 addr }
  match part with
  | some it => s.ladder it 0 0
  | none => s

/-- An entry with KIND POISONED, other bits as read (R364). -/
def poisoned (x : BitVec 144) : BitVec 144 := storeEntry (x.extractLsb' 0 128 ||| BitVec.ofNat 128 (3 * 2 ^ 126)) 0

/-- The window address of the slot or injection word at window offset `4 idx`, and its power domain (R141, R159). -/
def glnAddr (t : GlnTable) (idx : Nat) : Nat := (if t = .slot then 0x2400000 else 0x2500000) + 4 * idx
def glnDom (t : GlnTable) (idx : Nat) : Nat := if t = .slot then idx / 4096 else niTile (idx / 4096)

/-- A slot or injection word with its check bits above it. -/
def glnPack (v c : Nat) : BitVec 144 := BitVec.ofNat 144 (v % 2 ^ 32 + c % 2 ^ 32 * 2 ^ 32)

/-- What a word of a structure holds, with its check bits. -/
def State.glnRaw (s : State) (t : GlnTable) (c i : Nat) : BitVec 144 :=
  match t with
  | .routeStore => (s.bankOf c).at i
  | .rule => s.rules.at i
  | .slot | .injection => glnPack (s.rd (glnAddr t i)).toNat (s.rd (glnAddr t i + 0x2000)).toNat

/-- A word of a structure replaced. -/
def State.glnPut (s : State) (t : GlnTable) (c i : Nat) (x : BitVec 144) : State :=
  match t with
  | .routeStore => s.setBank c ((s.bankOf c).put i x)
  | .rule => s.putRule i x
  | .slot | .injection => (s.wr (glnAddr t i) (x.extractLsb' 0 32)).wr (glnAddr t i + 0x2000) (x.extractLsb' 32 32)

/-- Gleaner begins a write-back of the word that it has read (R364). DESIGN CHOICE (log 101): it takes effect in the next
mc. -/
def State.glnBegin (s : State) (t : GlnTable) (c i : Nat) (x : BitVec 144) : State :=
  { s with eng := { s.eng with glnWb := s.eng.glnWb ++ [{ table := t, bank := c, idx := i, old := s.glnRaw t c i, new := x }] } }

/-- A write-back takes effect if the word still holds what Gleaner read, and is dropped otherwise (R364, R369). -/
def State.glnBack (s : State) (w : GlnBack) : State :=
  let put (s : State) : State :=
    if s.glnRaw w.table w.bank w.idx = w.old then s.glnPut w.table w.bank w.idx w.new else s.satFld GLN_SKIP 15 0 1
  match w.table with
  | .routeStore => s.hlWords 6 4 63 (0x2000000 + 0x80000 * w.bank + 0x20 * w.idx) 4 put
  | .rule => s.hlWords 6 6 63 (0x2800000 + 0x20 * w.idx) 4 put
  | .slot | .injection => s.hlWords 6 5 (glnDom w.table w.idx) (glnAddr w.table w.idx) 1 put

/-- The write-backs on their way take effect, in their order. -/
def State.glnFlush (s : State) : State :=
  s.eng.glnWb.foldl State.glnBack { s with eng := { s.eng with glnWb := [] } }

/-- Gleaner handles entry `i` of bank `c` (R364). -/
def State.glnEntry (s : State) (c i : Nat) : State :=
  match readEntry ((s.bankOf c).at i) with
  | (some _, false) => s
  | (some e, true) => if s.rbit GLN_CTRL 1 then (s.glnBegin .routeStore c i (storeEntry e 0)).glnCe else s
  | (none, _) =>
    (s.glnBegin .routeStore c i (poisoned ((s.bankOf c).at i))).glnUe .routeStore c i (0x2000000 + 0x80000 * c + 0x20 * i)
      (some (.bank (Fin.ofNat 8 c)))

/-- Gleaner handles rule `i` (R364). -/
def State.glnRule (s : State) (i : Nat) : State :=
  match readEntry (s.rules.at i) with
  | (some _, false) => s
  | (some e, true) => if s.rbit GLN_CTRL 1 then (s.glnBegin .rule 0 i (storeEntry e 0)).glnCe else s
  | (none, _) => (s.glnBegin .rule 0 i (poisoned (s.rules.at i))).glnUe .rule 0 i (0x2800000 + 0x20 * i) none

/-- Structure `t` has a word that Gleaner reads at `idx`: entry `idx` of every bank, rule `idx`, or the table word at window
offset `4 idx`, which is in the lower half of its tile's or NI's window (R141, R159, R363). -/
def glnHas (t : GlnTable) (idx : Nat) : Bool :=
  match t with
  | .routeStore => idx < 16384
  | .rule => idx < 8192
  | .slot => idx < 56 * 4096 && idx % 4096 < 2048
  | .injection => idx < 87 * 4096 && idx % 4096 < 2048

/-- Gleaner handles the slot or injection word at window offset `4 idx` (R364). A word of a tile that is cut off, or of a
page that hangs, is not read (R282). -/
def State.glnWord (s : State) (t : GlnTable) (idx : Nat) : State :=
  let inSlot := t = .slot
  let a := glnAddr t idx
  s.hlWords 6 5 (glnDom t idx) a 1 fun s =>
    let d := (s.rd a).toNat
    let c := (s.rd (a + 0x2000)).toNat
    match (if inSlot then eccCheck 6 38 d c else eccCheck 5 21 d c) with
    | .clean => s
    | .fixed d =>
      let v : Word := BitVec.ofNat 32 d
      if s.rbit GLN_CTRL 1 then (s.glnBegin t 0 idx (glnPack v.toNat (if inSlot then slotCheck v else injCheck v))).glnCe else s
    | .bad => (s.glnBegin t 0 idx 0).glnUe t 0 idx a (some .schedule)

/-- Gleaner is on (R363). -/
def State.glnRuns (s : State) : Bool := s.engRuns && s.rbit GLN_CTRL 0

/-- A read of Gleaner; the pass ends with its last read (R363, R364, R371). -/
def State.glnStep (s : State) (t : GlnTable) (idx : Nat) : State :=
  if !s.glnRuns || !glnHas t idx then s else
  let s : State := match t with
    | .routeStore => forN 8 (fun c (s : State) =>
        s.hlWords 6 4 63 (0x2000000 + 0x80000 * c + 0x20 * idx) 4 fun s => s.glnEntry c idx) s
    | .rule => s.hlWords 6 6 63 (0x2800000 + 0x20 * idx) 4 fun s => s.glnRule idx
    | .slot => s.glnWord .slot idx
    | .injection => s.glnWord .injection idx
  let n := Tbl.get (fun _ => 0) s.eng.glnRead (glnNum t)
  let start := if n = 0 then s.mc else Tbl.get (fun _ => 0) s.eng.glnStart (glnNum t)
  let fin := glnReads t ≤ n + 1
  let s := { s with eng := { s.eng with
    glnRead := Tbl.set (fun _ => 0) (glnNum t) (if fin then 0 else n + 1) s.eng.glnRead,
    glnStart := Tbl.set (fun _ => 0) (glnNum t) start s.eng.glnStart } }
  if fin && t = .routeStore then s.wrapFld GLN_STAT 31 16 1 else s

/-- A pass has not ended within its period (R363). -/
def State.glnOverrun (s : State) (t : GlnTable) : State :=
  if s.glnRuns && Tbl.get (fun _ => 0) s.eng.glnRead (glnNum t) ≠ 0 &&
      Tbl.get (fun _ => 0) s.eng.glnStart (glnNum t) + s.glnPeriod t ≤ s.mc then
    (s.setBit GLN_STAT (glnNum t)).pageErr .gleaner 2
  else s

/-- The oldest report of bank `c` is read again (R365). -/
def State.glnReport (s : State) (c : Nat) : State :=
  if !s.glnRuns then s else
  match Tbl.get (fun _ => []) s.eng.glnQueue c with
  | [] => s
  | i :: rest => ({ s with eng := { s.eng with glnQueue := Tbl.set (fun _ => []) c rest s.eng.glnQueue } } : State).hlWords 6 4 63
      (0x2000000 + 0x80000 * c + 0x20 * i) 4 fun s => s.glnEntry c i

/-! The clock-crossing audit (R367) -/

/-- A measurement can be made of NI `n`'s crossing: the audit is on, the unit is alive with its clock, the tile is OPEN, and
the crossing's pointers are not being resynchronised. -/
def State.audRuns (s : State) (n : Nat) : Bool :=
  s.fuseOver && s.rbit CAL_CTRL 0 && !s.fenced (niTile n) && !s.fclkDead && (s.niOf n).syncFc ≤ s.fc && s.eng.syncFc ≤ s.fc &&
  (if n < 80 then bit s.niAlive n && !s.rbit (UCLK_STOP0 + 4 * (n / 32)) (n % 32) else !s.rbit CLK_STAT 3)

/-- Crossing `i` is to be measured: in this interval of 2^int_exp fc it has not been (R367). -/
def State.audDue (s : State) (i : Nat) : Bool :=
  let span := 2 ^ max 10 (min (s.fld CAL_CTRL 12 8) 20)
  match Tbl.get (fun _ => 0) s.eng.audFc i with
  | 0 => true
  | f + 1 => f / span < s.fc / span

/-- An audited crossing is measured, once in an interval: NI `n`, direction (true: NI to unit), latency in destination
cycles. -/
def State.audMeasure (s : State) (n : Nat) (dir : Bool) (cycles : Nat) : State :=
  if !s.audRuns n || !s.audDue (2 * n + flag dir) then s else
  let s := { s with eng := { s.eng with audFc := Tbl.set (fun _ => 0) (2 * n + flag dir) (s.fc + 1) s.eng.audFc } }
  let c := min cycles 15
  let s := if s.fld CAL_AUD_SEL 6 0 = n && s.rbit CAL_AUD_SEL 7 = dir then
      (s.setFld CAL_AUD_MM 3 0 (min (s.fld CAL_AUD_MM 3 0) c)).setFld CAL_AUD_MM 7 4 (max (s.fld CAL_AUD_MM 7 4) c) else s
  let i := 2 * n + flag dir
  let mark (s : State) (b : Bool) : State :=
    { s with eng := { s.eng with audBad := Tbl.set (fun _ => false) i b s.eng.audBad } }
  if 3 ≤ cycles && cycles ≤ 6 then mark s false
  else
    let s := s.setBit (CAL_AUD_FLAG (n / 32)) (n % 32)
    let s := if s.rbit CAL_AUD_FIRST 31 then s
      else (s.wr CAL_AUD_FIRST (BitVec.ofNat 32 (n + flag dir * 2 ^ 7 + c * 2 ^ 8))).setBit CAL_AUD_FIRST 31
    if Tbl.get (fun _ => false) s.eng.audBad i then s
    else
      (mark (s.pageErr .foreman 2) true).violation 5 (whereNi n)
        (s.flowsWhere fun f => fcSrc f = n || fcDst f = s.node n)

/-! Commands -/

/-- CRUISE_SWEEP (R354). -/
def execCruiseSweep (s : State) : Out := .next s.sweepStart
/-- CRUISE_SWEEP_DONE (R356). -/
def execCruiseSweepDone (s : State) : Out := .next s.sweepDone
/-- GLEANER_READ (R364). -/
def execGleanerRead (t : GlnTable) (idx : Nat) (s : State) : Out := .next (s.glnStep t idx)
/-- GLEANER_PASS_OVERRUN (R363). -/
def execGleanerPassOverrun (t : GlnTable) (s : State) : Out := .next (s.glnOverrun t)
/-- GLEANER_REPORT_REREAD (R365). -/
def execGleanerReportReread (c : Fin 8) (s : State) : Out := .next (s.glnReport c)
/-- CDC_AUDIT_MEASURE (R367). -/
def execCdcAuditMeasure (n : Fin 81) (dir : Bool) (cycles : Nat) (s : State) : Out := .next (s.audMeasure n dir cycles)

end Sys2Proof.Machine
end

