-- ==== Sys2Proof/Machine/Boom.lean ====
section
/-! DEFINITION. The power domains and the Boom handshake (R393 to R405), and the reset of a tile (R428). -/

namespace Sys2Proof.Machine

/-! State changes -/

/-- The NIs of tile `k`, and those of them with an attached unit. -/
def tileNis (k : Nat) : List Nat := (List.range 87).filter fun n => niTile n = k
def tileUnits (k : Nat) : List Nat := (tileNis k).filter (· < 80)

/-- The oldest BOOM_EVT that waits is sent (R404): a privileged request by node key. -/
def State.boomEvent (s : State) : State :=
  match s.boomEvts with
  | [] => s
  | a :: rest =>
    let n := 76 + s.fld PWR_NOTE 1 0
    match ({ s with boomEvts := rest }).sendVia n (s.fld PWR_NOTE 15 8) .boomEvt cMGT 0x40 true
        (.node (BitVec.ofNat 10 (s.fld PWR_NOTE 25 16))) 0 0 [(mkMgt 0x40 0 0 0 a, 0)] with
    | some t => t
    | none => s

/-- Domain `d` enters a state, which BOOM_EVT reports (R404). -/
def State.boomTo (s : State) (d : Nat) (b : Boom) : State :=
  let s := s.setBoom d b
  if s.rbit PWR_NOTE 31 then
    ({ s with boomEvts := s.boomEvts ++ [BitVec.ofNat 68 (d + b.st.code * 2 ^ 8 + flag b.tgtOff * 2 ^ 11)] }).boomEvent
  else s

/-- QUIESCE_REQ of the units of tile `k` set or cleared: it rises only towards a unit that is alive, and an ACK is ignored
from its fall on (R401, R497). -/
def State.quiesceTile (s : State) (k : Nat) (up : Bool) : State :=
  { s with quiesceReq := (tileUnits k).foldl (fun v n => putBit v n (up && bit s.niAlive n)) s.quiesceReq,
           quiesceAck := (tileUnits k).foldl (fun v n => putBit v n false) s.quiesceAck }

/-! The reset of a tile (R386, R403, R428) -/

/-- The address belongs to the pages, tables or counters of tile `k`. -/
def tileAddr (k a : Nat) : Bool :=
  match pageOf a with
  | some (p, _) => pageDomain p = k
  | none => match windowOf a with
    | some (.slot j) => j = k
    | some (.inject n) => niTile n = k
    | some (.counter i) => if i < 448 then i / 8 = k else i < 1144 && niTile ((i - 448) / 8) = k
    | _ => false

/-- An NI right after its reset (R241): NI_ALIVE, if high, must be seen low. The ordinals by which barriers of DIE scope tell
what came before them go on (R225). -/
def State.freshNi (s : State) (n : Nat) : Ni :=
  { mustFall := n < 80 && bit s.niAlive n, ordN := (s.niOf n).ordN, ckN := (s.niOf n).ckN }

/-- The fabric side of the KNI of port `p` loses what it holds with its tile (R24), and a port in FAULT leaves it (R298). -/
def State.kniClear (s : State) (p : Nat) : State :=
  let s := if s.skwState p = 7 then s.skwDisable p else s
  s.modSkw p fun x => { x with sched := [], schCur := none }

/-- Every field of the pages of tile `k`, its tables, its counters and the work in it take their reset values. DESIGN CHOICE
(log 142): the quota windows of its arbiters (R197), as ARB_WIN is unwritten again, are counted from the cold reset. -/
def State.tileClear (s : State) (k : Nat) : State :=
  let s := { s with regs := Tbl.keep (fun a => !tileAddr k a) s.regs, hung := s.hung.filter fun p => !tileAddr k (0x1000 * p) }
  let s := (s.setRtr k {}).setBit (if k < 32 then TLY_LOST0 else TLY_LOST1) (k % 32)
  let s := forN 8 (fun i s => s.setLink (linkIn k i) []) s
  let s := (tileNis k).foldl (fun s n => (s.setNi n (s.freshNi n)).setLink (linkNi n) []) s
  let s := if k < 42 && k % 7 = 6 then s.kniClear (k / 7) else s
  if k = 55 then { s with lni := s.lni.lost } else s

/-- The links of router `k` start with four credits per VC on both sides (R101, R403). -/
def State.freshLinks (s : State) (k : Nat) : State :=
  forN 8 (fun o s => match Config.port k o with
    | .router j =>
      let i := Config.inputFrom j k
      let full (x : Rtr) (o : Nat) : Rtr :=
        let x := (List.range 16).foldl (fun x vc => (x.setCredits o vc 4).setBusy o vc false) x
        x.setRelay o { (x.relayOf o) with cred := [], fly := [] }
      let back := Config.inputFrom k j
      (((s.modRtr k fun x => full x o).modRtr j fun x => full x i).setCred (8 * k + o) []).setCred (8 * j + i) [] |>.setLink
        (linkIn k back) []
    | _ => s) s

/-- Skidway domain `56 + p` loses its state; the scheduled reservation is in the KNI's tile (R24). -/
def State.skwClear (s : State) (p : Nat) : State :=
  let base := pageBase (skwPage p)
  ({ s with regs := Tbl.keep (fun a => a < base || base + 0x1000 ≤ a) s.regs,
            hung := s.hung.filter fun q => q * 0x1000 ≠ base }).setSkw p
    { sched := (s.skwOf p).sched, schCur := (s.skwOf p).schCur }

/-- Domain `d` loses its state. -/
def State.domClear (s : State) (d : Nat) : State := if d < 56 then s.tileClear d else s.skwClear (d - 56)

/-! Requests (R395) -/

/-- Either bank claims a slot at router `k`, or holds a valid injection entry at an NI of its tile. -/
def State.scheduledAt (s : State) (k : Nat) : Bool :=
  (List.range 2).any fun b =>
    ((List.range 8).any fun o => (List.range 1024).any fun p => (s.slotOwner k b o p).isSome) ||
    ((tileNis k).any fun n => (List.range 1024).any fun p => (s.injFlow n b p).isSome)

/-- The states in which an op is accepted. -/
def boomAccepts (op : Nat) (b : Boom) : Bool :=
  match op, b.st with
  | 1, .open_ | 1, .fencing | 1, .draining => true
  | 2, .open_ | 2, .fencing | 2, .draining | 2, .quiesced | 2, .isolated => true
  | 3, .fencing | 3, .draining | 3, .quiesced | 3, .isolated | 3, .off => true
  | 4, .quiesced => b.tgtOff
  | _, _ => false

/-- The code with which a request is refused, the first that applies in the order of R395. -/
def State.boomRefusal (s : State) (d op : Nat) : Option Nat :=
  let closing := op = 1 || op = 2
  if op = 0 || 5 ≤ op || 64 ≤ d then some 3
  else if 62 ≤ d then some 1
  else if !boomAccepts op (s.boomOf d) then some 2
  else if closing && d < 42 && d % 7 = 6 && !(match s.dom (56 + d / 7) with | .isolated | .off => true | _ => false) then some 4
  else if closing && d < 56 && s.mode = .scheduled && s.scheduledAt d then some 5
  else if closing && d < 56 && s.ring then some 6
  else none

/-- BOOM_ERR takes the first code since its valid bit was cleared (R413, R414). -/
def State.boomErr (s : State) (d code : Nat) : State :=
  let s := if s.rbit BOOM_ERR 31 then s
    else ((s.setFld BOOM_ERR 5 0 d).setFld BOOM_ERR 11 8 code).setBit BOOM_ERR 31
  s.pageErr .power 0

/-- Domain `d` starts the procedure (R396, R397, R230, R308). -/
def State.boomFence (s : State) (d : Nat) (off : Bool) : State :=
  let s := s.boomTo d { st := .fencing, tgtOff := off }
  if d < 56 then (tileNis d).foldl (fun s n => s.modNi n fun x => { x with mons := [] }) s
  else
    let p := d - 56
    if s.skwState p = 5 || (s.skwOf p).retr then s.skwClose p else if s.skwState p = 7 then s else s.skwDisable p

/-- The domain passes from QUIESCED through ISOLATED to OFF, where its state is lost (R394). -/
def State.boomIsolate (s : State) (d : Nat) : State :=
  let s := s.boomTo d { st := .isolated, tgtOff := true }
  (s.domClear d).boomTo d { st := .off, tgtOff := true, fromOff := true }

/-- A domain returns to OPEN without having been cut off: the rule shadows of its NIs follow the pool again (R317), and its
filters those of the TALLY page (R380). -/
def State.boomReopen (s : State) (d : Nat) : State :=
  let s := s.boomTo d {}
  if d < 56 then (tileNis d).foldl (fun s n => s.reloadShadow n) ((s.quiesceTile d false).filterLoad d) else s

/-- An accepted request. -/
def State.boomDo (s : State) (d op : Nat) : State :=
  let b := s.boomOf d
  match op, b.st with
  | 1, .open_ => s.boomFence d false
  | 2, .open_ => s.boomFence d true
  | 1, _ => s.setBoom d { b with tgtOff := false }
  | 2, .isolated => (s.domClear d).boomTo d { st := .off, tgtOff := true, fromOff := true }
  | 2, _ => s.setBoom d { b with tgtOff := true }
  | 3, .isolated => s.boomTo d { st := .waking, fromOff := b.fromOff }
  | 3, .off => s.boomTo d { st := .waking, fromOff := true }
  | 3, _ => s.boomReopen d
  | 4, _ => s.boomIsolate d
  | _, _ => s

/-- A Boom request for domain `d` and whether it was accepted (R395). -/
def State.boomAsk (s : State) (d op : Nat) : State × Option Nat :=
  match s.boomRefusal d op with
  | some code => (s.boomErr d code, some code)
  | none => (s.boomDo d op, none)

/-! The procedure -/

/-- A packet that a lookup routed through router `k`, with its bit of the mask clear, and whose first flit has not left. -/
def QItem.passes (it : QItem) (n k : Nat) : Bool :=
  match it.pkt with
  | some p =>
    !bit it.mask k && (walk (niTile n) [] ((List.range 12).map fun i => getBits (hRoute p.hdr) (3 * i + 2) (3 * i))).1.contains k
  | none => false

/-- An NI of another tile has such a packet: its lookup has not ended (R78). -/
def State.fenceHeld (s : State) (k : Nat) : Bool :=
  (List.range 87).any fun n => niTile n ≠ k && (s.niOf n).queues.any fun q => q.2.any fun it => it.passes n k

/-- FENCING ends (R78). -/
def State.fenceDone (s : State) (d : Nat) : State :=
  let b := s.boomOf d
  if b.st ≠ .fencing || s.held.isSome || (d < 56 && s.fenceHeld d) then s
  else
    let s := s.boomTo d { b with st := .draining, drainFc := s.fc }
    if d < 56 then (tileUnits d).foldl (fun s n => s.modNi n fun x => x.closeAll s.fc) s else s

/-- No NI of tile `k` holds a queued message, a write-combining line or a pending barrier (R400, R418). -/
def Ni.noQueued (x : Ni) : Bool :=
  x.queues.isEmpty && x.cur.isEmpty && x.schRest.isEmpty && x.events.isEmpty && x.wcb.isEmpty && x.bars.isEmpty

/-- Router `k` holds no flit. -/
def State.rtrEmpty (s : State) (k : Nat) : Bool :=
  let x := s.rtrOf k
  x.vcs.all (fun v => v.2.flits.isEmpty) && x.byp.all (fun b => b.2.isEmpty) && x.relay.all (fun r => r.2.flits.isEmpty) &&
  (List.range 8).all fun i => (s.linkOf (linkIn k i)).isEmpty

/-- A flit of router `k` that will leave it by output `o`, or is in that output's relay stage (R104). -/
def State.heldFor (s : State) (k o : Nat) : Bool :=
  let x := s.rtrOf k
  x.vcs.any (fun v => v.2.flits.any fun y => y.la = o) || x.byp.any (fun b => b.2.any fun y => y.la = o) ||
  !(Tbl.get (fun _ => {}) x.relay o).flits.isEmpty

/-- The quiet period of PWR_QUIET (R413). -/
def State.quiet (s : State) : Nat := max (s.fld PWR_QUIET 11 0) 64

/-- Condition 3 of R400. A flit that a neighbour held for router `k` and holds no more has entered `k` since. -/
def State.rtrQuiet (s : State) (k : Nat) : Bool :=
  s.rtrEmpty k && (s.rtrOf k).lastFc + s.quiet ≤ s.fc &&
  (List.range 8).all fun i => match Config.port k i with
    | .router j => !s.heldFor j (Config.inputFrom j k)
    | _ => true

/-- Condition 2 of R400, for entries that had left NOT_STARTED before fc `t`. -/
def State.endedBefore (s : State) (t : Nat) : Bool :=
  (List.range 80).all fun n => (s.niOf n).ledger.all fun (_, e) => !(e.st = .issued && e.leftFc < t)

/-- The conditions of R399, R400 and R277. -/
def State.drained (s : State) (d : Nat) : Bool :=
  if d < 56 then
    (tileNis d).all (fun n => (s.niOf n).noQueued) && s.endedBefore (s.boomOf d).drainFc && s.rtrQuiet d &&
    (d ≠ 55 || s.lni.writes.all fun w => w.sent = ehWords w.two)
  else s.skwState (d - 56) = 0 || s.skwState (d - 56) = 7

/-- DRAINING ends (R399); not in FROZEN, where the quiet period stands (R423). -/
def State.drainEnd (s : State) (d : Nat) : State :=
  let b := s.boomOf d
  if b.st ≠ .draining || s.held.isSome || s.mode = .frozen || !s.drained d then s
  else
    let s := s.boomTo d { b with st := .quiesced, qMc := s.mc }
    if d < 56 then s.quiesceTile d true else s

/-- R401 holds for domain `d`. -/
def State.quiesced (s : State) (d : Nat) : Bool :=
  if d < 56 then
    (tileUnits d).all (fun n => !bit s.niAlive n || bit s.quiesceAck n) &&
    (tileNis d).all (fun n => let x := s.niOf n
      x.gran.isEmpty && x.work.isEmpty && !(x.asm.any fun l => l.2.any fun a => a.admitted && a.pkt.isSome) &&
      !(x.ledger.any fun e => e.2.isOpen)) &&
    (d ≠ 55 || (s.lni.writes.all (·.hang) && s.lni.reads.all fun r => match r.2 with | some e => e.gone | none => true))
  else true

/-- QUIESCED completes; with target OFF the domain is cut off (R394, R401). -/
def State.quiesceEnd (s : State) (d : Nat) : State :=
  let b := s.boomOf d
  if b.st = .quiesced && b.tgtOff && s.held.isNone && s.quiesced d then s.boomIsolate d else s

/-- QUIESCED has waited its time (R395, R414). -/
def State.qackTimeout (s : State) (d : Nat) : State :=
  let b := s.boomOf d
  if b.st = .quiesced && !b.tmoSeen && b.qMc + s.fld PWR_QTMO 23 0 ≤ s.mc && !s.quiesced d then
    ((s.setBoom d { b with tmoSeen := true }).boomErr d 7).pageErr .power 1
  else s

/-- WAKING ends (R403). DESIGN CHOICE (log 137): the pointers of its crossings are resynchronised within 48 fc (R408). -/
def State.wakeEnd (s : State) (d : Nat) : State :=
  let b := s.boomOf d
  if b.st ≠ .waking || s.held.isSome then s
  else
    let s := if b.fromOff then s.domClear d else s
    let s := (s.boomTo d {}).filterLoad d
    if d < 56 then
      (tileNis d).foldl (fun s n => s.modNi n fun x => { x with syncFc := s.fc + 48 }) ((s.freshLinks d).quiesceTile d false)
    else s

/-- A tile reset commanded through RST_CTRL (R428, R437). -/
def State.tileReset (s : State) (k : Nat) : State :=
  let b := s.boomOf k
  if 56 ≤ k || b.st ≠ .isolated then s.pageErr .global 3
  else (s.tileClear k).setBoom k { b with fromOff := true }

/-- The unit of NI `n` raises QUIESCE_ACK, which counts while QUIESCE_REQ is high (R497). -/
def State.ackRise (s : State) (n : Nat) : State :=
  if bit s.quiesceReq n then { s with quiesceAck := putBit s.quiesceAck n true } else s

/-! Commands -/

/-- QUIESCE_ACK_RISE (R401). -/
def execQuiesceAckRise (n : Fin 80) (s : State) : Out := .next (s.ackRise n)
/-- BOOM_FENCE_DONE (R78). -/
def execBoomFenceDone (d : Fin 64) (s : State) : Out := .next (s.fenceDone d)
/-- BOOM_DRAIN_DONE (R400). -/
def execBoomDrainDone (d : Fin 64) (s : State) : Out := .next (s.drainEnd d)
/-- BOOM_QACK_TIMEOUT (R395). -/
def execBoomQackTimeout (d : Fin 64) (s : State) : Out := .next (s.qackTimeout d)
/-- BOOM_WAKE_DONE (R403). -/
def execBoomWakeDone (d : Fin 64) (s : State) : Out := .next (s.wakeEnd d)

end Sys2Proof.Machine
end

