-- ==== Sys2Proof/Machine/Modes.lean ====
section
/-! DEFINITION. The operating modes and their changes (R415 to R424), the mode changes of switchovers (R148), and the
feature commit (R431, R432). -/

namespace Sys2Proof.Machine

/-! Mode changes -/

/-- A mode change is in progress (R416). -/
def State.modeBusy (s : State) : Bool := s.change.isSome || s.frozenAt.isSome

/-- A mode change has ended: MODE_STAT.prev and mode_done (R416, R439). -/
def State.modeDone (s : State) (prev : Mode) : State := (s.setFld MODE_STAT 7 4 prev.code).pageIrq .global 0

/-- What acts at an NI at a mode change (R124 rule 7, R202, R230): the slots and grants of the ring personality, the reply
flits reserved for requests still unanswered, and the marks of the messages that asked. -/
def Ni.modeChange (x : Ni) : Ni :=
  let x := x.rsvOut.foldl (fun x _ => x.unreserve 8 1) x.clearArb
  { x with slots := [], grants := [], rsvOut := [], mons := [], answers := x.answers.filter (!·.isReq),
           queues := Tbl.mapWith (fun _ => []) (fun _ q => q.map fun it => { it with ring := 0 }) x.queues }

/-- The mode becomes `m`, and the rules that act at a mode change act (R419). -/
def State.toMode (s : State) (m : Mode) : State :=
  let t := s.varLeave
  { t with mode := m, ni := Tbl.mapWith (fun _ => {}) (fun _ x => x.modeChange) t.ni }

/-- How a requested change goes (R416). -/
inductive ModeRoute where
  | direct | drain | freeze
deriving DecidableEq, Repr

/-- The rows of R416 that a request takes. -/
def modeRoute : Mode → Mode → Option ModeRoute
  | .off, _ | .fuse, _ | .cold, _ | .frozen, _ => none
  | _, .frozen => some .freeze
  | .calibrate, .reserved => some .direct
  | .reserved, .dynamic | .reserved, .reconfigure | .dynamic, .reconfigure => some .drain
  | .dynamic, .recovery | .scheduled, .recovery => some .drain
  | .recovery, .dynamic | .recovery, .reconfigure | .test, .reconfigure => some .drain
  | .reconfigure, .reserved | .reconfigure, .dynamic | .reconfigure, .test => some .direct
  | _, _ => none

/-- The code with which a mode request is refused (R420), lowest first. FROZEN may be requested during DRAIN, but no mode in
the mc of an escalation (R437). -/
def State.modeRefusal (s : State) (target : Nat) : Option Nat :=
  let want := Mode.ofCode target
  let freeze := want = some .frozen
  let calm := want = some .recovery || freeze
  if s.notes.escalated = s.mc + 1 then some 1
  else if s.modeBusy && !(freeze && s.mode = .drain && s.frozenAt.isNone) then some 1
  else if (want.bind (modeRoute s.mode)).isNone || (s.mode = .test && want = some .reconfigure && s.testLock) then some 2
  else if (s.mode = .reserved && !s.rbit FEAT_STAT 0) || (want = some .dynamic && s.rbit MODE_CFG 0 && !s.feat fRING) then some 3
  else if s.mode = .calibrate && want = some .reserved && (List.range 3).any (fun i => s.rd (CAL_AUD_FLAG i) ≠ 0) then some 4
  else if 2 ≤ s.swState && !calm then some 5
  else if (List.range 62).any (fun d => match s.dom d with | .fencing | .draining | .waking => true | _ => false) then some 6
  else none

/-- DRAIN is entered (R417, R418): an ARMED switchover is cancelled and every write-combining line closes. -/
def State.enterDrain (s : State) (c : Change) : State :=
  let s := if s.swState = 2 then s.setFld SW_STAT 2 0 1 else s
  let s := s.varLeave
  let marks := (List.range 80).map fun n => (s.niOf n).ordN
  { s with mode := .drain, change := some { c with from_ := s.mode, fc := s.fc, opened := true, marks := marks },
           ni := Tbl.mapWith (fun _ => {}) (fun _ x => x.closeAll s.fc) s.ni }

/-- A change through DRAIN starts; its entry waits while a switchover is committed or switching (R417). -/
def State.startDrain (s : State) (target : Mode) : State :=
  let c : Change := { target := target, from_ := s.mode, drains := true, recov := target = .recovery, fc := s.fc }
  if 3 ≤ s.swState then { s with change := some c } else s.enterDrain c

/-- The entry into DRAIN that waited for a switchover. -/
def State.deferredDrain (s : State) : State :=
  match s.change with
  | some c => if c.drains && !c.opened && s.swState < 3 && s.mode ≠ .frozen then s.enterDrain c else s
  | none => s

/-- A mode request refused with a code (R420). -/
def State.modeRefused (s : State) (e : Nat) : State := ((s.setFld MODE_STAT 15 12 e).setBit MODE_STAT 16).pageErr .global 0

/-- A write of MODE_REQ.target (R416, R420). -/
def State.modeRequest (s : State) (target : Nat) : State :=
  match s.modeRefusal target with
  | some e => ({ s with notes := { s.notes with modeRefused := s.mc + 1 } } : State).modeRefused e
  | none =>
    let s := { s with notes := { s.notes with modeAsked := (s.mc + 1, s.mode) } }
    match Mode.ofCode target with
    | none => s
    | some m =>
      match modeRoute s.mode m with
      | some .freeze => { s with frozenAt := some s.fc }
      | some .drain => s.startDrain m
      | some .direct => { s with change := some { target := m, from_ := s.mode, fc := s.fc } }
      | none => s

/-- DYNAMIC and SCHEDULED, the modes in which the ladder acts (R416). -/
def Mode.escalates (m : Mode) : Bool := m = .dynamic || m = .scheduled

/-- A MODE_REQ was accepted in this mc, in DYNAMIC or SCHEDULED. -/
def State.askedNow (s : State) : Bool := s.notes.modeAsked.1 = s.mc + 1 && s.notes.modeAsked.2.escalates

/-- The change to RECOVERY that an escalation starts, whatever change is under way: one that has left DRAIN is over, one that
waits for a switchover takes the new target, and a FROZEN request keeps its fc C (R416, R421, R437). -/
def State.toRecovery (s : State) : State :=
  match s.change with
  | none => s.startDrain .recovery
  | some c =>
    if c.left then (({ s with change := none } : State).modeDone c.from_).startDrain .recovery
    else { s with change := some { c with target := .recovery, recov := true } }

/-- The ladder's request for RECOVERY, taken in DYNAMIC and SCHEDULED (R416, R421). A MODE_REQ of the same mc gives way to it
and is refused with BUSY (R437). -/
def State.recover (s : State) : State × Bool :=
  let asked := s.askedNow
  if !(s.mode.escalates || (asked && s.change.isSome)) then (s, false)
  else
    let t := if asked && s.mode.escalates then { s with frozenAt := none } else s
    let t := t.toRecovery
    let t : State := { t with notes := { t.notes with escalated := s.mc + 1 } }
    (if asked || s.notes.modeRefused = s.mc + 1 then t.modeRefused 1 else t, true)

/-- Every router and NI holds the new mode (R416). -/
def State.changeDone (s : State) : State :=
  match s.change with
  | none => s
  | some c =>
    if s.held.isSome then s
    else if c.drains then (if c.left then ({ s with change := none } : State).modeDone c.from_ else s)
    else (({ s with change := none } : State).toMode c.target).modeDone c.from_

/-! DRAIN (R418 to R421) -/

/-- DRAIN is left for the target. -/
def State.leaveDrain (s : State) (c : Change) : State :=
  { s.toMode c.target with change := some { c with left := true } }

/-- The flits that Skidway adapter `p` holds. -/
def Skw.flits (x : Skw) : List Flit :=
  (x.held.map fun k => k.frame.slots.filterMap id).flatten ++ x.txCur ++ x.schOut.map (·.flit) ++ x.sched.map (·.flit) ++
  x.rxq.map (·.flit) ++ (x.rx ++ x.rxCur.toList).map fun r => { hdr := r.hdr, sc := (r.body.headD (0, 0)).1 }

/-- The conditions of R418; a KNI has sent every packet that it and its adapter hold (R417). -/
def State.drainOver (s : State) (c : Change) : Bool :=
  (List.range 87).all (fun n => (s.niOf n).noQueued) &&
  (List.range 80).all (fun n => (s.niOf n).ledger.all fun (_, e) => !(e.isOpen && e.ord < c.marks.getD n 0)) &&
  (List.range 56).all (fun k => s.rtrEmpty k && (s.rtrOf k).lastFc + s.quiet ≤ s.fc) &&
  (List.range 6).all (fun p => (s.skwOf p).held.isEmpty && (s.skwOf p).flits.isEmpty)

/-- DRAIN ends (R418, R419). -/
def State.drainComplete (s : State) : State :=
  match s.mode, s.change with
  | .drain, some c => if s.held.isNone && s.drainOver c then s.leaveDrain c else s
  | _, _ => s

/-- One packet discarded at the limit of R421. -/
def State.abortPkt (s : State) (w : BitVec 16) (h sc : BitVec 128) : State :=
  s.journal (transitEntry w HANG_ABORT h sc (BitVec.ofNat 64 (pktAddr h sc)))

/-- The flits that router `k` and the links into it hold. -/
def State.rtrFlits (s : State) (k : Nat) : List Flit :=
  let x := s.rtrOf k
  (x.vcs.map fun v => v.2.flits.map (·.flit)).flatten ++ (x.byp.map fun b => b.2.map (·.flit)).flatten ++
  (x.relay.map fun r => r.2.flits.map (·.flit)).flatten ++ ((List.range 8).map fun i => (s.linkOf (linkIn k i)).map (·.flit)).flatten

/-- The packets that NI `n` holds: in its Granary, on its attachment and on their way out. -/
def State.niFlits (s : State) (n : Nat) : List Flit :=
  let x := s.niOf n
  let ofPkt (h : HPkt) : Flit := { hdr := h.hdr, sc := h.sc }
  let ofAsm (a : Asm) : Flit := { hdr := a.hdr, sc := (a.body.headD (0, 0)).1 }
  x.gran.map ofPkt ++ x.answersIn.map ofPkt ++ (x.asm.flatMap fun l => (l.2.filter (!·.discard)).map ofAsm) ++
  (x.schAsm.filter (!·.discard)).map ofAsm ++
  (s.linkOf (linkNi n)).map (·.flit) ++ (x.cur.map (·.flits)).flatten ++ x.schRest

/-- A held frame without its flits. -/
def SkFrame.emptied (k : SkFrame) : SkFrame :=
  { k with frame := Frame.sealed { slots := k.frame.slots.map fun _ => none, fcw := putBits k.frame.fcw 11 0 0 } }

/-- An NI without what the limit discards. -/
def Ni.aborted (x : Ni) : Ni :=
  let x := x.gran.foldl (fun x h => x.freePtags h.pid) x
  { x with gran := [], answersIn := [], byp := [], asm := [], schAsm := [], cur := [], schRest := [], attCred := [], attBusy := [],
           credFly := [], discVc := [] }

/-- What router, NI and adapter hold is discarded, and each discarded packet journaled (R421). -/
def State.abortAll (s : State) : State :=
  let found := ((List.range 56).map fun k => (s.rtrFlits k).map fun f => (whereRtr k, f)).flatten ++
    ((List.range 87).map fun n => (s.niFlits n).map fun f => (whereNi n, f)).flatten ++
    ((List.range 6).map fun p => (s.skwOf p).flits.map fun f => (whereSkw p, f)).flatten
  let once := found.foldl (fun (o : List (BitVec 16 × Flit)) e => if o.any fun g => samePkt g.2.hdr e.2.hdr then o else o ++ [e]) []
  let s := once.foldl (fun s (w, f) => s.abortPkt w f.hdr f.sc) s
  let owed := (List.range 6).map fun p => (p, (((s.skwOf p).rx ++ (s.skwOf p).rxCur.toList).map fun r => (r.pool, r.body.length)) ++
    ((s.skwOf p).rxq.filter fun y => y.owes && !hSch y.flit.hdr).map fun y => (skPool y.flit.hdr y.flit.sc, 1))
  let s := owed.foldl (fun s (p, l) => l.foldl (fun s (i, k) => if i < 9 then s.oweCredits p i k else s) s) s
  { s with rtr := Tbl.mapWith (fun _ => {}) (fun _ x => { lastVc := x.lastVc, lastIn := x.lastIn, lastFc := x.lastFc }) s.rtr,
           links := [], creds := [],
           ni := Tbl.mapWith (fun _ => {}) (fun _ x => x.aborted) s.ni,
           skw := Tbl.mapWith (fun _ => {}) (fun _ x =>
             { x with held := x.held.map SkFrame.emptied, txCur := [], schOut := [], schOpen := [], sched := [], schCur := none, rx := [],
                      rxq := [], rxCur := none }) s.skw }

/-- DRAIN on the way to RECOVERY has lasted its limit (R421). -/
def State.drainLimit (s : State) : State :=
  match s.mode, s.change with
  | .drain, some c =>
    if c.recov && s.held.isNone && c.fc + s.fld RCV_CTRL 23 0 ≤ s.fc then s.abortAll.leaveDrain c else s
  | _, _ => s

/-! FROZEN (R423) -/

/-- The common fc C of a FROZEN request. -/
def State.frozenApply (s : State) : State :=
  if s.frozenAt.isNone || s.held.isSome then s
  else (({ s with frozenAt := none, change := none } : State).toMode .frozen).modeDone s.mode

/-! Switchovers (R148) -/

/-- Boundary B: SWITCHING, and the mode change of an ENTER or a LEAVE. -/
def State.swSwitch (s : State) : State :=
  if s.swState ≠ 3 || s.fc < s.sw.b then s
  else
    let s := s.setFld SW_STAT 2 0 4
    if s.sw.kind = 1 && s.mode = .dynamic then (s.toMode .scheduled).modeDone .dynamic
    else if s.sw.kind = 2 && s.mode = .scheduled then (s.toMode .dynamic).modeDone .scheduled
    else s

/-! Features (R431, R432) -/

/-- The code with which a commit is refused, lowest first. -/
def State.featRefusal (s : State) : Option Nat :=
  let lo := s.rd FEAT_ACCEPT_LO
  let hi := s.rd FEAT_ACCEPT_HI
  if s.mode ≠ .reserved || s.rbit FEAT_STAT 0 then some 1
  else if lo &&& ~~~ s.rd FEAT_OFFER_LO ≠ 0 || hi &&& ~~~ s.rd FEAT_OFFER_HI ≠ 0 then some 2
  else if (bit lo fVARIANTS && !bit lo fSCHEDULED) || (bit lo fLANE && !bit lo fSKIDWAY) then some 3
  else if !bit lo fSKIDWAY && (List.range 6).any (fun p => s.skwState p ≠ 0) then some 4
  else none

/-- A write of 1 to FEAT_COMMIT.commit (R431, R432). -/
def State.featCommit (s : State) : State :=
  match s.featRefusal with
  | some e => ((s.setFld FEAT_STAT 7 4 e).setBit FEAT_STAT 8).pageErr .global 1
  | none => ((s.wr FEAT_ACTIVE_LO (s.rd FEAT_ACCEPT_LO)).wr FEAT_ACTIVE_HI (s.rd FEAT_ACCEPT_HI)).setBit FEAT_STAT 0

/-! Commands -/

/-- MODE_CHANGE_DONE (R416). -/
def execModeChangeDone (s : State) : Out := .next s.changeDone
/-- DRAIN_COMPLETE (R418). -/
def execDrainComplete (s : State) : Out := .next s.drainComplete
/-- DRAIN_LIMIT_EXPIRE (R421). -/
def execDrainLimitExpire (s : State) : Out := .next s.drainLimit
/-- FROZEN_APPLY (R423). -/
def execFrozenApply (s : State) : Out := .next s.frozenApply
/-- PHASE_WINDOW_END (R133). -/
def execPhaseWindowEnd (s : State) : Out := .next s.phaseEnd
/-- HOLDOVER_ENTRY (R132). -/
def execHoldoverEntry (s : State) : Out := .next s.holdover
/-- SW_COMMIT (R147). -/
def execSwCommit (s : State) : Out := .next s.swCommitStep
/-- SW_SWITCH (R148). -/
def execSwSwitch (s : State) : Out := .next s.swSwitch

end Sys2Proof.Machine
end

