-- ==== Sys2Proof/Machine/Reset.lean ====
section
/-! DEFINITION. Supplies and resets (R416, R426 to R430), fuses and test instructions (R425, R495, R496), NI_ALIVE (R221,
R241, R254) and the clock monitors (R411, R412). -/

namespace Sys2Proof.Machine

/-! Cold and warm reset -/

/-- The NIs whose units are alive at a reset: NI_ALIVE must be seen low first (R241). -/
def State.heldUnits (s : State) : Tbl Ni :=
  ((List.range 80).filter fun n => bit s.niAlive n).map fun n => (n, { mustFall := true })

/-- Cold reset: pins, clocks, the eFuse array and the commands that wait are all that is not at its reset value (R426). -/
def State.coldState (s : State) : State :=
  { pending := s.pending, fclkMHz := s.fclkMHz, tclkMHz := s.tclkMHz, draws := s.draws, niAlive := s.niAlive,
    pwrOk := s.pwrOk, coldPin := s.coldPin, warmPin := s.warmPin, efuse := s.efuse, mode := .cold, held := some .cold,
    ni := s.heldUnits, lni := s.lni.lost }

/-- PWR_OK low: mode OFF, and no state is kept (R415). -/
def State.offState (s : State) : State :=
  { s.coldState with pwrOk := false, mode := .off, held := none, lni := {} }

/-- Addresses whose registers a warm reset keeps (R427). -/
def warmKeeps (a : Nat) : Bool :=
  (0x1000 ≤ a && a < 0x2000) || (0x6000 ≤ a && a < 0x7000) || a = JRN_WIDX || a = FUSE_STAT || a = RST_STAT

/-- Warm reset (R427): what domain 62 holds, the route store and the rule pool stay. -/
def State.warmState (s : State) : State :=
  let off := s.boom.filter fun b => b.2.st = .off
  let inOff (n : Nat) : Bool := n < 80 && off.any fun b => b.1 = niTile n
  let s' : State :=
    { s.coldState with
      fc := s.fc, mc := s.mc, mAcc := s.mAcc, tAcc := s.tAcc, time := s.time, jring := s.jring, fuseShadow := s.fuseShadow,
      held := some .warm, regs := Tbl.keep warmKeeps s.regs, hung := s.hung.filter fun p => p = 1 || p = 6,
      banks := Tbl.mapWith (fun _ => {}) (fun _ b => { ent := b.ent }) s.banks, rules := { ent := s.rules.ent },
      boom := off,
      quiesceReq := (List.range 80).foldl (fun v n => if inOff n then v else putBit v n false) s.quiesceReq,
      quiesceAck := (List.range 80).foldl (fun v n => if inOff n then v else putBit v n false) s.quiesceAck }
  ((s'.clrBit 0x1010 2).clrBit 0x6010 2).satFld RST_STAT 15 8 1

/-- A warm reset of a cause of RST_STAT; while test_lock is set it acts as a cold reset (R425). -/
def State.warmReset (s : State) (cause : Nat) : State :=
  (if s.testLock then s.coldState else s.warmState).setFld RST_STAT 1 0 cause

/-- PWR_OK rises (R416, R426). -/
def State.powerUp (s : State) : State := if s.pwrOk then s else { s.offState with pwrOk := true, mode := .cold, held := some .cold }

/-- RST_COLD_N falls. -/
def State.coldAssert (s : State) : State :=
  let s' := { s with coldPin := true }
  if s.coldPin || !s.pwrOk then s' else s'.coldState.setFld RST_STAT 1 0 1

/-- The instance leaves COLD: for FUSE after a cold reset, for CALIBRATE after a warm one (R416), whose crossings are then resynchronised (R408, log 137). -/
def State.leaveCold (s : State) : State :=
  match s.held with
  | some .cold => ({ s with held := none, mode := .fuse } : State).modeDone .cold
  | some .warm => ({ s with held := none, mode := .calibrate, eng := { s.eng with syncFc := s.fc + 48 } } : State).modeDone .cold
  | none => s

/-- A reset still holds the instance: RST_COLD_N, RST_WARM_N or the 1 µs of RST_CTRL.warm (R426). -/
def State.stillHeld (s : State) : Bool := s.coldPin || s.warmPin || (match s.warmUntil with | some t => decide (s.mc < t) | none => false)

/-- The instance leaves COLD once nothing holds it. -/
def State.tryLeave (s : State) : State :=
  if s.stillHeld || !s.pwrOk then s else ({ s with warmUntil := none } : State).leaveCold

/-- RST_COLD_N rises. -/
def State.coldRelease (s : State) : State := ({ s with coldPin := false } : State).tryLeave

/-- RST_WARM_N falls. In FUSE with a fuse error the instance waits for a cold reset (R430). -/
def State.warmAssert (s : State) : State :=
  let s' := { s with warmPin := true }
  if s.warmPin || !s.pwrOk || s.held = some .cold || (s.mode = .fuse && s.rbit FUSE_STAT 4) then s' else s'.warmReset 2

/-- RST_WARM_N rises, or the time of RST_CTRL.warm ends. -/
def State.warmRelease (s : State) : State := ({ s with warmPin := false } : State).tryLeave

/-- RST_CTRL.warm: RST_WARM_N held low for 1 µs, 800 mc; in FUSE with a fuse error it does nothing (R430). -/
def State.warmCommand (s : State) : State :=
  if s.mode = .fuse && s.rbit FUSE_STAT 4 then s
  else
    let s := s.warmReset 3
    { s with warmUntil := some (s.mc + 800) }

/-- A write of RST_CTRL (R438). -/
def State.rstCtrl (s : State) (v : Word) : State :=
  if bit v 0 then s.warmCommand else if bit v 1 then s.tileReset (getBits v 13 8) else s

/-! Fuses and test instructions -/

/-- The eFuse read ends, with or without a word that fails its check (R430). -/
def State.fuseDone (s : State) (bad : Bool) : State :=
  if s.mode ≠ .fuse || s.held.isSome || s.rbit FUSE_STAT 4 then s
  else if bad then (s.setBit FUSE_STAT 4).pageErr .global 2
  else
    let f := s.efuse
    let s := ((s.setFld FUSE_STAT 2 0 f.die.toNat).setFld FUSE_STAT 15 8 f.repairs.toNat).setBit FUSE_STAT 3
    ({ s with fuseShadow := f, mode := .calibrate } : State).modeDone .fuse

/-- The IDCODE register (R496). -/
def idcode (f : FuseImage) : Nat := 0x2 * 2 ^ 28 + 0x0B24 * 2 ^ 12 + f.mfr.toNat * 2 + 1

/-- A test instruction that only reads (R425, R496): BYPASS and IDCODE on TDO, a wrapper register on WSO. What a wrapper register holds is a free value (log 1). -/
def State.testRead (s : State) (t : TestRead) : State :=
  if !s.pwrOk then s else
  match t with
  | .bypass => { s with tdo := some 0 }
  | .idcode => { s with tdo := some (BitVec.ofNat 64 (idcode s.efuse)) }
  | .wrapper => ({ s with wso := s.freeNow } : State).drawn

/-- Test instructions that change state are accepted in TEST (R425). -/
def State.testOk (s : State) : Bool := s.mode = .test && s.held.isNone

/-- A test instruction drives words of the functional state. -/
def State.testDrive (s : State) (l : List (Nat × Word)) : State :=
  if s.testOk then { s.wrAll l with testLock := true } else s

/-- The eFuse programming instruction with EFUSE_PGM at a level (R495). -/
def State.efuseProgram (s : State) (pgm : Bool) (img : FuseImage) : State :=
  if s.testOk && pgm then { s with efuse := img, testLock := true } else s

/-! NI_ALIVE -/

/-- The credits of a start in the order of their return: one in a unit cycle, in ascending class order (R241). -/
def startOrder (start : Tbl Nat) : List Nat := (start.map fun e => List.replicate e.2 e.1).flatten

/-- The channel of a unit starts with the credits `start` of its registers (R241). -/
def Ni.channelStart (x : Ni) (start : Tbl Nat) : Ni :=
  { x with started := true, mustFall := false, inStart := start, inCred := [], inRet := startOrder start,
           outCred := [], outq := [], devD := 0 }

/-- NI_ALIVE of NI `n` rises: the channel starts with the credits of its registers (R241, R485). In QUIESCED the unit's
QUIESCE_REQ rises (R401). -/
def State.aliveRise (s : State) (n : Nat) : State :=
  if bit s.niAlive n then s
  else
    let s := { s with niAlive := putBit s.niAlive n true }
    if s.held.isSome || !s.tileOn (niTile n) || s.mode = .off || s.mode = .fuse then s.modNi n fun x => { x with mustFall := true }
    else
      let start := ((List.range 16).map fun c => (c, if Config.niKind n = .pni
          then s.fld (PMC_CRED n (c / 4)) (c % 4 * 8 + 7) (c % 4 * 8) else 8)).filter fun e => e.2 ≠ 0
      let s := s.modNi n (·.channelStart start)
      if s.dom (niTile n) = BoomState.quiesced then { s with quiesceReq := putBit s.quiesceReq n true } else s

/-- Entry `k` ends with SQUASH without a Journal entry (R221). -/
def State.squashQuiet (s : State) (n k : Nat) : State :=
  let e := (s.niOf n).led k
  let s := s.modNi n fun x => (x.modLed k fun e => { e with st := .failed, code := SQUASH }).barNote e SQUASH
  (s.countEnd n k).modNi n fun x => x.freeEntry k

/-- A queued part is discarded at a unit reset: its lines take SQUASH (R221). A repeated EH_RD is not sent, and its entry is
left to its timer (R274). -/
def State.squashPart (s : State) (n : Nat) (it : QItem) : State :=
  let k := tagKey it.tag
  let e := (s.niOf n).led k
  if !e.isOpen || it.retry then s
  else if e.parts.isEmpty then s.squashQuiet n k
  else s.failLines n k ((List.range it.left).map (it.lidx + ·)) SQUASH

/-- A unit's queued request that is not posted. -/
def QItem.squashed (it : QItem) : Bool := it.owner = .unit && !it.wcb && !tagPosted it.tag

/-- Lines of a posted message that its unit never presented: they take SQUASH, and what was taken is injected. -/
def QItem.short (it : QItem) : Bool :=
  it.owner = .unit && tagPosted it.tag && !it.wcb && it.pkt.isNone && dataCls it.cls && it.body.length < it.lines

/-- The queues of NI `n` at a unit reset (R221). -/
def State.squashQueues (s : State) (n : Nat) : State :=
  let all := ((s.niOf n).queues.map fun q => q.2).flatten
  let s := s.modNi n fun x =>
    { x with burst := [],
             queues := Tbl.mapWith (fun _ => []) (fun _ q => (q.filter fun it => !it.squashed && !(it.short && it.body.isEmpty)).map fun it =>
               if it.short then { it with lines := it.body.length, failN := 0 } else it) x.queues }
  let s := (all.filter QItem.squashed).foldl (fun s it => s.squashPart n it) s
  (all.filter QItem.short).foldl (fun s it => s.failLines n (tagKey it.tag)
    ((List.range (it.left - it.body.length)).map (it.lidx + it.body.length + ·)) SQUASH) s

/-- NI_ALIVE of NI `n` falls: a unit reset (R204, R221, R226, R230, R231, R254). -/
def State.aliveFall (s : State) (n : Nat) : State :=
  if !bit s.niAlive n then s
  else
    let s := { s with niAlive := putBit s.niAlive n false }
    let s := s.modNi n fun x => { x with mustFall := false }
    if !(s.niOf n).started || s.held.isSome || !s.tileOn (niTile n) then s.modNi n fun x => { x with started := false }
    else
      let s := s.modNi n fun x => (x.closeAll s.fc)
      let s := s.squashQueues n
      let s := s.dropUnitWork n
      let own := (s.niOf n).own
      let s := own.foldl (fun s o => s.rsvClr n o) s
      let s := s.modNi n fun x =>
        { x with started := false, inStart := [], inCred := [], inRet := [], outCred := [], outq := [], bars := [], own := [], backoff := [],
                 holds := x.holds.map fun h => { h with hold := false },
                 ledger := Tbl.mapWith (fun _ => {}) (fun _ e => if e.isOpen && e.owner = .unit then { e with mute := true } else e) x.ledger }
      let me := s.node n
      let s := forN 87 (fun m s => (s.modNi m fun x => x.clearMons fun o => o.src = me)) s
      let s := forN 80 (fun m s => s.arbYield m) s
      s.releases n

/-! Clocks that stop -/

/-- A monitor sets its sticky bit of POWER, and clk_stop (R411, R414). -/
def State.clkBit (s : State) (a i : Nat) : State := (s.setBit a i).pageErr .power 2

/-- A monitored clock is seen stopped (R411, R412). A sticky bit that stays set gives one fault (R458). -/
def State.clockStop (s : State) (c : ClockId) : State :=
  if !s.pwrOk || s.held = some .cold then s else
  match c with
  | .fclk => s.clkBit CLK_STAT 0
  | .mclk => { s.clkBit CLK_STAT 1 with mclkOff := true }
  | .tclk =>
    let t := (s.clkBit CLK_STAT 2).enterHoldover
    if s.rbit CLK_STAT 2 then t else t.ladder .time 6 0
  | .eclk => s.clkBit CLK_STAT 3
  | .phy p => (s.clkBit CLK_STAT (4 + p.val)).linkLoss p.val
  | .unit n =>
    let a := UCLK_STOP0 + 4 * (n.val / 32)
    let t := s.clkBit a (n.val % 32)
    if s.rbit a (n.val % 32) then t else t.tileFault (niTile n.val) 4 n.val

/-! Commands -/

/-- PWR_OK_RISE (R416). -/
def execPwrOkRise (s : State) : Out := .next s.powerUp
/-- PWR_OK_FALL (R416). -/
def execPwrOkFall (s : State) : Out := .next s.offState
/-- COLD_RESET_ASSERT (R426). -/
def execColdResetAssert (s : State) : Out := .next s.coldAssert
/-- COLD_RESET_RELEASE (R426). -/
def execColdResetRelease (s : State) : Out := .next s.coldRelease
/-- WARM_RESET_ASSERT (R427). -/
def execWarmResetAssert (s : State) : Out := .next s.warmAssert
/-- WARM_RESET_RELEASE (R426). -/
def execWarmResetRelease (s : State) : Out := .next s.warmRelease
/-- FUSE_DONE (R430). -/
def execFuseDone (bad : Bool) (s : State) : Out := .next (s.fuseDone bad)
/-- EFUSE_PROGRAM (R495). -/
def execEfuseProgram (pgm : Bool) (img : FuseImage) (s : State) : Out := .next (s.efuseProgram pgm img)
/-- TEST_READ_INSTRUCTION (R425). -/
def execTestReadInstruction (t : TestRead) (s : State) : Out := .next (s.testRead t)
/-- TEST_STATE_INSTRUCTION (R425). -/
def execTestStateInstruction (drives : List (Nat × Word)) (s : State) : Out := .next (s.testDrive drives)
/-- NI_ALIVE_RISE (R241). -/
def execNiAliveRise (n : Fin 80) (s : State) : Out := .next (s.aliveRise n)
/-- NI_ALIVE_FALL (R221). -/
def execNiAliveFall (n : Fin 80) (s : State) : Out := .next (s.aliveFall n)
/-- CLOCK_STOP_DETECT (R411). -/
def execClockStopDetect (c : ClockId) (s : State) : Out := .next (s.clockStop c)

end Sys2Proof.Machine
end

