-- ==== Sys2Proof/Machine/Ladder.lean ====
section
/-! DEFINITION. The escalation ladder: its faults, recovery windows and rungs (R458 to R461). -/

namespace Sys2Proof.Machine

/-- Where a FAULT entry says the fault lies, and the NI it names (R449, R458). -/
def DueFault.where_ (f : DueFault) : BitVec 16 :=
  match f.cause with
  | 1 | 2 | 3 => whereRtr f.who
  | 4 | 5 => wherePower + BitVec.ofNat 16 f.who
  | _ => wherePower

/-- The Journal entry of a fault that no other rule journals (R458). -/
def State.faultJ (s : State) (f : DueFault) : State :=
  if f.cause = 0 then s
  else s.journal { kind := kFAULT, where_ := f.where_, tgt := if f.cause = 4 then s.node f.who else 0, detail := BitVec.ofNat 16 f.cause }

/-- The rung, and the item as ESC_LAST gives it (R463). -/
def itemRung : FaultItem → Nat
  | .partition _ => 1 | .tile _ => 2 | _ => 3
def itemNumber : FaultItem → Nat
  | .partition p => p.toNat | .tile k => k.val | .time => 0 | .schedule => 1 | .bank c => 2 + c.val
/-- The partition of an item, and the index of its `where` field. -/
def itemPart : FaultItem → Option (BitVec 9)
  | .partition p => some p | _ => none
def itemIndex : FaultItem → Nat
  | .tile k => k.val | .bank c => c.val | _ => 0

/-- An escalation is recorded (R450, R460, R463). -/
def State.escalated (s : State) (it : FaultItem) (took : Bool) : State :=
  let r := (itemRung it)
  let hi := if took then 8 * r - 1 else 31
  let s := s.satFld ESC_STAT hi (hi - 7) 1
  let s := (((s.setFld ESC_LAST 1 0 r).setFld ESC_LAST 10 2 (itemNumber it)).setBit ESC_LAST 31).pageErr .journal 1
  s.journal { code := if r = 1 && took then SQUASH else 0, kind := kESCALATE, where_ := whereLadder + BitVec.ofNat 16 (itemIndex it),
              part := (itemPart it), detail := BitVec.ofNat 16 (r + flag (!took) * 256) }

/-- Rung 1: RESET_SQUASH of a partition (R460). -/
def State.escPartition (s : State) (p : BitVec 9) : State :=
  let st := s.partState p.toNat
  let start := st ≠ 0 && st ≠ 1 && st ≠ 6 && (s.opRefusal p.toNat 6).isNone
  let s := if st = 0 || st = 1 || st = 6 then s else s.partOp p.toNat 6
  let s := s.escalated (.partition p) start
  if start then s.partEvent p.toNat 0x23 1 else s

/-- Rung 3: a request for RECOVERY. -/
def State.escFabric (s : State) (it : FaultItem) : State :=
  let (s, took) := s.recover
  s.escalated it took

/-- QUIESCE of a tile as the ladder asks for it, and what it was refused with. -/
def State.escQuiesce (s : State) (k : Nat) : State × Option Nat := s.boomAsk k 1

/-- The domain of the Skidway port whose KNI tile `k` hosts. -/
def tilePort (k : Nat) : Option Nat := if k % 7 = 6 && k / 7 < 6 then some (56 + k / 7) else none

/-- The tile that waits for domain `d` to reach OFF is quiesced, or its escalation is abandoned (R460). -/
def State.escCheck (s : State) (d : Nat) : State :=
  let k := 7 * (d - 56) + 6
  if d < 56 || !s.escWait.contains k then s
  else
    let b := s.boomOf d
    let drop (s : State) : State := { s with escWait := s.escWait.filter (· ≠ k) }
    if b.st = .off then
      match (drop s).escQuiesce k with
      | (s, some 5) => s.escFabric .schedule
      | (s, _) => s
    else if b.tgtOff && b.st ≠ .waking then s else drop s

/-- QUIESCE of a tile, with the record of the escalation: one refused with SCHED is a fault of the schedule. -/
def State.escBoom (s : State) (k : Fin 56) : State :=
  match s.escQuiesce k.val with
  | (s, none) => s.escalated (.tile k) true
  | (s, some 5) => s.escFabric .schedule
  | (s, some _) => s.escalated (.tile k) false

/-- Rung 2: Boom of a tile. One that is not OPEN is left as it is (R461). -/
def State.escTile (s : State) (k : Fin 56) : State :=
  if s.dom k.val ≠ .open_ then s.escalated (.tile k) false
  else match tilePort k.val with
  | some d =>
    if s.dom d = .off then s.escBoom k
    else
      match s.boomAsk d 2 with
      | (s, none) => (({ s with escWait := s.escWait ++ [k.val] } : State).escalated (.tile k) true).escCheck d
      | (s, some _) => s.escalated (.tile k) false
  | none => s.escBoom k

/-- The rung of an item (R460). -/
def State.escalate (s : State) (it : FaultItem) : State :=
  match it with
  | .partition p => s.escPartition p
  | .tile k => s.escTile k
  | it => s.escFabric it

/-- The recovery window of an item that is open. -/
def State.winOpen (s : State) (it : FaultItem) : Bool := s.wins.any fun w => w.item = it && s.mc < w.until_

/-- The windows of an item close. -/
def State.winClose (s : State) (it : FaultItem) : State := { s with wins := s.wins.filter fun w => w.item ≠ it }

/-- The oldest fault of an item that waits reaches the ladder (R459). -/
def State.ladderFault (s : State) (it : FaultItem) : State :=
  match s.due.find? fun f => f.item = it with
  | none => s
  | some f =>
    let s := ({ s with due := eraseFirst (fun g => g.item = it) s.due } : State).faultJ f
    if s.winOpen it then (s.winClose it).escalate it
    else
      let w : EscWindow := { item := it, until_ := s.mc + max (s.fld ESC_WIN 19 0) 1 * 800 }
      let s := s.winClose it
      { s with wins := s.wins ++ [w] }

/-- A window has lasted its time (R459). -/
def State.winExpire (s : State) (it : FaultItem) : State := if s.winOpen it then s else s.winClose it

/-! Commands -/

/-- LADDER_FAULT (R459). -/
def execLadderFault (it : FaultItem) (s : State) : Out := .next (s.ladderFault it)
/-- ESC_WINDOW_EXPIRE (R459). -/
def execEscWindowExpire (it : FaultItem) (s : State) : Out := .next (s.winExpire it)
/-- BOOM_QUIESCE_DONE (R401). -/
def execBoomQuiesceDone (d : Fin 64) (s : State) : Out := .next ((s.quiesceEnd d).escCheck d)

end Sys2Proof.Machine
end

