-- ==== Sys2Proof/Machine/Tally.lean ====
section
/-! DEFINITION. Tally beside the counting itself: the counter window (R374, R377), the distributed commands (R378) and the
records of probes (R382 to R385). -/

namespace Sys2Proof.Machine

/-! The counter window -/

/-- The latch of a word for a master (R9, R130, R377). -/
def latchKey (m a : Nat) : Nat := m * 2 ^ 26 + a
def State.latch (s : State) (m a : Nat) : Option Word := Tbl.get (fun _ => none) s.latches (latchKey m a)
def State.setLatch (s : State) (m a : Nat) (v : Option Word) : State :=
  { s with latches := Tbl.set (fun _ => none) (latchKey m a) v s.latches }

/-- The code counts something on counter `i` (R379). -/
def cntCode (i code : Nat) : Bool :=
  code = 0 ||
  (if i < 448 then 1 ≤ code && code ≤ 0x0D
   else if i < 1144 then code = 1 || (0x20 ≤ code && code ≤ 0x39)
   else 0x60 ≤ code && code ≤ 0x6A)

/-- val_lo staged by master `m`; each master has one staging register (R374). -/
def State.cntStage (s : State) (m i : Nat) (v : Word) : State :=
  { s with tally := { s.tally with stage := Tbl.set (fun _ => none) m (some (i, v)) s.tally.stage } }

/-- A commit by master `m` (R374). -/
def State.cntCommit (s : State) (m i : Nat) (v : Word) : State :=
  let lo := ((Tbl.get (fun _ => none) s.tally.stage m).map fun x => x.2.toNat).getD 0
  let s := ((s.cntLose i).keepWas (CNT i 1)).setCnt i (lo + getBits v 15 0 * 2 ^ 32)
  { s with tally := { s.tally with stage := Tbl.set (fun _ => none) m none s.tally.stage } }

/-- A write of word 2 of counter `i` (R374, R379). -/
def State.cntConfig (s : State) (i : Nat) (v : Word) : State :=
  let s := (s.keepWas (CNT i 2)).wr (CNT i 2) (v &&& 0xFFFFF)
  if cntCode i (getBits v 7 0) then s else (s.setBit TLY_STAT 1).pageErr .tally 0

/-- A read of word 0 of counter `i` by master `m`: the rest of the value is latched, and both words of a chained partner
(R377). Of a pair no longer chained the words latched with it go. -/
def State.cntRead (s : State) (m i : Nat) : Word × State :=
  match (if i % 2 = 1 then s.latch m (CNT i 0) else none) with
  | some w => (w, s)
  | none =>
    let s := s.setLatch m (CNT i 1) (some (s.rd (CNT i 1) &&& 0xFFFF))
    let s := if s.chained i then
        (s.setLatch m (CNT (i + 1) 0) (some (s.rd (CNT (i + 1) 0)))).setLatch m (CNT (i + 1) 1) (some (s.rd (CNT (i + 1) 1)))
      else if i % 2 = 0 && (s.latch m (CNT (i + 1) 0)).isSome then
        (s.setLatch m (CNT (i + 1) 0) none).setLatch m (CNT (i + 1) 1) none
      else s
    (s.rd (CNT i 0), s)

/-- Every counter, ovf and PRB_CNT cleared (R388). -/
def State.tlyClear (s : State) : State :=
  let hit (a : Nat) : Bool := (0x3000000 ≤ a && a < 0x3004F80 && a % 16 ≠ 8) || (0x5200 ≤ a && a < 0x52A0) ||
    (0x5800 ≤ a && a < 0x5C00 && ((a - 0x5800) % 64 = 0x20 || (a - 0x5800) % 64 = 0x24))
  { s with regs := Tbl.keep (fun a => !hit a) s.regs }

/-- A counter that overflows counts `add` events (R376); the upper half of a pair has no event of its own, and an overflow in
the fc C of a freeze still counts (R387). -/
def State.cntOverflow (s : State) (i add : Nat) : State :=
  let frozen := if i < 1144 then s.tally.frozen && s.tally.frozenFc ≠ s.fc else s.tally.frozenG
  let tops := if s.chained i then decide (2 ^ 96 ≤ s.cntVal i + s.cntVal (i + 1) * 2 ^ 48 + add) else decide (2 ^ 48 ≤ s.cntVal i + add)
  if tops && !frozen && !(i % 2 = 1 && s.chained (i - 1)) && (cntTile i).all s.tileOn then s.addCnt i add else s

/-! Freeze and snapshot (R378) -/

/-- A command starts on the distribution path. -/
def State.tlySend (s : State) (c : TlyCmd) : State := { s with tally := { s.tally with cmds := s.tally.cmds ++ [(c, s.mc)] } }

/-- A clr_all of this mc makes the copies of a snapshot taken in it zero (R387). -/
def State.tlyZero (s : State) : State :=
  { s with tally := { s.tally with clrMc := s.mc + 1, cmds := s.tally.cmds.map fun c =>
      if c = (.snapshot, s.mc) then (.snapZero, s.mc) else c } }

/-- A write of TLY_CTRL: clr_all acts at once, freeze in the common fc C. -/
def State.tlyCtrl (s : State) (v : Word) : State :=
  let s := s.setFld TLY_CTRL 0 0 (flag (bit v 0))
  let s := if bit v 1 then s.tlyClear.tlyZero else s
  s.tlySend (if bit v 0 then .freeze else .unfreeze)

/-- A write of TLY_SNAP. -/
def State.tlySnap (s : State) (v : Word) : State :=
  let s := s.w1c TLY_SNAP (v &&& 2)
  if bit v 0 then (s.setBit TLY_SNAP 2).tlySend (if s.tally.clrMc = s.mc + 1 then .snapZero else .snapshot) else s

/-- The snapshot word `w` of counter `i` (R375). -/
abbrev SNAP (i w : Nat) : Nat := 0x3008000 + 8 * i + 4 * w

/-- The copy of counter `i`: zero with absent set where its tile is not OPEN (R375), and zero with `z` (R387). -/
def State.snapOne (s : State) (z : Bool) (i : Nat) : State :=
  if (cntTile i).any s.fenced then (s.wr (SNAP i 0) 0).wr (SNAP i 1) 0x80000000
  else if z then (s.wr (SNAP i 0) 0).wr (SNAP i 1) 0
  else (s.wr (SNAP i 0) (s.rd (CNT i 0))).wr (SNAP i 1) (s.rd (CNT i 1) &&& 0xFFFF)

/-- The copies of the counters of routers and NIs, and of the global ones (R378). -/
def State.snapTiles (s : State) (z : Bool) : State := forN 1144 (fun i s => s.snapOne z i) s
def State.snapGlobal (s : State) (z : Bool) : State := forN 128 (fun i s => s.snapOne z (1144 + i)) s

/-- The copies are being written from now on (R378). -/
def State.snapBegun (s : State) : State := { s with tally := { s.tally with snapAt := some s.mc } }

/-- The time a snapshot was taken (R378). -/
def State.snapTime (s : State) (t : Nat) : State :=
  (s.setFld TLY_SNAP_T_LO 31 0 t).setFld TLY_SNAP_T_HI 31 0 (t / 2 ^ 32)

/-- The counters of routers and NIs act on a command at the start of fc C (R378). -/
def State.tlyAct (s : State) (c : TlyCmd) : State :=
  match c with
  | .freeze => { s with tally := { s.tally with frozen := true, frozenFc := s.fc } }
  | .unfreeze => ({ s with tally := { s.tally with frozen := false } } : State).clrBit TLY_STAT 0
  | .snapshot => ((s.snapTiles false).snapTime s.nowNs).snapBegun
  | .snapZero => ((s.snapTiles true).snapTime s.nowNs).snapBegun

/-- The global counters act on it at the first mc edge at or after C; every counter has acted then (R378). -/
def State.tlyActG (s : State) (c : TlyCmd) : State :=
  match c with
  | .freeze => ({ s with tally := { s.tally with frozenG := true } } : State).setBit TLY_STAT 0
  | .unfreeze => { s with tally := { s.tally with frozenG := false } }
  | .snapshot => s.snapGlobal false
  | .snapZero => s.snapGlobal true

/-- The fc that starts is C of the commands that wait for it (R378). -/
def State.tlyFc (s : State) : State :=
  s.tally.acting.foldl (·.tlyAct ·)
    { s with tally := { s.tally with acting := [], actingG := s.tally.actingG ++ s.tally.acting } }

/-- The distribution path delivers: the oldest command and those sent in its mc act in the next fc, their common C (R378). -/
def State.tlyApply (s : State) : State :=
  match s.tally.cmds with
  | [] => s
  | (_, m) :: _ =>
    { s with tally := { s.tally with cmds := s.tally.cmds.filter fun c => c.2 ≠ m,
                                     acting := s.tally.acting ++ (s.tally.cmds.filter fun c => c.2 = m).map (·.1) } }

/-- The copies of the counters of a tile that is off are absent (R387). -/
def State.snapLost (s : State) : State :=
  let off (k : Nat) : Bool := match s.dom k with | .off => true | _ => false
  forN 1272 (fun i s => if (cntTile i).any off then (s.wr (SNAP i 0) 0).wr (SNAP i 1) 0x80000000 else s) s

/-- A command is a snapshot. -/
def TlyCmd.snaps (c : TlyCmd) : Bool := c = .snapshot || c = .snapZero

/-- A snapshot has been asked for and has not yet acted (R378). -/
def Tally.snapsLeft (x : Tally) : Bool := (x.cmds.any fun c => c.1.snaps) || x.acting.any (·.snaps)

/-- Every copy of a snapshot is written; those of a tile switched off meanwhile are absent (R378, R387). -/
def State.tlyDone (s : State) : State :=
  match s.tally.snapAt with
  | none => s
  | some _ =>
    if s.tally.actingG.any (·.snaps) then s
    else
      let s := s.snapLost
      let s := { s with tally := { s.tally with snapAt := none } }
      (s.setBit TLY_SNAP 1).setFld TLY_SNAP 2 2 (flag s.tally.snapsLeft)

/-- An mc begins: the global counters act, a command acts within 32 mc of its write, and a snapshot is done within 64 mc of
its C (R378). -/
def State.tlyMc (s : State) : State :=
  let s := s.tally.actingG.foldl (·.tlyActG ·) { s with tally := { s.tally with actingG := [] } }
  let s := match s.tally.cmds with | (_, m) :: _ => if m + 31 ≤ s.mc then s.tlyApply else s | [] => s
  match s.tally.snapAt with | some m => if m + 64 ≤ s.mc then s.tlyDone else s | none => s

/-! Probe records (R382 to R385) -/

/-- The bytes of record `r` of probe `j` (R382). -/
def State.recBytes (s : State) (j : Nat) (r : PRec) (gap : Bool) : List (BitVec 8) :=
  leBytes 16 r.hdr.toNat ++ leBytes 8 r.t ++ leBytes 4 (s.rd (PRB_WIDX j)).toNat ++
  leBytes 2 (r.pos + j * 2 ^ 10 + flag gap * 2 ^ 14 + flag r.full * 2 ^ 15) ++ leBytes 2 r.at_ ++
  (if r.full then leBytes 16 r.sc.toNat ++ leBytes 64 r.data.toNat ++ leBytes 8 r.chk.toNat ++ leBytes 8 0 else [])

/-- The oldest buffered record of probe `j` is written to its ring, or dropped (R383 to R385). It waits while no Ledger
entry is free. -/
def State.probeWrite (s : State) (j : Nat) : State :=
  match Tbl.get (fun _ => []) s.tally.buf j with
  | [] => s
  | r :: rest =>
    let s' : State := { s with tally := { s.tally with buf := Tbl.set (fun _ => []) j rest s.tally.buf } }
    let w := s.rd (PRB_WIDX j)
    let size := 2 ^ s.fld (PRB_RING_CFG j) 20 16
    let limit := (s.rd (PRB_LIMIT j)).toNat
    let wrote := Tbl.get (fun _ => 0) s.tally.wrote j
    if s.rbit (PRB_STAT j) 16 then s'
    else if !s.rbit (PRB_CTRL j) 2 && size ≤ (w - s.rd (PRB_RIDX j)).toNat then s'.probeDrop j
    else
      let bytes := s.recBytes j r (Tbl.get (fun _ => false) s.tally.gap j)
      let len := bytes.length
      let base := (s.fld (PRB_RING_HI j) 19 0 * 2 ^ 32 + s.fld (PRB_RING_LO j) 31 5 * 32) / len * len
      let a := (base + len * (w.toNat % size)) % 2 ^ 52
      let body := recFlits a bytes
      match s'.sendVia (76 + s.fld (PRB_RING_CFG j) 1 0) (s.fld (PRB_RING_CFG j) 15 8) (.probe j) cRWD (sOpc (body.headD (0, 0)).1) false
          (.addr (BitVec.ofNat 52 a)) 0 a body with
      | none => s
      | some s =>
        let s := { s with tally := { s.tally with gap := Tbl.set (fun _ => false) j false s.tally.gap,
                                                  wrote := Tbl.set (fun _ => 0) j (wrote + 1) s.tally.wrote } }
        let s := s.wrapFld (PRB_WIDX j) 31 0 1
        if limit ≠ 0 && limit ≤ wrote + 1 then s.setBit (PRB_STAT j) 16 else s

/-- A write of PRB_CTRL (R382, R384). -/
def State.prbCtrl (s : State) (j : Nat) (v : Word) : State :=
  let old := Tbl.get (fun _ => 0) s.tally.ringMode j
  let new := getBits v 1 0
  let s := (s.wr (PRB_CTRL j) (v &&& 0x1FFF)).clrBit (PRB_STAT j) 16
  let s := { s with tally := { s.tally with wrote := Tbl.set (fun _ => 0) j 0 s.tally.wrote,
                                            cur := if new = 3 then s.tally.cur else Tbl.set (fun _ => []) j [] s.tally.cur } }
  if new < 2 then s
  else
    let s : State := { s with tally := { s.tally with ringMode := Tbl.set (fun _ => 0) j new s.tally.ringMode } }
    if old ≠ 0 && old ≠ new then s.wr (PRB_WIDX j) 0 else s

/-! Commands -/

/-- COUNTER_OVERFLOW (R376). -/
def execCounterOverflow (i : Fin 1272) (add : Nat) (s : State) : Out := .next (s.cntOverflow i add)
/-- TALLY_COMMAND_APPLY (R378). -/
def execTallyCommandApply (s : State) : Out := .next s.tlyApply
/-- TALLY_SNAPSHOT_DONE (R378). -/
def execTallySnapshotDone (s : State) : Out := .next s.tlyDone
/-- PROBE_RECORD_WRITE (R382). -/
def execProbeRecordWrite (j : Fin 16) (s : State) : Out := .next (s.probeWrite j)

end Sys2Proof.Machine
end

