-- ==== Sys2Proof/Machine/Pages.lean ====
section
/-! DEFINITION. The register pages: what a read of a register returns (R9, R10, R473), which bits a write reaches (R5, R6,
R10, R468), and the effect of a write on each page (R465, R471 and the register tables). -/

namespace Sys2Proof.Machine

/-! Inert and blocked bits -/

/-- Every bit of a register. -/
abbrev allBits : Word := 0xFFFFFFFF

/-- Offsets of the SCHED page that belong to the feature SCHEDULED (R6). -/
def schedOwned (o : Nat) : Bool :=
  o ≤ 0x10C || (0x140 ≤ o && o ≤ 0x148) || o = 0x170 || (0x400 ≤ o && o < 0x4E0) || (0x500 ≤ o && o < 0x65C) ||
  (0x800 ≤ o && o < 0xA00)

/-- Offsets of the FOREMAN page that belong to the feature FOREMAN (R6). -/
def foremanOwned (o : Nat) : Bool := (0x100 ≤ o && o ≤ 0x120) || (0x128 ≤ o && o ≤ 0x130)

/-- The bits of the register at offset `o ≥ 0x100` of a page that are inert: a feature they belong to is not active (R5,
R6). -/
def State.inert (s : State) (p : Page) (o : Nat) : Word :=
  let all (b : Bool) : Word := if b then allBits else 0
  match p with
  | .global => if o = 0x108 && !s.feat fRING then 1 else 0
  | .foreman => all ((foremanOwned o && !s.feat fFOREMAN) || (o = 0x114 && !s.feat fVARIANTS))
  | .sched =>
    if schedOwned o && !s.feat fSCHEDULED then allBits
    else if o = 0x148 && !s.feat fVARIANTS then 0x72 else 0
  | .ni _ =>
    all ((o = 0x310 && !s.feat fRESERVED_RW) || (o = 0x300 && !s.feat fWCB) ||
      ((o = 0x388 || o = 0x38C || o = 0x390) && !s.feat fDEVLOAD))
  | .router _ => all (0x400 ≤ o && !s.feat fSHEAF)
  | .skidway _ => all (!s.feat fSKIDWAY || (o = 0x11C && !s.feat fLANE))
  | .partition _ =>
    if 0x160 ≤ o && o ≤ 0x174 && !s.feat fMIGRATE then allBits
    else if o = 0x100 && !s.feat fMIGRATE then 0x20 else 0
  | _ => 0

/-- The bits that a write does not reach in the present state: personality and feature settings outside their modes (R431,
R435). -/
def State.shut (s : State) (p : Page) (o : Nat) : Word :=
  match p with
  | .global =>
    if o = 0x108 && !(s.mode = .reserved || s.mode = .reconfigure) then 1
    else if (o = 0x128 || o = 0x12C) && !(s.mode = .reserved && !s.rbit FEAT_STAT 0) then allBits
    else 0
  | _ => 0

/-! Reads -/

/-- A list of flags as a word, bit 0 first. -/
def packBits (l : List Bool) : Nat := (l.zipIdx.map fun (b, i) => flag b * 2 ^ i).sum

/-- A tail packet of a former holder is unanswered (R201). -/
def Ni.tailOut (x : Ni) : Bool :=
  (x.gran ++ x.work).any fun h => h.arb = 2 && x.arb.tails.contains (h.req, hTag h.hdr)

/-- Live values of the NI page; none for a register whose stored word is its value (R205, R237, R263, R283, R462). -/
def State.niLive (s : State) (n o : Nat) : Option Word :=
  let x := s.niOf n
  let a := x.arb
  let w := s.rd (pageBase (niPage n) + o)
  let held : Bool := match a.st with | .held | .yielding => true | _ => false
  if o = 0x290 then some (putBits w 25 16 (min x.bufUsed 1023))
  else if o = 0x294 then some (putBits w 5 0 x.backoff.length)
  else if o = 0x2C8 then some (BitVec.ofNat 32 (s.lfsr n))
  else if o = 0x2CC then
    let st := match a.st with | .idle => 0 | .window => 1 | .held => 2 | .yielding => 3
    some (putBits w 3 0 (st + flag (s.frozenNi n && !held && !x.tailOut) * 4 + flag x.tailOut * 8))
  else if o = 0x2D0 then
    some (if held then packFields [(a.holder.src.toNat, 0), (a.holder.part.toNat, 16), (1, 31)] else 0)
  else if o = 0x2D4 then some (if a.htagSet then packFields [(a.htag.toNat, 0)] else 0)
  else if o = 0x304 then some (putBits w 5 0 x.wcb.length)
  else if o = 0x308 then some (putBits w 3 0 x.bars.length)
  else if o = 0x314 then some (putBits w 5 0 x.mons.length)
  else if 0x320 ≤ o && o < 0x340 then
    some (match x.own.find? fun r => r.slot = (o - 0x320) / 4 with
      | some r => packFields [(r.node.toNat, 0), (r.part.toNat, 16), (1, 31)]
      | none => 0)
  else if o = 0x394 && Config.niKind n = .pni then some (putBits w 15 8 (s.devLevel n))
  else if o = 0x39C then
    some (putBits (putBits w 7 0 (min (x.ledger.filter fun e => e.2.isOpen && e.2.sheaf ≠ 0).length 255)) 24 16
      (min (x.ptags.filter fun t => t.2.isSome).length 511))
  else if o = 0x408 then
    let cnt (p : Nat × LEntry → Bool) : Nat := (x.ledger.filter p).length
    some (packFields [(cnt fun e => e.1 < 256 && e.2.isOpen, 0), (cnt fun e => 256 ≤ e.1 && e.2.isOpen, 10),
      (cnt fun e => e.2.st = .stuck, 20)])
  else if o = 0x604 then
    some (packFields [(s.lni.writes.length, 0), ((s.lni.reads.filter fun r => r.2.isSome).length, 8)])
  else if 0xA00 ≤ o && o < 0xB00 then
    let i := (o - 0xA00) / 4
    let c := Tbl.get (fun _ => 0) a.counts i
    some (packFields [(min c 255, 0), (flag (s.quotaOut n i), 8)])
  else none

/-- Live values of the GLOBAL page (R438, R477). -/
def State.globalLive (s : State) (o : Nat) : Option Word :=
  let pages (f : Nat → Page) (i k : Nat) : Word := BitVec.ofNat 32 (packBits ((List.range k).map fun j => s.irqOn (f (32 * i + j))))
  if o = 0x100 then
    some (putBits (putBits (s.rd MODE_STAT) 3 0 s.mode.code) 10 8 (flag s.modeBusy + flag s.ring * 2 + flag s.testLock * 4))
  else if o = 0x1A0 then
    let single := packBits ([Page.global, .time, .foreman, .gleaner, .journal, .tally, .power, .sched].map s.irqOn)
    let skw := packBits ((List.range 6).map fun p => s.irqOn (skwPage p))
    let clu := packBits ((List.range 8).map fun c => s.irqOn (cluPage c))
    some (packFields [(single, 0), (skw, 8), (clu, 16)])
  else if 0x1A4 ≤ o && o < 0x1B0 then some (pages niPage ((o - 0x1A4) / 4) (if o = 0x1AC then 23 else 32))
  else if 0x1B0 ≤ o && o < 0x1B8 then some (pages rtrPage ((o - 0x1B0) / 4) (if o = 0x1B4 then 24 else 32))
  else if 0x1C0 ≤ o && o < 0x200 then some (pages partPage ((o - 0x1C0) / 4) 32)
  else none

/-- Live values of the TIME page (R130, R154). -/
def State.timeLive (s : State) (o : Nat) : Option Word :=
  if o = 0x10C then some (packFields [(getBits s.time.now 31 16, 0)])
  else if o = 0x110 then some (s.time.now.extractLsb' 32 32)
  else if o = 0x114 then some (s.time.now.extractLsb' 64 32)
  else if o = 0x148 then some (packFields [(s.time.r % 2 ^ 22, 0)])
  else if o = 0x14C then some (s.time.s.extractLsb' 0 32)
  else if o = 0x150 then some (s.time.s.extractLsb' 32 32)
  else none

/-- The value of the register at offset `o ≥ 0x100` of a page, inert bits left as they are. -/
def State.live (s : State) (p : Page) (o : Nat) : Word :=
  let w := s.rd (pageBase p + o)
  match p with
  | .global => (s.globalLive o).getD w
  | .time => (s.timeLive o).getD w
  | .power =>
    if 0x140 ≤ o && o < 0x160 then
      packFields ((List.range 8).map fun j =>
        let d := (o - 0x140) / 4 * 8 + j
        (if d < 62 then (s.boomOf d).st.code + flag (s.boomOf d).tgtOff * 8 else 0, 4 * j))
    else w
  | .sched => if 0x180 ≤ o && o < 0x1A0 then s.flowData ((o - 0x180) / 4) else w
  | .ni n => (s.niLive n.val o).getD w
  | .skidway k =>
    if o = 0x10C then putBits w 21 16 (s.skwOf k.val).held.length
    else if 0x140 ≤ o && o < 0x164 then
      putBits w 24 16 (Tbl.get (fun _ => 0) (s.skwOf k.val).cred ((o - 0x140) / 4))
    else w
  | _ => w

/-- The current value of a register as a read returns it (R10, R465). -/
def State.regRead (s : State) (p : Page) (o : Nat) : Word :=
  let a := pageBase p
  if o < 0x100 then
    match o with
    | 0x10 => s.rd (a + 0x10) &&& 5
    | 0x14 => packFields [((s.dom (pageDomain p)).code, 0), (flag (s.rbit (a + 0x10) 2), 3), (flag (s.rbit (a + 0x14) 4), 4)]
    | 0x24 => s.irqStat p
    | 0x2C => 0
    | _ => s.rd (a + o)
  else match rowAt p o with
    | none => 0
    | some _ =>
      let i := s.inert p o
      (s.live p o &&& ~~~ i) ||| (resetWord (a + o) &&& i)

/-- The offsets of the parts that a read of offset `o` latches (R9, R130, R473). -/
def latchedBy (p : Page) (o : Nat) : List Nat :=
  match p with
  | .global => if o = 0x120 || o = 0x138 then [o + 4] else []
  | .time => if o = 0x10C || o = 0x124 || o = 0x148 then [o + 4, o + 8] else if o = 0x14C then [0x150] else []
  | .foreman => if o = 0x188 then [0x18C] else []
  | .tally => if o = 0x108 || (0x800 ≤ o && o < 0xC00 && o % 0x40 = 0x20) then [o + 4] else []
  | .sched => if o = 0x114 then [0x118, 0x11C] else if o = 0x118 then [0x11C] else []
  | .ni _ => if o = 0x34C then [0x350] else []
  | _ => []

/-- A read of a register by master `m` (R9, R130, R473). -/
def State.pageRead (s : State) (m : Nat) (p : Page) (o : Nat) : Word × State :=
  let a := pageBase p
  match s.latch m (a + o) with
  | some w => (w, s)
  | none => (s.regRead p o, (latchedBy p o).foldl (fun t b => t.setLatch m (a + b) (some (s.regRead p b))) s)

/-! Writes of the common registers (R465, R468, R470) -/

/-- A write of 1 to lock is refused (R113, R296). -/
def State.lockRefused (s : State) (p : Page) : Bool :=
  match p with
  | .ni n =>
    let lim (i : Nat) : Nat := s.fld (GRAN_LIM0 n.val + 4 * (i / 2)) (16 * (i % 2) + 10) (16 * (i % 2))
    !((List.range 9).all fun i => 1 ≤ lim i) || lim 1 < 8 || lim 2 < 8 || lim 5 < 8 ||
      s.fld (GRAN_CAP n.val) 11 0 < s.limSum n.val + s.fld (GRAN_LIM4 n.val) 26 16
  | .skidway k => 480 < ((List.range 9).map fun i => s.fld (SKW_POOL k.val i) 8 0).sum
  | _ => false

/-- lock is set, or its write refused (R113, R296, R468). -/
def State.lockPage (s : State) (p : Page) : State :=
  if s.rbit (pageBase p + 0x10) 2 then s
  else if s.lockRefused p then
    match p with
    | .ni n => (s.setBit (GRAN_STAT n.val) 0).niErr n.val 5
    | _ => s
  else s.setBit (pageBase p + 0x10) 2

/-- soft_rst: PAGE_ERR, PAGE_ERR_FIRST and the W1C bits of PAGE_IRQ_STAT are cleared, but for bits that hardware has set in
this mc. PAGE_ERR_FIRST is loaded from such an error (R12, R468, R476); DESIGN CHOICE (log 93): of several, from the lowest
bit. -/
def State.softRst (s : State) (a : Nat) : State :=
  let err := s.rd (a + 0x18) &&& s.hwBits (a + 0x18)
  let s := (s.w1c (a + 0x24) allBits).wr (a + 0x20) 0
  match (List.range 32).filter (bit err) with
  | [] => s.wr (a + 0x18) 0
  | b :: more => ((s.wr (a + 0x18) err).firstErr a b).setFld (a + 0x20) 7 5 (min more.length 7)

/-- A write of PAGE_CTRL (R468). -/
def State.pageCtrl (s : State) (p : Page) (v : Word) : State :=
  let a := pageBase p
  let s := (s.setFld (a + 0x10) 0 0 (flag (bit v 0))).seq p
  let s := if bit v 1 then s.softRst a else s
  if bit v 2 then s.lockPage p else s

/-- The interrupt bits that a page implements, bit 30 among them (R470). -/
def irqMask (p : Page) : Word := BitVec.ofNat 32 (irqBits p + 2 ^ 30)

/-- A write of a common register. -/
def State.commonWrite (s : State) (p : Page) (o : Nat) (v : Word) : State :=
  let a := pageBase p
  let clear (o : Nat) (m : Word) : State := s.w1c (a + o) (v &&& m)
  match o with
  | 0x10 => s.pageCtrl p v
  | 0x14 => clear 0x14 0x10
  | 0x18 => (s.keepWas (a + 0x18)).w1c (a + 0x18) v
  | 0x1C => s.wr (a + 0x1C) v
  | 0x24 => clear 0x24 (irqMask p)
  | 0x28 => s.wr (a + 0x28) (v &&& (irqMask p ||| 0x80000000))
  | 0x2C => s.wr (a + 0x24) (s.rd (a + 0x24) ||| (v &&& irqMask p))
  | _ => s

/-! Effects of a write, page by page. `w` is the word the register holds after the write. -/

/-- GLOBAL (R332, R431, R435, R438). -/
def State.globalWrite (s : State) (o : Nat) (v w : Word) : State :=
  match o with
  | 0x104 => s.modeRequest (getBits v 3 0)
  | 0x110 => s.rstCtrl v
  | 0x130 => if bit v 0 then s.featCommit else s
  | 0x328 => { s with rules := { s.rules with inj := v.extractLsb' 0 16 } }
  | 0x320 => (s.keepWas o).wr o w
  | _ => s.wr o w

/-- TIME (R129, R130, R132, R136). -/
def State.timeWrite (s : State) (o : Nat) (v w : Word) : State :=
  let s := s.wr (0x1000 + o) w
  match o with
  | 0x100 =>
    let s := s.servoWritten
    let s := if bit v 1 then s.rotAcq else s
    if bit v 2 then s.setNow else s
  | 0x104 => s.incWritten false
  | 0x108 => s.incWritten true
  | 0x134 => s.newRate
  | _ => s

/-- TALLY (R378, R382 to R384, R388). -/
def State.tallyWrite (s : State) (o : Nat) (v w : Word) : State :=
  let j := (o - 0x800) / 0x40
  if o = 0x100 then s.tlyCtrl v
  else if o = 0x104 then s.tlySnap v
  else if 0x800 ≤ o then
    match (o - 0x800) % 0x40 with
    | 0x00 => s.prbCtrl j v
    | 0x04 => ((s.wr (PRB_WHERE j) w).wr (PRB_CNT_LO j) 0).wr (PRB_CNT_HI j) 0
    | 0x08 | 0x0C | 0x10 => (s.wr (0x5000 + o) w).wr (PRB_WIDX j) 0
    | _ => s.wr (0x5000 + o) w
  else
    let s := if isFilter (0x5000 + o) then s.filterHold (0x5000 + o) else s
    (s.keepWas (0x5000 + o)).wr (0x5000 + o) w

/-- POWER (R395, R460). -/
def State.powerWrite (s : State) (o : Nat) (v w : Word) : State :=
  if o = 0x100 then
    let d := getBits v 5 0
    (s.boomAsk d (getBits v 10 8)).1.escCheck d
  else s.wr (0x6000 + o) w

/-- SCHED (R135, R142, R145, R173). -/
def State.schedWrite (s : State) (m o : Nat) (v w : Word) : State :=
  if (0x400 ≤ o && o < 0x4E0) || (0x500 ≤ o && o < 0x65C) then s.offWrite (0x7000 + o) v
  else
    let s := s.wr (0x7000 + o) w
    match o with
    | 0x100 => s.swCtrl m v
    | 0x120 => s.setTime { s.time with rps := getBits w 21 0 }
    | 0x148 => if bit v 0 then s.loadStart m else s
    | _ => s

/-- The words of a Ledger entry's readout (R447). -/
def LEntry.image (e : LEntry) (k : Nat) : List (BitVec 8) :=
  let st := match e.st with
    | .free => 0 | .notStarted => 1 | .issued => 2 | .partially => 3 | .done => 4 | .failed => 5 | .stuck => 6
  leBytes 1 (st + flag e.retained * 8 + flag e.late * 16 + flag e.splitUnk * 32 + flag e.injected * 64) ++ leBytes 1 e.code.toNat ++
  leBytes 2 (keyTag k).toNat ++ leBytes 2 e.etag.toNat ++ leBytes 2 e.part.toNat ++ leBytes 2 e.dst.toNat ++ leBytes 1 e.qsel.toNat ++
  leBytes 1 (e.cls.toNat + flag e.sched * 16 + flag (e.owner ≠ .unit) * 32) ++ leBytes 1 (e.lines - 1) ++ leBytes 1 e.answered ++
  leBytes 1 e.ok ++ leBytes 1 0 ++ leBytes 8 e.addr.toNat ++ leBytes 8 e.split.toNat

/-- The entry that a write of LDG_SEL or LDG_REL names, if it names one (R462). -/
def ldgKey (v : Word) : Option Nat :=
  let i := getBits v 8 0
  if bit v 9 then some (256 + i) else if i < 256 then some i else none

/-- A write of LDG_SEL (R447, R462). -/
def State.ldgSelect (s : State) (n : Nat) (v : Word) : State :=
  let img := match ldgKey v with | some k => ((s.niOf n).led k).image k | none => []
  forN 8 (fun i (s : State) => s.wr (LDG_DATA n i) (BitVec.ofNat 32 (imgNat img (4 * i) 4))) s

/-- NI (R196, R197, R200, R237, R317, R445, R462). -/
def State.niWrite (s : State) (n o : Nat) (v w : Word) : State :=
  let a := pageBase (niPage n) + o
  match o with
  | 0x2C0 => ((s.keepWas a).wr a w).arbYield n
  | 0x2C4 => (s.wr a w).modNi n fun x => { x with arb := { x.arb with winStart := s.fc } }
  | 0x2C8 => s.modNi n fun x =>
      { x with arb := { x.arb with lfsr := some (if v = 0 then 1 else v), seedWas := some (s.fc, s.drawState n) } }
  | 0x310 => (s.wr a w).modNi n fun x => { x with mons := [] }
  | 0x340 | 0x344 => ((s.keepWas a).wr a w).reloadShadow n
  | 0x404 => s.ldgSelect n v
  | 0x40C => match ldgKey v with | some k => s.releaseEntry n k | none => s
  | _ => (if 0x800 ≤ o && o < 0xA00 then s.keepWas a else s).wr a w

/-- LINK_DEPTH of router `k`: each link output by itself (R125). -/
def linkDepth (k : Nat) (old v : Word) : Word :=
  (List.range 8).foldl (fun w o =>
    let d := getBits v (2 * o + 1) (2 * o)
    match Config.port k o with
    | .router _ => if d = 1 || d = 2 then putBits w (2 * o + 1) (2 * o) d else w
    | _ => w) old

/-- ROUTER (R125). -/
def State.routerWrite (s : State) (k o : Nat) (v w : Word) : State :=
  let a := pageBase (rtrPage k) + o
  if o = 0x104 then (if s.rbit (pageBase (rtrPage k) + 0x10) 2 then s else (s.keepWas a).wr a (linkDepth k (s.rd a) v))
  else s.wr a w

/-- SKIDWAY (R298, R306, R308, R311). -/
def State.skidwayWrite (s : State) (p o : Nat) (v w : Word) : State :=
  let a := pageBase (skwPage p) + o
  match o with
  | 0x100 => s.skwCtrl p v
  | 0x114 => if bit v 0 then s.tsClr p else s
  | 0x11C => let s := s.wr a w
             if bit v 25 then s.laneStep p else s
  | _ => s.wr a w

/-- CLUSTER (R95). -/
def State.clusterWrite (s : State) (c o : Nat) (v w : Word) : State :=
  if o = 0x104 then s.setBank c { s.bankOf c with inj := v.extractLsb' 0 16 } else s.wr (pageBase (cluPage c) + o) w

/-- PARTITION (R339, R352); the ring is full anew once PJ_RIDX has advanced (R453). -/
def State.partitionWrite (s : State) (p o : Nat) (v w : Word) : State :=
  if o = 0x100 then s.partCtrl p (putBits v 5 4 (getBits w 5 4))
  else
    let s := if o = 0x210 && s.rd (PJ_RIDX p) ≠ w then s.modPart p fun x => { x with ringFull := false } else s
    let a := pageBase (partPage p) + o
    (if o = 0x150 then s.keepWas a else s).wr a w

/-- The effect of a write that reaches the register at offset `o ≥ 0x100`: `v` is what was written, `w` what the register
holds by its field types. -/
def State.writeEffect (s : State) (m : Nat) (p : Page) (o : Nat) (v w : Word) : State :=
  match p with
  | .global => s.globalWrite o v w
  | .time => s.timeWrite o v w
  | .foreman => let s := s.wr (0x2000 + o) w
                if o = 0x1D4 then s.wr CAL_AUD_MM 0x0F else s
  | .gleaner => s.wr (0x3000 + o) w
  | .journal => if o = 0x110 then s.jrnSelect (getBits v 11 0) else s.wr (0x4000 + o) w
  | .tally => s.tallyWrite o v w
  | .power => s.powerWrite o v w
  | .sched => s.schedWrite m o v w
  | .ni n => s.niWrite n.val o v w
  | .router k => s.routerWrite k.val o v w
  | .skidway k => s.skidwayWrite k.val o v w
  | .cluster c => s.clusterWrite c.val o v w
  | .partition q => s.partitionWrite q.val o v w

/-- What a write of `v` leaves when it is refused by the state of what it writes: an offset of an active bank or during a
switchover (R142), an arm or a cancel (R146), or an allocation outside FREE and SETUP (R340). -/
def State.stateRefused (s : State) (p : Page) (o : Nat) (v : Word) : Option State :=
  match p with
  | .sched =>
    if o = 0x100 then (s.swRefusal v).map s.swErr
    else if ((0x400 ≤ o && o < 0x4E0) || (0x500 ≤ o && o < 0x65C)) && (s.bankWrite (1 - s.activeBank)).isNone then
      some (s.pageErr p 0)
    else none
  | .partition q => if 0x110 ≤ o && o < 0x150 && 2 ≤ s.partState q.val then some (s.pageErr p 0) else none
  | _ => none

/-- Another master writes a register of Foreman's variant sequence (R361). -/
def varTouched (a : Nat) : Bool := a = LOAD_CTRL || a = SW_CTRL || a = SW_TGT_SUB || a = SW_TGT_LO || a = SW_TGT_HI

/-- W1C bits cleared (R10, R12). Clearing HDR_ERR.valid restarts its count (R125). -/
def State.clearBits (s : State) (p : Page) (o : Nat) (c : Word) : State :=
  let a := pageBase p + o
  let c := c &&& ~~~ s.hwBits a
  let s := s.wr a (s.rd a &&& ~~~ c)
  match p with
  | .router k => if o = 0x118 && bit c 31 then s.setFld (HDR_ERR k.val) 23 16 0 else s
  | _ => s

/-- A write to the register of row `r` at offset `o ≥ 0x100` of a page (R5, R10, R468, R471). -/
def State.rowWrite (s : State) (m : Nat) (p : Page) (o : Nat) (r : RegRow) (v : Word) : Code × State :=
  let a := pageBase p + o
  let inert := s.inert p o
  let open_ := ~~~ (inert ||| s.shut p o)
  let lock := s.rbit (pageBase p + 0x10) 2
  let s := if r.mask .w1c = 0 then s else s.clearBits p o (r.mask .w1c &&& v &&& ~~~ inert)
  let store := (r.mask .rw ||| (if lock then 0 else r.mask .rwl)) &&& open_
  if r.writable = 0 then (OK, s)
  else if !s.rbit (pageBase p + 0x10) 0 && m ≤ 5 then (RULE, s.setBit (pageBase p + 0x14) 4)
  else if store ||| (r.mask .wo &&& open_) = 0 then (OK, s)
  else match s.stateRefused p o (v &&& open_) with
    | some t => (OK, t)
    | none =>
      let s := if m ≠ 5 && varTouched a then s.varAbandon a else s
      let w := (s.rd a &&& ~~~ store) ||| (v &&& store)
      (OK, ((s.seq p).writeEffect m p o (v &&& open_) w).managerWrote m a)

/-- A write to a page by master `m`. -/
def State.pageWrite (s : State) (m : Nat) (p : Page) (o : Nat) (v : Word) : Code × State :=
  if o < 0x100 then (OK, s.commonWrite p o v)
  else match rowAt p o with
    | some r => s.rowWrite m p o r v
    | none => (OK, s)

end Sys2Proof.Machine
end

