-- ==== Sys2Proof/Machine/Hayloft.lean ====
section
/-! DEFINITION. Hayloft (R278 to R284): the paths of its masters, decode misses, fences and hangs, and the order of its
answers; the table windows (R89, R141, R159, R184, R313, R374, R375); Foreman's write path (R279, R357); and the commands
that are accesses. -/

namespace Sys2Proof.Machine

/-! What an address names -/

/-- What an aperture address belongs to (R474, R475). -/
inductive HlSlave where
  | page (p : Page) (o : Nat)
  | window (w : Window)
deriving DecidableEq, Repr

/-- The slave of an aperture address, if one is there. -/
def slaveOf (a : Nat) : Option HlSlave :=
  match pageOf a with
  | some (p, o) => some (.page p o)
  | none => (windowOf a).map .window

/-- Hayloft's segments (R280): common pages, NI pages, router, Skidway and cluster pages, partition pages, route store,
slot and injection tables, rules and queue descriptors, counters. -/
def HlSlave.segment : HlSlave → Nat
  | .page (.ni _) _ => 1
  | .page (.router _) _ | .page (.skidway _) _ | .page (.cluster _) _ => 2
  | .page (.partition _) _ => 3
  | .page _ _ => 0
  | .window (.routeStore _ _) => 4
  | .window (.slot _) | .window (.inject _) => 5
  | .window (.rule _) | .window (.queue _) => 6
  | .window (.counter _) | .window (.snapshot _) => 7

/-- The power domain of a slave (R474, R475). -/
def HlSlave.domain : HlSlave → Nat
  | .page p _ => pageDomain p
  | .window (.slot k) => k
  | .window (.inject n) => niTile n
  | .window (.counter i) => (cntTile i).getD 63
  | .window _ => 63

/-- A path of R279 from master `m`; Foreman's writes to pages are judged by `fmMay`. -/
def hlPath (m : Nat) (wr : Bool) : HlSlave → Bool
  | .page p _ =>
    if m ≤ 5 then true
    else if m = 6 then (match p with | .gleaner => true | _ => false)
    else match p with
      | .sched | .ni _ => true
      | .global | .time | .router _ => !wr
      | _ => false
  | .window w =>
    if m ≤ 4 then true
    else if m = 5 then (match w with | .counter _ | .snapshot _ => !wr | _ => false)
    else if m = 6 then (match w with | .routeStore _ _ | .slot _ | .inject _ | .rule _ => true | _ => false)
    else match w with
      | .slot _ | .inject _ => true
      | .routeStore _ _ => !wr
      | _ => false

/-- A write within Foreman's W* fields (R191, R206, R264, R357, R360): tickets alone, within the entry's bounds. -/
def State.fmMay (s : State) (a : Nat) (v : Word) : Bool :=
  match pageOf a with
  | some (.ni _, o) =>
    o = 0x28C || o = 0x38C ||
    (0x804 ≤ o && o < 0xA00 && o % 8 = 4 && getBits v 31 8 = s.fld a 31 8 &&
      s.fld a 23 16 ≤ getBits v 7 0 && getBits v 7 0 ≤ s.fld a 31 24)
  | some (.sched, _) => varTouched a
  | _ => false

/-- The kind of a decision-log entry about register `a`; a free value for a register that R362 has no kind for (log 1). -/
def State.logKind (s : State) (a : Nat) : Nat :=
  match pageOf a with
  | some (.ni _, 0x28C) => 2
  | some (.ni _, 0x38C) => 3
  | some (.ni _, o) => if 0x804 ≤ o && o < 0xA00 then 1 else s.freeNow.toNat % 256
  | _ => if a = LOAD_CTRL then 4 else if varTouched a then 5 else s.freeNow.toNat % 256

/-! Windows -/

/-- A commit to a route-store bank by master `m`: Gleaner may write a POISONED entry (R90, R91). -/
def State.rsCommitBy (s : State) (m c i : Nat) (v : Word) : State :=
  let p := s.bankOf c
  if m = 6 && getBits v 31 30 = 3 then
    let (e, miss) := p.staged i v
    let s := if miss then (s.setBit (RS_STAT c) 25).pageErr (cluPage c) 1 else s
    s.setBank c { p.put i (storeEntry e p.inj) with stage := {}, inj := 0 }
  else s.rsCommit c i v

/-- A commit to the rule pool by master `m` (R313, R315). -/
def State.ruleCommitBy (s : State) (m i : Nat) (v : Word) : State :=
  if m = 6 && getBits v 31 30 = 3 then
    let (e, miss) := s.rules.staged i v
    let s := if miss then (s.setBit RULE_CSTAT 25).pageErr .global 8 else s
    let s := s.putRule i (storeEntry e s.rules.inj)
    { s with rules := { s.rules with stage := {}, inj := 0 } }
  else s.ruleCommitOp i v

/-- A write of a slot or injection word: Gleaner's is stored whatever the bank (R142, R364). -/
def State.slotWrite (s : State) (m a : Nat) (v : Word) : State :=
  if m = 6 then
    if 0x2000 ≤ a % 0x4000 then s
    else
      let inSlot := a < 0x24E0000
      let v : Word := if inSlot then v else BitVec.ofNat 32 (v.toNat % 2 ^ 16)
      (s.wr a v).wr (a + 0x2000) (BitVec.ofNat 32 (if inSlot then slotCheck v else injCheck v))
  else s.tableWrite a v

/-- The slot-table and injection-table windows are inert (R6). -/
def State.slotInert (s : State) : Bool := !s.feat fSCHEDULED

/-- A write to a window word. -/
def State.windowWrite (s : State) (m : Nat) (w : Window) (a : Nat) (v : Word) : State :=
  match w with
  | .routeStore c i =>
    let j := a % 0x20 / 4
    if j < 3 then s.setBank c { s.bankOf c with stage := (s.bankOf c).stage.put i j v }
    else if j = 3 then s.rsCommitBy m c i v else s
  | .rule i =>
    let j := a % 0x20 / 4
    if j < 3 then { s with rules := { s.rules with stage := s.rules.stage.put i j v } }
    else if j = 3 then s.ruleCommitBy m i v else s
  | .slot _ | .inject _ => if s.slotInert then s else s.slotWrite m a v
  | .queue q => s.queueWrite q (a % 16 / 4) v
  | .counter i =>
    match a % 16 / 4 with
    | 0 => s.cntStage m i v
    | 1 => s.cntCommit m i v
    | 2 => s.cntConfig i v
    | _ => s.w1c (CNT i 3) (v &&& 1)
  | .snapshot _ => s

/-- The flits that descriptor `q` holds now (R184). -/
def State.descOcc (s : State) (q : Nat) : Nat :=
  let n := s.fld (QD q 0) 6 0
  let b := s.fld (INJ_QBASE n) 13 0
  if b ≤ q && q < b + s.qCount n then (s.niOf n).occ (q - b) else 0

/-- A read of a window word by master `m`. -/
def State.windowRead (s : State) (m : Nat) (w : Window) (a : Nat) : Word × State :=
  match w with
  | .routeStore c i => let (v, p) := (s.bankOf c).read m i (a % 0x20 / 4); (v, s.setBank c p)
  | .rule i => let (v, p) := s.rules.read m i (a % 0x20 / 4); (v, { s with rules := p })
  | .slot _ | .inject _ => (if s.slotInert then 0 else s.rd a, s)
  | .queue q => (if a % 16 / 4 = 2 then packFields [(min (s.descOcc q) 1023, 0)] else s.rd a, s)
  | .counter i =>
    match a % 16 / 4 with
    | 0 => s.cntRead m i
    | 1 => ((s.latch m a).getD (s.rd a &&& 0xFFFF), s)
    | _ => (s.rd a, s)
  | .snapshot _ => (s.rd a, s)

/-! An access -/

/-- What a miss, a fence or a hang leaves in the GLOBAL page (R282, R478). -/
def State.hlNote (s : State) (m : Nat) (wr : Bool) (a : Nat) (c : Code) : State :=
  if c = DECODE then (s.satFld HL_STAT 7 0 1).hlFirst HL_MISS 4 m wr a
  else if c = FENCED then s.hlFenced
  else if c = HANG_ABORT then (s.satFld HL_STAT 23 16 1).hlFirst HL_HANG 6 m false a
  else s

/-- A miss, a fence or a hang: the debug port sees a read of zero or an ignored write, but for a hang (R282). A loader's
miss or fence goes to LOAD_STAT.xcode. -/
def State.hlStop (s : State) (m : Nat) (wr : Bool) (a : Nat) (c : Code) : HlAnswer × State :=
  let s := s.hlNote m wr a c
  ({ code := if m = 4 && c ≠ HANG_ABORT then OK else c },
   if m = 7 && c ≠ HANG_ABORT then s.setFld LOAD_STAT 23 16 c.toNat else s)

/-- The access is performed. -/
def State.hlPerform (s : State) (m : Nat) (wr : Bool) (a : Nat) (v : Word) : HlSlave → HlAnswer × State
  | .page p o =>
    if wr then
      if m = 5 && !s.fmMay a v then ({ code := RULE }, s)
      else let (c, s) := s.pageWrite m p o v; ({ code := c }, s)
    else let (d, s) := s.pageRead m p o; ({ data := d }, s)
  | .window w =>
    if wr then ({}, s.windowWrite m w a v)
    else let (d, s) := s.windowRead m w a; ({ data := d }, s)

/-- The discovery read path (R282). -/
def discovery (wr : Bool) (a : Nat) : Bool := !wr && a < 0x2000000 && a % 0x1000 < 0x10

/-- Master `m` requests a register; an MNI's request is marked for its mc (R280). -/
def State.asked (s : State) (m a : Nat) : State :=
  if m ≤ 3 then s.setMarks { s.marksNow with req := a :: s.marksNow.req } else s

/-- An access that Hayloft issues and that completes. -/
def State.hlDo (s : State) (m : Nat) (wr : Bool) (a : Nat) (v : Word) : HlAnswer × State :=
  let s := s.asked m a
  if s.hung.contains (a / 0x1000) then s.hlStop m wr a HANG_ABORT
  else match (slaveOf a).filter (hlPath m wr) with
    | none => if discovery wr a then ({}, s) else s.hlStop m wr a DECODE
    | some t =>
      let s := s.hlPark m t.segment
      if (s.dom t.domain).cut then s.hlStop m wr a FENCED else s.hlPerform m wr a v t

/-- An access of Foreman: an MNI that has requested the register in the same mc has been granted, and Foreman's access ends
with BACKOFF (R147, R177, R202, R280, R358, R360). -/
def State.fmDo (s : State) (wr : Bool) (a : Nat) (v : Word) : HlAnswer × State :=
  if s.marksNow.req.contains a then ({ code := BACKOFF }, s) else s.hlDo 5 wr a v

/-- A write by Foreman: counted as applied or refused, and entered in the decision log if it was refused or `log` asks for
it (R280, R282, R362, R370, R379). -/
def State.fmWrite (s : State) (log : Bool) (a : Nat) (v : Word) : Code × State :=
  let old := s.rd a
  let kind := s.logKind a
  let (r, s) := s.fmDo true a v
  let s := if log || r.code ≠ OK then s.drawn.foremanLog kind r.code a old v else s
  (r.code, if r.code = OK then (s.satFld FM_STAT 7 0 1).countG 0x65 8 1 else (s.satFld FM_STAT 15 8 1).countG 0x66 8 1)

/-- A read by Foreman: one that does not end OK is entered in the decision log (R280, R282). -/
def State.fmRead (s : State) (a : Nat) : HlAnswer × State :=
  let kind := s.logKind a
  let (r, s) := s.fmDo false a 0
  (r, if r.code = OK then s else s.drawn.foremanLog kind r.code a (s.rd a) (s.rd a))

/-- An access by Foreman. -/
def State.hlForeman (s : State) (wr : Bool) (a : Nat) (v : Word) : HlAnswer × State :=
  if wr then let (c, s) := s.fmWrite true a v; ({ code := c }, s) else s.fmRead a

/-- An access of any master that completes. -/
def State.hlIssue (s : State) (m : Nat) (wr : Bool) (a : Nat) (v : Word) : HlAnswer × State :=
  if m = 5 then s.hlForeman wr a v else s.hlDo m wr a v

/-- The access has no completion: its slave needs FCLK, which has stopped (R282, R412). -/
def State.hlStuck (s : State) (m : Nat) (wr : Bool) (a : Nat) : Bool :=
  s.fclkDead && !s.hung.contains (a / 0x1000) &&
  (match (slaveOf a).filter (hlPath m wr) with
    | none => false
    | some t => t.domain < 62 && !(s.dom t.domain).cut)

/-- An answer is returned to master `m`, behind those returned since its last request (R281, R486). -/
def State.hlReturn (s : State) (m : Nat) (r : HlAnswer) : State := { s with hlAns := Tbl.upd (fun _ => []) m (· ++ [r]) s.hlAns }
/-- Master `m` has taken its answers and presents a request. -/
def State.hlTaken (s : State) (m : Nat) : State := { s with hlAns := Tbl.set (fun _ => []) m [] s.hlAns }
/-- The last answer that master `m` has had since its last request. -/
def State.hlLast (s : State) (m : Nat) : HlAnswer := (Tbl.get (fun _ => []) s.hlAns m).getLastD {}

/-! Accesses that wait -/

/-- Of master `m`, an access before place `i` satisfies `p`. -/
def State.hlBefore (s : State) (i m : Nat) (p : HlPend → Bool) : Bool := (s.hlPend.take i).any fun e => e.m = m && p e

/-- The access at place `i` of those that wait is issued, and completes, if nothing holds it back (R281). -/
def State.hlTry (s : State) (i : Nat) : State :=
  match s.hlPend[i]? with
  | none => s
  | some e =>
    if e.ans.isSome || s.hlBefore i e.m (fun x => x.wr && x.ans.isNone) then s
    else if s.hlStuck e.m e.wr e.addr then
      { s with hlPend := s.hlPend.set i { e with held := false, mc := if e.held then s.mc else e.mc } }
    else
      let (r, s) := s.hlIssue e.m e.wr e.addr e.v
      { s with hlPend := s.hlPend.set i { e with held := false, ans := some r } }

/-- Answers are returned to each master in the order of its requests (R281). -/
def hlDeliver : List HlPend → State → List HlPend → State
  | [], s, kept => { s with hlPend := kept }
  | e :: t, s, kept =>
    match e.ans with
    | some r => if kept.any (fun x => x.m = e.m) then hlDeliver t s (kept ++ [e]) else hlDeliver t (s.hlReturn e.m r) kept
    | none => hlDeliver t s (kept ++ [e])

/-- What waits is taken up again. -/
def State.hlRun (s : State) : State :=
  let s := (List.range s.hlPend.length).foldl (fun (s : State) i => s.hlTry i) s
  hlDeliver s.hlPend s []

/-- Hayloft runs: the instance is powered and out of reset, and MCLK runs (R412). -/
def State.hlRuns (s : State) : Bool := s.pwrOk && s.held.isNone && s.mode != .off && !s.mclkOff

/-- MGCn_A_READY of MNI 76 + `m`: an access is taken (R281, R486). -/
def State.aReady (s : State) (m : Nat) : Bool := s.hlRuns && (s.hlPend.filter fun e => e.m = m).length < 4

/-- Master `m` presents an aligned access: it is taken while fewer than four of its accesses are unanswered (R281, R486). -/
def State.hlAccess (s : State) (m : Nat) (wr : Bool) (a : Nat) (v : Word) : State :=
  if !s.hlRuns then s
  else if s.hlPend.isEmpty && !s.hlStuck m wr a then
    let (r, s) := s.hlIssue m wr a v
    (s.hlTaken m).hlReturn m r
  else if !s.aReady m then s
  else
    let held := s.hlPend.any fun e => e.m = m && e.wr && e.ans.isNone
    ({ s.hlTaken m with hlPend := s.hlPend ++ [{ m := m, addr := a, wr := wr, v := v, mc := s.mc, held := held }] } : State).hlRun

/-- The hang timeout in mc (R284). -/
def State.hlTmo (s : State) : Nat := max (s.fld HL_CTRL 19 0) 256

/-- The oldest access of master `m` that has been issued and has had no completion for the timeout ends with HANG_ABORT, and
its page answers so from then on (R282). -/
def State.hlHang (s : State) (m : Nat) : State :=
  if !s.hlRuns then s else
  match s.hlPend.findIdx? fun e => e.m = m && e.ans.isNone && !e.held && e.mc + s.hlTmo ≤ s.mc with
  | none => s
  | some i =>
    match s.hlPend[i]? with
    | none => s
    | some e =>
      let (r, s) := s.hlStop m e.wr e.addr HANG_ABORT
      ({ s with hung := (if s.hung.contains (e.addr / 0x1000) then s.hung else s.hung ++ [e.addr / 0x1000]),
                hlPend := s.hlPend.set i { e with ans := some r } } : State).hlRun

/-- An access of any size or alignment: one that is not an aligned access of four bytes is not performed (R472); its answer
comes in the order of its master's requests (R281). -/
def State.aperture (s : State) (m : Nat) (wr : Bool) (a size : Nat) (v : Word) : State :=
  if size = 2 && a % 4 = 0 then s.hlAccess m wr a v
  else
    let r : HlAnswer := { code := if m = 4 then OK else SIZE }
    if !s.hlRuns then s
    else if s.hlPend.isEmpty then (s.hlTaken m).hlReturn m r
    else if !s.aReady m then s
    else ({ s.hlTaken m with hlPend := s.hlPend ++ [{ m := m, addr := a, wr := wr, v := v, mc := s.mc, ans := some r }] } : State).hlRun

/-- A register or window word written by a Hayloft master. -/
def State.regWrite (s : State) (m : Master) (a : Nat) (v : Word) : State := s.aperture m.val true a 2 v
/-- A register or window word read by a Hayloft master. -/
def State.regGet (s : State) (m : Master) (a : Nat) : State := s.aperture m.val false a 2 0

/-- A word with the bits of `b` set. -/
abbrev withBits (v : Word) (b : Nat) : Word := v ||| BitVec.ofNat 32 b

/-! Commands -/

/-- WARM_RESET_COMMAND (R426). -/
def execWarmResetCommand (m : Master) (v : Word) (s : State) : Out := .next (s.regWrite m RST_CTRL (withBits v 1))
/-- TILE_RESET (R428). -/
def execTileReset (m : Master) (v : Word) (s : State) : Out := .next (s.regWrite m RST_CTRL (withBits v 2))
/-- SERVO_EN_WRITE (R132). -/
def execServoEnWrite (m : Master) (v : Word) (s : State) : Out := .next (s.regWrite m TIME_CTRL v)
/-- ROT_ACQ (R136). -/
def execRotAcq (m : Master) (v : Word) (s : State) : Out := .next (s.regWrite m TIME_CTRL (withBits v 2))
/-- SET_NOW (R130). -/
def execSetNow (m : Master) (v : Word) (s : State) : Out := .next (s.regWrite m TIME_CTRL (withBits v 4))
/-- FREQ_WRITE (R133). -/
def execFreqWrite (m : Master) (v : Word) (s : State) : Out := .next (s.regWrite m FREQ v)
/-- APERTURE_ACCESS (R486). -/
def execApertureAccess (mni : Fin 4) (wr : Bool) (addr : BitVec 26) (size : BitVec 2) (wdata : Word) (s : State) : Out :=
  .next (s.aperture mni.val wr addr.toNat size.toNat wdata)
/-- LEDGER_RELEASE (R445). -/
def execLedgerRelease (m : Master) (n : Fin 87) (v : Word) (s : State) : Out := .next (s.regWrite m (LDG_REL n.val) v)
/-- LEDGER_SELECT (R447). -/
def execLedgerSelect (m : Master) (n : Fin 87) (v : Word) (s : State) : Out := .next (s.regWrite m (LDG_SEL n.val) v)
/-- ARB_FREEZE (R200). -/
def execArbFreeze (m : Master) (n : Fin 87) (v : Word) (s : State) : Out := .next (s.regWrite m (ARB_CTRL n.val) (withBits v 2))
/-- ARB_SEED_WRITE (R196). -/
def execArbSeedWrite (m : Master) (n : Fin 87) (v : Word) (s : State) : Out := .next (s.regWrite m (ARB_SEED n.val) v)
/-- ARB_WIN_WRITE (R197). -/
def execArbWinWrite (m : Master) (n : Fin 87) (v : Word) (s : State) : Out := .next (s.regWrite m (ARB_WIN n.val) v)
/-- RSV_CTRL_WRITE (R237). -/
def execRsvCtrlWrite (m : Master) (n : Fin 87) (v : Word) (s : State) : Out := .next (s.regWrite m (RSV_CTRL n.val) v)
/-- HAYLOFT_HANG_TIMEOUT (R282). -/
def execHayloftHangTimeout (m : Master) (s : State) : Out := .next (s.hlHang m.val)
/-- REGISTER_WRITE (R10). -/
def execRegisterWrite (m : Master) (addr : BitVec 26) (v : Word) (s : State) : Out := .next (s.regWrite m addr.toNat v)
/-- LATCHING_READ (R9). -/
def execLatchingRead (m : Master) (addr : BitVec 26) (s : State) : Out := .next (s.regGet m addr.toNat)
/-- PAGE_LOCK (R468). -/
def execPageLock (m : Master) (p : Page) (v : Word) (s : State) : Out := .next (s.regWrite m (pageBase p + 0x10) (withBits v 4))
/-- PAGE_SOFT_RESET (R468). -/
def execPageSoftReset (m : Master) (p : Page) (v : Word) (s : State) : Out :=
  .next (s.regWrite m (pageBase p + 0x10) (withBits v 2))
/-- PAGE_IRQ_TEST (R470). -/
def execPageIrqTest (m : Master) (p : Page) (v : Word) (s : State) : Out := .next (s.regWrite m (pageBase p + 0x2C) v)

/-- The address of word `w` of a route-store entry (R89). -/
abbrev RSE (c e w : Nat) : Nat := 0x2000000 + 0x80000 * c + 0x20 * e + 4 * w
/-- The address of word `w` of a rule (R313). -/
abbrev RULEW (i w : Nat) : Nat := 0x2800000 + 0x20 * i + 4 * w

/-- RS_WINDOW_READ (R89): a read of word 0, which latches the entry. -/
def execRsWindowRead (m : Master) (c : Fin 8) (e : BitVec 14) (s : State) : Out := .next (s.regGet m (RSE c.val e.toNat 0))
/-- RS_STAGE_WRITE (R90). -/
def execRsStageWrite (m : Master) (c : Fin 8) (e : BitVec 14) (w : Fin 3) (v : Word) (s : State) : Out :=
  .next (s.regWrite m (RSE c.val e.toNat w.val) v)
/-- RS_COMMIT (R90). -/
def execRsCommit (m : Master) (c : Fin 8) (e : BitVec 14) (v : Word) (s : State) : Out := .next (s.regWrite m (RSE c.val e.toNat 3) v)
/-- RS_STAT_READ (R93): no lookup is in progress between two commands, so that the read completes at once. -/
def execRsStatRead (m : Master) (c : Fin 8) (s : State) : Out := .next (s.regGet m (RS_STAT c.val))
/-- RS_ERRINJ_WRITE (R95). -/
def execRsErrinjWrite (m : Master) (c : Fin 8) (v : Word) (s : State) : Out := .next (s.regWrite m (RS_ERRINJ c.val) v)
/-- RULE_WINDOW_READ (R313): a read of word 0, which latches the entry. -/
def execRuleWindowRead (m : Master) (i : BitVec 13) (s : State) : Out := .next (s.regGet m (RULEW i.toNat 0))
/-- RULE_STAGE_WRITE (R313). -/
def execRuleStageWrite (m : Master) (i : BitVec 13) (w : Fin 3) (v : Word) (s : State) : Out :=
  .next (s.regWrite m (RULEW i.toNat w.val) v)
/-- RULE_COMMIT (R315). -/
def execRuleCommit (m : Master) (i : BitVec 13) (v : Word) (s : State) : Out := .next (s.regWrite m (RULEW i.toNat 3) v)
/-- RULE_ERRINJ_WRITE (R332). -/
def execRuleErrinjWrite (m : Master) (v : Word) (s : State) : Out := .next (s.regWrite m RULE_ERRINJ v)
/-- RULE_RANGE_WRITE (R317). -/
def execRuleRangeWrite (m : Master) (n : Fin 87) (tgt : Bool) (v : Word) (s : State) : Out :=
  .next (s.regWrite m (if tgt then RULE_TGT n.val else RULE_INIT n.val) v)
/-- QUEUE_DESC_WRITE (R184). -/
def execQueueDescWrite (m : Master) (q : BitVec 14) (w : Fin 4) (v : Word) (s : State) : Out :=
  .next (s.regWrite m (QD q.toNat w.val) v)
/-- SLOT_TABLE_WRITE (R142): a slot-table word, an injection-table word or an offset register. -/
def execSlotTableWrite (m : Master) (addr : BitVec 26) (v : Word) (s : State) : Out := .next (s.regWrite m addr.toNat v)
/-- SW_ARM (R145). -/
def execSwArm (m : Master) (v : Word) (s : State) : Out := .next (s.regWrite m SW_CTRL (withBits v 1))
/-- SW_CANCEL (R147). -/
def execSwCancel (m : Master) (v : Word) (s : State) : Out := .next (s.regWrite m SW_CTRL (withBits v 2))
/-- SW_MARK_LOADED (R144). -/
def execSwMarkLoaded (m : Master) (v : Word) (s : State) : Out := .next (s.regWrite m SW_CTRL (withBits v 16))
/-- SCHED_LOAD_START (R173). -/
def execSchedLoadStart (m : Master) (v : Word) (s : State) : Out := .next (s.regWrite m LOAD_CTRL (withBits v 1))
/-- FLOW_DEMOTE_CLEAR (R181). -/
def execFlowDemoteClear (m : Master) (w : Fin 128) (v : Word) (s : State) : Out := .next (s.regWrite m (FLOW_DEM w.val) v)
/-- SKW_ENABLE (R298): a write of SKW_CTRL.en, 1 or 0. -/
def execSkwEnable (m : Master) (p : Fin 6) (v : Word) (s : State) : Out := .next (s.regWrite m (SKW_CTRL p.val) v)
/-- SKW_RETRAIN (R298). -/
def execSkwRetrain (m : Master) (p : Fin 6) (v : Word) (s : State) : Out := .next (s.regWrite m (SKW_CTRL p.val) (withBits v 2))
/-- SKW_CLOSE (R308). -/
def execSkwClose (m : Master) (p : Fin 6) (v : Word) (s : State) : Out := .next (s.regWrite m (SKW_CTRL p.val) (withBits v 4))
/-- SKW_TS_CLR (R311). -/
def execSkwTsClr (m : Master) (p : Fin 6) (v : Word) (s : State) : Out := .next (s.regWrite m (SKW_TS_CLR p.val) (withBits v 1))
/-- SKW_LANE_STEP (R306). -/
def execSkwLaneStep (m : Master) (p : Fin 6) (v : Word) (s : State) : Out :=
  .next (s.regWrite m (SKW_LANE_SCH p.val) (withBits v 0x2000000))
/-- MODE_REQUEST (R416). -/
def execModeRequest (m : Master) (v : Word) (s : State) : Out := .next (s.regWrite m MODE_REQ v)
/-- FEAT_COMMIT (R431). -/
def execFeatCommit (m : Master) (v : Word) (s : State) : Out := .next (s.regWrite m FEAT_COMMIT (withBits v 1))

/-- A word of PART_CTRL that asks for operation `op`. -/
def partWord (v : Word) (op : Nat) : Word := putBits v 3 0 op
/-- PART_CREATE (R339). -/
def execPartCreate (m : Master) (p : Fin 512) (v : Word) (s : State) : Out := .next (s.regWrite m (PART_CTRL p.val) (partWord v 1))
/-- PART_OPEN (R340). -/
def execPartOpen (m : Master) (p : Fin 512) (v : Word) (s : State) : Out := .next (s.regWrite m (PART_CTRL p.val) (partWord v 2))
/-- PART_FREEZE (R341). -/
def execPartFreeze (m : Master) (p : Fin 512) (v : Word) (s : State) : Out := .next (s.regWrite m (PART_CTRL p.val) (partWord v 3))
/-- PART_THAW (R339). -/
def execPartThaw (m : Master) (p : Fin 512) (v : Word) (s : State) : Out := .next (s.regWrite m (PART_CTRL p.val) (partWord v 4))
/-- PART_RESET_DRAIN (R341). -/
def execPartResetDrain (m : Master) (p : Fin 512) (v : Word) (s : State) : Out :=
  .next (s.regWrite m (PART_CTRL p.val) (partWord v 5))
/-- PART_RESET_SQUASH (R342). -/
def execPartResetSquash (m : Master) (p : Fin 512) (v : Word) (s : State) : Out :=
  .next (s.regWrite m (PART_CTRL p.val) (partWord v 6))
/-- PART_DESTROY (R339). -/
def execPartDestroy (m : Master) (p : Fin 512) (v : Word) (s : State) : Out := .next (s.regWrite m (PART_CTRL p.val) (partWord v 7))
/-- PART_SAVE (R344). -/
def execPartSave (m : Master) (p : Fin 512) (v : Word) (s : State) : Out := .next (s.regWrite m (PART_CTRL p.val) (partWord v 8))
/-- PART_RESTORE (R348). -/
def execPartRestore (m : Master) (p : Fin 512) (v : Word) (s : State) : Out := .next (s.regWrite m (PART_CTRL p.val) (partWord v 9))

/-- A word of BOOM_CTRL (R413). -/
def boomWord (d op : Nat) : Word := packFields [(d, 0), (op, 8)]
/-- BOOM_QUIESCE (R395). -/
def execBoomQuiesce (m : Master) (d : Fin 64) (s : State) : Out := .next (s.regWrite m BOOM_CTRL (boomWord d.val 1))
/-- BOOM_OFF (R395). -/
def execBoomOff (m : Master) (d : Fin 64) (s : State) : Out := .next (s.regWrite m BOOM_CTRL (boomWord d.val 2))
/-- BOOM_OPEN (R395). -/
def execBoomOpen (m : Master) (d : Fin 64) (s : State) : Out := .next (s.regWrite m BOOM_CTRL (boomWord d.val 3))
/-- BOOM_FORCE (R395). -/
def execBoomForce (m : Master) (d : Fin 64) (s : State) : Out := .next (s.regWrite m BOOM_CTRL (boomWord d.val 4))
/-- JRN_SEL (R463). -/
def execJrnSel (m : Master) (v : Word) (s : State) : Out := .next (s.regWrite m JRN_SEL v)
/-- COUNTER_STAGE_WRITE (R374). -/
def execCounterStageWrite (m : Master) (i : Fin 1272) (v : Word) (s : State) : Out := .next (s.regWrite m (CNT i.val 0) v)
/-- COUNTER_COMMIT (R374). -/
def execCounterCommit (m : Master) (i : Fin 1272) (v : Word) (s : State) : Out := .next (s.regWrite m (CNT i.val 1) v)
/-- COUNTER_WINDOW_READ (R377): a read of word 0, which latches the rest. -/
def execCounterWindowRead (m : Master) (i : Fin 1272) (s : State) : Out := .next (s.regGet m (CNT i.val 0))
/-- TALLY_FREEZE (R378). -/
def execTallyFreeze (m : Master) (v : Word) (s : State) : Out := .next (s.regWrite m TLY_CTRL (withBits v 1))
/-- TALLY_UNFREEZE (R378). -/
def execTallyUnfreeze (m : Master) (v : Word) (s : State) : Out := .next (s.regWrite m TLY_CTRL (putBits v 0 0 0))
/-- TALLY_CLR_ALL (R388). -/
def execTallyClrAll (m : Master) (v : Word) (s : State) : Out := .next (s.regWrite m TLY_CTRL (withBits v 2))
/-- TALLY_SNAPSHOT (R378). -/
def execTallySnapshot (m : Master) (v : Word) (s : State) : Out := .next (s.regWrite m TLY_SNAP (withBits v 1))
/-- PROBE_CTRL_WRITE (R384). -/
def execProbeCtrlWrite (m : Master) (j : Fin 16) (v : Word) (s : State) : Out := .next (s.regWrite m (PRB_CTRL j.val) v)

end Sys2Proof.Machine
end

