-- ==== Sys2Proof/Machine/Foreman.lean ====
section
/-! DEFINITION. Foreman's rules (R357 to R359) and its variant sequence (R360, R361), and the two commands on which that
sequence waits: the end of a load (R176) and the end of a switchover (R148). -/

namespace Sys2Proof.Machine

/-- An evaluation under way: the state, the actions taken, and whether the rest of it is skipped (R359). -/
structure Eval where
  s    : State
  acts : Nat  := 0
  stop : Bool := false

/-- The NIs that Foreman may act on (R357). -/
def State.fmNis (s : State) : List Nat := (List.range 87).filter fun n => s.rbit (FM_NI_EN0 + 4 * (n / 32)) (n % 32)

/-- The nominal value of the field in bits `[hi:0]` of register `a` (R358). -/
def State.nominal (s : State) (a hi : Nat) : Nat := getBits ((Tbl.get (fun _ => none) s.eng.nominal a).getD (resetWord a)) hi 0

/-- The field in register `a` is blocked (R358). -/
def State.fmBlocked (s : State) (a : Nat) : Bool :=
  s.eng.blocked.any fun b => b.1 = a && s.eng.sweeps ≤ b.2

/-- `act` of R359 on the field in bits `[hi:0]` of register `a`, which reads `w`: with the last action that FM_CTRL.max_act
allows, the rest of the evaluation is skipped. -/
def Eval.act (e : Eval) (a hi : Nat) (w : Word) (new : Nat) (raise : Bool) : Eval :=
  let old := getBits w hi 0
  if e.stop || !(if raise then old < new else new < old) || e.s.fmBlocked a then e
  else
    let v := putBits w hi 0 new
    { s := if e.s.eng.auth = 1 then e.s.foremanLog (e.s.logKind a) 0xFF a w v else (e.s.fmWrite true a v).2,
      acts := e.acts + 1, stop := e.s.fld FM_CTRL 15 8 ≤ e.acts + 1 }

/-- Foreman reads a register and goes on with its value; it leaves the item alone when the read does not end OK. -/
def Eval.with_ (e : Eval) (a : Nat) (f : Eval → Word → Eval) : Eval :=
  if e.stop then e
  else
    let (r, s) := e.s.fmRead a
    if r.code = OK then f { e with s := s } r.data else { e with s := s }

/-- The tickets rule on entry `i` of target `t`. -/
def Eval.tickets (e : Eval) (t i : Nat) : Eval :=
  e.with_ (ARB_REQ_W0 t i) fun e w0 =>
    if !bit w0 31 then e
    else e.with_ (ARB_REQ_W1 t i) fun e w =>
      let x := getBits w 7 0
      let step := e.s.fld FM_POL1 15 8
      let load := e.s.fld (CRU_NI t) 7 0
      let src : NodeId := w0.extractLsb' 0 10
      let near := nodeDie src = e.s.die && nodeNi src < 87
      if e.s.fld FM_POL0 23 16 ≤ load && near && e.s.fld FM_POL1 7 0 ≤ e.s.fld (CRU_NI (nodeNi src)) 15 8 then
        e.act (ARB_REQ_W1 t i) 7 w (max (x - step) (getBits w 23 16)) false
      else if load ≤ e.s.fld FM_POL0 31 24 then
        e.act (ARB_REQ_W1 t i) 7 w (min (min (x + step) (e.s.nominal (ARB_REQ_W1 t i) 7)) (getBits w 31 24)) true
      else e

/-- The tickets rule on target `t`. -/
def Eval.ticketsAt (e : Eval) (t : Nat) : Eval :=
  e.with_ (ARB_CTRL t) fun e w => if bit w 0 then (List.range 64).foldl (fun e i => e.tickets t i) e else e

/-- The throttle rule on NI `n`. -/
def Eval.throttle (e : Eval) (n : Nat) : Eval :=
  e.with_ (INJ_THR n) fun e w =>
    let r := getBits w 8 0
    let g := e.s.fld CRU_G 7 0
    let step := e.s.fld FM_POL1 24 16
    if e.s.fld FM_POL0 7 0 ≤ g && e.s.fld FM_POL1 7 0 ≤ e.s.fld (CRU_NI n) 15 8 then
      e.act (INJ_THR n) 8 w (max (r - step) (e.s.fld FM_THR_LIM 8 0)) false
    else if g ≤ e.s.fld FM_POL0 15 8 then e.act (INJ_THR n) 8 w (min (r + step) (e.s.nominal (INJ_THR n) 8)) true
    else e

/-- The DevLoad rule on PNI `n`. -/
def Eval.raise (e : Eval) (n : Nat) : Eval :=
  e.with_ (DL_THR n) fun e thr => e.with_ (DL_RAISE n) fun e w =>
    let d := getBits w 7 0
    let g := e.s.fld CRU_G 7 0
    let step := e.s.fld FM_POL2 7 0
    if g ≤ e.s.fld FM_POL0 15 8 then e.act (DL_RAISE n) 7 w (min (d + step) (getBits thr 31 24)) true
    else if e.s.fld FM_POL0 7 0 ≤ g then e.act (DL_RAISE n) 7 w (max (d - step) (e.s.nominal (DL_RAISE n) 7)) false
    else e

/-! Variant choice (R360, R361) -/

/-- The variant that the last sweeps choose. -/
def State.varWanted (s : State) : Option Nat :=
  let hold := s.fld FM_VAR 15 8
  if hold ≤ s.eng.hiCnt then some (s.fld FM_VAR 2 0)
  else if hold ≤ s.eng.loCnt then some (s.fld FM_VAR 6 4) else none

/-- Foreman may act on variant `w`, the crossing flows and its authority apart. -/
def State.varMay (s : State) (w : Nat) : Bool :=
  s.rbit FM_VAR 7 && s.feat fVARIANTS && s.mode = .scheduled && s.rbit VAR_STAT 3 && w ≠ s.fld VAR_STAT 2 0 &&
  s.rbit VAR_STAT (8 + w) && s.swState = 0 && !s.rbit LOAD_STAT 0 && s.eng.varStep = 0 && s.eng.varUntil < s.eng.sweeps

/-- The LOAD_CTRL word that starts variant `w`: kind VARIANT and start, the MNI as it stands. -/
def State.varLoadWord (s : State) (w : Nat) : Word := packFields [(3, 0), (w, 4), (s.fld LOAD_CTRL 9 8, 8)]

/-- variant_step of R359. Under ADVICE, and on a die with crossing flows, the choice is only logged. -/
def State.variantStep (s : State) : State :=
  match s.varWanted with
  | none => s
  | some w =>
    if !s.varMay w || s.eng.auth = 2 then s
    else
      let v := s.varLoadWord w
      if s.eng.auth = 1 || s.crossFlows ≠ [] then s.foremanLog 4 0xFF LOAD_CTRL (s.rd LOAD_CTRL) v
      else
        let (c, s) := s.fmWrite true LOAD_CTRL v
        if c = OK && s.rbit LOAD_STAT 0 then ({ s with eng := { s.eng with varStep := 1 } } : State).setBit FM_STAT 24
        else if c = OK then { s with eng := { s.eng with varUntil := s.eng.sweeps + s.fld FM_VAR 15 8 } }
        else s

/-- The rules of an evaluation over the NIs `nis`, in order (R359). -/
def State.evalActs (s : State) (nis : List Nat) : State :=
  let e : Eval := nis.foldl (fun e n => e.ticketsAt n) { s := s, stop := s.fld FM_CTRL 15 8 = 0 }
  let e := (nis.filter fun n => Config.niKind n ≠ .kni).foldl (fun e n => e.throttle n) e
  let e := if e.s.feat fDEVLOAD then (nis.filter fun n => Config.niKind n = .pni).foldl (fun e n => e.raise n) e else e
  if e.stop then e.s else e.s.variantStep

/-- The evaluation after a sweep (R359): tickets, throttle, DevLoad raise, variant. It waits while FCLK has stopped. -/
def State.evaluate (s : State) : State :=
  if !s.engRuns || !s.eng.evalDue || s.fclkDead then s
  else
    let s : State := { s with eng := { s.eng with evalDue := false } }
    if !s.fmOn then s
    else (s.setFld FM_STAT 15 0 0).evalActs s.fmNis

/-- The end of a load, with Foreman's part in it (R176, R361): the result is logged; a refused load ends the sequence, and
no variant is chosen for a while. The loader waits while MCLK has stopped (R412). -/
def State.loadEnded (s : State) (image : List (BitVec 8)) (xcode : Code) : State :=
  if s.mclkOff then s else
  let mine := s.eng.varStep = 1 && (match s.loader.busy with | some (_, _, _, m) => m = 5 | none => false)
  let old := s.rd LOAD_STAT
  let s := s.loadDone image xcode
  if !mine then s
  else
    let s := s.foremanLog 7 OK LOAD_STAT old (s.rd LOAD_STAT)
    if s.fld LOAD_STAT 15 8 = 0 then { s with eng := { s.eng with varStep := 2 } }
    else
      let s := s.varAbandon LOAD_CTRL
      { s with eng := { s.eng with varUntil := s.eng.sweeps + s.fld FM_VAR 15 8 } }

/-- The target time of Foreman's switchover, in 2^-16 ns (R360). -/
def State.varTarget (s : State) : Nat := s.time.now.toNat / 2 ^ 16 + max (s.fld FM_VAR 31 16) 2 * 1000 * 2 ^ 16

/-- Foreman arms the SWAP of its variant (R360, R361). -/
def State.variantArm (s : State) : State :=
  if !s.engRuns || s.eng.varStep ≠ 2 || !s.fmOn || s.eng.auth ≠ 3 then s
  else
    let t := s.varTarget
    let (c1, s) := s.fmWrite false SW_TGT_SUB (packFields [(t % 2 ^ 16, 0)])
    let (c2, s) := s.fmWrite false SW_TGT_LO (BitVec.ofNat 32 (t / 2 ^ 16))
    let (c3, s) := s.fmWrite false SW_TGT_HI (BitVec.ofNat 32 (t / 2 ^ 48))
    if c1 ≠ OK || c2 ≠ OK || c3 ≠ OK then s.varAbandon SW_CTRL
    else
      let (c, s) := s.fmWrite true SW_CTRL 1
      if c = OK && s.swState = 2 then ({ s with eng := { s.eng with varStep := 0 } } : State).clrBit FM_STAT 24
      else s.varAbandon SW_CTRL

/-! Commands -/

/-- FOREMAN_EVALUATE (R359). -/
def execForemanEvaluate (s : State) : Out := .next s.evaluate
/-- FOREMAN_VARIANT_ARM (R360). -/
def execForemanVariantArm (s : State) : Out := .next s.variantArm
/-- SCHED_LOAD_DONE (R176). -/
def execSchedLoadDone (image : List (BitVec 8)) (xcode : Code) (s : State) : Out := .next (s.loadEnded image xcode)
/-- SW_SWITCH_END (R148): an entry into DRAIN that waited for it follows (R417). -/
def execSwSwitchEnd (s : State) : Out := .next s.swEnd.deferredDrain

end Sys2Proof.Machine
end

