-- ==== Sys2Proof/Machine/Dispatch.lean ====
section
/-! DEFINITION. One arm for each command of the table. -/

namespace Sys2Proof.Machine

/-- The effect of a command on everything but the queue. -/
def exec (i : Instr) (s : State) : Host.Outcome State Fault Refusal :=
  match i with
  | .pwrOkRise => Sys2Proof.Machine.execPwrOkRise s
  | .pwrOkFall => Sys2Proof.Machine.execPwrOkFall s
  | .coldResetAssert => Sys2Proof.Machine.execColdResetAssert s
  | .coldResetRelease => Sys2Proof.Machine.execColdResetRelease s
  | .warmResetAssert => Sys2Proof.Machine.execWarmResetAssert s
  | .warmResetRelease => Sys2Proof.Machine.execWarmResetRelease s
  | .warmResetCommand m v => Sys2Proof.Machine.execWarmResetCommand m v s
  | .tileReset m v => Sys2Proof.Machine.execTileReset m v s
  | .fuseDone bad => Sys2Proof.Machine.execFuseDone bad s
  | .efuseProgram pgm img => Sys2Proof.Machine.execEfuseProgram pgm img s
  | .testReadInstruction t => Sys2Proof.Machine.execTestReadInstruction t s
  | .testStateInstruction drives => Sys2Proof.Machine.execTestStateInstruction drives s
  | .ppsEdge => Sys2Proof.Machine.execPpsEdge s
  | .phaseWindowEnd => Sys2Proof.Machine.execPhaseWindowEnd s
  | .holdoverEntry => Sys2Proof.Machine.execHoldoverEntry s
  | .servoEnWrite m v => Sys2Proof.Machine.execServoEnWrite m v s
  | .rotAcq m v => Sys2Proof.Machine.execRotAcq m v s
  | .setNow m v => Sys2Proof.Machine.execSetNow m v s
  | .freqWrite m v => Sys2Proof.Machine.execFreqWrite m v s
  | .niAliveRise n => Sys2Proof.Machine.execNiAliveRise n s
  | .niAliveFall n => Sys2Proof.Machine.execNiAliveFall n s
  | .quiesceAckRise n => Sys2Proof.Machine.execQuiesceAckRise n s
  | .clockStopDetect c => Sys2Proof.Machine.execClockStopDetect c s
  | .inboundRequestMessage n msg => Sys2Proof.Machine.execInboundRequestMessage n msg s
  | .inboundAnswerMessage n msg => Sys2Proof.Machine.execInboundAnswerMessage n msg s
  | .barrierOrder n msg => Sys2Proof.Machine.execBarrierOrder n msg s
  | .barrierDrain n msg => Sys2Proof.Machine.execBarrierDrain n msg s
  | .barrierRule n msg => Sys2Proof.Machine.execBarrierRule n msg s
  | .barrierComplete n => Sys2Proof.Machine.execBarrierComplete n s
  | .sidebandEventMessage n msg => Sys2Proof.Machine.execSidebandEventMessage n msg s
  | .mgtReqMessage n msg => Sys2Proof.Machine.execMgtReqMessage n msg s
  | .outboundCreditReturn n cls => Sys2Proof.Machine.execOutboundCreditReturn n cls s
  | .outboundMessageTaken n cls => Sys2Proof.Machine.execOutboundMessageTaken n cls s
  | .apertureAccess mni wr addr size wdata => Sys2Proof.Machine.execApertureAccess mni wr addr size wdata s
  | .routeLookup n q => Sys2Proof.Machine.execRouteLookup n q s
  | .injectPacket n => Sys2Proof.Machine.execInjectPacket n s
  | .schedInject n => Sys2Proof.Machine.execSchedInject n s
  | .throttleFrame => Sys2Proof.Machine.execThrottleFrame s
  | .holdRelookup n q => Sys2Proof.Machine.execHoldRelookup n q s
  | .holdExpire n q => Sys2Proof.Machine.execHoldExpire n q s
  | .routerFlitArrive k ix err laErr => Sys2Proof.Machine.execRouterFlitArrive k ix err laErr s
  | .routerTraverse k => Sys2Proof.Machine.execRouterTraverse k s
  | .ageIncrement k ix vc => Sys2Proof.Machine.execAgeIncrement k ix vc s
  | .creditArrive k o => Sys2Proof.Machine.execCreditArrive k o s
  | .destFlitArrive n err => Sys2Proof.Machine.execDestFlitArrive n err s
  | .granaryAdmit n vc => Sys2Proof.Machine.execGranaryAdmit n vc s
  | .offerToUnit n => Sys2Proof.Machine.execOfferToUnit n s
  | .answerArrive n => Sys2Proof.Machine.execAnswerArrive n s
  | .backoffWaitEnd n ix => Sys2Proof.Machine.execBackoffWaitEnd n ix s
  | .ehRdRetry n ix => Sys2Proof.Machine.execEhRdRetry n ix s
  | .txnTimeout n posted ix => Sys2Proof.Machine.execTxnTimeout n posted ix s
  | .ledgerRelease m n v => Sys2Proof.Machine.execLedgerRelease m n v s
  | .ledgerSelect m n v => Sys2Proof.Machine.execLedgerSelect m n v s
  | .arbDraw n => Sys2Proof.Machine.execArbDraw n s
  | .arbQuotaWindowEnd n => Sys2Proof.Machine.execArbQuotaWindowEnd n s
  | .arbRelArrive n => Sys2Proof.Machine.execArbRelArrive n s
  | .arbBreakPoint n => Sys2Proof.Machine.execArbBreakPoint n s
  | .arbFreeze m n v => Sys2Proof.Machine.execArbFreeze m n v s
  | .arbSeedWrite m n v => Sys2Proof.Machine.execArbSeedWrite m n v s
  | .arbWinWrite m n v => Sys2Proof.Machine.execArbWinWrite m n v s
  | .rsvReqArrive n => Sys2Proof.Machine.execRsvReqArrive n s
  | .rsvGrant n => Sys2Proof.Machine.execRsvGrant n s
  | .rsvGrantExpire n src => Sys2Proof.Machine.execRsvGrantExpire n src s
  | .rsvClrArrive n => Sys2Proof.Machine.execRsvClrArrive n s
  | .rsvCtrlWrite m n v => Sys2Proof.Machine.execRsvCtrlWrite m n v s
  | .wcbWindowClose n line => Sys2Proof.Machine.execWcbWindowClose n line s
  | .lniTakeEhWr => Sys2Proof.Machine.execLniTakeEhWr s
  | .lniTakeEhRd => Sys2Proof.Machine.execLniTakeEhRd s
  | .ehrupCommandTransfer => Sys2Proof.Machine.execEhrupCommandTransfer s
  | .ehrupReturn rtype slot word fin flt => Sys2Proof.Machine.execEhrupReturn rtype slot word fin flt s
  | .ehResultExpire e => Sys2Proof.Machine.execEhResultExpire e s
  | .ehrupTimeout slot => Sys2Proof.Machine.execEhrupTimeout slot s
  | .hayloftHangTimeout m => Sys2Proof.Machine.execHayloftHangTimeout m s
  | .registerWrite m addr v => Sys2Proof.Machine.execRegisterWrite m addr v s
  | .latchingRead m addr => Sys2Proof.Machine.execLatchingRead m addr s
  | .pageLock m p v => Sys2Proof.Machine.execPageLock m p v s
  | .pageSoftReset m p v => Sys2Proof.Machine.execPageSoftReset m p v s
  | .pageIrqTest m p v => Sys2Proof.Machine.execPageIrqTest m p v s
  | .rsWindowRead m c e => Sys2Proof.Machine.execRsWindowRead m c e s
  | .rsStageWrite m c e w v => Sys2Proof.Machine.execRsStageWrite m c e w v s
  | .rsCommit m c e v => Sys2Proof.Machine.execRsCommit m c e v s
  | .rsStatRead m c => Sys2Proof.Machine.execRsStatRead m c s
  | .rsErrinjWrite m c v => Sys2Proof.Machine.execRsErrinjWrite m c v s
  | .ruleWindowRead m ix => Sys2Proof.Machine.execRuleWindowRead m ix s
  | .ruleStageWrite m ix w v => Sys2Proof.Machine.execRuleStageWrite m ix w v s
  | .ruleCommit m ix v => Sys2Proof.Machine.execRuleCommit m ix v s
  | .ruleErrinjWrite m v => Sys2Proof.Machine.execRuleErrinjWrite m v s
  | .ruleRangeWrite m n tgt v => Sys2Proof.Machine.execRuleRangeWrite m n tgt v s
  | .queueDescWrite m q w v => Sys2Proof.Machine.execQueueDescWrite m q w v s
  | .slotTableWrite m addr v => Sys2Proof.Machine.execSlotTableWrite m addr v s
  | .swArm m v => Sys2Proof.Machine.execSwArm m v s
  | .swCancel m v => Sys2Proof.Machine.execSwCancel m v s
  | .swMarkLoaded m v => Sys2Proof.Machine.execSwMarkLoaded m v s
  | .swCommit => Sys2Proof.Machine.execSwCommit s
  | .swSwitch => Sys2Proof.Machine.execSwSwitch s
  | .swSwitchEnd => Sys2Proof.Machine.execSwSwitchEnd s
  | .schedLoadStart m v => Sys2Proof.Machine.execSchedLoadStart m v s
  | .schedLoadDone image xcode => Sys2Proof.Machine.execSchedLoadDone image xcode s
  | .flowDemoteClear m w v => Sys2Proof.Machine.execFlowDemoteClear m w v s
  | .skwEnable m p v => Sys2Proof.Machine.execSkwEnable m p v s
  | .skwRetrain m p v => Sys2Proof.Machine.execSkwRetrain m p v s
  | .skwClose m p v => Sys2Proof.Machine.execSkwClose m p v s
  | .skwTsClr m p v => Sys2Proof.Machine.execSkwTsClr m p v s
  | .skwLaneStep m p v => Sys2Proof.Machine.execSkwLaneStep m p v s
  | .skwLinkUp p => Sys2Proof.Machine.execSkwLinkUp p s
  | .skwLinkLoss p => Sys2Proof.Machine.execSkwLinkLoss p s
  | .skwPhyTrainTimeout p => Sys2Proof.Machine.execSkwPhyTrainTimeout p s
  | .skwAlignTimeout p => Sys2Proof.Machine.execSkwAlignTimeout p s
  | .skwFrameSend p => Sys2Proof.Machine.execSkwFrameSend p s
  | .skwFrameReceive p f => Sys2Proof.Machine.execSkwFrameReceive p f s
  | .skwReplay p => Sys2Proof.Machine.execSkwReplay p s
  | .param p cdata => Sys2Proof.Machine.execParam p cdata s
  | .ready p => Sys2Proof.Machine.execReady p s
  | .tsync p cdata => Sys2Proof.Machine.execTsync p cdata s
  | .laneProp p cdata => Sys2Proof.Machine.execLaneProp p cdata s
  | .laneAck p cdata => Sys2Proof.Machine.execLaneAck p cdata s
  | .laneGo p cdata => Sys2Proof.Machine.execLaneGo p cdata s
  | .laneAckDeadline p => Sys2Proof.Machine.execLaneAckDeadline p s
  | .close p => Sys2Proof.Machine.execClose p s
  | .kniEnterPacket p vn => Sys2Proof.Machine.execKniEnterPacket p vn s
  | .kniSchedInject p => Sys2Proof.Machine.execKniSchedInject p s
  | .kniSchedLate p => Sys2Proof.Machine.execKniSchedLate p s
  | .modeRequest m v => Sys2Proof.Machine.execModeRequest m v s
  | .modeChangeDone => Sys2Proof.Machine.execModeChangeDone s
  | .drainComplete => Sys2Proof.Machine.execDrainComplete s
  | .drainLimitExpire => Sys2Proof.Machine.execDrainLimitExpire s
  | .frozenApply => Sys2Proof.Machine.execFrozenApply s
  | .featCommit m v => Sys2Proof.Machine.execFeatCommit m v s
  | .partCreate m p v => Sys2Proof.Machine.execPartCreate m p v s
  | .partOpen m p v => Sys2Proof.Machine.execPartOpen m p v s
  | .partOpenScanDone p => Sys2Proof.Machine.execPartOpenScanDone p s
  | .partFreeze m p v => Sys2Proof.Machine.execPartFreeze m p v s
  | .partThaw m p v => Sys2Proof.Machine.execPartThaw m p v s
  | .partResetDrain m p v => Sys2Proof.Machine.execPartResetDrain m p v s
  | .partDrainDone p => Sys2Proof.Machine.execPartDrainDone p s
  | .partResetSquash m p v => Sys2Proof.Machine.execPartResetSquash m p v s
  | .partSquashDone p => Sys2Proof.Machine.execPartSquashDone p s
  | .partDestroy m p v => Sys2Proof.Machine.execPartDestroy m p v s
  | .partSave m p v => Sys2Proof.Machine.execPartSave m p v s
  | .partSaveDone p xcode => Sys2Proof.Machine.execPartSaveDone p xcode s
  | .partRestore m p v => Sys2Proof.Machine.execPartRestore m p v s
  | .partRestoreDone p image xcode => Sys2Proof.Machine.execPartRestoreDone p image xcode s
  | .boomQuiesce m d => Sys2Proof.Machine.execBoomQuiesce m d s
  | .boomOff m d => Sys2Proof.Machine.execBoomOff m d s
  | .boomOpen m d => Sys2Proof.Machine.execBoomOpen m d s
  | .boomForce m d => Sys2Proof.Machine.execBoomForce m d s
  | .boomFenceDone d => Sys2Proof.Machine.execBoomFenceDone d s
  | .boomDrainDone d => Sys2Proof.Machine.execBoomDrainDone d s
  | .boomQuiesceDone d => Sys2Proof.Machine.execBoomQuiesceDone d s
  | .boomQackTimeout d => Sys2Proof.Machine.execBoomQackTimeout d s
  | .boomWakeDone d => Sys2Proof.Machine.execBoomWakeDone d s
  | .cruiseSweep => Sys2Proof.Machine.execCruiseSweep s
  | .cruiseSweepDone => Sys2Proof.Machine.execCruiseSweepDone s
  | .foremanEvaluate => Sys2Proof.Machine.execForemanEvaluate s
  | .foremanVariantArm => Sys2Proof.Machine.execForemanVariantArm s
  | .gleanerRead t idx => Sys2Proof.Machine.execGleanerRead t idx s
  | .gleanerPassOverrun t => Sys2Proof.Machine.execGleanerPassOverrun t s
  | .gleanerReportReread c => Sys2Proof.Machine.execGleanerReportReread c s
  | .cdcAuditMeasure n dir cycles => Sys2Proof.Machine.execCdcAuditMeasure n dir cycles s
  | .ladderFault it => Sys2Proof.Machine.execLadderFault it s
  | .escWindowExpire it => Sys2Proof.Machine.execEscWindowExpire it s
  | .journalWrite => Sys2Proof.Machine.execJournalWrite s
  | .partitionEventSend p => Sys2Proof.Machine.execPartitionEventSend p s
  | .jrnSel m v => Sys2Proof.Machine.execJrnSel m v s
  | .counterStageWrite m ix v => Sys2Proof.Machine.execCounterStageWrite m ix v s
  | .counterCommit m ix v => Sys2Proof.Machine.execCounterCommit m ix v s
  | .counterWindowRead m ix => Sys2Proof.Machine.execCounterWindowRead m ix s
  | .counterOverflow ix add => Sys2Proof.Machine.execCounterOverflow ix add s
  | .tallyFreeze m v => Sys2Proof.Machine.execTallyFreeze m v s
  | .tallyUnfreeze m v => Sys2Proof.Machine.execTallyUnfreeze m v s
  | .tallyClrAll m v => Sys2Proof.Machine.execTallyClrAll m v s
  | .tallySnapshot m v => Sys2Proof.Machine.execTallySnapshot m v s
  | .tallyCommandApply => Sys2Proof.Machine.execTallyCommandApply s
  | .tallySnapshotDone => Sys2Proof.Machine.execTallySnapshotDone s
  | .probeRecordWrite j => Sys2Proof.Machine.execProbeRecordWrite j s
  | .probeCtrlWrite m j v => Sys2Proof.Machine.execProbeCtrlWrite m j v s

end Sys2Proof.Machine
end

