-- ==== Sys2Proof/Machine/Tick.lean ====
section
/-! DEFINITION. What time does by itself: one period of FCLK at its nominal rate, in which no command waits (log 3). -/

namespace Sys2Proof.Machine

/-- CYCLES of the routers and NIs whose logic is on (R379). -/
def State.countCycles (s : State) : State :=
  let s := forN 56 (fun k (s : State) => if s.tileOn k then s.countR k 0x01 8 unfiltered else s) s
  forN 87 (fun n (s : State) => if s.tileOn (niTile n) then s.countN n 0x01 1 unfiltered else s) s

/-- An FCLK cycle: fc, the rotation counter and CYCLES (R134, R135), a credit returned on each inbound class (R240), and the
slots of Skidway frames whose release is due (R292). None passes while FCLK is seen stopped (R412). -/
def State.fclkEdge (s : State) : State :=
  if s.fclkDead then s
  else
    let s := ({ s with fc := s.fc + 1, ni := Tbl.mapWith (fun _ => {}) (fun _ x => x.returnCredit) s.ni } : State).rotStep
    let s := s.tlyFc
    if s.held.isNone then forN 6 (fun p s => s.releaseSlots p) s.countCycles else s

/-- An MCLK cycle (R7): mc, MCYCLES, what waits for a Ledger entry: BOOM_EVT (R404) and the decision log (R362), and
Gleaner's write-backs (R364). -/
def State.mclkEdge (s : State) : State :=
  let s : State := { s with mc := s.mc + 1 }
  let s := s.tlyMc
  if s.held.isSome then s else ((s.countG 0x69 8 1).boomEvent).logFlush.glnFlush

/-- Whether a stopped MCLK has returned is a free value of each FCLK period (R412, log 138). -/
def State.mclkBack (s : State) : State := if s.mclkOff then ({ s with mclkOff := !bit s.freeNow 0 } : State).drawn else s

/-- Edges of MCLK in an FCLK period: 800 MHz against FCLK (R7). A stopped MCLK has none (R412). -/
def State.mclkRun (s : State) : State :=
  let s := s.mclkBack
  if s.mclkOff then s else
  let a := s.mAcc + 800
  if s.fclkMHz ≤ a then ({ s with mAcc := a - s.fclkMHz } : State).mclkEdge else { s with mAcc := a }

/-- Edges of TCLK in an FCLK period (R128). The counter stands while TCLK is seen stopped (R412). -/
def State.tclkRun (s : State) : State :=
  let a := s.tAcc + s.tclkMHz
  if s.fclkMHz ≤ a then
    let s : State := { s with tAcc := a - s.fclkMHz }
    if s.rbit CLK_STAT 2 then s else s.tclkEdge
  else { s with tAcc := a }

/-- The 1 µs of RST_CTRL.warm ends (R426). -/
def State.warmTimer (s : State) : State :=
  match s.warmUntil with
  | some t => if t ≤ s.mc then s.tryLeave else s
  | none => s

/-- One FCLK period passes. In OFF and in cold reset nothing counts but the 1 µs of an RST_CTRL.warm that acts as a cold
reset (R415, R425, R426). -/
def tick (s : State) : State :=
  if s.mode = .off then s
  else if s.held = some .cold then (if s.warmUntil.isSome then s.mclkRun.warmTimer else s)
  else s.fclkEdge.mclkRun.tclkRun.warmTimer

end Sys2Proof.Machine
end

