-- ==== Sys2Proof/Safety.lean ====
section
/-! DEFINITION. What statements call a sound state: the sparse tables it names are in their canonical form, and the Journal's
intake queue is within its 64 entries. -/

namespace Sys2Proof.Machine

/-- A sound state: equal tables are equal data, and R448's bound of the intake queue holds. -/
structure State.Sound (s : State) : Prop where
  regs    : Tbl.wf resetWord s.regs = true
  latches : Tbl.wf (fun _ => none) s.latches = true
  hlAns   : Tbl.wf (fun _ => []) s.hlAns = true
  banks   : Tbl.wf (fun _ => {}) s.banks = true
  flows   : Tbl.wf (fun _ => 0) s.flows = true
  ni      : Tbl.wf (fun _ => {}) s.ni = true
  rtr     : Tbl.wf (fun _ => {}) s.rtr = true
  links   : Tbl.wf (fun _ => []) s.links = true
  creds   : Tbl.wf (fun _ => []) s.creds = true
  skw     : Tbl.wf (fun _ => {}) s.skw = true
  parts   : Tbl.wf (fun _ => {}) s.parts = true
  boom    : Tbl.wf (fun _ => {}) s.boom = true
  jring   : Tbl.wf (fun _ => {}) s.jring = true
  jq      : s.jq.length ≤ 64

/-- The pins, clocks and eFuse array of two states agree (R426, R484, R495). -/
structure State.SamePins (s t : State) : Prop where
  niAlive : t.niAlive = s.niAlive
  pwrOk   : t.pwrOk = s.pwrOk
  coldPin : t.coldPin = s.coldPin
  warmPin : t.warmPin = s.warmPin
  efuse   : t.efuse = s.efuse
  fclkMHz : t.fclkMHz = s.fclkMHz
  tclkMHz : t.tclkMHz = s.tclkMHz

/-- Hayloft performs an access at once (R279 to R282): the instance is out of reset with FCLK and MCLK present, no access waits,
the page does not answer HANG_ABORT, master `m`, which is not Foreman, has a path to the slave `t`, and the power domain
of `t` is not cut off. -/
structure State.Serves (s : State) (m : Master) (wr : Bool) (a : Nat) (t : HlSlave) : Prop where
  supply : s.pwrOk = true
  out    : s.held = none
  mode   : s.mode ≠ .off
  clock  : s.fclkDead = false
  mclk   : s.mclkOff = false
  idle   : s.hlPend = []
  well   : s.hung.contains (a / 0x1000) = false
  path   : hlPath m.val wr t = true
  power  : (s.dom t.domain).cut = false
  user   : m ≠ 5

/-- A write by master `m` reaches the register at offset `o` of page `p`: it is served, and the page is enabled (R468). -/
structure State.Takes (s : State) (m : Master) (p : Page) (o : Nat) : Prop where
  serves  : s.Serves m true (pageBase p + o) (.page p o)
  enabled : s.rbit (pageBase p + 0x10) 0 = true

/-- Offset `o ≥ 0x100` of page `p` is that of a register whose write only stores: it starts no operation, is not refused by
the state of what it writes, and no engine keeps an earlier value of it. -/
def plainReg : Page → Nat → Bool
  | .global, o => !([0x104, 0x110, 0x130, 0x320, 0x328].contains o)
  | .time, o => !([0x100, 0x104, 0x108, 0x134].contains o)
  | .foreman, o => o ≠ 0x1D4
  | .gleaner, _ => true
  | .journal, o => o ≠ 0x110
  | .tally, o => 0x800 ≤ o && 0x14 ≤ (o - 0x800) % 0x40
  | .power, o => o ≠ 0x100
  | .sched, o => o = 0x140 || o = 0x144 || o = 0x170
  | .ni _, o => !([0x28C, 0x2C0, 0x2C4, 0x2C8, 0x310, 0x340, 0x344, 0x38C, 0x404, 0x40C].contains o) &&
      !(0x800 ≤ o && o < 0xA00)
  | .router _, o => o ≠ 0x104
  | .skidway _, o => !([0x100, 0x114, 0x11C].contains o)
  | .cluster _, o => o ≠ 0x104
  | .partition _, o => !([0x100, 0x150, 0x210].contains o) && !(0x110 ≤ o && o < 0x150)

/-- The bits that a write of a register stores: RW, and RWL on an unlocked page, of the features that are active (R5, R10,
R468). -/
def State.storeMask (s : State) (p : Page) (o : Nat) (r : RegRow) : Word :=
  (r.mask .rw ||| (if s.rbit (pageBase p + 0x10) 2 then 0 else r.mask .rwl)) &&& ~~~ s.inert p o

/-- The state after an access of master `m` to address `a` that had the effect `f` and answered `d`: an MNI's request is
noted for its mc and the segment parked on `m` (R280), and the answer is the one returned since this request (R281, R486). -/
def State.answered (s : State) (m : Master) (a : Nat) (t : HlSlave) (d : Word) (f : State → State) : State :=
  ((f ((s.asked m.val a).hlPark m.val t.segment)).hlTaken m.val).hlReturn m.val { data := d }

/-- The state after a write of master `m` to offset `o` of page `p` that had the effect `f`: PAGE_SEQ counts it too (R471). -/
def State.wrote (s : State) (m : Master) (p : Page) (o : Nat) (f : State → State) : State :=
  s.answered m (pageBase p + o) (.page p o) 0 fun u => f (u.seq p)

/-- The message at position `i` of queue `j` of NI `n` can be built whole, with lookup `f`: it has no packet yet, all its lines
are there, and steps 7 to 9 of R501 pass. -/
structure State.Builds (s : State) (n j i : Nat) (it : QItem) (f : Found) : Prop where
  item   : ((s.niOf n).queue j)[i]? = some it
  fresh  : it.pkt = none
  found  : f = s.resolve n it
  whole  : cutAt (s.maxPkt n it.cls) (if it.lidx = 0 then f.gran else it.gran) it.addr.toNat it.lines = it.lines
  lines  : dataCls it.cls = true → it.lines ≤ it.body.length
  passes : s.resolvedCode n j it f = OK
  target : f.fenced = false

/-- That message has its packet in `t`, and the rest of its queue is as in `s`. -/
def State.Built (s t : State) (n j i : Nat) (it : QItem) (f : Found) : Prop :=
  ∃ b p, (t.niOf n).queue j = ((s.niOf n).queue j).take i ++ [b] ++ ((s.niOf n).queue j).drop (i + 1) ∧
    b.pkt = some p ∧ b.tag = it.tag ∧ b.held = none ∧ p.body = it.cut it.lines ∧
    p.hdr = mkHdr it.cls false (it.flow.getD 0) (f.part.getD it.part) (s.node n) f.dst f.route it.tag ((it.cut it.lines).length - 1)

/-- NI `n` may fill its attachment output in this fc (R188), no credit is on its way to it, no ARB_REL is due, and no
scheduled packet or bank claims the output. -/
structure State.MaySend (s : State) (n : Nat) : Prop where
  sound  : s.Sound
  runs   : s.runs (niTile n) = true
  free   : (s.niOf n).sentFc ≠ s.fc + 1
  cred   : (s.niOf n).credFly = []
  holds  : ∀ r ∈ (s.niOf n).holds, r.granted = false
  sched  : (s.niOf n).schRest = []
  bank   : s.niBank n = none
  peer   : 81 ≤ n → (s.skwOf (n - 81)).schCur = none

/-- Flit `f` left NI `n` on VC `vc`: it is on the link to its router, due there in the next fc (R162). -/
def State.Left (s t : State) (n vc : Nat) (f : Flit) : Prop :=
  (t.niOf n).sentFc = s.fc + 1 ∧ ∃ y, t.linkOf (linkIn (Config.niRouter n) (Config.niPort n)) =
    s.linkOf (linkIn (Config.niRouter n) (Config.niPort n)) ++ [y] ∧ y.flit = f ∧ y.vc = vc ∧ y.due = s.fc + 1

/-- The sequence number that the next packet to the destination of `h` on its VN takes (R45). -/
def Ni.nextSeq (x : Ni) (h : BitVec 128) : BitVec 16 := Tbl.get (fun _ => 0) x.stream ((hDst h).toNat * 8 + hVn h)

/-- What a warm reset of `cause` leaves of `s` (R426, R427): the TIME and POWER pages but for their lock bits, fabric time,
the Journal ring with its write position, the eFuse shadow and the entries of the route store and the rule pool stay; a
domain that is OFF stays OFF and every other is OPEN; every other register reads its reset value. -/
structure State.WarmReset (s t : State) (cause : Nat) : Prop where
  mode    : t.mode = .cold
  held    : t.held = some .warm
  time    : t.time = s.time
  fc      : t.fc = s.fc
  mc      : t.mc = s.mc
  ring    : t.jring = s.jring
  shadow  : t.fuseShadow = s.fuseShadow
  pages   : ∀ a, (0x1000 ≤ a ∧ a < 0x2000 ∨ 0x6000 ≤ a ∧ a < 0x7000) → a ≠ 0x1010 → a ≠ 0x6010 → t.rd a = s.rd a
  locks   : t.rbit 0x1010 2 = false ∧ t.rbit 0x6010 2 = false
  widx    : t.rd JRN_WIDX = s.rd JRN_WIDX
  cause   : t.fld RST_STAT 1 0 = cause
  rest    : ∀ a, ¬ (0x1000 ≤ a ∧ a < 0x2000 ∨ 0x6000 ≤ a ∧ a < 0x7000) → a ≠ JRN_WIDX → a ≠ FUSE_STAT → a ≠ RST_STAT →
    t.rd a = resetWord a
  store   : ∀ c, (t.bankOf c).ent = (s.bankOf c).ent
  rules   : t.rules.ent = s.rules.ent
  domains : ∀ d, t.dom d = if s.dom d = .off then .off else .open_
  empty   : t.parts = [] ∧ t.skw = [] ∧ t.rtr = [] ∧ t.links = [] ∧ t.flows = [] ∧ t.jq = [] ∧ t.tally = {} ∧ t.change = none

end Sys2Proof.Machine
end

