-- ==== Sys2Proof/WellFormed.lean ====
section
/-! DEFINITION. Well-formed commands: what the ports of R484 and the tables of R371 let an operand be, beyond its type. -/

namespace Sys2Proof

/-- Read positions of a structure for Gleaner (R57, R141, R159, R313, R363): an entry of all eight banks at once, a window
word of 32 bits counted from the window start, a rule. -/
def glnSize : GlnTable → Nat
  | .routeStore => 16384
  | .slot => 56 * 4096
  | .injection => 87 * 4096
  | .rule => 8192

/-- A frame has twelve slots (R287). -/
def Frame.wf (f : Frame) : Bool := f.slots.length == 12

/-- A channel message keeps to the widths of R484: a burst index lies in its burst, and an answer counts one or two
packets. -/
def Msg.wf (m : Msg) : Bool := decide (m.lidx.toNat ≤ m.blen.toNat) || m.ctrl != 0

/-- An image read from management memory is no longer than the largest that R163 and R346 allow. -/
def imageWf (l : List (BitVec 8)) : Bool := decide (l.length ≤ 2 ^ 24)

/-- A code that the fabric produces (R440). -/
def codeWf (c : Code) : Bool := decide (c.toNat < 16)

/-- The operands of a command are ones that can occur. -/
def Instr.wf : Instr → Bool
  | .skwFrameReceive _ f => f.wf
  | .inboundRequestMessage _ m => m.wf
  | .gleanerRead t i => decide (i < glnSize t)
  | .schedLoadDone image c => imageWf image && codeWf c
  | .partSaveDone _ c => codeWf c
  | .partRestoreDone _ image c => imageWf image && codeWf c
  | .efuseProgram _ img => decide (img.maps.length ≤ 255)
  | .counterOverflow _ add => decide (0 < add)
  | _ => true

end Sys2Proof
end

