-- ==== Sys2Proof/Certificates/Slice0/Obligations.lean ====
section
/-! DEFINITION. The statements for the provers. Each is over every state and every operand that meets its hypotheses. -/

open Sys2Proof Sys2Proof.Machine

/-! The queue, and what no command breaks -/

/-- When the queue is `c` followed by `rest`, a step is `exec` of `c` on the state whose queue is `rest`. -/
def Obligations.StepRunsFront : Prop :=
  ∀ (s : State) (c : Instr) (rest : List Instr), s.pending = c :: rest → step s = exec c { s with pending := rest }

/-- The state in cold reset is sound, and every register and window word of it reads its reset value. -/
def Obligations.ResetSound : Prop := State.reset.Sound ∧ ∀ a, State.reset.rd a = resetWord a

/-- From every sound state a step that answers a next state ends in a sound state: all thirteen tables keep their canonical
form, and the Journal's intake queue never holds more than its 64 entries. -/
def Obligations.SoundKept : Prop := ∀ (s t : State), s.Sound → step s = .next t → t.Sound

/-- No command stops the block: in every state, whatever its operands, a command answers a next state, with the queue it was given. -/
def Obligations.QueueKept : Prop := ∀ (c : Instr) (s : State), ∃ t, exec c s = .next t ∧ t.pending = s.pending

/-- Every command but the edges of PWR_OK, RST_COLD_N, RST_WARM_N and NI_ALIVE and the eFuse programming instruction leaves
the levels of these pins, the clock frequencies and the eFuse array as they were. -/
def Obligations.PinsKept : Prop :=
  ∀ (c : Instr) (s t : State), exec c s = .next t →
    c ≠ .pwrOkRise → c ≠ .pwrOkFall → c ≠ .coldResetAssert → c ≠ .coldResetRelease → c ≠ .warmResetAssert →
    c ≠ .warmResetRelease → (∀ n, c ≠ .niAliveRise n) → (∀ n, c ≠ .niAliveFall n) → (∀ b i, c ≠ .efuseProgram b i) →
    s.SamePins t

/-! Supplies, resets, fuses and test instructions -/

/-- With EFUSE_PGM high in TEST, out of reset, the array takes the image and test_lock is set; with the pin low, or in any other
mode, nothing changes; no other command changes the array, and the level of the pin is not part of what FUSE_DONE reads: a fuse
read that ends takes the array as it stands. -/
def Obligations.EfuseProgram : Prop :=
  (∀ (s : State) img, s.mode = .test → s.held = none →
    exec (.efuseProgram true img) s = .next { s with efuse := img, testLock := true }) ∧
  (∀ (s : State) img, exec (.efuseProgram false img) s = .next s) ∧
  (∀ (s : State) b img, s.mode ≠ .test → exec (.efuseProgram b img) s = .next s) ∧
  (∀ c s t, exec c s = .next t → (∀ img, c ≠ .efuseProgram true img) → t.efuse = s.efuse) ∧
  (∀ (s : State) t, s.mode = .fuse → s.held = none → s.rbit FUSE_STAT 4 = false → exec (.fuseDone false) s = .next t →
    t.fuseShadow = s.efuse)

/-- PWR_OK rising from low puts every register, table and counter at its reset value, in COLD and held in cold reset; PWR_OK
falling puts the instance in OFF in the same way. The queue, the pins, the clocks, the eFuse array and the count of free
values drawn stay, and each unit that is alive must be seen low first (R241). RST_COLD_N going low while PWR_OK is high does the
same with RST_STAT.cause 1, and the parts of EH_RD results that LNI work had started are lost. Its release, when nothing else holds
the instance in cold reset, enters FUSE, with MODE_STAT.prev naming COLD and mode_done set; while RST_WARM_N is low it leaves the
instance held. -/
def Obligations.SupplyAndColdReset : Prop :=
  (∀ (s : State), s.pwrOk = false → exec .pwrOkRise s = .next { State.reset with
    pending := s.pending, fclkMHz := s.fclkMHz, tclkMHz := s.tclkMHz, draws := s.draws, niAlive := s.niAlive,
    coldPin := s.coldPin, warmPin := s.warmPin, efuse := s.efuse, ni := s.heldUnits }) ∧
  (∀ (s : State), s.pwrOk = true → exec .pwrOkRise s = .next s) ∧
  (∀ (s : State), exec .pwrOkFall s = .next { State.reset with
    pwrOk := false, mode := .off, held := none,
    pending := s.pending, fclkMHz := s.fclkMHz, tclkMHz := s.tclkMHz, draws := s.draws, niAlive := s.niAlive,
    coldPin := s.coldPin, warmPin := s.warmPin, efuse := s.efuse, ni := s.heldUnits }) ∧
  (∀ (s : State), s.pwrOk = true → s.coldPin = false → exec .coldResetAssert s = .next (({ State.reset with
    pending := s.pending, fclkMHz := s.fclkMHz, tclkMHz := s.tclkMHz, draws := s.draws, niAlive := s.niAlive,
    warmPin := s.warmPin, efuse := s.efuse, ni := s.heldUnits, lni := s.lni.lost } : State).setFld RST_STAT 1 0 1)) ∧
  (∀ (s : State), s.pwrOk = true → s.held = some .cold → s.warmPin = false → s.warmUntil = none → exec .coldResetRelease s = .next
    ((({ s with coldPin := false, held := none, mode := .fuse } : State).setFld MODE_STAT 7 4 2).setBit 0x024 0)) ∧
  (∀ (s : State), s.warmPin = true → exec .coldResetRelease s = .next { s with coldPin := false })

/-- From a sound state with PWR_OK high, no cold reset and no fuse error, RST_WARM_N going low is a warm reset of cause 2. While
test_lock is set it puts every register and table at its reset value instead. Its release, when nothing else holds the instance
in warm reset, enters CALIBRATE; the clock crossings resynchronise for 48 fc (log 137). In a cold reset, with PWR_OK low, or in FUSE with a fuse error, the pin falls and nothing else
happens. -/
def Obligations.WarmResetPins : Prop :=
  (∀ (s : State), s.Sound → s.pwrOk = true → s.warmPin = false → s.held ≠ some .cold → (s.mode = .fuse → s.rbit FUSE_STAT 4 = false) →
    s.testLock = false →
    ∃ t, exec .warmResetAssert s = .next t ∧ s.WarmReset t 2 ∧ t.warmPin = true ∧ s.SamePins { t with warmPin := false }) ∧
  (∀ (s : State), s.pwrOk = true → s.warmPin = false → s.held ≠ some .cold → (s.mode = .fuse → s.rbit FUSE_STAT 4 = false) →
    s.testLock = true →
    exec .warmResetAssert s = .next (({ State.reset with
      pending := s.pending, fclkMHz := s.fclkMHz, tclkMHz := s.tclkMHz, draws := s.draws, niAlive := s.niAlive,
      coldPin := s.coldPin, warmPin := true, efuse := s.efuse, ni := s.heldUnits, lni := s.lni.lost } : State).setFld
        RST_STAT 1 0 2)) ∧
  (∀ (s : State), s.pwrOk = true → s.held = some .warm → s.coldPin = false → s.warmUntil = none → exec .warmResetRelease s = .next
    ((({ s with warmPin := false, held := none, mode := .calibrate, eng := { s.eng with syncFc := s.fc + 48 } } : State).setFld
      MODE_STAT 7 4 2).setBit 0x024 0)) ∧
  (∀ (s : State), (s.pwrOk = false ∨ s.held = some .cold ∨ (s.mode = .fuse ∧ s.rbit FUSE_STAT 4 = true)) →
    exec .warmResetAssert s = .next { s with warmPin := true })

/-- A fuse read that ends well loads the die number and the repair count into FUSE_STAT, sets done, and CALIBRATE follows; one
with a bad word sets err and the page's fuse_err and the instance stays. BYPASS shifts 0 out on TDO and IDCODE the value of R496
in every mode while powered, a wrapper register the next free value on WSO, and an instruction that drives functional state writes it in TEST
alone, setting test_lock. -/
def Obligations.FusesAndTest : Prop :=
  (∀ (s : State), s.mode = .fuse → s.held = none → s.rbit FUSE_STAT 4 = false → ∃ t, exec (.fuseDone false) s = .next t ∧
    t.mode = .calibrate ∧ t.fuseShadow = s.efuse ∧ t.fld FUSE_STAT 2 0 = s.efuse.die.toNat ∧
    t.fld FUSE_STAT 15 8 = s.efuse.repairs.toNat ∧ t.rbit FUSE_STAT 3 = true ∧ t.fld MODE_STAT 7 4 = 1 ∧
    t.rbit 0x024 0 = true ∧ (∀ a, a ≠ FUSE_STAT → a ≠ MODE_STAT → a ≠ 0x024 → t.rd a = s.rd a) ∧
    { t with regs := s.regs, mode := s.mode, fuseShadow := s.fuseShadow, notes := s.notes } = s) ∧
  (∀ (s : State), s.mode = .fuse → s.held = none → s.rbit FUSE_STAT 4 = false → ∃ t, exec (.fuseDone true) s = .next t ∧
    t.rbit FUSE_STAT 4 = true ∧ t.rbit 0x018 2 = true ∧
    (∀ a, a ≠ FUSE_STAT → a ≠ 0x018 → a ≠ 0x020 → t.rd a = s.rd a) ∧ { t with regs := s.regs, notes := s.notes } = s) ∧
  (∀ (s : State), s.pwrOk = true → exec (.testReadInstruction .bypass) s = .next { s with tdo := some 0 } ∧
    exec (.testReadInstruction .idcode) s = .next
      { s with tdo := some (BitVec.ofNat 64 (0x20B24001 + 2 * s.efuse.mfr.toNat)) } ∧
    exec (.testReadInstruction .wrapper) s = .next { s with wso := Config.freeValue s.draws, draws := s.draws + 1 }) ∧
  (∀ (s : State) a v, s.mode = .test → s.held = none → exec (.testStateInstruction [(a, v)]) s = .next { s.wr a v with testLock := true }) ∧
  (∀ (s : State) l, s.mode ≠ .test → exec (.testStateInstruction l) s = .next s)

/-! Registers of the GLOBAL and TIME pages -/

/-- From a sound state, a write that reaches RST_CTRL with warm set is a warm reset of cause 3, which holds the instance for 800 mc
more; the pins stay, and the write is answered (the answer is the model's reading, log 110). While test_lock is set every register and
table takes its reset value instead. In FUSE with a fuse error the write does nothing (R430). -/
def Obligations.ResetCommand : Prop :=
  (∀ (s : State) m v, s.Sound → s.Takes m .global 0x110 → (s.mode = .fuse → s.rbit FUSE_STAT 4 = false) → s.testLock = false →
    ∃ t, exec (.warmResetCommand m v) s = .next t ∧ s.WarmReset t 3 ∧ t.warmUntil = some (s.mc + 800) ∧ s.SamePins t) ∧
  (∀ (s : State) m v, s.Takes m .global 0x110 → (s.mode = .fuse → s.rbit FUSE_STAT 4 = false) → s.testLock = true →
    ∃ t, exec (.warmResetCommand m v) s = .next t ∧ t.mode = .cold ∧ t.held = some .cold ∧ t.testLock = false ∧
      (∀ a, a ≠ RST_STAT → t.rd a = resetWord a) ∧ t.fld RST_STAT 1 0 = 3 ∧ t.warmUntil = some 800 ∧ s.SamePins t) ∧
  (∀ (s : State) m v, s.Takes m .global 0x110 → s.mode = .fuse → s.rbit FUSE_STAT 4 = true →
    exec (.warmResetCommand m v) s = .next (s.wrote m .global 0x110 id))

/-- A write that reaches RST_CTRL with tile_rst set and warm clear names tile k in bits 13 to 8. Where tile k is ISOLATED, every
register of its pages, tables and counters takes its reset value, its router and NIs restart, its TLY_LOST bit is set, and it will
return as from OFF; the scheduled reservation of a KNI of the tile is emptied, and a Skidway port of it that is in FAULT becomes
DISABLED; without such a port the rest stays. Elsewhere the write sets the GLOBAL page's tile_rst error and does nothing else. -/
def Obligations.TileReset : Prop :=
  (∀ (s : State) m v, s.Takes m .global 0x110 → bit v 0 = false → getBits v 13 8 < 56 → (s.boomOf (getBits v 13 8)).st = .isolated →
    (getBits v 13 8 < 42 → getBits v 13 8 % 7 = 6 → s.skwState (getBits v 13 8 / 7) ≠ 7) → ∃ t, exec (.tileReset m v) s = .next t ∧
      (∀ a, tileAddr (getBits v 13 8) a = true → t.rd a = resetWord a) ∧
      (∀ a, tileAddr (getBits v 13 8) a = false → a ≠ HL_PARK → a ≠ 0x030 → a ≠ TLY_LOST0 → a ≠ TLY_LOST1 → t.rd a = s.rd a) ∧
      t.rbit (if getBits v 13 8 < 32 then TLY_LOST0 else TLY_LOST1) (getBits v 13 8 % 32) = true ∧
      t.rtrOf (getBits v 13 8) = {} ∧ (∀ k, k ≠ getBits v 13 8 → t.rtrOf k = s.rtrOf k) ∧
      (∀ n, n < 87 → niTile n = getBits v 13 8 → t.niOf n = { mustFall := n < 80 && bit s.niAlive n, ordN := (s.niOf n).ordN, ckN := (s.niOf n).ckN }) ∧
      (∀ n, n < 87 → niTile n ≠ getBits v 13 8 → t.niOf n = s.niOf n) ∧
      t.boomOf (getBits v 13 8) = { s.boomOf (getBits v 13 8) with fromOff := true } ∧
      (∀ d, d ≠ getBits v 13 8 → t.boomOf d = s.boomOf d) ∧
      (∀ q, t.skwOf q = if getBits v 13 8 < 42 ∧ getBits v 13 8 % 7 = 6 ∧ q = getBits v 13 8 / 7
        then { s.skwOf q with sched := [], schCur := none } else s.skwOf q) ∧
      { t with regs := s.regs, hung := s.hung, rtr := s.rtr, links := s.links, ni := s.ni, lni := s.lni, boom := s.boom,
               skw := s.skw, hlAns := s.hlAns, notes := s.notes } = s) ∧
  (∀ (s : State) m v, s.Takes m .global 0x110 → bit v 0 = false → getBits v 13 8 < 42 → getBits v 13 8 % 7 = 6 →
    (s.boomOf (getBits v 13 8)).st = .isolated → s.skwState (getBits v 13 8 / 7) = 7 →
    ∃ t, exec (.tileReset m v) s = .next t ∧ t.skwState (getBits v 13 8 / 7) = 0 ∧ (t.skwOf (getBits v 13 8 / 7)).sched = [] ∧
      t.rtrOf (getBits v 13 8) = {} ∧ t.boomOf (getBits v 13 8) = { s.boomOf (getBits v 13 8) with fromOff := true }) ∧
  (∀ (s : State) m v, s.Takes m .global 0x110 → bit v 0 = false →
    (56 ≤ getBits v 13 8 ∨ (s.boomOf (getBits v 13 8)).st ≠ .isolated) →
    exec (.tileReset m v) s = .next (s.wrote m .global 0x110 fun u => u.pageErr .global 3))

/-- A write that reaches MODE_REQ: a target that R420 refuses sets MODE_STAT.err, its code and the page's mode_err; FROZEN is noted
at this fc; a direct change starts; a change through DRAIN enters DRAIN at once where the schedule is
neither committed nor switching, cancelling an armed switchover and closing every write-combining line; otherwise it is noted
alone. While a change is in progress every other request is refused with BUSY, but FROZEN in DRAIN, and in FROZEN with PATH; one written
after an escalation of its mc is refused with BUSY (R437). -/
def Obligations.ModeRequests : Prop :=
  (∀ (s : State) m v e, s.Takes m .global 0x104 → s.modeRefusal (getBits v 3 0) = some e → exec (.modeRequest m v) s = .next
    (s.wrote m .global 0x104 fun u => ((({ u with notes := { u.notes with modeRefused := s.mc + 1 } } : State).setFld MODE_STAT 15 12 e).setBit
      MODE_STAT 16).pageErr .global 0)) ∧
  (∀ (s : State) m v, s.Takes m .global 0x104 → s.modeRefusal (getBits v 3 0) = none → getBits v 3 0 = 11 →
    exec (.modeRequest m v) s = .next (s.wrote m .global 0x104 fun u =>
      { u with frozenAt := some s.fc, notes := { u.notes with modeAsked := (s.mc + 1, s.mode) } })) ∧
  (∀ (s : State) m v g, s.Takes m .global 0x104 → s.modeRefusal (getBits v 3 0) = none → Mode.ofCode (getBits v 3 0) = some g →
    modeRoute s.mode g = some .direct → exec (.modeRequest m v) s = .next
      (s.wrote m .global 0x104 fun u =>
        { u with change := some { target := g, from_ := s.mode, fc := s.fc },
                 notes := { u.notes with modeAsked := (s.mc + 1, s.mode) } })) ∧
  (∀ (s : State) m v g, s.Takes m .global 0x104 → s.modeRefusal (getBits v 3 0) = none → Mode.ofCode (getBits v 3 0) = some g →
    modeRoute s.mode g = some .drain → s.swState < 3 → s.Sound → ∃ t, exec (.modeRequest m v) s = .next t ∧ t.mode = .drain ∧
      t.swState = (if s.swState = 2 then 1 else s.swState) ∧
      t.change = some { target := g, from_ := s.mode, drains := true, recov := g = .recovery, fc := s.fc, opened := true,
                        marks := (List.range 80).map fun n => (s.niOf n).ordN } ∧
      (∀ n, t.niOf n = (s.niOf n).closeAll s.fc)) ∧
  (∀ (s : State) m v g, s.Takes m .global 0x104 → s.modeRefusal (getBits v 3 0) = none → Mode.ofCode (getBits v 3 0) = some g →
    modeRoute s.mode g = some .drain → 3 ≤ s.swState → exec (.modeRequest m v) s = .next
      (s.wrote m .global 0x104 fun u =>
        { u with change := some { target := g, from_ := s.mode, drains := true, recov := g = .recovery, fc := s.fc },
                 notes := { u.notes with modeAsked := (s.mc + 1, s.mode) } })) ∧
  (∀ (s : State) c, s.modeBusy = true → (s.mode = .drain → c ≠ 11 ∨ s.frozenAt.isSome) → s.modeRefusal c = some 1) ∧
  (∀ (s : State) c, s.notes.escalated = s.mc + 1 → s.modeRefusal c = some 1) ∧
  (∀ s : State, s.notes.escalated ≠ s.mc + 1 → s.modeBusy = false → s.mode = .frozen → ∀ c, s.modeRefusal c = some 2)

/-- A write that reaches FEAT_COMMIT: where no cause of R432 refuses it, FEAT_ACTIVE takes FEAT_ACCEPT and FEAT_STAT.done is set;
otherwise FEAT_STAT holds the code with err set, and the page's feat_err is set. -/
def Obligations.FeatureCommit : Prop :=
  (∀ (s : State) m v, s.Takes m .global 0x130 → s.featRefusal = none → exec (.featCommit m v) s = .next
    (s.wrote m .global 0x130 fun u => ((u.wr FEAT_ACTIVE_LO (s.rd FEAT_ACCEPT_LO)).wr FEAT_ACTIVE_HI (s.rd FEAT_ACCEPT_HI)).setBit
      FEAT_STAT 0)) ∧
  (∀ (s : State) m v e, s.Takes m .global 0x130 → s.featRefusal = some e → exec (.featCommit m v) s = .next
    (s.wrote m .global 0x130 fun u => ((u.setFld FEAT_STAT 7 4 e).setBit FEAT_STAT 8).pageErr .global 1))

/-- A write that reaches TIME_CTRL stores its RW bits, restarts the servo's count of accepted edges (log 134), puts
TIME_STAT.time_state at ACQUIRING or FREE by the servo_en written, and RATE at F + P or F within 200 ppm; the phase correction under
way goes on. With rot_acq it also puts phase_state at ACQUIRE unless the mode is SCHEDULED or a switchover is ARMED or COMMITTED. With
set_now the counter takes SET at the next TCLK edge in place of counting, the correction ends, the step is counted and flagged,
time_state is ACQUIRING with RATE at F, the last capture moves with the counter, and a step of half a second or more cancels an
armed switchover with code 8. A write of FREQ stores F, and RATE follows. -/
def Obligations.ServoRegisters : Prop :=
  (∀ (s : State) m v, s.Takes m .time 0x100 → bit v 1 = false → bit v 2 = false →
    exec (.servoEnWrite m v) s = .next (s.wrote m .time 0x100 fun u =>
      (((u.wr TIME_CTRL ((s.rd TIME_CTRL &&& ~~~ 0xFFF1) ||| (v &&& 0xFFF1))).setTime { s.time with consec := 0 }).setFld
        TIME_STAT 1 0 (flag (bit v 0))).setSfld RATE 18 0
          (clampI (if bit v 0 then s.sfld FREQ 18 0 + s.time.p else s.sfld FREQ 18 0) (-200000) 200000))) ∧
  (∀ (s : State) m v, s.Takes m .time 0x100 → bit v 2 = false → ∃ t, exec (.rotAcq m v) s = .next t ∧
    t.fld TIME_STAT 3 2 = (if s.mode = .scheduled ∨ s.swState = 2 ∨ s.swState = 3 then s.fld TIME_STAT 3 2 else 1) ∧
    t.fld TIME_STAT 1 0 = flag (bit v 0) ∧ t.rd TIME_CTRL = (s.rd TIME_CTRL &&& ~~~ 0xFFF1) ||| (v &&& 0xFFF1) ∧
    t.sfld RATE 18 0 = clampI (if bit v 0 then s.sfld FREQ 18 0 + s.time.p else s.sfld FREQ 18 0) (-200000) 200000 ∧
    (∀ a, a ≠ TIME_CTRL → a ≠ TIME_STAT → a ≠ RATE → a ≠ HL_PARK → a ≠ 0x1030 → t.rd a = s.rd a) ∧
    t.time = { s.time with consec := 0 } ∧
    { t with regs := s.regs, time := s.time, hlAns := s.hlAns, notes := s.notes } = s) ∧
  (∀ (s : State) m v, s.Takes m .time 0x100 → bit v 1 = false → ∃ t set, exec (.setNow m v) s = .next t ∧
    set = BitVec.ofNat 96 ((s.rd SET_HI).toNat * 2 ^ 64 + (s.rd SET_LO).toNat * 2 ^ 32 + s.fld SET_SUB 15 0 * 2 ^ 16) ∧
    t.time = { s.time with
      load := some set, stepBy := 0, p := 0, pEnd := none, consec := 0,
      lastC := s.time.lastC.map fun c => BitVec.ofInt 96 ((c.toNat : Int) - ((s.time.now.toNat : Int) - set.toNat)) } ∧
    t.fld TIME_STAT 31 16 = min (s.fld TIME_STAT 31 16 + 1) 65535 ∧ t.fld TIME_STAT 1 0 = 1 ∧
    t.rbit 0x1018 0 = true ∧ t.sfld RATE 18 0 = clampI (s.sfld FREQ 18 0) (-200000) 200000 ∧
    (if s.swState = 2 ∧ secSub / 2 ≤ ((s.time.now.toNat : Int) - set.toNat).natAbs
      then t.swState = 1 ∧ t.fld SW_STAT 7 4 = 8 ∧ t.rbit SW_STAT 8 = true else t.rd SW_STAT = s.rd SW_STAT) ∧
    (∀ a, a ≠ TIME_CTRL → a ≠ TIME_STAT → a ≠ RATE → a ≠ SW_STAT → a ≠ 0x1018 → a ≠ 0x1020 → a ≠ HL_PARK → a ≠ 0x1030 →
      t.rd a = s.rd a) ∧
    { t with regs := s.regs, time := s.time, hlAns := s.hlAns, notes := s.notes } = s) ∧
  (∀ (s : State) m v, s.Takes m .time 0x134 → ∃ t, exec (.freqWrite m v) s = .next t ∧
    t.fld FREQ 18 0 = getBits v 18 0 ∧
    t.sfld RATE 18 0 = clampI (if s.fld TIME_STAT 1 0 = 1 ∨ s.fld TIME_STAT 1 0 = 2
      then (v.extractLsb' 0 19).toInt + s.time.p else (v.extractLsb' 0 19).toInt) (-200000) 200000 ∧
    (∀ a, a ≠ FREQ → a ≠ RATE → a ≠ HL_PARK → a ≠ 0x1030 → t.rd a = s.rd a) ∧
    { t with regs := s.regs, hlAns := s.hlAns, notes := s.notes } = s)

/-- While TCLK runs and the instance is neither in cold reset, OFF nor FUSE: an edge that R131 rejects is counted and flagged and
changes nothing else; an accepted edge leaves its capture and its error in the page. A phase correction whose W ms have passed
ends, and RATE is F again within 200 ppm; earlier it stays. LOCKED goes to HOLDOVER when miss_max seconds have gone by without an
accepted edge: RATE is F alone, and the correction under way keeps its W ms. -/
def Obligations.FabricTimeEvents : Prop :=
  (∀ (s : State), s.held ≠ some .cold → s.mode ≠ .off → s.mode ≠ .fuse → s.rbit CLK_STAT 2 = false → s.edgeOk s.capture = false →
    exec .ppsEdge s = .next ((s.satFld TIME_STAT 15 8 1).pageErr .time 3)) ∧
  (∀ (s : State), s.held ≠ some .cold → s.mode ≠ .off → s.mode ≠ .fuse → s.rbit CLK_STAT 2 = false → s.edgeOk s.capture = true →
    ∃ t, exec .ppsEdge s = .next t ∧ t.fld PPS_CAP_SUB 15 0 = getBits s.capture 31 16 ∧
      t.rd PPS_CAP_LO = s.capture.extractLsb' 32 32 ∧ t.rd PPS_CAP_HI = s.capture.extractLsb' 64 32 ∧
      t.rd PPS_ERR = BitVec.ofInt 32 (capErr s.capture)) ∧
  (∀ (s : State) e, s.time.pEnd = some e → e.toNat ≤ s.time.now.toNat → exec .phaseWindowEnd s = .next
    ((s.setTime { s.time with p := 0, pEnd := none }).setSfld RATE 18 0 (clampI (s.sfld FREQ 18 0) (-200000) 200000))) ∧
  (∀ (s : State), (∀ e, s.time.pEnd = some e → s.time.now.toNat < e.toNat) → exec .phaseWindowEnd s = .next s) ∧
  (∀ (s : State) c, s.time.lastC = some c → s.fld TIME_STAT 1 0 = 2 →
    (nearSec c + s.fld PPS_CFG 27 24) * secSub + s.fld PPS_CFG 23 16 * 1000 * 2 ^ 32 ≤ s.time.now.toNat →
    ∃ t, exec .holdoverEntry s = .next t ∧ t.fld TIME_STAT 1 0 = 3 ∧ t.rbit 0x1018 1 = true ∧
      t.sfld RATE 18 0 = clampI (s.sfld FREQ 18 0) (-200000) 200000 ∧
      (∀ a, a ≠ TIME_STAT → a ≠ RATE → a ≠ 0x1018 → a ≠ 0x1020 → t.rd a = s.rd a) ∧
      { t with regs := s.regs, notes := s.notes } = s) ∧
  (∀ (s : State), s.fld TIME_STAT 1 0 ≠ 2 → exec .holdoverEntry s = .next s)

/-! Mode changes -/

/-- From a sound state out of reset: a direct change that every router and NI has taken up puts its target in force, and the rules
that act at a mode change act at every NI (the arbiter idle, ring slots, grants and monitors gone); a change through DRAIN that has
left DRAIN is over; both name the mode left and set mode_done. A FROZEN request that is due freezes the instance. With no change
in progress and none due, neither event does anything. Where the mode left is SCHEDULED, Foreman's variant sequence does not run. -/
def Obligations.ModeChangeEnds : Prop :=
  (∀ (s : State) c, s.Sound → s.change = some c → s.held = none → c.drains = false → (s.mode = .scheduled → s.eng.varStep = 0) →
    ∃ t, exec .modeChangeDone s = .next t ∧ t.mode = c.target ∧ t.change = none ∧ t.fld MODE_STAT 7 4 = c.from_.code ∧
      t.rbit 0x024 0 = true ∧ (∀ a, a ≠ MODE_STAT → a ≠ 0x024 → t.rd a = s.rd a) ∧
      (∀ n, t.niOf n = (s.niOf n).modeChange ∧ (t.niOf n).arb.st = .idle ∧ (t.niOf n).slots = [] ∧ (t.niOf n).grants = [] ∧
        (t.niOf n).mons = []) ∧
      { t with regs := s.regs, mode := s.mode, change := s.change, ni := s.ni, notes := s.notes } = s) ∧
  (∀ (s : State) c, s.change = some c → s.held = none → c.drains = true → c.left = true → exec .modeChangeDone s = .next
    ((({ s with change := none } : State).setFld MODE_STAT 7 4 c.from_.code).setBit 0x024 0)) ∧
  (∀ (s : State), s.change = none → exec .modeChangeDone s = .next s) ∧
  (∀ (s : State) c, s.Sound → s.frozenAt = some c → s.held = none → (s.mode = .scheduled → s.eng.varStep = 0) →
    ∃ t, exec .frozenApply s = .next t ∧ t.mode = .frozen ∧ t.frozenAt = none ∧ t.change = none ∧
      t.fld MODE_STAT 7 4 = s.mode.code ∧ t.rbit 0x024 0 = true ∧ (∀ a, a ≠ MODE_STAT → a ≠ 0x024 → t.rd a = s.rd a) ∧
      { t with regs := s.regs, mode := s.mode, change := s.change, frozenAt := s.frozenAt, ni := s.ni, notes := s.notes } = s) ∧
  (∀ (s : State), s.frozenAt = none → exec .frozenApply s = .next s)

/-- In DRAIN, out of reset, from a sound state: when the conditions of R418 hold the target is in force and the change waits only for
the routers and NIs; while they do not, the event changes nothing. On the way to RECOVERY, once drain_max fc have passed since
DRAIN was entered, the target is in force too and no router, link, Granary or Skidway adapter holds a flit; earlier, nothing happens. -/
def Obligations.DrainEnds : Prop :=
  (∀ (s : State) c, s.Sound → s.mode = .drain → s.change = some c → s.held = none → s.drainOver c = true →
    ∃ t, exec .drainComplete s = .next t ∧ t.mode = c.target ∧ t.change = some { c with left := true } ∧
      (∀ n, t.niOf n = (s.niOf n).modeChange) ∧
      { t with mode := s.mode, change := s.change, ni := s.ni } = s) ∧
  (∀ (s : State) c, s.change = some c → s.drainOver c = false → exec .drainComplete s = .next s) ∧
  (∀ (s : State) c, s.Sound → s.mode = .drain → s.change = some c → s.held = none → c.recov = true →
    c.fc + s.fld RCV_CTRL 23 0 ≤ s.fc →
    ∃ t, exec .drainLimitExpire s = .next t ∧ t.mode = c.target ∧ t.change = some { c with left := true } ∧
      t.links = [] ∧ t.creds = [] ∧
      (∀ k, t.rtrOf k = { lastVc := (s.rtrOf k).lastVc, lastIn := (s.rtrOf k).lastIn, lastFc := (s.rtrOf k).lastFc }) ∧
      (∀ n, (t.niOf n).gran = [] ∧ (t.niOf n).cur = [] ∧ (t.niOf n).asm = [] ∧ (t.niOf n).schAsm = [] ∧
        (t.niOf n).schRest = [] ∧ (t.niOf n).answersIn = []) ∧
      (∀ p, (t.skwOf p).rx = [] ∧ (t.skwOf p).rxq = [] ∧ (t.skwOf p).rxCur = none ∧ (t.skwOf p).txCur = [] ∧ (t.skwOf p).sched = [] ∧ (t.skwOf p).schOut = [])) ∧
  (∀ (s : State) c, s.change = some c → s.fc < c.fc + s.fld RCV_CTRL 23 0 → exec .drainLimitExpire s = .next s)

/-! Schedules and switchovers -/

/-- A write that reaches SW_CTRL with one action bit, while SCHEDULED is active and Foreman's variant sequence does not run. arm: where
no cause of R146 holds, SW_STAT is ARMED with the master's number, and SW_IDX and SW_SEC hold the switch rotation of R145; a refused
arm changes nothing but SW_STAT's error and code: 7 past LOADED, 1 for a SWAP or an ENTER in IDLE, 2 without phase lock. cancel returns ARMED
to LOADED, is refused with code 6 once committed, and has no effect in IDLE and LOADED (the model's choice, log 131). mark_loaded
puts IDLE at LOADED. -/
def Obligations.SwitchoverCommands : Prop :=
  (∀ (s : State) m v sec r d, s.Takes m .sched 0x100 → s.feat fSCHEDULED = true → s.eng.varStep = 0 → bit v 1 = false → bit v 4 = false →
    s.swState < 2 → (s.swState = 1 ∧ getBits v 3 2 = 0 ∧ s.mode = .scheduled ∨ s.swState = 1 ∧ getBits v 3 2 = 1 ∧ s.mode = .dynamic ∨
      getBits v 3 2 = 2 ∧ s.mode = .scheduled) →
    s.fld TIME_STAT 3 2 = 2 → s.swStamp = (sec, r) → s.fcUntil sec r = some d → 2048 ≤ d →
    ((s.rd SW_TGT_HI).toNat * 2 ^ 32 + (s.rd SW_TGT_LO).toNat) * 65536 + s.fld SW_TGT_SUB 15 0 ≤
      s.time.now.toNat / 65536 + 3600 * 1000000000 * 65536 →
    ∃ t, exec (.swArm m v) s = .next t ∧ t.fld SW_STAT 2 0 = 2 ∧ t.fld SW_STAT 11 9 = m.val ∧ t.fld SW_IDX 21 0 = r % 2 ^ 22 ∧
      t.rd SW_SEC_LO = BitVec.ofNat 32 sec ∧ t.rd SW_SEC_HI = BitVec.ofNat 32 (sec / 2 ^ 32) ∧
      t.sw = { s.sw with kind := getBits v 3 2, fixed := false } ∧ t.fld SW_CTRL 3 2 = getBits v 3 2 ∧
      (∀ a, a ≠ SW_CTRL → a ≠ SW_STAT → a ≠ SW_IDX → a ≠ SW_SEC_LO → a ≠ SW_SEC_HI → a ≠ HL_PARK → a ≠ 0x7030 →
        t.rd a = s.rd a) ∧ { t with regs := s.regs, sw := s.sw, hlAns := s.hlAns, notes := s.notes } = s) ∧
  (∀ (s : State) m v e, s.Takes m .sched 0x100 → s.feat fSCHEDULED = true → s.armRefusal (getBits v 3 2) = some e →
    exec (.swArm m v) s = .next (s.answered m SW_CTRL (.page .sched 0x100) 0 fun u => (u.setFld SW_STAT 7 4 e).setBit SW_STAT 8)) ∧
  (∀ (s : State) k, 2 ≤ s.swState → s.armRefusal k = some 7) ∧
  (∀ (s : State) k, s.swState = 0 → k < 2 → s.armRefusal k = some 1) ∧
  (∀ (s : State) k, s.swState < 2 → (s.swState = 0 → 2 ≤ k) → s.fld TIME_STAT 3 2 ≠ 2 → s.armRefusal k = some 2) ∧
  (∀ (s : State) m v, s.Takes m .sched 0x100 → s.feat fSCHEDULED = true → s.eng.varStep = 0 → bit v 0 = false → bit v 4 = false →
    s.swState = 2 → exec (.swCancel m v) s = .next (s.wrote m .sched 0x100 fun u =>
      ((u.wr SW_CTRL ((s.rd SW_CTRL &&& ~~~ 0xC) ||| (v &&& 0xC))).setFld SW_STAT 2 0 1).setFld SW_STAT 11 9 m.val)) ∧
  (∀ (s : State) m v, s.Takes m .sched 0x100 → s.feat fSCHEDULED = true → bit v 0 = false → 3 ≤ s.swState →
    exec (.swCancel m v) s = .next (s.answered m SW_CTRL (.page .sched 0x100) 0 fun u => (u.setFld SW_STAT 7 4 6).setBit SW_STAT 8)) ∧
  (∀ (s : State) m v, s.Takes m .sched 0x100 → s.feat fSCHEDULED = true → s.eng.varStep = 0 → bit v 0 = false → bit v 4 = false →
    s.swState < 2 → exec (.swCancel m v) s = .next (s.wrote m .sched 0x100 fun u =>
      u.wr SW_CTRL ((s.rd SW_CTRL &&& ~~~ 0xC) ||| (v &&& 0xC)))) ∧
  (∀ (s : State) m v, s.Takes m .sched 0x100 → s.feat fSCHEDULED = true → s.eng.varStep = 0 → bit v 0 = false → bit v 1 = false →
    ∃ t, exec (.swMarkLoaded m v) s = .next t ∧ t.swState = (if s.swState = 0 then 1 else s.swState) ∧
      t.fld SW_STAT 11 3 = s.fld SW_STAT 11 3 ∧ t.rd SW_CTRL = (s.rd SW_CTRL &&& ~~~ 0xC) ||| (v &&& 0xC) ∧
      (∀ a, a ≠ SW_CTRL → a ≠ SW_STAT → a ≠ HL_PARK → a ≠ 0x7030 → t.rd a = s.rd a) ∧
      { t with regs := s.regs, hlAns := s.hlAns, notes := s.notes } = s)

/-- An ARMED switchover whose switch rotation starts at most 1,024 fc ahead becomes COMMITTED with B fixed. A COMMITTED one becomes
SWITCHING at B: an ENTER from DYNAMIC puts SCHEDULED in force, a LEAVE from SCHEDULED puts DYNAMIC in force, and a SWAP changes no mode.
256 fc after B a switch that is no LEAVE makes the other bank active and SW_STAT IDLE, with switch_done set; VAR_STAT's active and
next variants change places, its to_mask and every Granary's scheduled reservation are those of the image in the bank now active.
In other states of SW_STAT each event does nothing. -/
def Obligations.SwitchoverEvents : Prop :=
  (∀ (s : State) d, s.swState = 2 → s.fcUntil ((s.rd SW_SEC_HI).toNat * 2 ^ 32 + (s.rd SW_SEC_LO).toNat) (s.fld SW_IDX 21 0) = some d →
    d ≤ 1024 → exec .swCommit s = .next { s.setFld SW_STAT 2 0 3 with sw := { s.sw with b := s.fc + d, fixed := true } }) ∧
  (∀ (s : State), s.swState ≠ 2 → exec .swCommit s = .next s) ∧
  (∀ (s : State), s.swState = 3 → s.sw.b ≤ s.fc → s.sw.kind = 0 → exec .swSwitch s = .next (s.setFld SW_STAT 2 0 4)) ∧
  (∀ (s : State), s.swState = 3 → s.sw.b ≤ s.fc → s.sw.kind = 1 → s.mode = .dynamic →
    ∃ t, exec .swSwitch s = .next t ∧ t.mode = .scheduled ∧ t.swState = 4 ∧ t.fld MODE_STAT 7 4 = 5 ∧ t.rbit 0x024 0 = true ∧
      (∀ a, a ≠ SW_STAT → a ≠ MODE_STAT → a ≠ 0x024 → t.rd a = s.rd a) ∧
      { t with regs := s.regs, mode := s.mode, ni := s.ni, notes := s.notes } = s) ∧
  (∀ (s : State), s.swState = 3 → s.sw.b ≤ s.fc → s.sw.kind = 2 → s.mode = .scheduled → s.eng.varStep = 0 →
    ∃ t, exec .swSwitch s = .next t ∧ t.mode = .dynamic ∧ t.swState = 4 ∧ t.fld MODE_STAT 7 4 = 6 ∧ t.rbit 0x024 0 = true ∧
      (∀ a, a ≠ SW_STAT → a ≠ MODE_STAT → a ≠ 0x024 → t.rd a = s.rd a) ∧
      { t with regs := s.regs, mode := s.mode, ni := s.ni, notes := s.notes } = s) ∧
  (∀ (s : State), s.swState ≠ 3 → exec .swSwitch s = .next s) ∧
  (∀ (s : State), s.swState = 4 → s.sw.b + 256 ≤ s.fc → s.sw.kind ≠ 2 → s.change = none →
    ∃ t, exec .swSwitchEnd s = .next t ∧ t.swState = 0 ∧ t.activeBank = 1 - s.activeBank ∧ t.rbit 0x7024 1 = true ∧
      t.fld VAR_STAT 3 0 = s.fld VAR_STAT 7 4 ∧ t.fld VAR_STAT 7 4 = s.fld VAR_STAT 3 0 ∧
      t.fld VAR_STAT 15 8 = (if s.rbit VAR_STAT 7 then (s.bankImg (1 - s.activeBank)).mask else 0) % 256 ∧
      (∀ n, n < 87 → t.fld (GRAN_LIM4 n) 26 16 = Tbl.get (fun _ => 0) (s.bankImg (1 - s.activeBank)).resv n % 2048) ∧
      { t with regs := s.regs, notes := s.notes } = s) ∧
  (∀ (s : State), s.swState ≠ 4 → s.change = none → exec .swSwitchEnd s = .next s)

/-- A write of 1 to LOAD_CTRL.load that reaches it, with SCHEDULED active and Foreman's sequence not running: in RESERVED, DYNAMIC or
SCHEDULED with no load in progress and no switchover past LOADED the load is in progress for that master (its kind and variant are
writable only with VARIANTS active), with a Ledger entry of the MNI it names where one is free and the address as it stood then; otherwise it ends at once with
result 1, and LOADED is left for IDLE. When the fetch ends, every byte of it permitted at its MNI and MCLK running: outside those
modes, or with a switchover past LOADED, result 1; an image whose checks all pass leaves
result 0, the bank LOADED, its CRC, and, where no tile is cut off and no page hangs, every slot word of the inactive bank as the
image has it, with its check byte; a failed check leaves its code and offset, and the bank IDLE; a fetch that failed in the header
leaves result 2. The end of a fetch with no load in progress, or while no Ledger entry is free for it, does nothing. -/
def Obligations.ScheduleLoad : Prop :=
  (∀ (s : State) m v, s.Takes m .sched 0x148 → s.feat fSCHEDULED = true → s.eng.varStep = 0 → s.loader.busy = none →
    s.loader.entry = none → (s.mode = .reserved ∨ s.mode = .dynamic ∨ s.mode = .scheduled) → s.swState < 2 →
    ∃ t, exec (.schedLoadStart m v) s = .next t ∧
      t.loader = { s.loader with busy := some (t.fld LOAD_CTRL 1 1, t.fld LOAD_CTRL 6 4, getBits v 9 8, m.val),
                                 entry := (s.niOf (76 + getBits v 9 8)).freeKey false, addr := s.loadAddr } ∧
      t.fld LOAD_CTRL 1 1 = (if s.feat fVARIANTS then getBits v 1 1 else s.fld LOAD_CTRL 1 1) ∧
      t.fld LOAD_CTRL 6 4 = (if s.feat fVARIANTS then getBits v 6 4 else s.fld LOAD_CTRL 6 4) ∧
      t.swState = 0 ∧ t.fld LOAD_STAT 26 24 = m.val ∧ t.rbit LOAD_STAT 0 = true ∧
      (∀ k, t.loader.entry = some k → ((t.niOf (76 + getBits v 9 8)).led k).st = .issued ∧
        ((t.niOf (76 + getBits v 9 8)).led k).owner = .loader ∧
        ((t.niOf (76 + getBits v 9 8)).led k).addr = BitVec.ofNat 52 s.loadAddr) ∧
      (∀ n, n ≠ 76 + getBits v 9 8 → t.niOf n = s.niOf n) ∧
      (∀ a, a ≠ LOAD_CTRL → a ≠ LOAD_STAT → a ≠ SW_STAT → a ≠ HL_PARK → a ≠ 0x7030 → t.rd a = s.rd a) ∧
      { t with regs := s.regs, loader := s.loader, ni := s.ni, hlAns := s.hlAns, notes := s.notes } = s) ∧
  (∀ (s : State) m v, s.Takes m .sched 0x148 → s.feat fSCHEDULED = true → s.eng.varStep = 0 →
    (s.loader.busy ≠ none ∨ (s.mode ≠ .reserved ∧ s.mode ≠ .dynamic ∧ s.mode ≠ .scheduled) ∨ 2 ≤ s.swState) →
    ∃ t, exec (.schedLoadStart m v) s = .next t ∧ t.loader = s.loader ∧
      t.swState = (if s.swState = 1 then 0 else s.swState) ∧ t.rbit LOAD_STAT 1 = true ∧
      t.fld LOAD_STAT 15 8 = 1 ∧ t.fld LOAD_STAT 23 16 = 0 ∧ t.fld LOAD_WHERE 23 0 = 0 ∧ t.rbit 0x7024 0 = true ∧
      t.rbit 0x7018 5 = true) ∧
  (∀ (s : State) img xcode, s.loader.busy = none → exec (.schedLoadDone img xcode) s = .next s) ∧
  (∀ (s : State) img xcode k, s.loader.busy = some k → k.2.2.2 ≠ 5 → s.loader.entry = none →
    (s.niOf (76 + k.2.2.1)).freeKey false = none → exec (.schedLoadDone img xcode) s = .next s) ∧
  (∀ (s : State) img xcode k, s.loader.busy = some k → k.2.2.2 ≠ 5 → s.loader.entry ≠ none →
    s.mclkOff = false → s.loadMay = true → codeOk xcode = true →
    s.memCheck (76 + k.2.2.1) false s.loader.addr img.length = (s, img.length, OK) → xcode ≠ OK → img.length < 64 →
    ∃ t, exec (.schedLoadDone img xcode) s = .next t ∧ t.loader = { s.loader with busy := none, entry := none } ∧ t.swState = 0 ∧
      t.fld LOAD_STAT 15 8 = 2 ∧ t.fld LOAD_STAT 23 16 = xcode.toNat ∧ t.rbit LOAD_STAT 0 = false ∧ t.rbit LOAD_STAT 1 = true ∧
      t.fld LOAD_WHERE 23 0 = img.length ∧ (∀ r b o w, r < 56 → b < 2 → o < 8 → w < 128 → t.rd (SLOT r b o w) = s.rd (SLOT r b o w))) ∧
  (∀ (s : State) img k, s.loader.busy = some k → k.2.2.2 ≠ 5 → s.loader.entry ≠ none → s.mclkOff = false → s.loadMay = false →
    s.memCheck (76 + k.2.2.1) false s.loader.addr img.length = (s, img.length, OK) →
    ∃ t, exec (.schedLoadDone img OK) s = .next t ∧ t.loader = { s.loader with busy := none, entry := none } ∧
      t.swState = (if s.swState = 1 then 0 else s.swState) ∧ t.fld LOAD_STAT 15 8 = 1 ∧ t.fld LOAD_STAT 23 16 = 0 ∧
      t.rbit LOAD_STAT 0 = false ∧ t.rbit LOAD_STAT 1 = true ∧
      (∀ r b o w, r < 56 → b < 2 → o < 8 → w < 128 → t.rd (SLOT r b o w) = s.rd (SLOT r b o w))) ∧
  (∀ (s : State) img k code w, s.loader.busy = some k → k.2.2.2 ≠ 5 → s.loader.entry ≠ none →
    s.mclkOff = false → s.loadMay = true → s.memCheck (76 + k.2.2.1) false s.loader.addr img.length = (s, img.length, OK) →
    (s.loadOver k.2.2.1 OK).imageBad (img.take (imgNat img 0x18 4)) (decide (k.1 = 0)) k.2.1 = some (code, w) →
    ∃ t, exec (.schedLoadDone img OK) s = .next t ∧ t.loader = { s.loader with busy := none, entry := none } ∧ t.swState = 0 ∧
      t.fld LOAD_STAT 15 8 = code % 256 ∧ t.fld LOAD_WHERE 23 0 = w % 2 ^ 24 ∧ t.rbit LOAD_STAT 0 = false ∧ t.rbit LOAD_STAT 1 = true ∧
      (∀ r b o w, r < 56 → b < 2 → o < 8 → w < 128 → t.rd (SLOT r b o w) = s.rd (SLOT r b o w))) ∧
  (∀ (s : State) img k, s.loader.busy = some k → k.2.2.2 ≠ 5 → s.loader.entry ≠ none →
    s.mclkOff = false → s.loadMay = true → s.memCheck (76 + k.2.2.1) false s.loader.addr img.length = (s, img.length, OK) →
    (s.loadOver k.2.2.1 OK).imageBad (img.take (imgNat img 0x18 4)) (decide (k.1 = 0)) k.2.1 = none →
    ∃ t, exec (.schedLoadDone img OK) s = .next t ∧ t.swState = 1 ∧ t.fld LOAD_STAT 15 8 = 0 ∧ t.rbit LOAD_STAT 0 = false ∧
      t.rbit LOAD_STAT 1 = true ∧ t.fld VAR_STAT 6 4 = k.2.1 % 8 ∧ t.rbit VAR_STAT 7 = true ∧
      t.rd IMG_CRC = BitVec.ofNat 32 (imgNat (img.take (imgNat img 0x18 4)) (imgNat img 0x18 4 - 4) 4) ∧
      (s.hung = [] → s.fclkDead = false → (∀ d, (s.dom d).cut = false) → ∀ r o w, r < 56 → o < 8 → w < 128 →
        t.rd (SLOT r (1 - s.activeBank) o w) = BitVec.ofNat 32 (((List.range 8).map fun j =>
          imgSlot (img.take (imgNat img 0x18 4)) k.2.1 r o (8 * w + j) * 16 ^ j).sum) ∧
        t.rd (SLOT r (1 - s.activeBank) o w + 0x2000) = BitVec.ofNat 32 (slotCheck (t.rd (SLOT r (1 - s.activeBank) o w)))))

/-- By a master other than Gleaner, with SCHEDULED active: a write of a slot word or of an injection entry whose bank is not active, with
SW_STAT IDLE or LOADED, stores the word and its check byte, leaves SW_STAT IDLE and no loaded variant in the bank; for the active
bank, or past LOADED, it sets act_wr and stores nothing. Gleaner's is stored in either bank. A write of a check byte, and any without
SCHEDULED active, does nothing. A write of FLOW_DEM clears the bits written as one that hardware has not
set in the same mc, and nothing else. -/
def Obligations.SlotTablesAndDemotions : Prop :=
  (∀ (s : State) (m : Master) v k b o w (a : BitVec 26), m ≠ 6 → k < 56 → b < 2 → o < 8 → w < 128 → a.toNat = SLOT k b o w →
    s.Serves m true a.toNat (.window (.slot k)) → s.feat fSCHEDULED = true → b ≠ s.activeBank → s.swState < 2 →
    exec (.slotTableWrite m a v) s = .next (s.answered m a.toNat (.window (.slot k)) 0 fun u =>
      (((u.setFld SW_STAT 2 0 0).clrBit VAR_STAT 7).wr (SLOT k b o w) v).wr (SLOT k b o w + 0x2000)
        (BitVec.ofNat 32 (slotCheck v)))) ∧
  (∀ (s : State) (m : Master) v n b p (a : BitVec 26), m ≠ 6 → n < 87 → b < 2 → p < 1024 → a.toNat = INJE n b p →
    s.Serves m true a.toNat (.window (.inject n)) → s.feat fSCHEDULED = true → b ≠ s.activeBank → s.swState < 2 →
    exec (.slotTableWrite m a v) s = .next (s.answered m a.toNat (.window (.inject n)) 0 fun u =>
      (((u.setFld SW_STAT 2 0 0).clrBit VAR_STAT 7).wr (INJE n b p) (v &&& 0xFFFF)).wr (INJE n b p + 0x2000)
        (BitVec.ofNat 32 (injCheck (v &&& 0xFFFF))))) ∧
  (∀ (s : State) (m : Master) v k b o w (a : BitVec 26), m ≠ 6 → k < 56 → b < 2 → o < 8 → w < 128 → a.toNat = SLOT k b o w →
    s.Serves m true a.toNat (.window (.slot k)) → s.feat fSCHEDULED = true → (b = s.activeBank ∨ 2 ≤ s.swState) →
    exec (.slotTableWrite m a v) s = .next (s.answered m a.toNat (.window (.slot k)) 0 fun u => u.pageErr .sched 0)) ∧
  (∀ (s : State) (m : Master) v n b p (a : BitVec 26), m ≠ 6 → n < 87 → b < 2 → p < 1024 → a.toNat = INJE n b p →
    s.Serves m true a.toNat (.window (.inject n)) → s.feat fSCHEDULED = true → (b = s.activeBank ∨ 2 ≤ s.swState) →
    exec (.slotTableWrite m a v) s = .next (s.answered m a.toNat (.window (.inject n)) 0 fun u => u.pageErr .sched 0)) ∧
  (∀ (s : State) v k b o w (a : BitVec 26), k < 56 → b < 2 → o < 8 → w < 128 → a.toNat = SLOT k b o w →
    s.Serves 6 true a.toNat (.window (.slot k)) → s.feat fSCHEDULED = true →
    exec (.slotTableWrite 6 a v) s = .next (s.answered 6 a.toNat (.window (.slot k)) 0 fun u =>
      (u.wr (SLOT k b o w) v).wr (SLOT k b o w + 0x2000) (BitVec.ofNat 32 (slotCheck v)))) ∧
  (∀ (s : State) m v x (a : BitVec 26), a.toNat % 4 = 0 → slaveOf a.toNat = some (.window x) →
    ((∃ k, x = .slot k) ∨ ∃ n, x = .inject n) → s.Serves m true a.toNat (.window x) →
    (a.toNat / 0x2000 % 2 = 1 ∨ s.feat fSCHEDULED = false) →
    exec (.slotTableWrite m a v) s = .next (s.answered m a.toNat (.window x) 0 id)) ∧
  (∀ (s : State) m (w : Fin 128) v, s.Serves m true (FLOW_DEM w.val) (.page .sched (0x800 + 4 * w.val)) → s.feat fSCHEDULED = true →
    exec (.flowDemoteClear m w v) s = .next (s.answered m (FLOW_DEM w.val) (.page .sched (0x800 + 4 * w.val)) 0 fun u =>
      u.wr (FLOW_DEM w.val) (s.rd (FLOW_DEM w.val) &&& ~~~ (v &&& ~~~ s.hwBits (FLOW_DEM w.val)))))

/-! Hayloft, register pages and table windows -/

/-- For a write by a master other than Foreman and the loader, with nothing waiting, FCLK and MCLK present: where no slave with a path from the
master is there, the answer is DECODE, the miss is counted, and the first is kept in HL_MISS with hl_miss set; where the slave's domain
is cut off, the answer is FENCED, counted and flagged; the page of an access that hung answers HANG_ABORT; the debug port (master
4) sees OK for the first two. An access of a management port that is not an aligned access of four bytes is answered SIZE and
performed nowhere, at once where nothing waits. An aligned one of four bytes is performed: a write of a plain register that reaches it stores its bits, and a read
answers the register's value. While the instance is off, in reset or without MCLK an access does nothing. -/
def Obligations.AccessOutcomes : Prop :=
  (∀ (s : State) (m : Master) (a : BitVec 26) v, s.pwrOk = true → s.held = none → s.mode ≠ .off → s.mclkOff = false → s.fclkDead = false →
    s.hlPend = [] → m ≠ 5 → m ≠ 7 → a.toNat % 4 = 0 → s.hung.contains (a.toNat / 0x1000) = false →
    (slaveOf a.toNat).filter (hlPath m.val true) = none → s.rbit HL_MISS 31 = false →
    ∃ t, exec (.registerWrite m a v) s = .next t ∧
      (t.hlLast m.val).code = (if m = 4 then OK else DECODE) ∧
      t.fld HL_STAT 7 0 = min (s.fld HL_STAT 7 0 + 1) 255 ∧ t.fld HL_MISS 25 0 = a.toNat ∧ t.fld HL_MISS 28 26 = m.val ∧
      t.rbit HL_MISS 29 = true ∧ t.rbit HL_MISS 31 = true ∧ t.rbit 0x018 4 = true ∧
      (∀ b, b ≠ HL_STAT → b ≠ HL_MISS → b ≠ 0x018 → b ≠ 0x020 → t.rd b = s.rd b) ∧
      { t with regs := s.regs, hlAns := s.hlAns, notes := s.notes } = s) ∧
  (∀ (s : State) (m : Master) (a : BitVec 26) v x, s.pwrOk = true → s.held = none → s.mode ≠ .off → s.mclkOff = false → s.fclkDead = false →
    s.hlPend = [] → m ≠ 5 → m ≠ 7 → a.toNat % 4 = 0 → s.hung.contains (a.toNat / 0x1000) = false → slaveOf a.toNat = some x →
    hlPath m.val true x = true → (s.dom x.domain).cut = true →
    ∃ t, exec (.registerWrite m a v) s = .next t ∧
      (t.hlLast m.val).code = (if m = 4 then OK else FENCED) ∧
      t.fld HL_STAT 15 8 = min (s.fld HL_STAT 15 8 + 1) 255 ∧ t.rbit 0x018 5 = true ∧
      (∀ b, b ≠ HL_STAT → b ≠ HL_PARK → b ≠ 0x018 → b ≠ 0x020 → t.rd b = s.rd b) ∧
      { t with regs := s.regs, hlAns := s.hlAns, notes := s.notes } = s) ∧
  (∀ (s : State) (m : Master) (a : BitVec 26) v, s.pwrOk = true → s.held = none → s.mode ≠ .off → s.mclkOff = false →
    s.hlPend = [] → m ≠ 5 → a.toNat % 4 = 0 → s.hung.contains (a.toNat / 0x1000) = true →
    ∃ t, exec (.registerWrite m a v) s = .next t ∧ (t.hlLast m.val).code = HANG_ABORT ∧
      t.fld HL_STAT 23 16 = min (s.fld HL_STAT 23 16 + 1) 255 ∧
      { t with regs := s.regs, hlAns := s.hlAns, notes := s.notes } = s) ∧
  (∀ (s : State) mni wr (a : BitVec 26) size v, s.pwrOk = true → s.held = none → s.mode ≠ .off → s.mclkOff = false → s.hlPend = [] →
    (size ≠ 2 ∨ a.toNat % 4 ≠ 0) →
    exec (.apertureAccess mni wr a size v) s = .next ((s.hlTaken mni.val).hlReturn mni.val { code := SIZE })) ∧
  (∀ (s : State) (mni : Fin 4) (m : Master) (a : BitVec 26) v p o r, m.val = mni.val → s.Takes m p o → a.toNat = pageBase p + o →
    rowAt p o = some r → plainReg p o = true → s.shut p o = 0 → r.mask .w1c = 0 → s.storeMask p o r ≠ 0 →
    exec (.apertureAccess mni true a 2 v) s = .next (s.wrote m p o fun u =>
      u.wr a.toNat ((s.rd a.toNat &&& ~~~ s.storeMask p o r) ||| (v &&& s.storeMask p o r)))) ∧
  (∀ (s : State) (mni : Fin 4) (m : Master) (a : BitVec 26) v p o, m.val = mni.val → s.Serves m false a.toNat (.page p o) →
    o < 0x1000 → o % 4 = 0 → a.toNat = pageBase p + o → s.latch m.val a.toNat = none → latchedBy p o = [] →
    exec (.apertureAccess mni false a 2 v) s = .next
      (s.answered m a.toNat (.page p o) ((s.hlPark m.val (HlSlave.page p o).segment).regRead p o) id)) ∧
  (∀ (s : State) mni wr a size v, (s.pwrOk = false ∨ s.held ≠ none ∨ s.mode = .off ∨ s.mclkOff = true) →
    exec (.apertureAccess mni wr a size v) s = .next s)

/-- When the one access that waits was issued by master m to page a / 0x1000 at least HL_CTRL's timeout ago (256 mc at the least), it
ends with HANG_ABORT, the hang is counted, nothing waits any more and the page is hung. With nothing waiting the timeout does
nothing. -/
def Obligations.HangTimeout : Prop :=
  (∀ (s : State) (m : Master) e, s.pwrOk = true → s.held = none → s.mode ≠ .off → s.mclkOff = false → s.hlPend = [e] →
    e.m = m.val → e.ans = none → e.held = false → e.mc + max (s.fld HL_CTRL 19 0) 256 ≤ s.mc → s.hung.contains (e.addr / 0x1000) = false →
    ∃ t, exec (.hayloftHangTimeout m) s = .next t ∧ t.hlPend = [] ∧ t.hung = s.hung ++ [e.addr / 0x1000] ∧
      (t.hlLast m.val).code = HANG_ABORT ∧
      t.fld HL_STAT 23 16 = min (s.fld HL_STAT 23 16 + 1) 255 ∧
      (∀ b, b ≠ HL_STAT → b ≠ HL_HANG → b ≠ 0x018 → b ≠ 0x020 → t.rd b = s.rd b) ∧
      { t with regs := s.regs, hlAns := s.hlAns, hlPend := s.hlPend, hung := s.hung, notes := s.notes } = s) ∧
  (∀ (s : State) m, s.hlPend = [] → exec (.hayloftHangTimeout m) s = .next s)

/-- Every write that reaches a register of an enabled page, and every one of a table window, completes with OK and no data; it takes
no command from the queue and moves no pin. A write that reaches a register whose write has no effect but to store stores the RW bits, and the RWL bits of an unlocked
page, but for the bits of a feature that is not active; its other bits stay, and PAGE_SEQ counts it. A write to a register
whose only writable bits are W1C clears those written as one that hardware has not set in the same mc, and is not
counted. A manager's write of INJ_THR stores bits 8 to 0, which become the nominal value, and blocks Foreman for the sweeps of
FM_CTRL. A write by a management port to a page register of the disabled GLEANER page is answered RULE, sets the page's wr_dis and
stores nothing. A write by Foreman to any GLEANER register is answered RULE and counted as refused, and no register of that page changes. -/
def Obligations.RegisterWrites : Prop :=
  (∀ (s : State) m (a : BitVec 26) v p o, s.Takes m p o → o < 0x1000 → o % 4 = 0 → a.toNat = pageBase p + o →
    ∃ t, exec (.registerWrite m a v) s = .next t ∧ t.hlLast m.val = {} ∧ t.pending = s.pending ∧ s.SamePins t) ∧
  (∀ (s : State) m (a : BitVec 26) v w, s.Serves m true a.toNat (.window w) → slaveOf a.toNat = some (.window w) → a.toNat % 4 = 0 →
    ∃ t, exec (.registerWrite m a v) s = .next t ∧ t.hlLast m.val = {} ∧ t.pending = s.pending ∧ s.SamePins t) ∧
  (∀ (s : State) m (a : BitVec 26) v p o r, s.Takes m p o → a.toNat = pageBase p + o → rowAt p o = some r → plainReg p o = true →
    s.shut p o = 0 → r.mask .w1c = 0 → s.storeMask p o r ≠ 0 →
    exec (.registerWrite m a v) s = .next (s.wrote m p o fun u =>
      u.wr a.toNat ((s.rd a.toNat &&& ~~~ s.storeMask p o r) ||| (v &&& s.storeMask p o r)))) ∧
  (∀ (s : State) m (a : BitVec 26) v p o r, s.Serves m true a.toNat (.page p o) → 0x100 ≤ o → a.toNat = pageBase p + o →
    rowAt p o = some r → r.writable = 0 → r.mask .w1c ≠ 0 → (∀ k, p = .router k → o ≠ 0x118) →
    exec (.registerWrite m a v) s = .next (s.answered m a.toNat (.page p o) 0 fun u =>
      u.wr a.toNat (s.rd a.toNat &&& ~~~ (r.mask .w1c &&& v &&& ~~~ s.inert p o &&& ~~~ s.hwBits a.toNat)))) ∧
  (∀ (s : State) (m : Master) (n : Fin 87) v (a : BitVec 26), s.Takes m (.ni n) 0x28C → m.val ≤ 4 → a.toNat = INJ_THR n.val →
    s.fld FM_CTRL 23 16 ≠ 0 → ∃ t, exec (.registerWrite m a v) s = .next t ∧ t.fld (INJ_THR n.val) 8 0 = getBits v 8 0 ∧
      Tbl.get (fun _ => none) t.eng.nominal (INJ_THR n.val) = some (t.rd (INJ_THR n.val)) ∧
      Tbl.get (fun _ => 0) t.eng.blocked (INJ_THR n.val) = s.eng.sweeps + s.fld FM_CTRL 23 16 ∧
      (∀ b, b ≠ INJ_THR n.val → b ≠ HL_PARK → b ≠ pageBase (.ni n) + 0x30 → t.rd b = s.rd b) ∧
      { t with regs := s.regs, eng := s.eng, hlAns := s.hlAns, notes := s.notes } = s) ∧
  (∀ (s : State) (m : Master) v, s.Serves m true 0x3100 (.page .gleaner 0x100) → m.val ≤ 3 → s.rbit 0x3010 0 = false →
    exec (.registerWrite m 0x3100 v) s = .next
      (((((s.asked m.val 0x3100).hlPark m.val 0).setBit 0x3014 4).hlTaken m.val).hlReturn m.val { code := RULE })) ∧
  (∀ (s : State) v, s.pwrOk = true → s.held = none → s.mode ≠ .off → s.mclkOff = false → s.fclkDead = false →
    s.hlPend = [] → s.hung.contains 3 = false → s.marksNow.req.contains 0x3100 = false →
    ∃ t, exec (.registerWrite 5 0x3100 v) s = .next t ∧ (t.hlLast 5).code = RULE ∧
      t.fld FM_STAT 15 8 = min (s.fld FM_STAT 15 8 + 1) 255 ∧ (∀ o, o < 0x1000 → t.rd (0x3000 + o) = s.rd (0x3000 + o)))

/-- A served read of a page register that latches nothing, and is not latched for that master, answers its current value and changes
nothing but the segment's park. A read of TIME.NOW_SUB answers fraction bits of fabric time and latches the parts above it;
a latched register answers the latched value. -/
def Obligations.RegisterReads : Prop :=
  (∀ (s : State) m p o (a : BitVec 26), s.Serves m false a.toNat (.page p o) → o < 0x1000 → o % 4 = 0 → a.toNat = pageBase p + o →
    s.latch m.val a.toNat = none → latchedBy p o = [] →
    exec (.latchingRead m a) s = .next
      (s.answered m a.toNat (.page p o) ((s.hlPark m.val (HlSlave.page p o).segment).regRead p o) id)) ∧
  (∀ (s : State) m, s.Serves m false 0x110C (.page .time 0x10C) → s.latch m.val 0x110C = none →
    exec (.latchingRead m 0x110C) s = .next (s.answered m 0x110C (.page .time 0x10C) (BitVec.ofNat 32 (getBits s.time.now 31 16)) fun u =>
      (u.setLatch m.val 0x1110 (some (s.time.now.extractLsb' 32 32))).setLatch m.val 0x1114
        (some (s.time.now.extractLsb' 64 32)))) ∧
  (∀ (s : State) m p o w (a : BitVec 26), s.Serves m false a.toNat (.page p o) → o < 0x1000 → o % 4 = 0 → a.toNat = pageBase p + o →
    s.latch m.val a.toNat = some w → exec (.latchingRead m a) s = .next (s.answered m a.toNat (.page p o) w id))

/-- A write of PAGE_CTRL sets enable from bit 0 and is counted. lock sets the lock unless the Granary limits or pool sizes refuse it, in
which case an NI page notes the refusal; a lock that is set stays. soft_rst clears the page's error and interrupt
registers, but for the bits that hardware has set in the same mc. PAGE_IRQ_TEST sets those written bits that the page implements. -/
def Obligations.CommonRegisters : Prop :=
  (∀ (s : State) m p v, s.Serves m true (pageBase p + 0x10) (.page p 0x10) → bit v 1 = false → s.lockRefused p = false →
    exec (.pageLock m p v) s = .next (s.answered m (pageBase p + 0x10) (.page p 0x10) 0 fun u =>
      let u := (u.setFld (pageBase p + 0x10) 0 0 (flag (bit v 0))).seq p
      if s.rbit (pageBase p + 0x10) 2 then u else u.setBit (pageBase p + 0x10) 2)) ∧
  (∀ (s : State) m (n : Fin 87) v, s.Serves m true (pageBase (.ni n) + 0x10) (.page (.ni n) 0x10) → bit v 1 = false →
    s.lockRefused (.ni n) = true → s.rbit (pageBase (.ni n) + 0x10) 2 = false →
    ∃ t, exec (.pageLock m (.ni n) v) s = .next t ∧ t.rbit (pageBase (.ni n) + 0x10) 2 = false ∧
      t.rbit (GRAN_STAT n.val) 0 = true ∧ t.rbit (pageBase (.ni n) + 0x18) 5 = true) ∧
  (∀ (s : State) m p v, s.Serves m true (pageBase p + 0x10) (.page p 0x10) → bit v 2 = false →
    s.hwBits (pageBase p + 0x18) = 0 → s.hwBits (pageBase p + 0x24) = 0 →
    exec (.pageSoftReset m p v) s = .next (s.answered m (pageBase p + 0x10) (.page p 0x10) 0 fun u =>
      ((((u.setFld (pageBase p + 0x10) 0 0 (flag (bit v 0))).seq p).wr (pageBase p + 0x24) 0).wr (pageBase p + 0x20) 0).wr
        (pageBase p + 0x18) 0)) ∧
  (∀ (s : State) m p v, s.Serves m true (pageBase p + 0x10) (.page p 0x10) → bit v 2 = false →
    ∃ t, exec (.pageSoftReset m p v) s = .next t ∧
      t.rd (pageBase p + 0x18) = s.rd (pageBase p + 0x18) &&& s.hwBits (pageBase p + 0x18) ∧
      t.rd (pageBase p + 0x24) = s.rd (pageBase p + 0x24) &&& s.hwBits (pageBase p + 0x24) ∧
      (∀ a, a ≠ pageBase p + 0x10 → a ≠ pageBase p + 0x18 → a ≠ pageBase p + 0x20 → a ≠ pageBase p + 0x24 → a ≠ pageBase p + 0x30 →
        a ≠ HL_PARK → t.rd a = s.rd a)) ∧
  (∀ (s : State) m p v, s.Serves m true (pageBase p + 0x2C) (.page p 0x2C) →
    exec (.pageIrqTest m p v) s = .next (s.answered m (pageBase p + 0x2C) (.page p 0x2C) 0 fun u =>
      u.wr (pageBase p + 0x24) (s.rd (pageBase p + 0x24) ||| (v &&& irqMask p))))

/-- In the window of a route-store bank: words 0 to 2 are staged for their entry; a commit of which no word was staged for another
entry, and which R91 accepts or by which Gleaner poisons an entry, stores it with its check bytes, inverted where RS_ERRINJ asked,
and clears the staging; a commit that R91 refuses stores nothing and the first is kept in RS_STAT; a read of word 0 answers it and latches the entry for its master;
reads of RS_STAT change nothing; a write of RS_ERRINJ holds for the next commit. -/
def Obligations.RouteStoreWindow : Prop :=
  (∀ (s : State) m (c : Fin 8) (e : BitVec 14) (w : Fin 3) v, s.Serves m true (RSE c.val e.toNat w.val) (.window (.routeStore c.val e.toNat)) →
    exec (.rsStageWrite m c e w v) s = .next (s.answered m (RSE c.val e.toNat w.val) (.window (.routeStore c.val e.toNat)) 0 fun u =>
      u.setBank c.val { s.bankOf c.val with stage := (s.bankOf c.val).stage.put e.toNat w.val v })) ∧
  (∀ (s : State) (m : Master) (c : Fin 8) (e : BitVec 14) v x, s.Serves m true (RSE c.val e.toNat 3) (.window (.routeStore c.val e.toNat)) →
    (s.bankOf c.val).staged e.toNat v = (x, false) → (commitRefusal c.val x = 0 ∨ m = 6 ∧ getBits v 31 30 = 3) →
    exec (.rsCommit m c e v) s = .next (s.answered m (RSE c.val e.toNat 3) (.window (.routeStore c.val e.toNat)) 0 fun u =>
      u.setBank c.val { (s.bankOf c.val).put e.toNat (storeEntry x (s.bankOf c.val).inj) with stage := {}, inj := 0 })) ∧
  (∀ (s : State) (m : Master) (c : Fin 8) (e : BitVec 14) v x, s.Serves m true (RSE c.val e.toNat 3) (.window (.routeStore c.val e.toNat)) →
    (m = 6 → getBits v 31 30 ≠ 3) → (s.bankOf c.val).staged e.toNat v = (x, false) → commitRefusal c.val x ≠ 0 → s.rbit (RS_STAT c.val) 24 = false →
    ∃ t, exec (.rsCommit m c e v) s = .next t ∧ t.fld (RS_STAT c.val) 13 0 = e.toNat ∧
      t.fld (RS_STAT c.val) 19 16 = commitRefusal c.val x % 16 ∧ t.rbit (RS_STAT c.val) 24 = true ∧
      t.rbit (pageBase (.cluster c) + 0x18) 0 = true ∧ t.bankOf c.val = { s.bankOf c.val with stage := {} } ∧
      (∀ d, d ≠ c.val → t.bankOf d = s.bankOf d)) ∧
  (∀ (s : State) m (c : Fin 8) (e : BitVec 14), s.Serves m false (RSE c.val e.toNat 0) (.window (.routeStore c.val e.toNat)) →
    exec (.rsWindowRead m c e) s = .next (s.answered m (RSE c.val e.toNat 0) (.window (.routeStore c.val e.toNat))
      ((shownEntry ((s.bankOf c.val).at e.toNat)).extractLsb' 0 32) fun u =>
        u.setBank c.val { s.bankOf c.val with
          latch := Tbl.set (fun _ => none) m.val
            (some { idx := e.toNat, val := shownEntry ((s.bankOf c.val).at e.toNat) }) (s.bankOf c.val).latch })) ∧
  (∀ (s : State) m (c : Fin 8), s.Serves m false (RS_STAT c.val) (.page (.cluster c) 0x100) → s.latch m.val (RS_STAT c.val) = none →
    exec (.rsStatRead m c) s = .next (s.answered m (RS_STAT c.val) (.page (.cluster c) 0x100) (s.rd (RS_STAT c.val)) id)) ∧
  (∀ (s : State) m (c : Fin 8) v, s.Takes m (.cluster c) 0x104 → exec (.rsErrinjWrite m c v) s = .next
    (s.wrote m (.cluster c) 0x104 fun u => u.setBank c.val { s.bankOf c.val with inj := v.extractLsb' 0 16 }))

/-- An entry stored with its check bytes and no inversion is read without error and without correction, so that the four words of a
window read are those of the commit. -/
def Obligations.StoredEntryReadsBack : Prop :=
  ∀ (x : BitVec 128), readEntry (storeEntry x 0) = (some x, false) ∧
    ∀ i, i < 4 → (shownEntry (storeEntry x 0)).extractLsb' (32 * i) 32 = x.extractLsb' (32 * i) 32

/-- In the rule window: words 0 to 2 are staged; a commit that R315 accepts, or by which Gleaner poisons a rule, stores it with its check
bytes; the check of a later fc uses it at every NI of an OPEN tile, and the shadow of an NI of another tile whose range holds it
keeps the value it had; in the fc of the commit every check uses the old rule. A refused rule stores nothing and
RULE_CSTAT keeps the first refusal; a read of word 0 answers it and latches the rule; RULE_ERRINJ holds for the next commit; a
write of RULE_INIT or RULE_TGT of an NI that has it stores the range, which checks use from the next fc on, and the NI reloads its
shadow. -/
def Obligations.RulePool : Prop :=
  (∀ (s : State) m (i : BitVec 13) (w : Fin 3) v, s.Serves m true (RULEW i.toNat w.val) (.window (.rule i.toNat)) →
    exec (.ruleStageWrite m i w v) s = .next (s.answered m (RULEW i.toNat w.val) (.window (.rule i.toNat)) 0 fun u =>
      { u with rules := { s.rules with stage := s.rules.stage.put i.toNat w.val v } })) ∧
  (∀ (s : State) (m : Master) (i : BitVec 13) v x, s.Serves m true (RULEW i.toNat 3) (.window (.rule i.toNat)) →
    s.rules.staged i.toNat v = (x, false) → (ruleRefusal x = 0 ∨ m = 6 ∧ getBits v 31 30 = 3) →
    ∃ t, exec (.ruleCommit m i v) s = .next t ∧
      t.rules = { s.rules.put i.toNat (storeEntry x s.rules.inj) with stage := {}, inj := 0 } ∧
      t.ruleFc i.toNat = s.ruleFc i.toNat ∧ (∀ j, j ≠ i.toNat → t.ruleFc j = s.ruleFc j) ∧
      (∀ f, s.fc < f → ({ t with fc := f } : State).ruleFc i.toNat = storeEntry x s.rules.inj) ∧
      (∀ n, n < 87 → t.niOf n = if s.fenced (niTile n) = true ∧ s.rangeHas n i.toNat = true ∧
          Tbl.get (fun _ => none) (s.niOf n).shadow i.toNat = none
        then { s.niOf n with shadow := Tbl.set (fun _ => none) i.toNat (some (s.rules.at i.toNat)) (s.niOf n).shadow }
        else s.niOf n) ∧
      (∀ a, a ≠ HL_PARK → t.rd a = s.rd a) ∧
      { t with regs := s.regs, rules := s.rules, ni := s.ni, hlAns := s.hlAns, notes := s.notes } = s) ∧
  (∀ (s : State) (m : Master) (i : BitVec 13) v x, s.Serves m true (RULEW i.toNat 3) (.window (.rule i.toNat)) →
    (m = 6 → getBits v 31 30 ≠ 3) →
    s.rules.staged i.toNat v = (x, false) → ruleRefusal x ≠ 0 → s.rbit RULE_CSTAT 24 = false →
    ∃ t, exec (.ruleCommit m i v) s = .next t ∧ t.rules = { s.rules with stage := {} } ∧ t.fld RULE_CSTAT 12 0 = i.toNat ∧
      t.fld RULE_CSTAT 19 16 = ruleRefusal x ∧ t.rbit RULE_CSTAT 24 = true ∧ t.rbit 0x018 7 = true ∧
      { t with regs := s.regs, rules := s.rules, hlAns := s.hlAns, notes := s.notes } = s) ∧
  (∀ (s : State) m (i : BitVec 13), s.Serves m false (RULEW i.toNat 0) (.window (.rule i.toNat)) →
    exec (.ruleWindowRead m i) s = .next (s.answered m (RULEW i.toNat 0) (.window (.rule i.toNat))
      ((shownEntry (s.rules.at i.toNat)).extractLsb' 0 32) fun u =>
        { u with
          rules := { s.rules with
            latch := Tbl.set (fun _ => none) m.val
              (some { idx := i.toNat, val := shownEntry (s.rules.at i.toNat) }) s.rules.latch } })) ∧
  (∀ (s : State) m v, s.Takes m .global 0x328 → exec (.ruleErrinjWrite m v) s = .next
    (s.wrote m .global 0x328 fun u => { u with rules := { s.rules with inj := v.extractLsb' 0 16 } })) ∧
  (∀ (s : State) m (n : Fin 87) v, s.Takes m (.ni n) 0x344 → exec (.ruleRangeWrite m n true v) s = .next
    (s.wrote m (.ni n) 0x344 fun u =>
      ((u.keepWas (RULE_TGT n.val)).wr (RULE_TGT n.val) ((s.rd (RULE_TGT n.val) &&& ~~~ 0x3F1FFF) ||| (v &&& 0x3F1FFF))).setNi
        n.val { s.niOf n.val with shadow := [] })) ∧
  (∀ (s : State) m (n : Fin 87) v, s.Takes m (.ni n) 0x340 → Config.hasLedger n.val = true → exec (.ruleRangeWrite m n false v) s = .next
    (s.wrote m (.ni n) 0x340 fun u =>
      ((u.keepWas (RULE_INIT n.val)).wr (RULE_INIT n.val) ((s.rd (RULE_INIT n.val) &&& ~~~ 0x3F1FFF) ||| (v &&& 0x3F1FFF))).setNi
        n.val { s.niOf n.val with shadow := [] })) ∧
  (∀ (s : State) m (n : Fin 87) tgt v t, s.Takes m (.ni n) (if tgt then 0x344 else 0x340) → (tgt = false → Config.hasLedger n.val = true) →
    exec (.ruleRangeWrite m n tgt v) s = .next t → t.ruleRange n.val tgt = s.ruleRange n.val tgt ∧
      ∀ f, s.fc < f → ({ t with fc := f } : State).ruleRange n.val tgt = rangeOf v)

/-- In the descriptor window: word 0 keeps its defined bits; word 1 keeps its own where the write raises no NI's group of weights to more
than 256 (a weight that is not raised is always kept), and is ignored otherwise, each NI whose group would pass setting wsum_err and
its page's inj_err; words 2 and 3 are read-only. -/
def Obligations.QueueDescriptors : Prop :=
  (∀ (s : State) m (q : BitVec 14) v, s.Serves m true (QD q.toNat 0) (.window (.queue q.toNat)) →
    exec (.queueDescWrite m q 0 v) s = .next (s.answered m (QD q.toNat 0) (.window (.queue q.toNat)) 0 fun u =>
      u.wr (QD q.toNat 0) (v &&& 0x8003FF7F))) ∧
  (∀ (s : State) m (q : BitVec 14) v, s.Serves m true (QD q.toNat 1) (.window (.queue q.toNat)) →
    (∀ n, n < 81 → s.groupSum n q.toNat (getBits v 8 0) ≤ s.groupSum n q.toNat (s.fld (QD q.toNat 1) 8 0) ∨
      s.groupSum n q.toNat (getBits v 8 0) ≤ 256) →
    exec (.queueDescWrite m q 1 v) s = .next (s.answered m (QD q.toNat 1) (.window (.queue q.toNat)) 0 fun u =>
      u.wr (QD q.toNat 1) (v &&& 0x03FF01FF))) ∧
  (∀ (s : State) q w w' n, w ≤ w' → s.groupSum n q w ≤ s.groupSum n q w') ∧
  (∀ (s : State) m (q : BitVec 14) v n, s.Serves m true (QD q.toNat 1) (.window (.queue q.toNat)) → n < 81 →
    s.groupSum n q.toNat (s.fld (QD q.toNat 1) 8 0) < s.groupSum n q.toNat (getBits v 8 0) →
    256 < s.groupSum n q.toNat (getBits v 8 0) →
    ∃ t, exec (.queueDescWrite m q 1 v) s = .next t ∧ t.rd (QD q.toNat 1) = s.rd (QD q.toNat 1) ∧
      t.rbit (INJ_STAT n) 0 = true ∧ t.rbit (pageBase (niPage n) + 0x18) 4 = true ∧
      { t with regs := s.regs, due := s.due, hlAns := s.hlAns, notes := s.notes } = s) ∧
  (∀ (s : State) m (q : BitVec 14) (w : Fin 4) v, s.Serves m true (QD q.toNat w.val) (.window (.queue q.toNat)) → 2 ≤ w.val →
    exec (.queueDescWrite m q w v) s = .next (s.answered m (QD q.toNat w.val) (.window (.queue q.toNat)) 0 id))

/-! Arbitration and reservations at a target -/

/-- Writes that reach an NI page. ARB_CTRL with freeze set stores its fields, and a holder starts to yield. ARB_SEED loads the LFSR, with
zero taken as 1; a draw of the same fc still uses the state from before the write. ARB_WIN stores the length and a quota window starts now. RSV_CTRL, with RESERVED_RW active at an NI that has a
Ledger, stores the granule and clears every monitor. -/
def Obligations.ArbiterRegisters : Prop :=
  (∀ (s : State) m (n : Fin 87) v, s.Takes m (.ni n) 0x2C0 → exec (.arbFreeze m n v) s = .next (s.wrote m (.ni n) 0x2C0 fun u =>
    let u := (u.keepWas (ARB_CTRL n.val)).wr (ARB_CTRL n.val) ((s.rd (ARB_CTRL n.val) &&& ~~~ 0xFFFF03) ||| ((v ||| 2) &&& 0xFFFF03))
    if (s.niOf n.val).arb.st = .held then
      u.setNi n.val { s.niOf n.val with arb := { (s.niOf n.val).arb with st := .yielding } } else u)) ∧
  (∀ (s : State) m (n : Fin 87) v, s.Takes m (.ni n) 0x2C8 → exec (.arbSeedWrite m n v) s = .next (s.wrote m (.ni n) 0x2C8 fun u =>
    u.setNi n.val { s.niOf n.val with arb := { (s.niOf n.val).arb with
      lfsr := some (if v = 0 then 1 else v), seedWas := some (s.fc, s.drawState n.val) } })) ∧
  (∀ (s : State) m (n : Fin 87) v, s.Takes m (.ni n) 0x2C4 → exec (.arbWinWrite m n v) s = .next (s.wrote m (.ni n) 0x2C4 fun u =>
    (u.wr (ARB_WIN n.val) ((s.rd (ARB_WIN n.val) &&& ~~~ 0xFFFFFF) ||| (v &&& 0xFFFFFF))).setNi n.val
      { s.niOf n.val with arb := { (s.niOf n.val).arb with winStart := s.fc } })) ∧
  (∀ (s : State) m (n : Fin 87) v, s.Takes m (.ni n) 0x310 → Config.hasLedger n.val = true → s.feat fRESERVED_RW = true →
    exec (.rsvCtrlWrite m n v) s = .next (s.wrote m (.ni n) 0x310 fun u =>
      (u.wr (RSV_CTRL n.val) ((s.rd (RSV_CTRL n.val) &&& ~~~ 7) ||| (v &&& 7))).setNi n.val { s.niOf n.val with mons := [] }))

/-- While traffic of the tile and arbitration run: a window whose length has passed draws among its contenders; where the eligible ones
have a winner and the packets that wait are all the winner's, it holds the target, the contenders are gone, their number is kept in
ARB_STAT and the LFSR has stepped 32 times, or keeps a seed written in this fc. The tickets, the window's length and the enable are
those before any write of this fc. Before the length has passed, with no window open, or where arbitration does not run, the
event does nothing. A quota window that has ended clears the counts, and the present one starts a whole number of windows after
it. -/
def Obligations.ArbiterDraw : Prop :=
  (∀ (s : State) (n : Fin 80) w, s.runs (niTile n.val) = true → s.arbOn n.val = true → (s.niOf n.val).arb.st = .window →
    (s.niOf n.val).arb.openFc + s.arbFld (ARB_CTRL n.val) 15 8 ≤ s.fc →
    s.fc < (s.niOf n.val).arb.winStart + max (s.fld (ARB_WIN n.val) 23 0) 256 → s.frozenNi n.val = false →
    (∀ r ∈ (s.niOf n.val).arb.conts, s.masked r = false ∧ s.hiEntry n.val r = none) →
    drawWinner (s.tickets n.val) (s.drawState n.val) (sortReq (s.niOf n.val).arb.conts) = some w →
    (∀ h ∈ (s.niOf n.val).waiting, h.req = w) →
    ∃ t, exec (.arbDraw n) s = .next t ∧ (t.niOf n.val).arb.st = .held ∧ (t.niOf n.val).arb.holder = w ∧
      (t.niOf n.val).arb.conts = [] ∧ (t.niOf n.val).arb.quota = none ∧
      (t.niOf n.val).arb.lfsr = (if (s.niOf n.val).arb.seedWas.map (·.1) = some s.fc then (s.niOf n.val).arb.lfsr
        else some (BitVec.ofNat 32 (lfsr32 (s.lfsr n.val)))) ∧
      t.fld (ARB_STAT n.val) 13 8 = (s.niOf n.val).arb.conts.length % 64 ∧ (t.niOf n.val).waiting = [] ∧
      (∀ k, k ≠ n.val → t.niOf k = s.niOf k)) ∧
  (∀ (s : State) (n : Fin 80), ((s.niOf n.val).arb.st ≠ .window ∨ s.arbOn n.val = false ∨
      s.fc < (s.niOf n.val).arb.openFc + s.arbFld (ARB_CTRL n.val) 15 8) →
    exec (.arbDraw n) s = .next s) ∧
  (∀ (s : State) (n : Fin 80), s.runs (niTile n.val) = true →
    (s.niOf n.val).arb.winStart + max (s.fld (ARB_WIN n.val) 23 0) 256 ≤ s.fc →
    exec (.arbQuotaWindowEnd n) s = .next (s.setNi n.val { s.niOf n.val with
      arb := { (s.niOf n.val).arb with
        counts := [], winStart := (s.niOf n.val).arb.winStart + (s.fc - (s.niOf n.val).arb.winStart) /
          max (s.fld (ARB_WIN n.val) 23 0) 256 * max (s.fld (ARB_WIN n.val) 23 0) 256 } })) ∧
  (∀ (s : State) (n : Fin 80), s.fc < (s.niOf n.val).arb.winStart + max (s.fld (ARB_WIN n.val) 23 0) 256 →
    exec (.arbQuotaWindowEnd n) s = .next s)

/-- While traffic of the tile runs: an ARB_REL that has arrived is consumed, and where it is the holder's and names its last accepted
packet the arbiter is idle. A yielding holder with no packet left is at its break point: the arbiter is idle and the holder's tail
is remembered beside those of others. With no ARB_REL there, or with a tenure that is neither held nor yielding, the events do nothing. -/
def Obligations.TenureEnds : Prop :=
  (∀ (s : State) (n : Fin 80) p x, s.runs (niTile n.val) = true →
    (s.niOf n.val).takeIn (fun h sc => hCls h = cNDR && sOpc sc = opARB_REL) = some (p, x) →
    (x.arb.st = .held ∨ x.arb.st = .yielding) → p.req = x.arb.holder → x.arb.htagSet = true → hTag p.hdr = x.arb.htag →
    exec (.arbRelArrive n) s = .next (s.setNi n.val { x with
      arb := { x.arb with st := .idle, holder := {}, htagSet := false, boGiven := false, quota := none } })) ∧
  (∀ (s : State) (n : Fin 80) p x, s.runs (niTile n.val) = true →
    (s.niOf n.val).takeIn (fun h sc => hCls h = cNDR && sOpc sc = opARB_REL) = some (p, x) →
    (p.req ≠ x.arb.holder ∨ x.arb.htagSet = false ∨ hTag p.hdr ≠ x.arb.htag ∨ x.arb.st = .idle ∨ x.arb.st = .window) →
    exec (.arbRelArrive n) s = .next (s.setNi n.val x)) ∧
  (∀ (s : State) (n : Fin 80), (s.niOf n.val).answersIn = [] → exec (.arbRelArrive n) s = .next s) ∧
  (∀ (s : State) (n : Fin 80), s.runs (niTile n.val) = true → (s.niOf n.val).arb.st = .yielding →
    (s.niOf n.val).holds_ (s.niOf n.val).arb.holder = false →
    exec (.arbBreakPoint n) s = .next (s.setNi n.val { s.niOf n.val with
      arb := { (s.niOf n.val).arb with
        st := .idle, holder := {}, htagSet := false, boGiven := false, quota := none,
        tails := if (s.niOf n.val).arb.htagSet
          then ((s.niOf n.val).arb.holder, (s.niOf n.val).arb.htag) ::
            (s.niOf n.val).arb.tails.filter (fun x => x.1 ≠ (s.niOf n.val).arb.holder)
          else (s.niOf n.val).arb.tails } })) ∧
  (∀ (s : State) (n : Fin 80), ((s.niOf n.val).arb.st = .idle ∨ (s.niOf n.val).arb.st = .window) → exec (.arbBreakPoint n) s = .next s)

/-- While traffic of the tile runs: an RSV_REQ whose partition may use the fabric, that is not poisoned, at a tile that is OPEN, and whose
flits the limit can hold, waits in a slot; any other is answered and takes none. The oldest slot is granted once its flits fit beside those held and reserved, for
65,536 fc; it waits while they do not. A grant that is due is released with the router page's error. An RSV_CLR clears the monitors of
its sender. -/
def Obligations.RingReservations : Prop :=
  (∀ (s : State) (n : Fin 87) p x, s.runs (niTile n.val) = true →
    (s.niOf n.val).takeIn isRsvReq = some (p, x) → s.partCode p.hdr = OK →
    sPsn p.sc = false → s.fenced (niTile n.val) = false →
    getBits (mArg p.sc) 2 0 + 1 ≤ s.granLimit n.val (getBits (mArg p.sc) 5 3) →
    exec (.rsvReqArrive n) s = .next (s.setNi n.val { x with
      slots := x.slots ++ [{ src := hSrc p.hdr, vn := getBits (mArg p.sc) 5 3, flits := getBits (mArg p.sc) 2 0 + 1,
                             hdr := p.hdr, sc := p.sc }] })) ∧
  (∀ (s : State) (n : Fin 87) p x, s.runs (niTile n.val) = true → (s.niOf n.val).takeIn isRsvReq = some (p, x) →
    (s.partCode p.hdr ≠ OK ∨ sPsn p.sc = true ∨ s.fenced (niTile n.val) = true ∨
      s.granLimit n.val (getBits (mArg p.sc) 5 3) < getBits (mArg p.sc) 2 0 + 1) →
    ∃ t, exec (.rsvReqArrive n) s = .next t ∧ (t.niOf n.val).slots = x.slots ∧ (t.niOf n.val).grants = x.grants) ∧
  (∀ (s : State) (n : Fin 87) q rest, s.runs (niTile n.val) = true → (s.niOf n.val).slots = q :: rest →
    (s.niOf n.val).granUsed q.vn + (s.niOf n.val).reserved q.vn + q.flits ≤ s.granLimit n.val q.vn →
    ∃ t, exec (.rsvGrant n) s = .next t ∧ (t.niOf n.val).slots = rest ∧
      (t.niOf n.val).grants = (s.niOf n.val).grants ++ [{ src := q.src, vn := q.vn, flits := q.flits, due := s.fc + 65536 }] ∧
      (∀ k, k ≠ n.val → t.niOf k = s.niOf k)) ∧
  (∀ (s : State) (n : Fin 87) q rest, (s.niOf n.val).slots = q :: rest →
    s.granLimit n.val q.vn < (s.niOf n.val).granUsed q.vn + (s.niOf n.val).reserved q.vn + q.flits →
    exec (.rsvGrant n) s = .next s) ∧
  (∀ (s : State) (n src : Fin 87) g rest, s.runs (niTile n.val) = true → (s.niOf n.val).grants = g :: rest → g.src = s.node src.val →
    g.due ≤ s.fc → exec (.rsvGrantExpire n src) s = .next
      ((s.setNi n.val { s.niOf n.val with grants := rest }).pageErr (rtrPage (niTile n.val)) 6)) ∧
  (∀ (s : State) (n src : Fin 87), (∀ g ∈ (s.niOf n.val).grants, s.fc < g.due) → exec (.rsvGrantExpire n src) s = .next s) ∧
  (∀ (s : State) (n : Fin 80) p x, s.runs (niTile n.val) = true →
    (s.niOf n.val).takeIn (fun h sc => hCls h = cNDR && sOpc sc = opRSV_CLR) = some (p, x) →
    exec (.rsvClrArrive n) s = .next (s.setNi n.val { x with
      mons := x.mons.filter fun m => !(m.src = hSrc p.hdr && m.part = hPart p.hdr) }))

/-- While traffic of the tile runs: the packet that the NI acts on, where it passes the checks of R502 and its line can be offered, and it is
not a reserved or conditional operation, has its next line offered with the lowest free PTAG; only monitors of other requesters may go.
A conditional write whose owner has no monitor there leaves the Granary and is offered nowhere. With no such packet nothing happens.
The unit takes the oldest message of a class for one of its credits: the packet counts the line as taken, and a posted one taken
whole, which awaits no answer, leaves the NI and its PTAG. With no credit, or no message of the class, nothing happens. -/
def Obligations.OffersToUnits : Prop :=
  (∀ (s : State) (n : Fin 80) h p, s.runs (niTile n.val) = true → s.nextOffer n.val = some h →
    (h.offered = 0 → s.offerCode n.val h = OK) → (s.niOf n.val).pktOf h.pid = some h → (s.niOf n.val).nextPtag = some p →
    s.offerable n.val h = true → isResvOp (hCls h.hdr) (sOpc h.sc) = false →
    ∃ t, exec (.offerToUnit n) s = .next t ∧
      (t.niOf n.val).outq = (s.niOf n.val).outq ++ [{ msg := s.lineMsg n.val h h.offered p, pid := h.pid }] ∧
      (t.niOf n.val).ptag p = some { pid := h.pid, line := h.offered, left := h.answersOf } ∧
      (∀ q, q ≠ p → (t.niOf n.val).ptag q = (s.niOf n.val).ptag q) ∧
      (∀ m, m ∈ (t.niOf n.val).mons ↔ m ∈ (s.niOf n.val).mons ∧ (m.src = hSrc h.hdr ∧ m.part = hPart h.hdr ∨
        ∀ a ∈ lineAddrs h (s.lineMsg n.val h h.offered p), a / s.granule n.val * s.granule n.val ≠ m.base.toNat)) ∧
      (∀ k, k ≠ n.val → t.niOf k = s.niOf k) ∧ (∀ a, a ≠ RSV_STAT n.val → t.rd a = s.rd a) ∧
      { t with ni := s.ni, regs := s.regs } = s) ∧
  (∀ (s : State) (n : Fin 80) h p, s.runs (niTile n.val) = true → s.nextOffer n.val = some h →
    (h.offered = 0 → s.offerCode n.val h = OK) → (s.niOf n.val).pktOf h.pid = some h → (s.niOf n.val).nextPtag = some p →
    s.offerable n.val h = true → isResvOp (hCls h.hdr) (sOpc h.sc) = true → hCls h.hdr = cRWD →
    s.hasMonitor n.val h.req (sAddr h.sc).toNat = false →
    ∃ t, exec (.offerToUnit n) s = .next t ∧ (t.niOf n.val).pktOf h.pid = none ∧ (t.niOf n.val).outq = (s.niOf n.val).outq ∧
      (t.niOf n.val).ptags = (s.niOf n.val).ptags ∧ (t.niOf n.val).mons = (s.niOf n.val).mons) ∧
  (∀ (s : State) (n : Fin 80), s.nextOffer n.val = none → exec (.offerToUnit n) s = .next s) ∧
  (∀ (s : State) (n : Fin 80) c m, s.runs (niTile n.val) = true → s.unitUp n.val = true →
    0 < Tbl.get (fun _ => 0) (s.niOf n.val).outCred c.toNat → (s.niOf n.val).outq.find? (fun o => o.msg.cls = c) = some m →
    (s.niOf n.val).pktOf m.pid = none →
    exec (.outboundMessageTaken n c) s = .next (s.setNi n.val { s.niOf n.val with
      outq := eraseFirst (· = m) (s.niOf n.val).outq,
      outCred := Tbl.set (fun _ => 0) c.toNat (Tbl.get (fun _ => 0) (s.niOf n.val).outCred c.toNat - 1)
        (s.niOf n.val).outCred })) ∧
  (∀ (s : State) (n : Fin 80) c m h, s.runs (niTile n.val) = true → s.unitUp n.val = true →
    0 < Tbl.get (fun _ => 0) (s.niOf n.val).outCred c.toNat → (s.niOf n.val).outq.find? (fun o => o.msg.cls = c) = some m →
    (s.niOf n.val).pktOf m.pid = some h → h.silent = false → h.ans.length < h.needed →
    ∃ t, exec (.outboundMessageTaken n c) s = .next t ∧ (t.niOf n.val).outq = eraseFirst (· = m) (s.niOf n.val).outq ∧
      Tbl.get (fun _ => 0) (t.niOf n.val).outCred c.toNat = Tbl.get (fun _ => 0) (s.niOf n.val).outCred c.toNat - 1 ∧
      (t.niOf n.val).pktOf m.pid = some { h with taken := h.taken + 1 } ∧ (∀ k, k ≠ n.val → t.niOf k = s.niOf k) ∧
      { t with ni := s.ni } = s) ∧
  (∀ (s : State) (n : Fin 80) c m h, s.runs (niTile n.val) = true → s.unitUp n.val = true →
    0 < Tbl.get (fun _ => 0) (s.niOf n.val).outCred c.toNat → (s.niOf n.val).outq.find? (fun o => o.msg.cls = c) = some m →
    (s.niOf n.val).pktOf m.pid = some h → h.endsTaken = true → h.lines ≤ h.offered → h.lines ≤ h.ans.length + 1 →
    ∃ t, exec (.outboundMessageTaken n c) s = .next t ∧ (t.niOf n.val).outq = eraseFirst (· = m) (s.niOf n.val).outq ∧
      Tbl.get (fun _ => 0) (t.niOf n.val).outCred c.toNat = Tbl.get (fun _ => 0) (s.niOf n.val).outCred c.toNat - 1 ∧
      (t.niOf n.val).pktOf m.pid = none ∧ (t.niOf n.val).ptag m.msg.ptag.toNat = none) ∧
  (∀ (s : State) (n : Fin 80) c, (Tbl.get (fun _ => 0) (s.niOf n.val).outCred c.toNat = 0 ∨ ∀ o ∈ (s.niOf n.val).outq, o.msg.cls ≠ c) →
    exec (.outboundMessageTaken n c) s = .next s)

/-! The Completion Ledger -/

/-- Writes that reach the page of an NI with a Ledger. LDG_SEL puts the readout of the entry that it names in LDG_DATA, or zeros where it names
none. LDG_REL naming a STUCK entry ends it as FAILED and frees it; naming any other entry, or none, it changes no entry. -/
def Obligations.LedgerRegisters : Prop :=
  (∀ (s : State) m (n : Fin 87) v, s.Takes m (.ni n) 0x404 → Config.hasLedger n.val = true →
    ∃ t, exec (.ledgerSelect m n v) s = .next t ∧
      (∀ i, i < 8 → t.rd (LDG_DATA n.val i) = match ldgKey v with
        | some k => BitVec.ofNat 32 (imgNat (((s.niOf n.val).led k).image k) (4 * i) 4)
        | none => 0) ∧
      (∀ a, a ≠ HL_PARK → a ≠ pageBase (.ni n) + 0x30 → (∀ i, i < 8 → a ≠ LDG_DATA n.val i) → t.rd a = s.rd a) ∧
      { t with regs := s.regs, hlAns := s.hlAns, notes := s.notes } = s) ∧
  (∀ (s : State) m (n : Fin 87) v k, s.Takes m (.ni n) 0x40C → Config.hasLedger n.val = true → ldgKey v = some k →
    ((s.niOf n.val).led k).st = .stuck →
    ∃ t, exec (.ledgerRelease m n v) s = .next t ∧ ((t.niOf n.val).led k).st = .failed ∧ ((t.niOf n.val).led k).isFree = true ∧
      ((t.niOf n.val).led k).timer = none ∧ (∀ j, j ≠ k → (t.niOf n.val).led j = (s.niOf n.val).led j) ∧
      (∀ j, j ≠ n.val → t.niOf j = s.niOf j)) ∧
  (∀ (s : State) m (n : Fin 87) v, s.Takes m (.ni n) 0x40C → Config.hasLedger n.val = true →
    (∀ k, ldgKey v = some k → ((s.niOf n.val).led k).st ≠ .stuck) → exec (.ledgerRelease m n v) s = .next (s.wrote m (.ni n) 0x40C id))

/-- The timer of an open entry of NI n that has expired, outside FROZEN, makes the entry STUCK with code TIMEOUT and stops the timer; one that
has not expired, or does not run, changes nothing. While traffic of the tile runs, a back-off whose time has come may send again (one
that another answer has returned to k = 0 is over), and one whose time has not come waits on; an EH_RD whose 256 fc have passed joins the NI's own requests again, as it was. -/
def Obligations.TransactionTimers : Prop :=
  (∀ (s : State) (n : Fin 80) (posted : Bool) (i : Fin 512) d, (posted = true ∨ i.val < 256) →
    ((s.niOf n.val).led (if posted then 256 + i.val else i.val)).timer = some d → d ≤ s.fc → s.mode ≠ .frozen →
    ((s.niOf n.val).led (if posted then 256 + i.val else i.val)).retained = false →
    ((s.niOf n.val).led (if posted then 256 + i.val else i.val)).isOpen = true →
    ∃ t, exec (.txnTimeout n posted i) s = .next t ∧
      ((t.niOf n.val).led (if posted then 256 + i.val else i.val)).st = .stuck ∧
      ((t.niOf n.val).led (if posted then 256 + i.val else i.val)).code = TIMEOUT ∧
      ((t.niOf n.val).led (if posted then 256 + i.val else i.val)).timer = none) ∧
  (∀ (s : State) (n : Fin 80) (posted : Bool) (i : Fin 512),
    (∀ d, ((s.niOf n.val).led (if posted then 256 + i.val else i.val)).timer = some d → s.fc < d) →
    exec (.txnTimeout n posted i) s = .next s) ∧
  (∀ (s : State) (n : Fin 80) (i : Fin 32) b, s.runs (niTile n.val) = true → ((s.niOf n.val).backoff.drop i.val).head? = some b →
    b.waiting = true → b.until_ ≤ s.fc →
    exec (.backoffWaitEnd n i) s = .next (s.setNi n.val { s.niOf n.val with
      backoff := (s.niOf n.val).backoff.take i.val ++ (if b.k = 0 then [] else [{ b with waiting := false }]) ++
        (s.niOf n.val).backoff.drop (i.val + 1) })) ∧
  (∀ (s : State) (n : Fin 80) (i : Fin 32) b, ((s.niOf n.val).backoff.drop i.val).head? = some b → s.fc < b.until_ →
    exec (.backoffWaitEnd n i) s = .next s) ∧
  (∀ (s : State) (n : Fin 80) (k : Fin 256) d, s.runs (niTile n.val) = true → ((s.niOf n.val).led k.val).retryAt = some d → d ≤ s.fc →
    ((s.niOf n.val).led k.val).isOpen = true → ((s.niOf n.val).led k.val).mute = false →
    ∃ t, exec (.ehRdRetry n k) s = .next t ∧ (t.niOf n.val).led k.val = { (s.niOf n.val).led k.val with retryAt := none } ∧
      (∃ p, (t.niOf n.val).queue ownQueue = (s.niOf n.val).queue ownQueue ++ [p] ∧ p.retry = true ∧ p.tag = keyTag k.val ∧
        p.cls = cMGT ∧ p.opc = ((s.niOf n.val).led k.val).opc ∧ p.key = .node ((s.niOf n.val).led k.val).dst ∧
        p.part = ((s.niOf n.val).led k.val).part ∧ p.pkt = none ∧ p.body = [(setOpc (putBits ((s.niOf n.val).led k.val).hdr 47 40
          ((s.niOf n.val).led k.val).mid.toNat) ((s.niOf n.val).led k.val).opc, 0)]) ∧
      (∀ j, j ≠ k.val → (t.niOf n.val).led j = (s.niOf n.val).led j) ∧ (∀ j, j ≠ n.val → t.niOf j = s.niOf j) ∧
      { t with ni := s.ni } = s) ∧
  (∀ (s : State) (n : Fin 80) (k : Fin 256), ((s.niOf n.val).led k.val).retryAt = none → exec (.ehRdRetry n k) s = .next s)

/-- While traffic of the tile runs: the OK answer without data to a one-line request that is ISSUED ends its entry DONE with code OK. A RETRY
of the LNI to an ISSUED EH_RD leaves the entry ISSUED and sends it again 256 fc later. An answer that fits no open part of the entry its TAG
names is discarded and journaled LATE with the unmatched flag. With no answer there nothing happens. -/
def Obligations.AnswersArrive : Prop :=
  (∀ (s : State) (n : Fin 80) p x i q, s.runs (niTile n.val) = true → (s.niOf n.val).takeIn isAnswer = some (p, x) → hCls p.hdr = cNDR →
    sOpc p.sc ≠ opFERR → sStatus p.sc = OK → (x.led (tagKey (hTag p.hdr))).partFor p.hdr p.sc = some i →
    (x.led (tagKey (hTag p.hdr))).parts.drop i = [q] → q.lidx = 0 → q.lines = 1 →
    (x.led (tagKey (hTag p.hdr))).st = .issued → (x.led (tagKey (hTag p.hdr))).lines = 1 →
    (x.led (tagKey (hTag p.hdr))).codes = [] → (x.led (tagKey (hTag p.hdr))).inl = none →
    (x.led (tagKey (hTag p.hdr))).sheaf = 0 → (x.led (tagKey (hTag p.hdr))).heldIoc = [] →
    bit (x.led (tagKey (hTag p.hdr))).opc 7 = false →
    ∃ t, exec (.answerArrive n) s = .next t ∧ ((t.niOf n.val).led (tagKey (hTag p.hdr))).st = .done ∧
      ((t.niOf n.val).led (tagKey (hTag p.hdr))).code = OK) ∧
  (∀ (s : State) (n : Fin 80) p x i q, s.runs (niTile n.val) = true → (s.niOf n.val).takeIn isAnswer = some (p, x) → hCls p.hdr = cMGT →
    sOpc p.sc = opEH_RSP → mStatus p.sc = RETRY → (x.led (tagKey (hTag p.hdr))).partFor p.hdr p.sc = some i →
    ((x.led (tagKey (hTag p.hdr))).parts.drop i).head? = some q → (x.led (tagKey (hTag p.hdr))).st = .issued →
    ∃ t, exec (.answerArrive n) s = .next t ∧ ((t.niOf n.val).led (tagKey (hTag p.hdr))).st = .issued ∧
      ((t.niOf n.val).led (tagKey (hTag p.hdr))).retryAt = some (s.fc + 256) ∧ { t with ni := s.ni } = s) ∧
  (∀ (s : State) (n : Fin 80) p x, s.runs (niTile n.val) = true → (s.niOf n.val).takeIn isAnswer = some (p, x) → hCls p.hdr ≠ cMGT →
    (x.led (tagKey (hTag p.hdr))).partFor p.hdr p.sc = none → s.jq.length < 64 →
    ∃ t e, exec (.answerArrive n) s = .next t ∧ t.jq = s.jq ++ [e] ∧ e.kind = kLATE ∧ e.where_ = BitVec.ofNat 16 n.val ∧
      e.tag = hTag p.hdr ∧ e.tgt = hSrc p.hdr ∧ bit e.detail 8 = true ∧ e.t = s.stamp ∧ t.niOf n.val = x ∧
      t.rbit (pageBase (niPage n.val) + 0x18) 7 = true) ∧
  (∀ (s : State) (n : Fin 80), (s.niOf n.val).answersIn = [] → exec (.answerArrive n) s = .next s)

/-! What a unit's channel brings -/

/-- A request message that NI n takes now, with no handshake error, to a valid queue, that begins a message, passes steps 2 and 3 of R501
and, with its first line, the initiator check, names no flow and no Sheaf group and is not combined: with room in the queue, a free Ledger
entry and no write-combining line in use, the entry is NOT_STARTED with the tag and partition of the message, the message joins the end of its
queue, and its class has one credit less, owed to the unit. With no room or no entry, nothing happens. -/
def Obligations.RequestsFromUnits : Prop :=
  ∀ (s : State) (n : Fin 80) m j f part, s.unitUp n.val = true → s.runs (niTile n.val) = true → s.takesNow n.val m = true →
    s.handshake n.val m = [] → (chanRequest m.cls = true ∨ (m.cls = 0xF ∧ m.sub = 3)) → (s.niOf n.val).continues m = false →
    j = m.qsel.toNat → s.qValid n.val j = true → s.step2 n.val m = OK → m.flowOf = none → m.group = none → m.comb = false →
    (privileged (s.node n.val) = true ∨ s.qAny n.val j = true ∨
      (s.partState (s.qPart n.val j).toNat = 2 ∧ s.member n.val (s.qPart n.val j).toNat = true)) →
    s.fenced (niTile n.val) = false →
    f = s.look { n := n.val, key := (m.key n.val).getD (.node 0), vn := vnOf (chanCls m.cls), cls := chanCls m.cls,
                 resv := isResvOp (chanCls m.cls) m.opc, mask := s.fenceMask } →
    part = (if s.qAny n.val j then f.part.getD (s.qPart n.val j) else s.qPart n.val j) →
    (∀ a, (msgItem m n.val s.fc j 0 part (s.qAny n.val j) 0 0 []).accessAt 0 m.sidecar = some a →
      (s.check n.val false (s.qAny n.val j) part (s.node n.val) a).code = OK) →
    (∀ k, s.roomFor n.val j (s.need n.val m f.gran) = true → (s.niOf n.val).freeKey m.posted = some k → (s.niOf n.val).wcb = [] →
      ∃ t it, exec (.inboundRequestMessage n m) s = .next t ∧ exec (.mgtReqMessage n m) s = .next t ∧
        (t.niOf n.val).queue j = (s.niOf n.val).queue j ++ [it] ∧ it.tag = keyTag k ∧ it.opc = m.opc ∧ it.lines = m.lines ∧
        it.body = [(m.sidecar, m.payload)] ∧ it.pkt = none ∧ it.addr = m.addr ∧ it.ord = (s.niOf n.val).ordN ∧ it.part = part ∧
        ((t.niOf n.val).led k).st = .notStarted ∧ ((t.niOf n.val).led k).etag = m.etag ∧
        ((t.niOf n.val).led k).lines = m.ledLines ∧ ((t.niOf n.val).led k).part = part ∧
        (∀ i, i ≠ k → (t.niOf n.val).led i = (s.niOf n.val).led i) ∧
        (∀ i, i ≠ j → (t.niOf n.val).queue i = (s.niOf n.val).queue i) ∧
        (t.niOf n.val).ordN = (s.niOf n.val).ordN + 1 ∧ (t.niOf n.val).outq = (s.niOf n.val).outq ∧
        (t.niOf n.val).inCredit m.cls = (s.niOf n.val).inCredit m.cls - 1 ∧
        (t.niOf n.val).inRet = (s.niOf n.val).inRet ++ [m.cls.toNat] ∧
        (t.niOf n.val).burstOf m.cls = (if dataCls (chanCls m.cls) && decide (1 < m.lines) then (some (keyTag k, j), m.lines - 1)
          else (s.niOf n.val).burstOf m.cls) ∧
        (∀ i, i ≠ n.val → t.niOf i = s.niOf i) ∧ { t with ni := s.ni, regs := s.regs, tally := s.tally, notes := s.notes } = s) ∧
    ((s.roomFor n.val j (s.need n.val m f.gran) = false ∨ (s.niOf n.val).freeKey m.posted = none) →
      exec (.inboundRequestMessage n m) s = .next s ∧ exec (.mgtReqMessage n m) s = .next s)

/-- A request that names no valid queue, or fails step 2 of R501, takes no Ledger entry and joins no queue: one that is posted or draws no answer
is journaled with the code of step 2, and a CXL.mem write that fails step 2 is answered on the channel with that code, one message for
each of its lines. A message that its queue's limits or its partition hold is not taken, whatever step 2 would give. The next line of a burst whose message still lacks lines, and that passes the initiator check, joins that message; with no room
it waits. An answer of a form that R238 does not carry is journaled. Each message that is taken uses a credit of its class. -/
def Obligations.RequestsRefused : Prop :=
  (∀ (s : State) (n : Fin 80) m, s.unitUp n.val = true → s.runs (niTile n.val) = true → s.takesNow n.val m = true → s.handshake n.val m = [] →
    (chanRequest m.cls = true ∨ (m.cls = 0xF ∧ m.sub = 3)) → (s.niOf n.val).continues m = false →
    (s.qValid n.val m.qsel.toNat = false ∨ s.step2 n.val m ≠ OK) →
    (s.qValid n.val m.qsel.toNat = true → s.heldBack n.val m.qsel.toNat m = false) →
    ∃ t, exec (.inboundRequestMessage n m) s = .next t ∧ exec (.mgtReqMessage n m) s = .next t ∧
      (t.niOf n.val).ledger = (s.niOf n.val).ledger ∧ (t.niOf n.val).queues = (s.niOf n.val).queues ∧
      (s.qValid n.val m.qsel.toNat = false → t.rbit (INJ_STAT n.val) 1 = true) ∧
      ((m.posted = true ∨ m.cls = 8 ∨ noCompletion (chanCls m.cls) m.opc = true) → s.jq.length < 64 →
        s.qValid n.val m.qsel.toNat = true →
        ∃ e, t.jq = s.jq ++ [e] ∧ e.code = s.step2 n.val m ∧ e.kind = kSOURCE ∧ e.where_ = whereNi n.val) ∧
      (m.cls = 1 → s.qValid n.val m.qsel.toNat = true → ∃ l, (t.niOf n.val).outq = (s.niOf n.val).outq ++ l ∧ l.length = m.lines ∧
        ∀ o ∈ l, o.msg.cls = 3 ∧ o.msg.etag = m.etag ∧ o.msg.status = s.step2 n.val m) ∧
      (t.niOf n.val).inCredit m.cls = (s.niOf n.val).inCredit m.cls - 1 ∧ (∀ i, i ≠ n.val → t.niOf i = s.niOf i)) ∧
  (∀ (s : State) (n : Fin 80) m, s.handshake n.val m = [] → (chanRequest m.cls = true ∨ (m.cls = 0xF ∧ m.sub = 3)) →
    (s.niOf n.val).continues m = false → s.qValid n.val m.qsel.toNat = true → s.heldBack n.val m.qsel.toNat m = true →
    exec (.inboundRequestMessage n m) s = .next s ∧ exec (.mgtReqMessage n m) s = .next s) ∧
  (∀ (s : State) (n : Fin 80) m tag j left i it, s.unitUp n.val = true → s.runs (niTile n.val) = true → s.takesNow n.val m = true →
    s.handshake n.val m = [] → (s.niOf n.val).continues m = true → (s.niOf n.val).burstOf m.cls = (some (tag, j), left) →
    ((s.niOf n.val).queue j).findIdx? (fun it => it.tag = tag && it.pkt.isNone) = some i →
    ((s.niOf n.val).queue j)[i]? = some it → it.flow = none → it.owner = .unit → s.roomFor n.val j 1 = true →
    (∀ a, it.accessAt (it.lidx + it.body.length) m.sidecar = some a →
      (s.check n.val false it.anyPart it.part (s.node n.val) a).code = OK) →
    ∃ t, exec (.inboundRequestMessage n m) s = .next t ∧
      (t.niOf n.val).queue j = ((s.niOf n.val).queue j).take i ++
        [{ it with body := it.body ++ [(m.sidecar, m.payload)], taken := s.fc }] ++ ((s.niOf n.val).queue j).drop (i + 1) ∧
      (t.niOf n.val).burstOf m.cls = (if left = 1 then (none, 0) else (some (tag, j), left - 1)) ∧
      (t.niOf n.val).inCredit m.cls = (s.niOf n.val).inCredit m.cls - 1 ∧
      (∃ x, (t.niOf n.val).led (tagKey tag) = { (s.niOf n.val).led (tagKey tag) with first := x }) ∧
      (∀ k, k ≠ tagKey tag → (t.niOf n.val).led k = (s.niOf n.val).led k) ∧ (∀ k, k ≠ n.val → t.niOf k = s.niOf k) ∧
      { t with ni := s.ni, regs := s.regs, tally := s.tally, notes := s.notes } = s) ∧
  (∀ (s : State) (n : Fin 80) m tag j left i, s.handshake n.val m = [] → (m.cls = 1 ∨ m.cls = 0xC) →
    (s.niOf n.val).continues m = true → (s.niOf n.val).burstOf m.cls = (some (tag, j), left) →
    ((s.niOf n.val).queue j).findIdx? (fun it => it.tag = tag && it.pkt.isNone) = some i → s.roomFor n.val j 1 = false →
    exec (.inboundRequestMessage n m) s = .next s) ∧
  (∀ (s : State) (n : Fin 80) m, s.unitUp n.val = true → s.runs (niTile n.val) = true → s.takesNow n.val m = true → s.handshake n.val m = [] →
    m.cls ≠ 0xF → chanRequest m.cls = false → s.answerRefused m = true →
    exec (.inboundAnswerMessage n m) s = .next ((s.setNi n.val ((s.niOf n.val).useCredit m.cls)).journal {
      code := DECODE, kind := kSOURCE, where_ := whereNi n.val, init := s.node n.val, addr := m.addr, posted := m.posted }))

/-- A combined store whose checks pass, at an NI with no line in use, allocates one: it holds the bytes, the mask and the line number of the
store, the posted Ledger entry that backs it is NOT_STARTED, and the unit has its answer. A line whose window has ended closes, and with it every
line allocated before it; each of them not yet in a queue joins the end of the queue of the store that allocated it, in the order of allocation. A
line that is closed, or whose window runs, stays as it is. -/
def Obligations.CombinedStores : Prop :=
  (∀ (s : State) (n : Fin 80) m j f k, s.unitUp n.val = true → s.runs (niTile n.val) = true → s.takesNow n.val m = true →
    s.handshake n.val m = [] → (s.niOf n.val).continues m = false → j = m.qsel.toNat → s.qValid n.val j = true →
    s.step2 n.val m = OK →
    (privileged (s.node n.val) = true ∨ s.qAny n.val j = true ∨
      (s.partState (s.qPart n.val j).toNat = 2 ∧ s.member n.val (s.qPart n.val j).toNat = true)) →
    s.fenced (niTile n.val) = false →
    f = s.look { n := n.val, key := (m.key n.val).getD (.node 0), vn := vnOf (chanCls m.cls), cls := chanCls m.cls,
                 resv := isResvOp (chanCls m.cls) m.opc, mask := s.fenceMask } →
    s.combines n.val m f = true → (s.qAny n.val j = true ∨ f.part.getD (s.qPart n.val j) = s.qPart n.val j) →
    (∀ a, (msgItem m n.val s.fc j 0 (s.qPart n.val j) (s.qAny n.val j) 0 0 []).accessAt 0 m.sidecar = some a →
      (s.check n.val false (s.qAny n.val j) (s.qPart n.val j) (s.node n.val) a).code = OK) →
    (s.niOf n.val).wcb = [] → (s.niOf n.val).freeKey true = some k → m.bmask ≠ BitVec.allOnes 64 →
    s.fld (WCB_CTRL n.val) 15 4 ≠ 0 →
    ∃ t l o, exec (.inboundRequestMessage n m) s = .next t ∧ (t.niOf n.val).wcb = [l] ∧ l.closed = false ∧ l.tag = keyTag k ∧
      l.bmask = m.bmask ∧ l.data = m.data ∧ l.line.toNat = (sAddr m.sidecar).toNat / 64 ∧ l.alloc = s.fc ∧ l.dst = f.dst ∧
      ((t.niOf n.val).led k).st = .notStarted ∧ (t.niOf n.val).queues = (s.niOf n.val).queues ∧
      (t.niOf n.val).outq = (s.niOf n.val).outq ++ [o] ∧ o.msg.cls = 3 ∧ o.msg.etag = m.etag ∧ o.msg.status = OK) ∧
  (∀ (s : State) (n : Fin 80) (i : Fin 32) l, s.runs (niTile n.val) = true → (s.niOf n.val).wcb[i.val]? = some l → l.closed = false →
    l.alloc + s.fld (WCB_CTRL n.val) 15 4 ≤ s.fc →
    ∃ t, exec (.wcbWindowClose n i) s = .next t ∧
      (t.niOf n.val).wcb = ((s.niOf n.val).wcb.take (i.val + 1)).map (fun l => { l with closed := true, joined := true }) ++
        (s.niOf n.val).wcb.drop (i.val + 1) ∧
      (∀ q, (t.niOf n.val).queue q = (s.niOf n.val).queue q ++
        (((s.niOf n.val).wcb.take (i.val + 1)).filter (fun l => !l.joined && l.queue.toNat = q)).map (fun l => l.item s.fc)) ∧
      (t.niOf n.val).ledger = (s.niOf n.val).ledger ∧ (∀ k, k ≠ n.val → t.niOf k = s.niOf k) ∧ { t with ni := s.ni } = s) ∧
  (∀ (s : State) (n : Fin 80) (i : Fin 32),
    (∀ l, (s.niOf n.val).wcb[i.val]? = some l → l.closed = true ∨ s.fc < l.alloc + s.fld (WCB_CTRL n.val) 15 4) →
    exec (.wcbWindowClose n i) s = .next s)

/-- A barrier that NI n takes, with no handshake error and no write-combining line in use, uses a credit and joins the pending barriers with its
queue and tag; one whose kind or scope R222 does not allow there is answered DECODE; a ninth is not taken. The oldest pending barrier whose
condition holds, with a class 0xF credit, leaves the list and its completion goes to the unit, with the code of the oldest covered write that failed
when it is an ORDER barrier; with no such barrier nothing happens. -/
def Obligations.Barriers : Prop :=
  (∀ (s : State) (n : Fin 80) m, s.unitUp n.val = true → s.runs (niTile n.val) = true → (s.carries = true ∨ s.mode = .drain) →
    s.handshake n.val { m with cls := 0xF, ctrl := 0 } = [] → (s.niOf n.val).wcb = [] → (s.niOf n.val).bars.length < 8 →
    (∀ k c, (k, c) ∈ [(BarKind.order, Instr.barrierOrder n m), (.drain, .barrierDrain n m), (.rule, .barrierRule n m)] →
      (barrierOk n.val k (barScope m) = true → ∃ t b, exec c s = .next t ∧
        t.niOf n.val = { (s.niOf n.val).useCredit 15 with bars := (s.niOf n.val).bars ++ [b], ordN := (s.niOf n.val).ordN + 1 } ∧
        b.kind = k ∧ b.scope = barScope m ∧ b.queue = m.qsel ∧ b.etag = m.etag ∧ b.ord = (s.niOf n.val).ordN ∧ b.bad = none ∧
        (∀ i, i ≠ n.val → t.niOf i = s.niOf i) ∧ { t with ni := s.ni } = s) ∧
      (barrierOk n.val k (barScope m) = false → ∃ t, exec c s = .next t ∧
        t.niOf n.val = { (s.niOf n.val).useCredit 15 with
          outq := (s.niOf n.val).outq ++ [{ msg := { barCpl m.etag DECODE with src := s.node n.val } }] } ∧
        (∀ i, i ≠ n.val → t.niOf i = s.niOf i) ∧ { t with ni := s.ni } = s))) ∧
  (∀ (s : State) (n : Fin 80) m, 8 ≤ (s.niOf n.val).bars.length → s.handshake n.val { m with cls := 0xF, ctrl := 0 } = [] →
    (barrierOk n.val .order (barScope m) = true → exec (.barrierOrder n m) s = .next s) ∧
    (barrierOk n.val .drain (barScope m) = true → exec (.barrierDrain n m) s = .next s) ∧
    (barrierOk n.val .rule (barScope m) = true → exec (.barrierRule n m) s = .next s)) ∧
  (∀ (s : State) (n : Fin 80) b, s.runs (niTile n.val) = true → s.unitUp n.val = true →
    ((s.niOf n.val).outq.filter fun o => o.msg.cls = 15).length < Tbl.get (fun _ => 0) (s.niOf n.val).outCred 15 →
    (s.niOf n.val).bars.find? (s.barrierDone n.val) = some b →
    ∃ t code, exec (.barrierComplete n) s = .next t ∧ code = (if b.kind = .order then (b.bad.map (·.2)).getD OK else OK) ∧
      t.niOf n.val = { s.niOf n.val with
          bars := eraseFirst (· = b) (s.niOf n.val).bars,
          outq := (s.niOf n.val).outq ++ [{ msg := { barCpl b.etag code with src := s.node n.val } }] } ∧
      (∀ i, i ≠ n.val → t.niOf i = s.niOf i) ∧ (code ≠ OK → t.rbit (BAR_STAT n.val) 16 = true) ∧
      (code = OK → { t with ni := s.ni } = s)) ∧
  (∀ (s : State) (n : Fin 80), (s.niOf n.val).bars.find? (s.barrierDone n.val) = none → exec (.barrierComplete n) s = .next s)

/-- A message with handshake errors is discarded: it is journaled as SOURCE, the bit of PMC_STAT of each of its errors is set at a PNI, and of the
NIs only the credit it used changes. An event message at a PNI with sb_en waits behind the events before it; at another NI it is
discarded; both use a credit. A returned credit counts up to 255, and one more sets bit 3 of PMC_STAT at a PNI. Nothing of a unit that
is not up has an effect. -/
def Obligations.ChannelMessages : Prop :=
  (∀ (s : State) (n : Fin 80) m, s.unitUp n.val = true → s.runs (niTile n.val) = true → s.takesNow n.val m = true →
    s.handshake n.val m ≠ [] → s.jq.length < 64 →
    ∃ t e, exec (.inboundRequestMessage n m) s = .next t ∧ exec (.inboundAnswerMessage n m) s = .next t ∧
      exec (.sidebandEventMessage n m) s = .next t ∧ exec (.mgtReqMessage n m) s = .next t ∧
      t.niOf n.val = (s.niOf n.val).useCredit m.cls ∧ (∀ i, i ≠ n.val → t.niOf i = s.niOf i) ∧
      t.jq = s.jq ++ [e] ∧ e.code = DECODE ∧ e.kind = kSOURCE ∧
      (Config.niKind n.val = .pni → ∀ b ∈ s.handshake n.val m, t.rbit (PMC_STAT n.val) b = true) ∧
      (Config.niKind n.val ≠ .pni → t.regs = s.regs)) ∧
  (∀ (s : State) (n : Fin 80) m, s.unitUp n.val = true → s.runs (niTile n.val) = true → s.takesNow n.val m = true → s.handshake n.val m = [] →
    m.cls = 0xF → m.sub = 2 →
    ∃ t, exec (.sidebandEventMessage n m) s = .next t ∧
      t.niOf n.val = (if Config.niKind n.val = .pni ∧ s.rbit (PNI_CTRL n.val) 3 = true then
          { (s.niOf n.val).useCredit 15 with
            events := (s.niOf n.val).events ++
              [{ opc := m.ctrl.extractLsb' 8 8, data := m.ctrl.extractLsb' 16 32, ord := (s.niOf n.val).ordN }],
            ordN := (s.niOf n.val).ordN + 1 }
        else (s.niOf n.val).useCredit 15) ∧
      (∀ i, i ≠ n.val → t.niOf i = s.niOf i) ∧ { t with ni := s.ni } = s) ∧
  (∀ (s : State) (n : Fin 80) c, s.unitUp n.val = true →
    (Tbl.get (fun _ => 0) (s.niOf n.val).outCred c.toNat < 255 →
      exec (.outboundCreditReturn n c) s = .next (s.setNi n.val { s.niOf n.val with
        outCred := Tbl.set (fun _ => 0) c.toNat (Tbl.get (fun _ => 0) (s.niOf n.val).outCred c.toNat + 1)
          (s.niOf n.val).outCred })) ∧
    (255 ≤ Tbl.get (fun _ => 0) (s.niOf n.val).outCred c.toNat → ∃ t, exec (.outboundCreditReturn n c) s = .next t ∧ t.ni = s.ni ∧
      (Config.niKind n.val = .pni → t.rbit (PMC_STAT n.val) 3 = true))) ∧
  (∀ (s : State) (n : Fin 80) m (c : BitVec 4), s.unitUp n.val = false → exec (.inboundRequestMessage n m) s = .next s ∧
    exec (.inboundAnswerMessage n m) s = .next s ∧ exec (.sidebandEventMessage n m) s = .next s ∧ exec (.mgtReqMessage n m) s = .next s ∧
    exec (.barrierOrder n m) s = .next s ∧ exec (.barrierDrain n m) s = .next s ∧ exec (.barrierRule n m) s = .next s ∧
    exec (.outboundCreditReturn n c) s = .next s)

/-- An answer of the unit with status OK, POISON or FAR to a request with data, whose PTAG waits for it alone: while lines or answers of the packet
are still to come, the answer is kept for its line and the PTAG is free. When the packet is a write of one line, wholly offered and
not cut, the packet leaves the NI, and an NDR with that status and the tag of the request waits for the requester. An answer whose PTAG waits for none
is journaled as TARGET. Each uses a credit of its class and changes no other NI. -/
def Obligations.AnswersOfUnits : Prop :=
  (∀ (s : State) (n : Fin 80) m p h, s.unitUp n.val = true → s.runs (niTile n.val) = true → s.takesNow n.val m = true → s.handshake n.val m = [] →
    chanRequest m.cls = false → m.cls ≠ 0xF → s.answerRefused m = false →
    (s.niOf n.val).ptag m.ptag.toNat = some p → p.left = 1 → (s.niOf n.val).pktOf p.pid = some h →
    (m.status = OK ∨ m.status = POISON ∨ m.status = FAR) → hCls h.hdr = cRWD →
    ((h.offered < h.lines ∨ h.ans.length + 1 < h.needed) → ∃ t, exec (.inboundAnswerMessage n m) s = .next t ∧
      (t.niOf n.val).ptag m.ptag.toNat = none ∧
      (t.niOf n.val).pktOf p.pid = some { h with
        ans := h.ans ++ [(p.line, m.status, answerSc m, m.data)], ansOrd := some (h.ansOrd.getD (s.niOf n.val).ordN) } ∧
      (t.niOf n.val).inCredit m.cls = (s.niOf n.val).inCredit m.cls - 1 ∧
      (t.niOf n.val).answers = (s.niOf n.val).answers ∧ (∀ i, i ≠ n.val → t.niOf i = s.niOf i)) ∧
    (h.body.length = 1 → h.offered = 1 → h.ans = [] → p.line = 0 → h.endsTaken = false → noCompletion cRWD (sOpc h.sc) = false →
      h.verdict ≠ PARTIAL → ∃ t a, exec (.inboundAnswerMessage n m) s = .next t ∧
      (t.niOf n.val).answers = (s.niOf n.val).answers ++ [a] ∧ hCls a.pkt.hdr = cNDR ∧ hTag a.pkt.hdr = hTag h.hdr ∧
      hDst a.pkt.hdr = hSrc h.hdr ∧ hSrc a.pkt.hdr = s.node n.val ∧ a.pkt.body.length = 1 ∧
      sStatus (a.pkt.body.headD (0, 0)).1 = m.status ∧ (t.niOf n.val).pktOf p.pid = none ∧
      (t.niOf n.val).inCredit m.cls = (s.niOf n.val).inCredit m.cls - 1 ∧
      (∀ i, i ≠ n.val → t.niOf i = s.niOf i))) ∧
  (∀ (s : State) (n : Fin 80) m, s.unitUp n.val = true → s.runs (niTile n.val) = true → s.takesNow n.val m = true → s.handshake n.val m = [] →
    chanRequest m.cls = false → m.cls ≠ 0xF → s.answerRefused m = false → (s.niOf n.val).ptag m.ptag.toNat = none →
    exec (.inboundAnswerMessage n m) s = .next ((s.setNi n.val ((s.niOf n.val).useCredit m.cls)).journal {
      code := DECODE, kind := kTARGET, where_ := whereNi n.val, tgt := s.node n.val }))

/-! Lookups, injection, routers and arrival -/

/-- While traffic of the tile runs: the oldest message of a queue with no packet that passes the checks of R501 has its packet, and the
oldest answer with no route has the one its node key finds. The lookup of a held head is repeated when the fence mask has changed. A held head
whose hold has lasted PWR_HOLD under an unchanged mask leaves its queue, and its entry, with no outcome before, is FAILED with FENCED. With nothing to look up, an unchanged
mask or a hold that lasts, nothing happens. -/
def Obligations.LookupsBuildPackets : Prop :=
  (∀ (s : State) (n : Fin 81) (j : BitVec 8) i it f, s.runs (niTile n.val) = true → (s.niOf n.val).unbuilt j.toNat = some i → it.held = none →
    s.Builds n.val j.toNat i it f →
    ∃ t, exec (.routeLookup n (.queue j)) s = .next t ∧ s.Built t n.val j.toNat i it f ∧
      (∀ k, k ≠ n.val → t.niOf k = s.niOf k) ∧ t.links = s.links ∧ t.parts = s.parts) ∧
  (∀ (s : State) (n : Fin 81) (j : BitVec 8), (s.niOf n.val).unbuilt j.toNat = none → exec (.routeLookup n (.queue j)) s = .next s) ∧
  (∀ (s : State) (n : Fin 81) a f, s.runs (niTile n.val) = true → (s.niOf n.val).answers.find? (fun a => !a.routed) = some a →
    f = s.look { n := n.val, key := .node (hDst a.pkt.hdr), vn := hVn a.pkt.hdr, cls := hCls a.pkt.hdr, isReq := false, mask := s.fenceMask } →
    f.code = OK → f.fenced = false →
    ∃ t, exec (.routeLookup n .answers) s = .next t ∧ (t.niOf n.val).answers =
        modFirst (· = a) (fun a => { a with routed := true, pkt := { a.pkt with hdr := setRoute a.pkt.hdr f.route } }) (s.niOf n.val).answers ∧
      (t.niOf n.val).queues = (s.niOf n.val).queues ∧ (t.niOf n.val).ledger = (s.niOf n.val).ledger ∧
      (∀ k, k ≠ n.val → t.niOf k = s.niOf k)) ∧
  (∀ (s : State) (n : Fin 80) (j : Fin 257) it f, s.runs (niTile n.val) = true → it.held.isSome = true → it.mask ≠ s.fenceMask →
    s.Builds n.val j.val 0 it f →
    ∃ t, exec (.holdRelookup n j) s = .next t ∧ s.Built t n.val j.val 0 it f ∧ (∀ k, k ≠ n.val → t.niOf k = s.niOf k)) ∧
  (∀ (s : State) (n : Fin 80) (j : Fin 257), (∀ it, ((s.niOf n.val).queue j.val).head? = some it → it.held = none ∨ it.mask = s.fenceMask) →
    exec (.holdRelookup n j) s = .next s) ∧
  (∀ (s : State) (n : Fin 80) (j : Fin 257) it rest h, s.runs (niTile n.val) = true → (s.niOf n.val).queue j.val = it :: rest → it.held = some h →
    it.pkt = none → it.mask = s.fenceMask → h + s.fld PWR_HOLD 23 0 ≤ s.fc → it.lidx = 0 → ((s.niOf n.val).led (tagKey it.tag)).isOpen = true →
    ((s.niOf n.val).led (tagKey it.tag)).codes = [] → 0 < ((s.niOf n.val).led (tagKey it.tag)).lines →
    ∃ t, exec (.holdExpire n j) s = .next t ∧ (t.niOf n.val).queue j.val = rest ∧
      ((t.niOf n.val).led (tagKey it.tag)).st = .failed ∧ ((t.niOf n.val).led (tagKey it.tag)).code = FENCED ∧
      t.fld PWR_CNT 15 0 = min (s.fld PWR_CNT 15 0 + 1) 0xFFFF ∧ (∀ k, k ≠ n.val → t.niOf k = s.niOf k)) ∧
  (∀ (s : State) (n : Fin 80) (j : Fin 257), (∀ it h, ((s.niOf n.val).queue j.val).head? = some it → it.held = some h →
    it.mask = s.fenceMask ∧ s.fc < h + s.fld PWR_HOLD 23 0) → exec (.holdExpire n j) s = .next s)

/-- In an fc in which NI n may send, with no scheduled flit: the next flit of a packet under way with a credit leaves; else the first flit of the
oldest answer that may start; else, at an NI with a unit or the LNI, the head of the queue that R188 or R190 choose, whose entry becomes ISSUED and
whose timer starts; at a KNI the head of a queue of packets from the peer. The flit is on the link to the router, due in the next fc. Nothing
leaves twice in an fc, nor when nothing waits. The head clause is for a packet that is no reserved operation and does not move to another tag. -/
def Obligations.Injection : Prop :=
  (∀ (s : State) (n : Fin 87), (s.runs (niTile n.val) = false ∨ (s.niOf n.val).sentFc = s.fc + 1) → exec (.injectPacket n) s = .next s) ∧
  (∀ (s : State) (n : Fin 87) c f rest, s.MaySend n.val → (s.niOf n.val).cur.find? (fun c => 0 < (s.niOf n.val).attCredits c.vc) = some c →
    c.flits = f :: rest →
    ∃ t, exec (.injectPacket n) s = .next t ∧ s.Left t n.val c.vc f ∧
      (t.niOf n.val).cur = (if rest = [] then eraseFirst (· = c) (s.niOf n.val).cur
        else modFirst (· = c) (fun c => { c with flits := rest }) (s.niOf n.val).cur) ∧
      (t.niOf n.val).attCredits c.vc + 1 = (s.niOf n.val).attCredits c.vc ∧
      (t.niOf n.val).queues = (s.niOf n.val).queues ∧ (t.niOf n.val).answers = (s.niOf n.val).answers) ∧
  (∀ (s : State) (n : Fin 87) a vc f rest, s.MaySend n.val → (s.niOf n.val).cur.find? (fun c => 0 < (s.niOf n.val).attCredits c.vc) = none →
    s.nextAnswer n.val = some (a, vc) →
    ({ (s.ehFill a).2 with hdr := setSeq a.pkt.hdr ((s.niOf n.val).nextSeq a.pkt.hdr) } : Pkt).flits = f :: rest →
    ∃ t, exec (.injectPacket n) s = .next t ∧ s.Left t n.val vc f ∧
      (t.niOf n.val).answers = eraseFirst (· = a) (s.niOf n.val).answers ∧
      (t.niOf n.val).nextSeq a.pkt.hdr = (s.niOf n.val).nextSeq a.pkt.hdr + 1 ∧ (t.niOf n.val).queues = (s.niOf n.val).queues) ∧
  (∀ (s : State) (n : Fin 87) j i it p vc f rest, n.val < 81 → s.MaySend n.val → s.ring = false →
    (s.niOf n.val).cur.find? (fun c => 0 < (s.niOf n.val).attCredits c.vc) = none → s.nextAnswer n.val = none →
    (∀ j i it p, s.headOf n.val j = some (i, it, p) → (s.niOf n.val).routeHeld it p = false ∧
      (s.ready n.val j it p = true → s.eligible n.val j = true)) →
    ((j = ownQueue ∧ s.eligible n.val j = true) ∨
     (s.eligible n.val ownQueue = false ∧
      (List.range (min (s.fld (INJ_CTRL n.val) 2 0) 4)).find? (fun j => s.qValid n.val j && s.eligible n.val j) = some j) ∨
     (s.eligible n.val ownQueue = false ∧
      (List.range (min (s.fld (INJ_CTRL n.val) 2 0) 4)).find? (fun j => s.qValid n.val j && s.eligible n.val j) = none ∧
      (s.weighted n.val (min (s.fld (INJ_CTRL n.val) 2 0) 4)).2 = some j)) →
    s.headOf n.val j = some (i, it, p) → s.attVc n.val p.hdr (sOpc (p.body.headD (0, 0)).1) = some vc →
    isResvOp it.cls (sOpc (p.body.headD (0, 0)).1) = false →
    (s.niOf n.val).tagUsed p = false →
    ((s.niOf n.val).led (tagKey it.tag)).st = .notStarted → ((s.niOf n.val).led (tagKey it.tag)).injected = false →
    ({ p with hdr := setSeq (setTag p.hdr it.tag) ((s.niOf n.val).nextSeq p.hdr) } : Pkt).flits = f :: rest →
    ∃ t, exec (.injectPacket n) s = .next t ∧ s.Left t n.val vc f ∧
      (t.niOf n.val).queue j = ((s.niOf n.val).queue j).take i ++ ((s.niOf n.val).queue j).drop (i + 1) ∧
      ((t.niOf n.val).led (tagKey it.tag)).st = .issued ∧
      ((t.niOf n.val).led (tagKey it.tag)).timer = some (s.fc + 2 ^ min (max (s.fld (TXN_TMO n.val) 4 0) 10) 24) ∧
      (∃ q, ((t.niOf n.val).led (tagKey it.tag)).parts = ((s.niOf n.val).led (tagKey it.tag)).parts ++ [q] ∧ q.dst = hDst p.hdr) ∧
      (∀ k, k ≠ tagKey it.tag → (t.niOf n.val).led k = (s.niOf n.val).led k)) ∧
  (∀ (s : State) (n : Fin 87) j it q p vc f rest, 81 ≤ n.val → s.MaySend n.val →
    (s.niOf n.val).cur.find? (fun c => 0 < (s.niOf n.val).attCredits c.vc) = none → s.nextAnswer n.val = none →
    (s.niOf n.val).queues = [(j, it :: q)] → j < 8 → it.pkt = some p → s.attVc n.val p.hdr (sOpc (p.body.headD (0, 0)).1) = some vc →
    s.fits n.val p.body.length = true → (s.ring = false ∨ isResponse (hCls p.hdr) (sOpc (p.body.headD (0, 0)).1) = true) →
    p.flits = f :: rest →
    ∃ t, exec (.injectPacket n) s = .next t ∧ s.Left t n.val vc f ∧ (t.niOf n.val).queue j = q) ∧
  (∀ (s : State) (n : Fin 87), s.MaySend n.val → (s.niOf n.val).cur = [] → (s.niOf n.val).answers = [] → (s.niOf n.val).queues = [] →
    exec (.injectPacket n) s = .next s)

/-- In an fc in which NI n may still send: the next flit of a scheduled packet leaves on the bypass. Else, at a position that a flow holds, its
message in the one queue that has any leaves as a packet with SCH set, when the conditions of R160 hold, and its entry is ISSUED; with no message of the flow no
NI and no link changes. Without a bank nothing happens. At the first fc of a throttle frame every NI takes the rate of INJ_THR and forgets what it sent; in
another fc nothing happens. -/
def Obligations.ScheduledInjection : Prop :=
  (∀ (s : State) (n : Fin 81) f rest, s.runs (niTile n.val) = true → (s.niOf n.val).sentFc ≠ s.fc + 1 → (s.niOf n.val).schRest = f :: rest →
    ∃ t, exec (.schedInject n) s = .next t ∧ s.Left t n.val bypVc f ∧ (t.niOf n.val).schRest = rest ∧
      (t.niOf n.val).ledger = (s.niOf n.val).ledger ∧ (t.niOf n.val).queues = (s.niOf n.val).queues) ∧
  (∀ (s : State) (n : Fin 81) b fl j q i it p f rest, s.runs (niTile n.val) = true → (s.niOf n.val).sentFc ≠ s.fc + 1 →
    (s.niOf n.val).schRest = [] → s.niBank n.val = some b → s.injFlow n.val b s.rotPos = some fl → (s.niOf n.val).queues = [(j, q)] →
    q.findIdx? (fun it => it.flow = some (BitVec.ofNat 12 fl)) = some i → q[i]? = some it → it.pkt = some p →
    s.schedWaits n.val it = true → it.taken + 4 ≤ s.fc → s.canReserve n.val (answerSpace p 0).1 (answerSpace p 0).2 = true →
    (s.niOf n.val).unansTo (hDst p.hdr) < 128 → (s.niOf n.val).flowBusy (BitVec.ofNat 12 fl) false = false →
    (s.niOf n.val).barred j it.ord = false → (s.niOf n.val).hazardHeld it p = false → (∀ h ∈ it.hazard, ∀ l ∈ (s.niOf n.val).wcb, l.ord ≠ h) →
    ((s.niOf n.val).led (tagKey (hTag p.hdr))).st = .notStarted →
    ({ p with hdr := setSeq (setSch p.hdr true) ((s.niOf n.val).nextSeq p.hdr) } : Pkt).flits = f :: rest →
    ∃ t, exec (.schedInject n) s = .next t ∧ s.Left t n.val bypVc f ∧ (t.niOf n.val).schRest = rest ∧
      (t.niOf n.val).queue j = q.take i ++ q.drop (i + 1) ∧ ((t.niOf n.val).led (tagKey (hTag p.hdr))).st = .issued ∧
      ((t.niOf n.val).led (tagKey (hTag p.hdr))).injSch = true) ∧
  (∀ (s : State) (n : Fin 81) b fl, (s.niOf n.val).schRest = [] → s.niBank n.val = some b → s.injFlow n.val b s.rotPos = some fl →
    (∀ e ∈ (s.niOf n.val).queues, ∀ it ∈ e.2, it.flow ≠ some (BitVec.ofNat 12 fl)) →
    ∃ t, exec (.schedInject n) s = .next t ∧ t.ni = s.ni ∧ t.links = s.links) ∧
  (∀ (s : State) (n : Fin 81), (s.niOf n.val).schRest = [] → s.niBank n.val = none → exec (.schedInject n) s = .next s) ∧
  (∀ (s : State), s.fc % 256 = 0 → s.mode ≠ .frozen → s.fclkDead = false →
    ∃ t, exec .throttleFrame s = .next t ∧
      (∀ n, n < 87 → t.niOf n = { s.niOf n with thrRate := s.fld (INJ_THR n) 8 0, thrUsed := 0, shUsed := [] }) ∧
      (∀ p, p < 512 → Tbl.get (fun _ => 256) t.shRate p = s.fld (PART_SHARE p) 24 16) ∧
      { t with ni := s.ni, shRate := s.shRate } = s) ∧
  (∀ (s : State), (s.fc % 256 ≠ 0 ∨ s.mode = .frozen) → exec .throttleFrame s = .next s)

/-- The oldest flit of a link, once due while the router runs, and not a Sheaf head, leaves the link and is kept, its header groups corrected: a dynamic
one at the end of its VC, with the look-ahead it came with, or one computed from its header when that fails its parity; a scheduled one in the
bypass register when that holds fewer than two, else it is discarded and SCHED_ERR is set. The first head flit in a VC that has waited another 64 fc
ages by one. A credit that has come back is counted up to four; one more is a fault of the tile. With nothing due nothing happens. In a router cycle outside the ring
personality, with no slot table, relay or bypass flit and no output towards a cut-off domain, a flit alone in the router, the packet of one flit whose
output gives it a downstream VC, leaves its VC empty and goes onto the link of its output with its hop counted, for one credit of that VC; an empty
router only notes that it has had its cycle; one that does not run, or has had its cycle in this fc, does nothing. -/
def Obligations.Routers : Prop :=
  (∀ (s : State) (k : Fin 56) (i : Fin 8) err laErr (y : Fly) rest (g f : Flit) c1 u1 c2 u2, s.linkOf (linkIn k.val i.val) = y :: rest → y.due ≤ s.fc → s.runs k.val = true →
    s.ring = false → fixGroup (strike y.flit err) 0 = (g, c1, u1) → fixGroup g 1 = (f, c2, u2) →
    ∃ t, exec (.routerFlitArrive k i err laErr) s = .next t ∧ t.linkOf (linkIn k.val i.val) = rest ∧ (t.rtrOf k.val).lastFc = s.fc ∧
      (y.vc ≠ bypVc → ¬ (isSheaf s.die f.hdr = true ∧ sFidx f.sc = 0) →
        ∃ z, (t.rtrOf k.val).vc i.val y.vc = { (s.rtrOf k.val).vc i.val y.vc with flits := ((s.rtrOf k.val).vc i.val y.vc).flits ++ [z] } ∧
          z.flit = f ∧ z.la = (if laErr then hSel f.hdr (hHop f.hdr) else y.la) ∧ z.sheaf = none) ∧
      (y.vc = bypVc → ((s.rtrOf k.val).bypass i.val).length < 2 →
        ∃ z, (t.rtrOf k.val).bypass i.val = (s.rtrOf k.val).bypass i.val ++ [z] ∧ z.flit = f) ∧
      (y.vc = bypVc → 2 ≤ ((s.rtrOf k.val).bypass i.val).length →
        (t.rtrOf k.val).bypass i.val = (s.rtrOf k.val).bypass i.val ∧ t.rbit (SCHED_ERR k.val) 31 = true) ∧
      (u1 = true ∨ u2 = true → t.rbit (HDR_ERR k.val) 31 = true) ∧
      (y.vc = bypVc ∨ ¬ (isSheaf s.die f.hdr = true ∧ sFidx f.sc = 0) → ∀ j, j ≠ k.val → t.rtrOf j = s.rtrOf j)) ∧
  (∀ (s : State) (k : Fin 56) (i : Fin 8) err laErr, (∀ y, (s.linkOf (linkIn k.val i.val)).head? = some y → s.fc < y.due) →
    exec (.routerFlitArrive k i err laErr) s = .next s) ∧
  (∀ (s : State) (k : Fin 56) (i : Fin 8) (vc : Fin 16) pre (y : VFlit) rest, ((s.rtrOf k.val).vc i.val vc.val).flits = pre ++ y :: rest →
    (∀ z ∈ pre, z.aged s.fc = false) → sFidx y.flit.sc = 0 → y.fc + 64 * (y.add + 1) ≤ s.fc → s.runs k.val = true →
    exec (.ageIncrement k i vc) s = .next (s.setRtr k.val ((s.rtrOf k.val).setVc i.val vc.val
      { (s.rtrOf k.val).vc i.val vc.val with flits := pre ++ { y with add := y.add + 1 } :: rest }))) ∧
  (∀ (s : State) (k : Fin 56) (i : Fin 8) (vc : Fin 16), (∀ y ∈ ((s.rtrOf k.val).vc i.val vc.val).flits,
    sFidx y.flit.sc = 0 → s.fc < y.fc + 64 * (y.add + 1)) → exec (.ageIncrement k i vc) s = .next s) ∧
  (∀ (s : State) (k : Fin 56) (o : Fin 8) c, (s.credOf (8 * k.val + o.val)).find? (fun c => c.2 ≤ s.fc) = some c →
    ∃ t, exec (.creditArrive k o) s = .next t ∧ t.credOf (8 * k.val + o.val) = eraseFirst (· = c) (s.credOf (8 * k.val + o.val)) ∧
      ((s.rtrOf k.val).credits o.val c.1 < 4 → (t.rtrOf k.val).credits o.val c.1 = (s.rtrOf k.val).credits o.val c.1 + 1 ∧ t.due = s.due) ∧
      (4 ≤ (s.rtrOf k.val).credits o.val c.1 → t.rtr = s.rtr ∧ ∃ l, ∃ d : DueFault, t.due = s.due ++ l ++ [d] ∧ d.item = .tile k)) ∧
  (∀ (s : State) (k : Fin 56) (o : Fin 8), (∀ c ∈ s.credOf (8 * k.val + o.val), s.fc < c.2) → exec (.creditArrive k o) s = .next s) ∧
  (∀ (s : State) (k : Fin 56) (i : Fin 8) (vc : Fin 16) (v : Vc) (y : VFlit) d h la, s.runs k.val = true → (s.rtrOf k.val).ranFc ≠ s.fc + 1 → s.ring = false → s.rtrBank k.val = none →
    (s.rtrOf k.val).relay = [] → (s.rtrOf k.val).byp = [] → (s.rtrOf k.val).vcs = [(16 * i.val + vc.val, v)] → v.flits = [y] → v.out = none →
    y.fc ≤ s.fc → y.sheaf = none → sFidx y.flit.sc = 0 → hLen y.flit.hdr = 0 → hSch y.flit.hdr = false → isSheaf s.die y.flit.hdr = false → y.ue = false →
    y.la < 8 → (∀ o, o < 8 → Config.port k.val o ≠ .none → s.cutOff k.val o = false) → Config.port k.val y.la ≠ .none →
    s.pickVc k.val y.la vc.val y.flit.hdr (sOpc y.flit.sc) = some d → s.depth k.val y.la ≠ 2 →
    s.leave y.flit.hdr (v.ageNow y) = (h, la) →
    ∃ t, exec (.routerTraverse k) s = .next t ∧ ((t.rtrOf k.val).vc i.val vc.val).flits = [] ∧
      (t.rtrOf k.val).credits y.la d + 1 = (s.rtrOf k.val).credits y.la d ∧
      (∀ n, Config.port k.val y.la = .ni n → ∃ z, t.linkOf (linkNi n) = s.linkOf (linkNi n) ++ [z] ∧
        z.flit = rewriteHdr y.flit h ∧ z.vc = d ∧ z.due = s.fc + 1 + s.depth k.val y.la) ∧
      (∀ j, Config.port k.val y.la = .router j → ∃ z, t.linkOf (linkIn j (Config.inputFrom j k.val)) =
          s.linkOf (linkIn j (Config.inputFrom j k.val)) ++ [z] ∧
        z.flit = rewriteHdr y.flit h ∧ z.vc = d ∧ z.due = s.fc + 1 + s.depth k.val y.la ∧ z.la = hSel h (hHop h)) ∧
      hHop h = (hHop y.flit.hdr + 1) % 16) ∧
  (∀ (s : State) (k : Fin 56), s.runs k.val = true → (s.rtrOf k.val).ranFc ≠ s.fc + 1 → s.rtrBank k.val = none → (s.rtrOf k.val).relay = [] →
    (s.rtrOf k.val).byp = [] → (s.rtrOf k.val).vcs = [] →
    exec (.routerTraverse k) s = .next (s.setRtr k.val { s.rtrOf k.val with ranFc := s.fc + 1 })) ∧
  (∀ (s : State) (k : Fin 56), (s.runs k.val = false ∨ (s.rtrOf k.val).ranFc = s.fc + 1) → exec (.routerTraverse k) s = .next s)

/-- A flit at the end of the link into NI n, once due while the tile runs, that no check finds wrong and that begins and ends a packet on a dynamic VC
with none open, waits on its VC: an answer to a request of the NI as it came, a request whose partition is open and whose target check, where it has one,
permits it as a packet to hold, one whose partition is closed as one that has ended (at the LNI one that takes an answer keeps its place, with
the code it is to be answered with), and a packet for the peer whole. The first packet on a VC that
passes none of its stream gives up one flit in an fc, a request only once there is room for all of it in the Granary; with its last flit it
is held for its unit, joins the answers that have arrived, or is gone. Without room it stays. With nothing due, or no packet on the VC, nothing
happens. -/
def Obligations.FlitsReachTheirNi : Prop :=
  (∀ (s : State) (n : Fin 87) err y rest f, s.linkOf (linkNi n.val) = y :: rest → y.due ≤ s.fc → s.runs (niTile n.val) = true → y.vc < 16 →
    fixFlit (strike y.flit err) = (f, [], []) → (s.niOf n.val).vcAsm y.vc = [] → sFidx f.sc = 0 → hLen f.hdr = 0 → s.badArrival n.val f.hdr f.sc = false →
    s.ring = false →
    ∃ t, exec (.destFlitArrive n err) s = .next t ∧ t.linkOf (linkNi n.val) = rest ∧
      (∃ a, (t.niOf n.val).vcAsm y.vc = [a] ∧ a.hdr = f.hdr ∧ a.body = [(f.sc, f.data)] ∧ a.moved = 0 ∧
        (roomless n.val f.hdr f.sc = true → a.pkt = none ∧ a.discard = false) ∧
        (roomless n.val f.hdr f.sc = false → n.val < 81 → s.partCode f.hdr = OK →
          (∀ acc, accessOf (hCls f.hdr) [(f.sc, f.data)] (if (hCls f.hdr = cIOP || hCls f.hdr = cION) && !tlpAddrRouted (sOpc f.sc)
              then (s.pbrOf f.hdr).getD (s.freeNow.toNat % 4096) else 0) = some acc →
            (verdictOf (decideByte (s.shadowRules n.val true)
              (privileged (hSrc f.hdr) && ((accessOf (hCls f.hdr) [(f.sc, 0)] 0).map s.ruleDflt).getD false) acc false
              (hPart f.hdr) (hSrc f.hdr)) acc).code = OK) →
          ∃ p, a.pkt = some p ∧ p.hdr = f.hdr ∧ p.body = [(f.sc, f.data)] ∧ p.verdict = OK) ∧
        (roomless n.val f.hdr f.sc = false → n.val < 80 → s.partCode f.hdr ≠ OK → a.pkt = none ∧ a.discard = true) ∧
        (roomless n.val f.hdr f.sc = false → n.val = 80 → s.partCode f.hdr ≠ OK →
          if s.partCode f.hdr = FENCED ∧ postedPkt f.hdr f.sc = true then a.pkt = none ∧ a.discard = true
          else ∃ p, a.pkt = some p ∧ p.hdr = f.hdr ∧ p.body = [(f.sc, f.data)] ∧ p.verdict = s.partCode f.hdr) ∧
        (81 ≤ n.val → s.skwOpen (n.val - 81) = true → ∃ p, a.pkt = some p ∧ p.hdr = f.hdr ∧ p.body = [(f.sc, f.data)])) ∧
      (∀ k, k ≠ n.val → t.niOf k = s.niOf k)) ∧
  (∀ (s : State) (n : Fin 87) err, (∀ y, (s.linkOf (linkNi n.val)).head? = some y → s.fc < y.due) → exec (.destFlitArrive n err) s = .next s) ∧
  (∀ (s : State) (n : Fin 87) (vc : Fin 16) a rest room, s.runs (niTile n.val) = true → (s.niOf n.val).admFc ≠ s.fc + 1 →
    (s.niOf n.val).vcAsm vc.val = a :: rest →
    room = (!roomless n.val a.hdr (a.body.headD (0, 0)).1 && (decide (a.code = OK) || decide (n.val = 80)) && !a.discard) →
    (room = false ∨ a.admitted = true ∨ (s.niOf n.val).granUsed (granKey a.hdr (sOpc (a.body.headD (0, 0)).1)) +
      (s.niOf n.val).reserved (granKey a.hdr (sOpc (a.body.headD (0, 0)).1)) + hLen a.hdr + 1 ≤
      s.granLimit n.val (granKey a.hdr (sOpc (a.body.headD (0, 0)).1))) → a.moved < a.body.length →
    (0 < a.moved ∨ passes a.hdr
      (((s.niOf n.val).asm.flatMap fun l => l.2.filter fun b => b.vc ≠ vc.val && b.ord < a.ord).map (·.hdr)) = false) →
    ∃ t, exec (.granaryAdmit n vc) s = .next t ∧ (t.niOf n.val).admFc = s.fc + 1 ∧
      (a.full = true → a.moved + 1 = a.body.length → (t.niOf n.val).vcAsm vc.val = rest ∧
        (a.discard = true → (t.niOf n.val).gran = (s.niOf n.val).gran ∧ (t.niOf n.val).answersIn = (s.niOf n.val).answersIn) ∧
        (∀ p, a.discard = false → a.pkt = some p →
          (t.niOf n.val).gran = (s.niOf n.val).gran ++ [{ p with pid := (s.niOf n.val).pidN + 1 }]) ∧
        (a.discard = false → a.pkt = none → (t.niOf n.val).answersIn = (s.niOf n.val).answersIn ++
          [{ hdr := a.hdr, body := a.body, total := a.body.length }])) ∧
      (a.full = false ∨ a.moved + 1 < a.body.length →
        (t.niOf n.val).vcAsm vc.val = { a with admitted := room || a.admitted, moved := a.moved + 1 } :: rest ∧
        (t.niOf n.val).gran = (s.niOf n.val).gran) ∧
      (∀ k, k ≠ n.val → t.niOf k = s.niOf k)) ∧
  (∀ (s : State) (n : Fin 87) (vc : Fin 16) a rest, (s.niOf n.val).vcAsm vc.val = a :: rest → a.admitted = false →
    roomless n.val a.hdr (a.body.headD (0, 0)).1 = false → a.code = OK → a.discard = false →
    s.granLimit n.val (granKey a.hdr (sOpc (a.body.headD (0, 0)).1)) < (s.niOf n.val).granUsed (granKey a.hdr (sOpc (a.body.headD (0, 0)).1)) +
      (s.niOf n.val).reserved (granKey a.hdr (sOpc (a.body.headD (0, 0)).1)) + hLen a.hdr + 1 →
    ∃ t, exec (.granaryAdmit n vc) s = .next t ∧ t.ni = s.ni ∧ t.creds = s.creds) ∧
  (∀ (s : State) (n : Fin 87) (vc : Fin 16), (s.niOf n.val).vcAsm vc.val = [] → exec (.granaryAdmit n vc) s = .next s)

/-- NI_ALIVE that rises at a low pin, out of reset with the tile powered, starts the channel with no outbound credit and no waiting message; the NI owes its unit the inbound credits of PMC_CRED, at another NI eight
of each class, in ascending order of class, and the unit holds none yet. Of a quiesced tile, the unit is asked to quiesce. In its
falling the channel is ended: the NI holds no barrier, no reservation, no backoff and no message of the unit. A pin already there changes
nothing. QUIESCE_ACK is taken only while its request is high. A monitored clock seen stopped sets its sticky bit and PAGE_ERR.clk_stop, a second time too; a stop of MCLK stops the MCLK domain, one of TCLK
puts fabric time in HOLDOVER, at the rate of FREQ alone. -/
def Obligations.AlivePinsAndClocks : Prop :=
  (∀ (s : State) (n : Fin 80), bit s.niAlive n.val = false → s.held = none → s.tileOn (niTile n.val) = true → s.mode ≠ .off → s.mode ≠ .fuse →
    ∃ t, exec (.niAliveRise n) s = .next t ∧ bit t.niAlive n.val = true ∧ t.unitUp n.val = true ∧ (t.niOf n.val).outCred = [] ∧
      (∀ c : BitVec 4, (t.niOf n.val).inCredit c = 0 ∧ (t.niOf n.val).inRet.count c.toNat = if Config.niKind n.val = .pni
        then s.fld (PMC_CRED n.val (c.toNat / 4)) (c.toNat % 4 * 8 + 7) (c.toNat % 4 * 8) else 8) ∧
      (t.niOf n.val).inRet.Pairwise (· ≤ ·) ∧
      t.quiesceReq = (if s.dom (niTile n.val) = .quiesced then putBit s.quiesceReq n.val true else s.quiesceReq) ∧
      (t.niOf n.val).outq = [] ∧ (t.niOf n.val).ledger = (s.niOf n.val).ledger ∧ (t.niOf n.val).queues = (s.niOf n.val).queues ∧
      (∀ k, k ≠ n.val → t.niOf k = s.niOf k) ∧ { t with ni := s.ni, niAlive := s.niAlive, quiesceReq := s.quiesceReq } = s) ∧
  (∀ (s : State) (n : Fin 80), bit s.niAlive n.val = true → exec (.niAliveRise n) s = .next s) ∧
  (∀ (s : State) (n : Fin 80), bit s.niAlive n.val = true → (s.niOf n.val).started = true → s.held = none → s.tileOn (niTile n.val) = true →
    ∃ t, exec (.niAliveFall n) s = .next t ∧ bit t.niAlive n.val = false ∧ t.unitUp n.val = false ∧ (t.niOf n.val).bars = [] ∧
      (t.niOf n.val).own = [] ∧ (t.niOf n.val).backoff = [] ∧ (t.niOf n.val).outq = [] ∧ (t.niOf n.val).burst = [] ∧
      (∀ m, m < 87 → ∀ o ∈ (t.niOf m).mons, o.src ≠ s.node n.val) ∧ t.mode = s.mode ∧ t.time = s.time) ∧
  (∀ (s : State) (n : Fin 80), bit s.niAlive n.val = false → exec (.niAliveFall n) s = .next s) ∧
  (∀ (s : State) (n : Fin 80), exec (.quiesceAckRise n) s =
    .next (if bit s.quiesceReq n.val = true then { s with quiesceAck := putBit s.quiesceAck n.val true } else s)) ∧
  (∀ (s : State), s.pwrOk = true → s.held ≠ some .cold →
    (∀ c i, (c, i) ∈ [(ClockId.fclk, 0), (.mclk, 1), (.eclk, 3)] →
      ∃ t, exec (.clockStopDetect c) s = .next t ∧ t.rbit CLK_STAT i = true ∧ t.rbit 0x6018 2 = true ∧
        t.mclkOff = (s.mclkOff || decide (c = .mclk)) ∧ t.ni = s.ni ∧ t.due = s.due) ∧
    (∃ t, exec (.clockStopDetect .tclk) s = .next t ∧ t.rbit CLK_STAT 2 = true ∧ t.fld TIME_STAT 1 0 = 3 ∧
      t.rbit 0x6018 2 = true ∧ t.sfld RATE 18 0 = clampI (s.sfld FREQ 18 0) (-200000) 200000 ∧ t.time.now = s.time.now ∧ (s.rbit CLK_STAT 2 = true → t.due = s.due)) ∧
    (∀ n : Fin 80, ∃ t, exec (.clockStopDetect (.unit n)) s = .next t ∧ t.rbit (UCLK_STOP0 + 4 * (n.val / 32)) (n.val % 32) = true ∧
      t.rbit 0x6018 2 = true ∧ (s.rbit (UCLK_STOP0 + 4 * (n.val / 32)) (n.val % 32) = true → t.due = s.due) ∧
      (s.rbit (UCLK_STOP0 + 4 * (n.val / 32)) (n.val % 32) = false → ∃ d, t.due = s.due ++ [d] ∧ d.item = .tile (Fin.ofNat 56 (niTile n.val)))) ∧
    (∀ p : Fin 6, ∃ t, exec (.clockStopDetect (.phy p)) s = .next t ∧ t.rbit CLK_STAT (4 + p.val) = true))

/-! The Ehrup bridge -/

/-- While traffic of tile 55 runs and the answer buffer has room: a register write that passes the checks takes a posted-write entry, with the lowest free slot if one is free, and is answered PACK, and
waits while all 32 are taken; a read of a new TAG with MID 0 takes the lowest free entry and is answered RETRY; a read whose result is held is answered with it, and
its entry is freed, one with data once the answer is injected. A request that fails a check leaves the Granary with no entry. The oldest command transfers. A return completes its entry: a read keeps
the word, a write is freed and its slot given to the oldest entry without one, a faulted one sets EH_ERR, or, in an fc in which the
timeout is due, finds HANG_ABORT and is late; one of type 3 is late. A result unread for 4,096 fc is freed and counted. A request unanswered for the timeout ends with
HANG_ABORT and is a fault of its partition. With nothing to do nothing happens. -/
def Obligations.EhrupBridge : Prop :=
  (∀ (s : State) (h : HPkt), s.runs 55 = true → s.ehHead = some h → s.ehRoom = true → isEh h = true → sOpc h.sc = 0x00 → s.ehCode h = OK → s.lni.writes.length < 32 →
    ∃ t, ∃ w : EhWrite, ∃ a : AItem, exec .lniTakeEhWr s = .next t ∧
      t.lni = { s.lni with
        writes := s.lni.writes ++ [w], order := s.lni.order ++ [(true, s.lni.wn)], wn := s.lni.wn + 1, took := s.fc + 1 } ∧
      w.id = s.lni.wn ∧ w.addr = mAddr h.sc ∧ w.two = decide (ehSize h.sc = 8) ∧ w.hdr = h.hdr ∧ w.slot = s.lni.wrSlot ∧ w.sent = 0 ∧
      w.data = ((h.body.headD (0, 0)).2).extractLsb' 0 64 ∧ (t.niOf 80).answers = (s.niOf 80).answers ++ [a] ∧ hTag a.pkt.hdr = hTag h.hdr ∧
      hDst a.pkt.hdr = hSrc h.hdr ∧ sOpc (a.pkt.body.headD (0, 0)).1 = opPACK ∧
      (t.niOf 80).gran = (s.niOf 80).gran.filter (fun g => g.pid ≠ h.pid) ∧ (∀ n, n ≠ 80 → t.niOf n = s.niOf n)) ∧
  (∀ (s : State) (h : HPkt), s.ehHead = some h → isEh h = true → s.ehCode h = OK → sOpc h.sc = 0x00 → 32 ≤ s.lni.writes.length → exec .lniTakeEhWr s = .next s) ∧
  (∀ (s : State) (h : HPkt), s.runs 55 = true → s.ehHead = some h → s.ehRoom = true → isEh h = true → s.ehCode h ≠ OK →
    (sOpc h.sc = 0x00 → ∃ t, exec .lniTakeEhWr s = .next t ∧ t.lni = { s.lni with took := s.fc + 1 } ∧ (t.niOf 80).gran = (s.niOf 80).gran.filter (fun g => g.pid ≠ h.pid)) ∧
    (sOpc h.sc = 0x01 → ∃ t, exec .lniTakeEhRd s = .next t ∧ t.lni = { s.lni with took := s.fc + 1 } ∧ (t.niOf 80).gran = (s.niOf 80).gran.filter (fun g => g.pid ≠ h.pid))) ∧
  (∀ (s : State) (h : HPkt) i, s.runs 55 = true → s.ehHead = some h → s.ehRoom = true → isEh h = true → sOpc h.sc = 0x01 → s.ehCode h = OK → mMid h.sc = 0 →
    (∀ j e, j < 16 → s.lni.read j = some e → e.matches_ h = false) → (List.range 16).find? s.lni.readFree = some i →
    ∃ t, ∃ a : AItem, exec .lniTakeEhRd s = .next t ∧
      t.lni = { s.lni.setRead i (some { hdr := h.hdr, addr := mAddr h.sc, two := decide (ehSize h.sc = 8) }) with
        order := s.lni.order ++ [(false, i)], took := s.fc + 1 } ∧
      (t.niOf 80).answers = (s.niOf 80).answers ++ [a] ∧ hTag a.pkt.hdr = hTag h.hdr ∧ mStatus (a.pkt.body.headD (0, 0)).1 = RETRY) ∧
  (∀ (s : State) (h : HPkt) i (e : EhRead) d, s.runs 55 = true → s.ehHead = some h → s.ehRoom = true → isEh h = true → sOpc h.sc = 0x01 → s.ehCode h = OK → i < 16 →
    s.lni.read i = some e → e.matches_ h = true → (∀ j e, j < 16 → j ≠ i → s.lni.read j = some e → e.matches_ h = false) →
    e.done = some d → d < s.fc → s.fc < d + 4096 →
    ∃ t, ∃ a : AItem, exec .lniTakeEhRd s = .next t ∧
      t.lni = { s.lni.setRead i (if e.code = OK then some { e with answered := true } else e.freed) with took := s.fc + 1 } ∧
      (t.niOf 80).answers = (s.niOf 80).answers ++ [a] ∧ a.eh = (if e.code = OK then some i else none) ∧
      hTag a.pkt.hdr = hTag h.hdr ∧ hDst a.pkt.hdr = hSrc h.hdr ∧ mStatus (a.pkt.body.headD (0, 0)).1 = e.code ∧
      (((t.ehFill a).2).body.headD (0, 0)).2 = if e.code = OK then ehData e.words else 0) ∧
  (∀ (s : State), s.ehHead = none → exec .lniTakeEhWr s = .next s ∧ exec .lniTakeEhRd s = .next s) ∧
  (∀ (s : State) i rest (e : EhRead), s.held = none → s.tileOn 55 = true → s.lni.order = (false, i) :: rest → s.lni.read i = some e →
    exec .ehrupCommandTransfer s = .next (s.setLni (({ s.lni with order := rest } : Lni).setRead i (some { e with sent := true, sentFc := s.fc })))) ∧
  (∀ (s : State) id rest (w : EhWrite) p, s.held = none → s.tileOn 55 = true → s.lni.order = (true, id) :: rest → s.lni.writes.find? (fun w => w.id = id) = some w →
    w.slot = some p → p < 32 →
    ∃ t, exec .ehrupCommandTransfer s = .next t ∧ s.ehCmd.wdat = w.data.extractLsb' (32 * w.sent) 32 ∧
      t.lni.writes.find? (fun w => w.id = id) = some { w with sent := w.sent + 1, sentFc := s.fc } ∧
      t.lni.order = (if w.two = true ∧ w.sent ≠ 1 then s.lni.order else rest) ∧ { t with lni := s.lni } = s) ∧
  (∀ (s : State), s.lni.order = [] → exec .ehrupCommandTransfer s = .next s) ∧
  (∀ (s : State) slot word fin flt, exec (.ehrupReturn 0 slot word fin flt) s = .next s) ∧
  (∀ (s : State) (slot : BitVec 5) word fin (flt : BitVec 2), s.ehTimeout slot.toNat = s → ∃ t, exec (.ehrupReturn 3 slot word fin flt) s = .next t ∧ t.lni = s.lni ∧ t.ni = s.ni ∧
    t.fld (EH_CNT 80) 23 16 = min (s.fld (EH_CNT 80) 23 16 + 1) 255) ∧
  (∀ (s : State) (slot : BitVec 5) word fin (flt : BitVec 2) (e : EhRead), slot.toNat < 16 → s.lni.zombie.any (fun z => z.1 = slot.toNat) = false → s.lni.read slot.toNat = some e → e.sent = true →
    e.done = none → e.hang = false → e.gone = false →
    (flt = 0 → (e.flt = 0 ∨ s.fc < e.sentFc + s.ehTmo) → exec (.ehrupReturn 1 slot word fin flt) s = .next (s.setLni (s.lni.setRead slot.toNat (some { e with
      words := e.words ++ [word],
      done := if fin || decide (ehWords e.two ≤ e.words.length + 1) then some s.fc else none,
      code := if e.flt = 0 then OK else FAR })))) ∧
    (flt ≠ 0 → s.fc < e.sentFc + s.ehTmo → ∃ t, exec (.ehrupReturn 1 slot word fin flt) s = .next t ∧ t.rbit (EH_ERR 80) 31 = true ∧
      ∃ r : EhRead, t.lni.read slot.toNat = some r ∧ r.words = e.words ++ [word] ∧ r.code = FAR) ∧
    (flt ≠ 0 → s.mode ≠ .frozen → e.sentFc + s.ehTmo ≤ s.fc → ∃ t, exec (.ehrupReturn 1 slot word fin flt) s = .next t ∧
      t.fld (EH_CNT 80) 23 16 = min (s.fld (EH_CNT 80) 23 16 + 1) 255 ∧
      ∃ r : EhRead, t.lni.read slot.toNat = some r ∧ r.done = some s.fc ∧ r.code = HANG_ABORT)) ∧
  (∀ (s : State) (slot : BitVec 5) word fin (w : EhWrite), s.lni.zombie.any (fun z => z.1 = slot.toNat) = false →
    s.lni.writes.find? (fun w => w.slot = some slot.toNat && w.sent = ehWords w.two) = some w → w.hang = false →
    s.lni.faulted slot.toNat 0 = false →
    exec (.ehrupReturn 2 slot word fin 0) s = .next (s.setLni ({ s.lni with writes := s.lni.writes.filter fun v => v.id ≠ w.id } : Lni).giveSlot)) ∧
  (∀ (s : State) (i : Fin 16) (e : EhRead) d, s.runs 55 = true → s.lni.read i.val = some e → e.done = some d → e.gone = false → e.answered = false → d + 4096 ≤ s.fc →
    ∃ t, exec (.ehResultExpire i) s = .next t ∧ t.lni = s.lni.setRead i.val e.freed ∧
      t.fld (EH_CNT 80) 15 8 = min (s.fld (EH_CNT 80) 15 8 + 1) 255 ∧ t.ni = s.ni) ∧
  (∀ (s : State) (i : Fin 16), (∀ e d, s.lni.read i.val = some e → e.done = some d → s.fc < d + 4096) → exec (.ehResultExpire i) s = .next s) ∧
  (∀ (s : State) (slot : Fin 32) (e : EhRead), s.mode ≠ .frozen → slot.val < 16 → s.lni.read slot.val = some e → e.sent = true → e.done = none → e.sentFc + s.ehTmo ≤ s.fc →
    ∃ t l, ∃ d : DueFault, exec (.ehrupTimeout slot) s = .next t ∧
      t.lni = s.lni.setRead slot.val (some { e with done := some s.fc, code := HANG_ABORT, hang := true, flt := 0 }) ∧
      t.due = s.due ++ l ++ [d] ∧ d.item = .partition (hPart e.hdr)) ∧
  (∀ (s : State) (slot : Fin 32) (w : EhWrite), s.mode ≠ .frozen → 16 ≤ slot.val →
    s.lni.writes.find? (fun w => w.slot = some slot.val && w.sent = ehWords w.two && !w.hang) = some w → w.sentFc + s.ehTmo ≤ s.fc →
    ∃ t l, ∃ d : DueFault, exec (.ehrupTimeout slot) s = .next t ∧ t.lni = s.lni.modWrite w.id (fun w => { w with hang := true }) ∧
      t.due = s.due ++ l ++ [d] ∧ d.item = .partition (hPart w.hdr)) ∧
  (∀ (s : State) (slot : Fin 32), slot.val < 16 → s.lni.read slot.val = none → exec (.ehrupTimeout slot) s = .next s)

/-! Skidway links -/

/-- Writes that reach a Skidway page with the feature. en written 1 in DISABLED with an OPEN domain puts the port in PHY_TRAIN on the base for training; en
written 0 disables it. retrain in ACTIVE goes to PHY_TRAIN while fewer than max_retrain came in succession, else to FAULT with code 6. close in ACTIVE
stops the taking of packets. SKW_TS_CLR resets the extremes. step asks the peer of an ACTIVE port for the next base in range. -/
def Obligations.SkidwayRegisters : Prop :=
  (∀ (s : State) m (p : Fin 6) v, s.Takes m (.skidway p) 0x100 → s.feat fSKIDWAY = true → s.mode ≠ .fuse → bit v 0 = true → s.skwState p.val = 0 →
    s.dom (56 + p.val) = .open_ →
    ∃ t, exec (.skwEnable m p v) s = .next t ∧ t.skwState p.val = 1 ∧ t.rbit (SKW_CTRL p.val) 0 = true ∧
      t.fld (SKW_LANE p.val) 6 0 = s.trainBase p.val % 128 ∧ t.fld (SKW_LANE p.val) 14 8 = s.trainBase p.val % 128 ∧
      t.fld (SKW_STAT p.val) 7 4 = 0 ∧ (t.skwOf p.val).held = [] ∧ (∀ q, q ≠ p.val → t.skwOf q = s.skwOf q)) ∧
  (∀ (s : State) m (p : Fin 6) v, s.Takes m (.skidway p) 0x100 → s.feat fSKIDWAY = true → bit v 0 = false →
    ∃ t, exec (.skwEnable m p v) s = .next t ∧ t.skwState p.val = 0 ∧ t.rbit (SKW_CTRL p.val) 0 = false ∧
      (s.skwState p.val ≠ 0 → (t.skwOf p.val).held = [] ∧ (t.skwOf p.val).ctl = [] ∧ (t.niOf (81 + p.val)).gran = [])) ∧
  (∀ (s : State) m (p : Fin 6) v, s.Takes m (.skidway p) 0x100 → s.feat fSKIDWAY = true → s.mode ≠ .fuse → bit v 0 = true → bit v 2 = false → s.skwState p.val = 5 →
    ∃ t, exec (.skwRetrain m p v) s = .next t ∧
      ((s.skwOf p.val).trains + 1 ≤ s.fld (SKW_CFG p.val) 19 16 → t.skwState p.val = 1 ∧ (t.skwOf p.val).retr = true ∧
        (t.skwOf p.val).held = (s.skwOf p.val).held ∧ t.fld (SKW_STAT p.val) 23 16 = min (s.fld (SKW_STAT p.val) 23 16 + 1) 255) ∧
      (s.fld (SKW_CFG p.val) 19 16 < (s.skwOf p.val).trains + 1 → t.skwState p.val = 7 ∧ t.fld (SKW_STAT p.val) 7 4 = 6)) ∧
  (∀ (s : State) m (p : Fin 6) v, s.Takes m (.skidway p) 0x100 → s.feat fSKIDWAY = true → s.mode ≠ .fuse → bit v 0 = true → bit v 1 = false → s.skwState p.val = 5 →
    (s.skwOf p.val).closing = false →
    ∃ t, exec (.skwClose m p v) s = .next t ∧ t.skwState p.val = 5 ∧ (t.skwOf p.val).closing = true ∧ (t.niOf (81 + p.val)).gran = []) ∧
  (∀ (s : State) m (p : Fin 6) v, s.Takes m (.skidway p) 0x114 → s.feat fSKIDWAY = true → exec (.skwTsClr m p v) s =
    .next (s.wrote m (.skidway p) 0x114 fun u => (u.setFld (SKW_TS p.val) 15 8 0xFF).setFld (SKW_TS p.val) 23 16 0)) ∧
  (∀ (s : State) m (p : Fin 6) v, s.Takes m (.skidway p) 0x11C → s.feat fSKIDWAY = true → s.feat fLANE = true → s.skwState p.val = 5 →
    (s.skwOf p.val).closing = false → s.rbit (SKW_STAT p.val) 15 = true → (s.skwOf p.val).step = none →
    (s.skwOf p.val).ctl.any (fun c => c.1 = 4) = false →
    ∃ t b, exec (.skwLaneStep m p v) s = .next t ∧ (t.skwOf p.val) = { s.skwOf p.val with ctl := (s.skwOf p.val).ctl ++ [(4, BitVec.ofNat 64 b)] } ∧
      b = (if s.fld (SKW_LANE p.val) 6 0 + 1 < (s.laneRange p.val).1 ∨ (s.laneRange p.val).2 < s.fld (SKW_LANE p.val) 6 0 + 1 then
        (s.laneRange p.val).1 else s.fld (SKW_LANE p.val) 6 0 + 1) ∧
      t.rd (SKW_LANE_SCH p.val) = (s.rd (SKW_LANE_SCH p.val) &&& ~~~ 0x1FFFFFF) ||| (v &&& 0x1FFFFFF))

/-- The PHY's link-up takes PHY_TRAIN to ALIGN with frame counts zero; a loss in ACTIVE retrains; a training state that has lasted its time ends in FAULT 1 or 2.
PARAM that agrees is taken, and with PARAM sent before takes the port from PARAM to CREDIT, owing the peer its pools; one that names this die, another version or
another frame length ends in FAULT 3, 4 or 5. READY with READY sent takes CREDIT to ACTIVE. TSYNC gives δ, half the difference of the two raw values truncated
toward zero. LANE_PROP is acknowledged, LANE_ACK for the step in time is followed by LANE_GO, LANE_GO in time sets the frame of the change, and a
step with no LANE_ACK by its deadline is abandoned, without touching the peer's own step. CLOSE after CLOSE sent disables the port. In a state that does not take them nothing happens. -/
def Obligations.SkidwayLinks : Prop :=
  (∀ (s : State) (p : Fin 6), s.skwRuns p.val = true → s.skwState p.val = 1 →
    ∃ t, exec (.skwLinkUp p) s = .next t ∧ t.skwState p.val = 2 ∧
      t.skwOf p.val = { s.skwOf p.val with since := s.fc, txN := 0, rxN := 0, good := 0, align := 0, alignN := 0, frameFc := s.fc } ∧ t.ni = s.ni) ∧
  (∀ (s : State) (p : Fin 6), s.skwState p.val ≠ 1 → exec (.skwLinkUp p) s = .next s) ∧
  (∀ (s : State) (p : Fin 6), s.skwRuns p.val = true → s.skwState p.val = 5 → (s.skwOf p.val).trains + 1 ≤ s.fld (SKW_CFG p.val) 19 16 →
    ∃ t, exec (.skwLinkLoss p) s = .next t ∧ t.skwState p.val = 1 ∧ (t.skwOf p.val).retr = true ∧ (t.skwOf p.val).held = (s.skwOf p.val).held ∧
      (t.skwOf p.val).trains = (s.skwOf p.val).trains + 1 ∧ t.ni = s.ni) ∧
  (∀ (s : State) (p : Fin 6), s.skwState p.val ≠ 5 → exec (.skwLinkLoss p) s = .next s) ∧
  (∀ (s : State) (p : Fin 6), s.skwRuns p.val = true → s.mode ≠ .frozen →
    (s.skwState p.val = 1 → (s.skwOf p.val).since + 10000 * s.fclkMHz ≤ s.fc → ∃ t, exec (.skwPhyTrainTimeout p) s = .next t ∧
      t.skwState p.val = 7 ∧ t.fld (SKW_STAT p.val) 7 4 = 1) ∧
    (s.skwState p.val = 2 → (s.skwOf p.val).since + 1000 * s.fclkMHz ≤ s.fc → ∃ t, exec (.skwAlignTimeout p) s = .next t ∧
      t.skwState p.val = 7 ∧ t.fld (SKW_STAT p.val) 7 4 = 2)) ∧
  (∀ (s : State) (p : Fin 6), (s.skwState p.val ≠ 1 → exec (.skwPhyTrainTimeout p) s = .next s) ∧
    (s.skwState p.val ≠ 2 → exec (.skwAlignTimeout p) s = .next s)) ∧
  (∀ (s : State) (p : Fin 6) d, s.skwState p.val = 3 → (s.skwOf p.val).retr = false → getBits d 2 0 ≠ s.die → getBits d 23 16 = 1 →
    getBits d 9 6 = s.fld (SKW_CFG p.val) 3 0 →
    ∃ t, exec (.param p d) s = .next t ∧ t.fld (SKW_STAT p.val) 10 8 = getBits d 2 0 ∧ t.fld (SKW_STAT p.val) 13 11 = getBits d 5 3 ∧
      t.rbit (SKW_STAT p.val) 14 = true ∧ t.rbit (SKW_STAT p.val) 15 = (bit d 10 && s.feat fLANE) ∧ (t.skwOf p.val).paramGot = true ∧
      t.skwState p.val = (if (s.skwOf p.val).paramSent then 4 else 3) ∧
      ((s.skwOf p.val).paramSent = true → ∀ i, i < 9 → Tbl.get (fun _ => 0) (t.skwOf p.val).owed i = s.fld (SKW_POOL p.val i) 8 0) ∧
      t.ni = s.ni) ∧
  (∀ (s : State) (p : Fin 6) d, s.skwState p.val = 3 ∨ s.skwState p.val = 2 →
    (getBits d 2 0 = s.die → ∃ t, exec (.param p d) s = .next t ∧ t.skwState p.val = 7 ∧ t.fld (SKW_STAT p.val) 7 4 = 3) ∧
    (getBits d 2 0 ≠ s.die → getBits d 23 16 ≠ 1 → ∃ t, exec (.param p d) s = .next t ∧ t.skwState p.val = 7 ∧ t.fld (SKW_STAT p.val) 7 4 = 4) ∧
    (getBits d 2 0 ≠ s.die → getBits d 23 16 = 1 → getBits d 9 6 ≠ s.fld (SKW_CFG p.val) 3 0 →
      ∃ t, exec (.param p d) s = .next t ∧ t.skwState p.val = 7 ∧ t.fld (SKW_STAT p.val) 7 4 = 5)) ∧
  (∀ (s : State) (p : Fin 6), s.skwState p.val = 4 → ∃ t, exec (.ready p) s = .next t ∧ (t.skwOf p.val).readyGot = true ∧ t.ni = s.ni ∧
    t.skwState p.val = (if (s.skwOf p.val).readySent then 5 else 4) ∧
    (t.skwOf p.val).ctl = (if (s.skwOf p.val).readySent then (3, 0) :: (s.skwOf p.val).ctl.filter (fun c => c.1 ≠ 3) else (s.skwOf p.val).ctl)) ∧
  (∀ (s : State) (p : Fin 6), s.skwState p.val ≠ 3 → s.skwState p.val ≠ 4 → exec (.ready p) s = .next s) ∧
  (∀ (s : State) (p : Fin 6) d, 2 ≤ s.skwState p.val → s.skwState p.val ≤ 5 →
    ∃ t, exec (.tsync p d) s = .next t ∧ (t.skwOf p.val).delta = Int.tdiv (((s.skwOf p.val).raw : Int) - (getBits d 9 0 : Int)) 2 ∧
      (-128 ≤ (t.skwOf p.val).delta → (t.skwOf p.val).delta ≤ 127 → t.sfld (SKW_TS p.val) 31 24 = (t.skwOf p.val).delta) ∧
      t.skwState p.val = s.skwState p.val ∧ t.ni = s.ni) ∧
  (∀ (s : State) (p : Fin 6) d, s.skwState p.val < 2 ∨ 5 < s.skwState p.val → exec (.tsync p d) s = .next s) ∧
  (∀ (s : State) (p : Fin 6) d, s.skwState p.val = 5 → (s.skwOf p.val).closing = false → exec (.laneProp p d) s =
    .next (s.setSkw p.val { s.skwOf p.val with ctl := (s.skwOf p.val).ctl ++ [(5, d)] })) ∧
  (∀ (s : State) (p : Fin 6) d, s.skwState p.val ≠ 5 ∨ (s.skwOf p.val).closing = true → exec (.laneProp p d) s = .next s) ∧
  (∀ (s : State) (p : Fin 6) d n b, s.skwState p.val = 5 → (s.skwOf p.val).step = some (n, b) → (s.skwOf p.val).stepGo = false → getBits d 6 0 = b →
    getBits d 31 16 = n % 65536 → ∃ t, exec (.laneAck p d) s = .next t ∧
      ((s.skwOf p.val).txN + 32 ≤ n → (t.skwOf p.val).stepGo = true ∧ (t.skwOf p.val).ctl = (s.skwOf p.val).ctl ++ [(6, d)] ∧
        (t.skwOf p.val).step = some (n, b)) ∧
      (n < (s.skwOf p.val).txN + 32 → (t.skwOf p.val).step = none)) ∧
  (∀ (s : State) (p : Fin 6) d, (s.skwOf p.val).step = none → exec (.laneAck p d) s = .next s) ∧
  (∀ (s : State) (p : Fin 6) d k, k = (getBits d 31 16 + 65536 - (s.skwOf p.val).rxN % 65536) % 65536 →
    (s.skwState p.val = 5 → 3 ≤ k → k < 32768 → exec (.laneGo p d) s =
      .next (s.setSkw p.val { s.skwOf p.val with stepRx := some ((s.skwOf p.val).rxN + k, getBits d 6 0) })) ∧
    (s.skwState p.val ≠ 5 ∨ k < 3 ∨ 32768 ≤ k → exec (.laneGo p d) s = .next s)) ∧
  (∀ (s : State) (p : Fin 6) n b, (s.skwOf p.val).step = some (n, b) → (s.skwOf p.val).stepGo = false → n < (s.skwOf p.val).txN + 32 →
    ∃ t, exec (.laneAckDeadline p) s = .next t ∧ (t.skwOf p.val).step = none ∧ (t.skwOf p.val).stepRx = (s.skwOf p.val).stepRx ∧
      t.fld (SKW_LANE_STAT p.val) 23 16 = min (s.fld (SKW_LANE_STAT p.val) 23 16 + 1) 255) ∧
  (∀ (s : State) (p : Fin 6), (s.skwOf p.val).step = none → exec (.laneAckDeadline p) s = .next s) ∧
  (∀ (s : State) (p : Fin 6), s.skwState p.val = 5 → ∃ t, exec (.close p) s = .next t ∧
    ((s.skwOf p.val).closeSent = true → t.skwState p.val = 0) ∧
    ((s.skwOf p.val).closeSent = false → t.skwState p.val = 5 ∧ (t.skwOf p.val).closeGot = true ∧ (t.skwOf p.val).closing = true)) ∧
  (∀ (s : State) (p : Fin 6), s.skwState p.val ≠ 5 → exec (.close p) s = .next s)

/-- A port in ALIGN sends an empty frame with its CRC once a frame time has passed; an ACTIVE port with only a LANE_ACK or LANE_GO waiting sends it in a loaded frame
that it holds. A frame with a bad CRC sets the NAK due and changes no sequence; a good one that acknowledges frees the frames up to ASEQ; a good loaded one in order is
acknowledged, and its one clean flit that is a packet joins the received ones after the hold of SKW_CFG; out of order it is dropped with a NAK due. A replay puts every held frame again. The
oldest received packet of a VN is routed by its DST into the queue of that VN, but for a request that came in DRAIN, which is ended; a first flit of the scheduled reservation leaves on the bypass at its position. With nothing to do
nothing happens. -/
def Obligations.SkidwayFrames : Prop :=
  (∀ (s : State) (p : Fin 6), s.skwRuns p.val = true → s.skwState p.val = 2 → (s.skwOf p.val).frameFc + s.fpf p.val ≤ s.fc →
    ∃ t, ∃ f : Frame, exec (.skwFrameSend p) s = .next t ∧ (t.skwOf p.val).out = some f ∧ f.good = true ∧ f.svalid = 0 ∧ f.ctype = 0 ∧
      (t.skwOf p.val).txN = (s.skwOf p.val).txN + 1 ∧ (t.skwOf p.val).frameFc = s.fc ∧ (t.skwOf p.val).held = (s.skwOf p.val).held ∧ t.ni = s.ni) ∧
  (∀ (s : State) (p : Fin 6) ty d rest, s.skwRuns p.val = true → s.mode ≠ .frozen → s.skwState p.val = 5 → (s.skwOf p.val).frameFc + s.fpf p.val ≤ s.fc →
    (s.skwOf p.val).again = [] → (s.skwOf p.val).held.length < 32 → (s.skwOf p.val).ctl = (ty, d) :: rest → (ty = 5 ∨ ty = 6) →
    (s.skwOf p.val).txCur = [] → (s.skwOf p.val).schOut = [] → (s.niOf (81 + p.val)).gran = [] → (s.skwOf p.val).owed = [] →
    (s.skwOf p.val).fseq < 4096 →
    ∃ t, ∃ f : Frame, ∃ k : SkFrame, exec (.skwFrameSend p) s = .next t ∧ (t.skwOf p.val).out = some f ∧ f.good = true ∧ f.ctype = ty ∧ f.cdata = d ∧
      f.fseq = (s.skwOf p.val).fseq ∧ (t.skwOf p.val).held = (s.skwOf p.val).held ++ [k] ∧ k.fseq = (s.skwOf p.val).fseq ∧ k.fc = s.fc ∧
      (t.skwOf p.val).fseq = ((s.skwOf p.val).fseq + 1) % 4096 ∧ (t.skwOf p.val).ctl = rest ∧ (t.skwOf p.val).txN = (s.skwOf p.val).txN + 1) ∧
  (∀ (s : State) (p : Fin 6), (s.skwState p.val < 2 ∨ 5 < s.skwState p.val ∨ s.fc < (s.skwOf p.val).frameFc + s.fpf p.val) →
    exec (.skwFrameSend p) s = .next s) ∧
  (∀ (s : State) (p : Fin 6) (f : Frame), s.skwRuns p.val = true → 2 ≤ s.skwState p.val → s.skwState p.val ≤ 5 →
    (f.good = false → ∃ t, exec (.skwFrameReceive p f) s = .next t ∧ (t.skwOf p.val).nakDue = true ∧ (t.skwOf p.val).acc = (s.skwOf p.val).acc ∧
      (t.skwOf p.val).rxN = (s.skwOf p.val).rxN + 1 ∧ (t.skwOf p.val).held = (s.skwOf p.val).held ∧ (t.skwOf p.val).rx = (s.skwOf p.val).rx ∧
      t.fld (SKW_REPLAY p.val) 15 8 = min (s.fld (SKW_REPLAY p.val) 15 8 + 1) 255) ∧
    (f.good = true → f.loaded = false → f.aval = true → s.skwState p.val ≠ 2 →
      (s.skwOf p.val).held.any (fun k => k.fseq = f.aseq) = true →
      ∃ t, exec (.skwFrameReceive p f) s = .next t ∧
        (t.skwOf p.val).held = ((s.skwOf p.val).held.dropWhile (fun k => k.fseq ≠ f.aseq)).drop 1 ∧
        (t.skwOf p.val).acc = (s.skwOf p.val).acc ∧ (t.skwOf p.val).rxN = (s.skwOf p.val).rxN + 1 ∧ t.ni = s.ni) ∧
    (f.good = true → f.loaded = true → s.skwState p.val = 5 → (s.skwOf p.val).retr = false →
      f.fseq ≠ (match (s.skwOf p.val).acc with | some a => (a + 1) % 4096 | none => 0) →
      ∃ t, exec (.skwFrameReceive p f) s = .next t ∧ (t.skwOf p.val).nakDue = true ∧ (t.skwOf p.val).acc = (s.skwOf p.val).acc ∧
        (t.skwOf p.val).rx = (s.skwOf p.val).rx ∧ (t.skwOf p.val).cred = (s.skwOf p.val).cred)) ∧
  (∀ (s : State) (p : Fin 6) (f : Frame) y rest (g : Flit), s.skwRuns p.val = true → s.skwState p.val = 5 → f.good = true → f.aval = false →
    f.fseq = (match (s.skwOf p.val).acc with | some a => (a + 1) % 4096 | none => 0) → f.svalid = 1 → f.ctype = 0 → f.slots = some y :: rest →
    (∀ i, i < 9 → f.credit i = 0) → fixFlit y = (g, [], []) → hSch g.hdr = false → sFidx g.sc = 0 → hLen g.hdr = 0 → badEnter g.hdr g.sc = false →
    (s.skwOf p.val).rxCur = none → (s.skwOf p.val).rxq = [] →
    ∃ t, exec (.skwFrameReceive p f) s = .next t ∧ (t.skwOf p.val).acc = some f.fseq ∧ t.ni = s.ni ∧
      (s.fld (SKW_CFG p.val) 8 4 = 0 → (t.skwOf p.val).rxq = [] ∧ (t.skwOf p.val).rx = (s.skwOf p.val).rx ++
        [{ hdr := g.hdr, body := [(g.sc, g.data)], chks := [g.chk], pool := skPool g.hdr g.sc, fence := s.drains g }]) ∧
      (s.fld (SKW_CFG p.val) 8 4 ≠ 0 → (t.skwOf p.val).rx = (s.skwOf p.val).rx ∧
        (t.skwOf p.val).rxq = [{ fc := s.fc + s.fld (SKW_CFG p.val) 8 4, pa := f.txpos % 1024, flit := y }])) ∧
  (∀ (s : State) (p : Fin 6) (f : Frame), (s.skwState p.val < 2 ∨ 5 < s.skwState p.val) → exec (.skwFrameReceive p f) s = .next s) ∧
  (∀ (s : State) (p : Fin 6), s.skwRuns p.val = true → s.skwState p.val = 5 → s.mode ≠ .frozen → (s.skwOf p.val).nakGot = true → (s.skwOf p.val).held ≠ [] →
    (s.skwOf p.val).replays + 1 < s.fld (SKW_CFG p.val) 15 12 →
    ∃ t, exec (.skwReplay p) s = .next t ∧ t.skwOf p.val = { s.skwOf p.val with
        nakGot := false, again := (s.skwOf p.val).held.map (·.fseq), replays := (s.skwOf p.val).replays + 1 } ∧
      t.fld (SKW_REPLAY p.val) 7 0 = min (s.fld (SKW_REPLAY p.val) 7 0 + 1) 255 ∧ t.ni = s.ni) ∧
  (∀ (s : State) (p : Fin 6), (s.skwOf p.val).nakGot = false → (s.skwOf p.val).held = [] → exec (.skwReplay p) s = .next s) ∧
  (∀ (s : State) (p : Fin 6) (vn : Fin 8) (r : SkRx) (f : Found), s.runs (niTile (81 + p.val)) = true → s.carries = true → (s.skwOf p.val).sched = [] →
    (s.skwOf p.val).rx.find? (fun r => hVn r.hdr = vn.val && isResponse (hCls r.hdr) (sOpc (r.body.headD (0, 0)).1)) = none →
    (s.skwOf p.val).rx.find? (fun r => hVn r.hdr = vn.val) = some r →
    f = s.look { n := 81 + p.val, key := .node (hDst r.hdr), vn := hVn r.hdr, cls := hCls r.hdr, isReq := true,
                 resv := isResvOp (hCls r.hdr) (sOpc (r.body.headD (0, 0)).1), mask := s.fenceMask } →
    (r.fence = true → ∃ t, exec (.kniEnterPacket p vn) s = .next t ∧ (t.skwOf p.val).rx = eraseFirst (· = r) (s.skwOf p.val).rx ∧
      (t.niOf (81 + p.val)).queues = (s.niOf (81 + p.val)).queues) ∧
    (r.fence = false → f.code = OK → f.fenced = false → r.body ≠ [] → ∃ t, ∃ it : QItem, exec (.kniEnterPacket p vn) s = .next t ∧ (t.skwOf p.val).rx = eraseFirst (· = r) (s.skwOf p.val).rx ∧
      (t.niOf (81 + p.val)).queue (hVn r.hdr) = (s.niOf (81 + p.val)).queue (hVn r.hdr) ++ [it] ∧ it.pool = some r.pool ∧
      it.pkt = some { hdr := setAge (setHop (setSch (setRoute r.hdr f.route) false) 0) 0, body := r.body, chks := r.chks })) ∧
  (∀ (s : State) (p : Fin 6) (vn : Fin 8), (s.skwOf p.val).sched = [] → (∀ r ∈ (s.skwOf p.val).rx, hVn r.hdr ≠ vn.val) →
    exec (.kniEnterPacket p vn) s = .next s) ∧
  (∀ (s : State) (p : Fin 6) (y : SkSched) c, s.runs (niTile (81 + p.val)) = true → (s.niOf (81 + p.val)).sentFc ≠ s.fc + 1 → (s.skwOf p.val).schCur = none →
    (s.skwOf p.val).sched.find? (fun y => sFidx y.flit.sc = 0 && s.skWay p.val y = .at s.fc &&
      s.injHere (81 + p.val) (hFlow y.flit.hdr).toNat) = some y → s.enterCtx (hFlow y.flit.hdr) = some c →
    ∃ t, exec (.kniSchedInject p) s = .next t ∧
      (y.lost = false → s.Left t (81 + p.val) bypVc
        (recoded (mkFlit (setAge (setHop (setRoute y.flit.hdr (fcRoute c)) 0) 0) y.flit.sc y.flit.data) y.flit.chk)) ∧
      (y.lost = true → t.links = s.links) ∧
      (t.skwOf p.val).sched = eraseFirst (· = y) (s.skwOf p.val).sched ∧
      (t.skwOf p.val).schCur = (if hLen y.flit.hdr = 0 then none else some (y.flit.hdr, 1, s.fc + 1))) ∧
  (∀ (s : State) (p : Fin 6), (s.skwOf p.val).sched = [] → (s.skwOf p.val).schCur = none →
    exec (.kniSchedLate p) s = .next s ∧ ∃ t, exec (.kniSchedInject p) s = .next t ∧ t.ni = s.ni ∧ t.links = s.links ∧ t.skw = s.skw) ∧
  (∀ (s : State) (p : Fin 6) (y : SkSched) d, s.runs (niTile (81 + p.val)) = true → (s.skwOf p.val).schCur = none → (s.skwOf p.val).sched = [y] → sFidx y.flit.sc = 0 →
    hLen y.flit.hdr = 0 → y.lost = false → s.skWay p.val y = .at d → d < s.fc →
    ∃ t, ∃ it : QItem, exec (.kniSchedLate p) s = .next t ∧ (t.skwOf p.val).sched = [] ∧
      (t.niOf (81 + p.val)).queue (hVn y.flit.hdr) = (s.niOf (81 + p.val)).queue (hVn y.flit.hdr) ++ [it] ∧
      it.body = [(y.flit.sc, y.flit.data)] ∧ it.part = hPart y.flit.hdr)

/-! Partitions, power domains, the Journal, Tally and the engines -/

/-- A write of PART_CTRL whose op is accepted: CREATE, THAW and DESTROY end at once with done set, in SETUP, OPEN and FREE; FREEZE, RESET_DRAIN and
RESET_SQUASH enter FREEZING, RESETTING_DRAIN and RESETTING_SQUASH and stay busy; OPEN, SAVE and RESTORE are busy in the state they
found. A refused op writes its code and changes no state. The scan of OPEN ends in OPEN, or with its code and place. A drain ends once no Ledger entry of
the partition is open and no Granary holds an unoffered request of it, in FROZEN at the fabric time of that moment or in SETUP; a squash once none is retained. SAVE ends with the length of its image, which the rules let its MNI write,
and with its Ledger entry DONE, or with code 13 where the image is too long. RESTORE ends with the code of the first check that fails and stores nothing, or ends done; an image without rules and routes leaves both pools. Each
waits while its MNI has no free entry, and both use the address that PART_IO had when they were accepted. Other partitions keep their states. -/
def Obligations.Partitions : Prop :=
  (∀ (s : State) m (p : Fin 512) v op c, s.Takes m (.partition p) 0x100 →
    (op, c) ∈ [(1, Instr.partCreate m p v), (2, .partOpen m p v), (3, .partFreeze m p v), (4, .partThaw m p v), (5, .partResetDrain m p v),
      (6, .partResetSquash m p v), (7, .partDestroy m p v), (8, .partSave m p v), (9, .partRestore m p v)] →
    (s.opRefusal p.val op = none → ∃ t, exec c s = .next t ∧
      t.partState p.val = (match op with | 1 => 1 | 3 => 3 | 4 => 2 | 5 => 5 | 6 => 6 | 7 => 0 | _ => s.partState p.val) ∧
      t.fld (PART_STAT p.val) 19 16 = op ∧ (∀ q, q < 512 → q ≠ p.val → t.partState q = s.partState q) ∧
      (if op = 1 ∨ op = 4 ∨ op = 7 then t.partBusy p.val = false ∧ t.rbit (PART_STAT p.val) 13 = true ∧ (t.partOf p.val).op = 0
       else t.partBusy p.val = true ∧ (t.partOf p.val).op = op) ∧
      (op = 8 ∨ op = 9 → (t.partOf p.val).io = s.imgAddr p.val)) ∧
    (∀ code, s.opRefusal p.val op = some code → ∃ t, exec c s = .next t ∧ t.fld (PART_STAT p.val) 11 8 = code ∧
      t.rbit (PART_STAT p.val) 12 = true ∧ t.partState p.val = s.partState p.val ∧ t.partBusy p.val = s.partBusy p.val ∧
      (∀ q, q < 512 → q ≠ p.val → t.partState q = s.partState q) ∧ t.parts = s.parts ∧ t.ni = s.ni)) ∧
  (∀ (s : State) (p : Fin 512), (s.partOf p.val).op = 2 → s.openBad p.val = none → ∃ t, exec (.partOpenScanDone p) s = .next t ∧
    t.partState p.val = 2 ∧ t.partBusy p.val = false ∧ t.rbit (PART_STAT p.val) 13 = true ∧ t.ni = s.ni ∧
    (∀ q, q < 512 → q ≠ p.val → t.partState q = s.partState q ∧ t.partOf q = s.partOf q)) ∧
  (∀ (s : State) (p : Fin 512) code i pool bank, (s.partOf p.val).op = 2 → s.openBad p.val = some (code, i, pool, bank) →
    ∃ t, exec (.partOpenScanDone p) s = .next t ∧ t.partState p.val = s.partState p.val ∧ t.partBusy p.val = false ∧
      t.fld (PART_STAT p.val) 11 8 = code ∧ t.rbit (PART_STAT p.val) 12 = true ∧ t.fld (PART_WHERE p.val) 23 0 = i % 2 ^ 24 ∧
      t.fld (PART_WHERE p.val) 26 24 = pool ∧ t.fld (PART_WHERE p.val) 29 27 = bank ∧ t.ni = s.ni) ∧
  (∀ (s : State) (p : Fin 512), (s.partOf p.val).op ≠ 2 → exec (.partOpenScanDone p) s = .next s) ∧
  (∀ (s : State) (p : Fin 512), s.partState p.val = 3 ∨ s.partState p.val = 5 → s.anyEntry p.val LEntry.isOpen = false → s.granClear p.val = true →
    ∃ t, exec (.partDrainDone p) s = .next t ∧ t.partState p.val = (if s.partState p.val = 3 then 4 else 1) ∧ t.partBusy p.val = false ∧
      t.rbit (PART_STAT p.val) 13 = true ∧ (s.partState p.val = 3 → (t.partOf p.val).frozenT = s.time.now) ∧
      (∀ q, q < 512 → q ≠ p.val → t.partState q = s.partState q ∧ t.partOf q = s.partOf q)) ∧
  (∀ (s : State) (p : Fin 512), (s.partState p.val ≠ 3 ∧ s.partState p.val ≠ 5) ∨ s.anyEntry p.val LEntry.isOpen = true ∨ s.granClear p.val = false →
    exec (.partDrainDone p) s = .next s) ∧
  (∀ (s : State) (p : Fin 512), s.partState p.val = 6 → s.anyEntry p.val (fun e => e.retained) = false → s.granClear p.val = true →
    ∃ t, exec (.partSquashDone p) s = .next t ∧ t.partState p.val = 1 ∧ t.partBusy p.val = false ∧ t.rbit (PART_STAT p.val) 13 = true ∧ t.ni = s.ni) ∧
  (∀ (s : State) (p : Fin 512), s.partState p.val ≠ 6 ∨ s.anyEntry p.val (fun e => e.retained) = true ∨ s.granClear p.val = false →
    exec (.partSquashDone p) s = .next s) ∧
  (∀ (s : State) (p : Fin 512) u n k, (s.partOf p.val).op = 8 → (s.saveImage p.val).length ≤ s.fld (PART_IO_MAX p.val) 23 0 →
    u = s.imgEntry p.val true → (u.partOf p.val).entry = some (n, k) →
    (u.check n false true 0 (u.node n) { kind := 1, units := (List.range (s.saveImage p.val).length).map fun i =>
      ((s.partOf p.val).io + i, 1) }).code = OK →
    ∃ t, exec (.partSaveDone p OK) s = .next t ∧ t.fld (PART_IO_LEN p.val) 23 0 = (s.saveImage p.val).length ∧ t.partBusy p.val = false ∧
      t.rbit (PART_STAT p.val) 13 = true ∧ t.partState p.val = s.partState p.val ∧ (t.partOf p.val).image = s.saveImage p.val ∧
      (t.partOf p.val).entry = none ∧ (∀ i, i ≠ n → t.niOf i = s.niOf i) ∧
      (((u.niOf n).led k).isOpen = true → ((u.niOf n).led k).owner = .image p.val → ((t.niOf n).led k).st = .done)) ∧
  (∀ (s : State) (p : Fin 512) x, (s.partOf p.val).op = 8 → (s.saveImage p.val).length ≤ s.fld (PART_IO_MAX p.val) 23 0 →
    (s.partOf p.val).entry = none → (s.niOf (76 + s.fld (PART_IO_CFG p.val) 1 0)).freeKey false = none →
    exec (.partSaveDone p x) s = .next s) ∧
  (∀ (s : State) (p : Fin 512) x, (s.partOf p.val).op = 8 → codeOk x = true → s.fld (PART_IO_MAX p.val) 23 0 < (s.saveImage p.val).length →
    ∃ t, exec (.partSaveDone p x) s = .next t ∧ t.fld (PART_STAT p.val) 11 8 = 13 ∧ t.partBusy p.val = false ∧
      t.partState p.val = s.partState p.val ∧ t.rd (PART_IO_LEN p.val) = s.rd (PART_IO_LEN p.val)) ∧
  (∀ (s : State) (p : Fin 512) x, (s.partOf p.val).op ≠ 8 ∨ codeOk x = false → exec (.partSaveDone p x) s = .next s) ∧
  (∀ (s : State) (p : Fin 512) img x u n k img' x' code o, (s.partOf p.val).op = 9 → codeOk x = true → u = s.imgEntry p.val false →
    (u.partOf p.val).entry = some (n, k) →
    img' = (if (u.memCheck n false (s.partOf p.val).io img.length).2.2 = OK then img
      else img.take (u.memCheck n false (s.partOf p.val).io img.length).2.1) →
    x' = (if (u.memCheck n false (s.partOf p.val).io img.length).2.2 = OK then x
      else (u.memCheck n false (s.partOf p.val).io img.length).2.2) →
    s.restoreBad p.val img' x' = some (code, o) →
    ∃ t, exec (.partRestoreDone p img x) s = .next t ∧ t.fld (PART_STAT p.val) 11 8 = code ∧ t.rbit (PART_STAT p.val) 12 = true ∧
      t.fld (PART_WHERE p.val) 23 0 = o % 2 ^ 24 ∧ t.partBusy p.val = false ∧ t.rules = s.rules ∧ t.banks = s.banks ∧
      (∀ q w, q < 16384 → w < 4 → t.rd (QD q w) = s.rd (QD q w)) ∧ (code = 8 → t.fld (PART_IO_STAT p.val) 7 0 = x'.toNat) ∧
      (t.partOf p.val).entry = none) ∧
  (∀ (s : State) (p : Fin 512) img u n k, (s.partOf p.val).op = 9 → u = s.imgEntry p.val false → (u.partOf p.val).entry = some (n, k) →
    (u.memCheck n false (s.partOf p.val).io img.length).2.2 = OK → s.restoreBad p.val img OK = none → saveRecs img 4 = [] →
    (s.rbit (PART_CTRL p.val) 5 = true → saveRecs img 5 = []) →
    ∃ t, exec (.partRestoreDone p img OK) s = .next t ∧ t.fld (PART_IO_LEN p.val) 23 0 = img.length % 2 ^ 24 ∧ t.partBusy p.val = false ∧
      t.rbit (PART_STAT p.val) 13 = true ∧ t.partState p.val = s.partState p.val ∧ t.rules = s.rules ∧ t.banks = s.banks ∧
      (t.partOf p.val).entry = none) ∧
  (∀ (s : State) (p : Fin 512) img x, (s.partOf p.val).op = 9 → (s.partOf p.val).entry = none →
    (s.niOf (76 + s.fld (PART_IO_CFG p.val) 1 0)).freeKey false = none → exec (.partRestoreDone p img x) s = .next s) ∧
  (∀ (s : State) (p : Fin 512) img x, (s.partOf p.val).op ≠ 9 ∨ codeOk x = false → exec (.partRestoreDone p img x) s = .next s)

/-- A write of BOOM_CTRL whose request no cause of R395 refuses: QUIESCE and OFF start the procedure from OPEN and set or clear the target afterwards; OFF switches an
ISOLATED domain off; OPEN returns a domain that is not cut off to OPEN and wakes one that is; FORCE cuts off a domain that is QUIESCED for OFF. A refusal sets BOOM_ERR and moves no
domain. FENCING ends in DRAINING once no NI of another tile holds a packet whose lookup passed the fence, DRAINING in QUIESCED once R399 holds, when QUIESCE_REQ rises towards the live units of the tile; QUIESCED for OFF ends in OFF once R401 holds, and is reported with
code 7 after its time; WAKING ends in OPEN. The other domains stay. The ladder waits for none of them here. -/
def Obligations.BoomHandshake : Prop :=
  (∀ (s : State) m (d : Fin 64) op c, s.Takes m .power 0x100 → s.escWait = [] →
    (op, c) ∈ [(1, Instr.boomQuiesce m d), (2, .boomOff m d), (3, .boomOpen m d), (4, .boomForce m d)] →
    (s.boomRefusal d.val op = none → ∃ t, exec c s = .next t ∧ (∀ e, e ≠ d.val → t.boomOf e = s.boomOf e) ∧
      t.boomOf d.val = (match op, (s.boomOf d.val).st with
        | 1, .open_ => { st := .fencing }
        | 2, .open_ => { st := .fencing, tgtOff := true }
        | 1, _ => { s.boomOf d.val with tgtOff := false }
        | 2, .isolated => { st := .off, tgtOff := true, fromOff := true }
        | 2, _ => { s.boomOf d.val with tgtOff := true }
        | 3, .isolated => { st := .waking, fromOff := (s.boomOf d.val).fromOff }
        | 3, .off => { st := .waking, fromOff := true }
        | 3, _ => {}
        | _, _ => { st := .off, tgtOff := true, fromOff := true })) ∧
    (∀ code, s.boomRefusal d.val op = some code → ∃ t, exec c s = .next t ∧ t.boom = s.boom ∧ t.rbit BOOM_ERR 31 = true ∧ t.ni = s.ni ∧
      (s.rbit BOOM_ERR 31 = false → t.fld BOOM_ERR 5 0 = d.val ∧ t.fld BOOM_ERR 11 8 = code))) ∧
  (∀ (s : State) (d : Fin 64), (s.boomOf d.val).st = .fencing → s.held = none → (d.val < 56 → s.fenceHeld d.val = false) →
    ∃ t, exec (.boomFenceDone d) s = .next t ∧
    t.boomOf d.val = { s.boomOf d.val with st := .draining, drainFc := s.fc } ∧ (∀ e, e ≠ d.val → t.boomOf e = s.boomOf e)) ∧
  (∀ (s : State) (d : Fin 64), (s.boomOf d.val).st = .draining → s.held = none → s.mode ≠ .frozen → s.drained d.val = true → ∃ t, exec (.boomDrainDone d) s = .next t ∧
    t.boomOf d.val = { s.boomOf d.val with st := .quiesced, qMc := s.mc } ∧ (∀ e, e ≠ d.val → t.boomOf e = s.boomOf e) ∧
    (d.val < 56 → ∀ n ∈ tileUnits d.val, bit t.quiesceReq n = bit s.niAlive n ∧ bit t.quiesceAck n = false)) ∧
  (∀ (s : State) (d : Fin 64), (s.boomOf d.val).st = .quiesced → (s.boomOf d.val).tgtOff = true → s.held = none → s.quiesced d.val = true → s.escWait = [] →
    ∃ t, exec (.boomQuiesceDone d) s = .next t ∧ t.boomOf d.val = { st := .off, tgtOff := true, fromOff := true } ∧
      (∀ e, e ≠ d.val → t.boomOf e = s.boomOf e)) ∧
  (∀ (s : State) (d : Fin 64), (s.boomOf d.val).st = .quiesced → (s.boomOf d.val).tmoSeen = false → (s.boomOf d.val).qMc + s.fld PWR_QTMO 23 0 ≤ s.mc →
    s.quiesced d.val = false → ∃ t, exec (.boomQackTimeout d) s = .next t ∧ t.boomOf d.val = { s.boomOf d.val with tmoSeen := true } ∧
      t.rbit BOOM_ERR 31 = true ∧ (s.rbit BOOM_ERR 31 = false → t.fld BOOM_ERR 5 0 = d.val ∧ t.fld BOOM_ERR 11 8 = 7) ∧
      t.rbit (pageBase .power + 0x18) 1 = true ∧ t.ni = s.ni) ∧
  (∀ (s : State) (d : Fin 64), (s.boomOf d.val).st = .waking → s.held = none → ∃ t, exec (.boomWakeDone d) s = .next t ∧ t.boomOf d.val = {} ∧
    (∀ e, e ≠ d.val → t.boomOf e = s.boomOf e) ∧ (d.val < 56 → ∀ n ∈ tileUnits d.val, bit t.quiesceReq n = false)) ∧
  (∀ (s : State) (d : Fin 64), ((s.boomOf d.val).st ≠ .fencing ∨ d.val < 56 ∧ s.fenceHeld d.val = true → exec (.boomFenceDone d) s = .next s) ∧
    ((s.boomOf d.val).st ≠ .draining ∨ s.mode = .frozen ∨ s.drained d.val = false → exec (.boomDrainDone d) s = .next s) ∧
    ((s.boomOf d.val).st ≠ .quiesced → s.escWait = [] → exec (.boomQuiesceDone d) s = .next s) ∧
    ((s.boomOf d.val).st ≠ .quiesced → exec (.boomQackTimeout d) s = .next s) ∧
    ((s.boomOf d.val).st ≠ .waking → exec (.boomWakeDone d) s = .next s))

/-- While MCLK runs the writer puts the oldest entry of its queue, one in a management cycle, in the slot of the write position, with that number and the gap flag; into a full ring without overwrite it drops it and
counts it. JRN_SEL shows the slot it names. The oldest event of a partition that may go becomes an entry of the Ledger and a message of its MNI; it waits for a free entry and for room in its queue, and a repeated
announcement for its interval. The first fault of an item opens its window; one in an open window closes it and is an escalation: RESET_SQUASH of a partition, QUIESCE of an OPEN tile,
nothing for a tile that is not, RECOVERY for the rest. A window ends with its time. With nothing due nothing happens. -/
def Obligations.JournalAndLadder : Prop :=
  (∀ (s : State) e rest, s.jq = e :: rest → s.mclkOff = false → s.jmc ≠ s.mc + 1 → (s.rbit JRN_CTRL 0 = true ∨ (s.rd JRN_WIDX - s.rd JRN_RIDX).toNat < 4096) →
    (e.part = none ∨ ∃ q, e.part = some q ∧ s.rbit (PJ_CFG q.toNat) 0 = false) →
    ∃ t, exec .journalWrite s = .next t ∧ t.jq = rest ∧ t.jgap = false ∧ t.jmc = s.mc + 1 ∧ t.rd JRN_WIDX = s.rd JRN_WIDX + 1 ∧
      Tbl.get (fun _ => {}) t.jring ((s.rd JRN_WIDX).toNat % 4096) = { e with seq := s.rd JRN_WIDX, gap := s.jgap } ∧
      (∀ i, i ≠ (s.rd JRN_WIDX).toNat % 4096 → Tbl.get (fun _ => {}) t.jring i = Tbl.get (fun _ => {}) s.jring i) ∧ t.ni = s.ni ∧ t.parts = s.parts) ∧
  (∀ (s : State) e rest q, s.jq = e :: rest → s.mclkOff = false → s.jmc ≠ s.mc + 1 → (s.rbit JRN_CTRL 0 = true ∨ (s.rd JRN_WIDX - s.rd JRN_RIDX).toNat < 4096) → e.part = some q →
    s.rbit (PJ_CFG q.toNat) 0 = true → (s.rd (PJ_WIDX q.toNat) - s.rd (PJ_RIDX q.toNat)).toNat < 2 ^ s.fld (PJ_CFG q.toNat) 20 16 →
    s.qValid (76 + s.fld (PJ_CFG q.toNat) 2 1) (s.fld (PJ_CFG q.toNat) 15 8) = true →
    ((s.niOf (76 + s.fld (PJ_CFG q.toNat) 2 1)).freeKey false = none ∨ s.roomFor (76 + s.fld (PJ_CFG q.toNat) 2 1) (s.fld (PJ_CFG q.toNat) 15 8) 1 = false →
      exec .journalWrite s = .next s) ∧
    (∀ k, (s.niOf (76 + s.fld (PJ_CFG q.toNat) 2 1)).freeKey false = some k → s.roomFor (76 + s.fld (PJ_CFG q.toNat) 2 1) (s.fld (PJ_CFG q.toNat) 15 8) 1 = true →
      ∃ t l, exec .journalWrite s = .next t ∧ t.jq = rest ++ l ∧
      ((∀ a, (s.check (76 + s.fld (PJ_CFG q.toNat) 2 1) false
          (s.qAny (76 + s.fld (PJ_CFG q.toNat) 2 1) (s.fld (PJ_CFG q.toNat) 15 8))
          (s.qPart (76 + s.fld (PJ_CFG q.toNat) 2 1) (s.fld (PJ_CFG q.toNat) 15 8))
          (s.node (76 + s.fld (PJ_CFG q.toNat) 2 1)) a).code = OK) → l = []) ∧
      t.rd JRN_WIDX = s.rd JRN_WIDX + 1 ∧ t.rd (PJ_WIDX q.toNat) = s.rd (PJ_WIDX q.toNat) + 1 ∧
      ((t.niOf (76 + s.fld (PJ_CFG q.toNat) 2 1)).led k).owner = .partRing q.toNat)) ∧
  (∀ (s : State) e rest, s.jq = e :: rest → s.mclkOff = false → s.jmc ≠ s.mc + 1 → s.rbit JRN_CTRL 0 = false → 4096 ≤ (s.rd JRN_WIDX - s.rd JRN_RIDX).toNat →
    ∃ t, exec .journalWrite s = .next t ∧ t.jq = rest ∧ t.jgap = true ∧ t.jring = s.jring ∧ t.rd JRN_WIDX = s.rd JRN_WIDX ∧
      t.fld JRN_STAT 15 0 = min (s.fld JRN_STAT 15 0 + 1) 65535) ∧
  (∀ (s : State), s.jq = [] ∨ s.mclkOff = true ∨ s.jmc = s.mc + 1 → exec .journalWrite s = .next s) ∧
  (∀ (s : State) m v, s.Takes m .journal 0x110 → ∃ t, exec (.jrnSel m v) s = .next t ∧
    (s.jring.any (fun x => x.1 = getBits v 11 0) = true → ∀ i, i < 16 →
      t.rd (JRN_DATA i) = BitVec.ofNat 32 (imgNat (Tbl.get (fun _ => {}) s.jring (getBits v 11 0)).image (4 * i) 4)) ∧
    t.jring = s.jring ∧ t.jq = s.jq ∧ t.rd JRN_WIDX = s.rd JRN_WIDX ∧ t.ni = s.ni) ∧
  (∀ (s : State) (p : Fin 512) e rest, (s.partOf p.val).events = e :: rest →
    (e.opc = 0x20 → ∀ c, (s.partOf p.val).lastEvt = some c → c + s.fld (PEV_CFG p.val) 31 16 ≤ s.mc) →
    s.qValid (76 + s.fld (PEV_CFG p.val) 2 1) (s.fld (PEV_CFG p.val) 15 8) = true →
    ((s.niOf (76 + s.fld (PEV_CFG p.val) 2 1)).freeKey true = none ∨ s.roomFor (76 + s.fld (PEV_CFG p.val) 2 1) (s.fld (PEV_CFG p.val) 15 8) 1 = false →
      exec (.partitionEventSend p) s = .next s) ∧
    (∀ k, (s.niOf (76 + s.fld (PEV_CFG p.val) 2 1)).freeKey true = some k → s.roomFor (76 + s.fld (PEV_CFG p.val) 2 1) (s.fld (PEV_CFG p.val) 15 8) 1 = true →
      ∃ t, exec (.partitionEventSend p) s = .next t ∧
      (t.partOf p.val).events = rest ∧ t.fld (PEV_STAT p.val) 15 0 = (s.fld (PEV_STAT p.val) 15 0 + 1) % 65536 ∧
      (e.opc = 0x20 → (t.partOf p.val).lastEvt = some s.mc) ∧
      ((t.niOf (76 + s.fld (PEV_CFG p.val) 2 1)).led k).owner = .partEvent p.val ∧ (∀ q, q ≠ p.val → t.partOf q = s.partOf q))) ∧
  (∀ (s : State) (p : Fin 512), (s.partOf p.val).events = [] → exec (.partitionEventSend p) s = .next s) ∧
  (∀ (s : State) it, s.due.find? (fun f => f.item = it) = none → exec (.ladderFault it) s = .next s) ∧
  (∀ (s : State) it f, s.due.find? (fun f => f.item = it) = some f → s.winOpen it = false → ∃ t, exec (.ladderFault it) s = .next t ∧
    t.due = eraseFirst (fun g => g.item = it) s.due ∧
    t.wins = s.wins.filter (fun w => w.item ≠ it) ++ [{ item := it, until_ := s.mc + max (s.fld ESC_WIN 19 0) 1 * 800 }] ∧
    (f.cause = 0 → t.jq = s.jq) ∧ (f.cause ≠ 0 → s.jq.length < 64 → ∃ e, t.jq = s.jq ++ [e] ∧ e.kind = kFAULT ∧ e.detail = BitVec.ofNat 16 f.cause) ∧
    { t with due := s.due, wins := s.wins, jq := s.jq, jgap := s.jgap, regs := s.regs, notes := s.notes } = s) ∧
  (∀ (s : State) (p : BitVec 9) f, s.due.find? (fun f => f.item = .partition p) = some f → s.winOpen (.partition p) = true →
    2 ≤ s.partState p.toNat → s.partState p.toNat < 6 → s.opRefusal p.toNat 6 = none →
    ∃ t, exec (.ladderFault (.partition p)) s = .next t ∧ t.partState p.toNat = 6 ∧ t.fld ESC_LAST 1 0 = 1 ∧ t.fld ESC_LAST 10 2 = p.toNat ∧
      t.rbit ESC_LAST 31 = true ∧ t.wins = s.wins.filter (fun w => w.item ≠ .partition p)) ∧
  (∀ (s : State) (k : Fin 56) f, s.due.find? (fun f => f.item = .tile k) = some f → s.winOpen (.tile k) = true → tilePort k.val = none →
    s.boomOf k.val = {} → s.boomRefusal k.val 1 = none → ∃ t, exec (.ladderFault (.tile k)) s = .next t ∧ t.boomOf k.val = { st := .fencing } ∧
      t.fld ESC_LAST 1 0 = 2 ∧ t.fld ESC_LAST 10 2 = k.val ∧ t.rbit ESC_LAST 31 = true ∧ t.wins = s.wins.filter (fun w => w.item ≠ .tile k)) ∧
  (∀ (s : State) (k : Fin 56) f, s.due.find? (fun f => f.item = .tile k) = some f → s.winOpen (.tile k) = true → s.dom k.val ≠ .open_ →
    ∃ t, exec (.ladderFault (.tile k)) s = .next t ∧ t.boom = s.boom ∧ t.fld ESC_LAST 1 0 = 2 ∧ t.fld ESC_LAST 10 2 = k.val ∧
      t.rbit ESC_LAST 31 = true ∧ t.wins = s.wins.filter (fun w => w.item ≠ .tile k)) ∧
  (∀ (s : State) f, s.due.find? (fun f => f.item = .time) = some f → s.winOpen .time = true → s.mode = .dynamic ∨ s.mode = .scheduled → s.modeBusy = false →
    ∃ t, exec (.ladderFault .time) s = .next t ∧ (∃ c, t.change = some c ∧ c.target = .recovery) ∧ t.fld ESC_LAST 1 0 = 3 ∧ t.fld ESC_LAST 10 2 = 0 ∧
      t.rbit ESC_LAST 31 = true) ∧
  (∀ (s : State) it, (s.winOpen it = true → exec (.escWindowExpire it) s = .next s) ∧
    (s.winOpen it = false → exec (.escWindowExpire it) s = .next { s with wins := s.wins.filter fun w => w.item ≠ it }))

/-- Word 0 of a counter is staged for its master; a commit joins it with the high part; a read of word 0 answers it and latches the rest, of a chained pair both. A counter that passes its top wraps with
ovf set, but for events of the cycle of a commit, which are lost with the ovf they set. TLY_CTRL and TLY_SNAP start commands; the oldest, with those of its management cycle, act together in the next fc, the global counters at the next management cycle:
freeze, unfreeze, and a snapshot that copies every counter of an OPEN tile and marks the others absent, or of zeros after a clr_all of its management cycle; clr_all clears at once. A write of PRB_CTRL starts its probe's count again, and its ring where it takes the other ring mode. The oldest record of a probe goes to the ring through its MNI, is dropped with a gap where the ring is full, waits for a
free Ledger entry and for room in its queue, and is discarded once the probe has stopped. -/
def Obligations.TallyAndProbes : Prop :=
  (∀ (s : State) m (i : Fin 1272) v, s.Serves m true (CNT i.val 0) (.window (.counter i.val)) → exec (.counterStageWrite m i v) s = .next
    (s.answered m (CNT i.val 0) (.window (.counter i.val)) 0 fun u => { u with tally := { s.tally with
      stage := Tbl.set (fun _ => none) m.val (some (i.val, v)) s.tally.stage } })) ∧
  (∀ (s : State) m (i : Fin 1272) v w j, s.Serves m true (CNT i.val 1) (.window (.counter i.val)) →
    Tbl.get (fun _ => none) s.tally.stage m.val = some (j, w) → ∃ t, exec (.counterCommit m i v) s = .next t ∧
      t.rd (CNT i.val 0) = w ∧ t.fld (CNT i.val 1) 15 0 = getBits v 15 0 ∧ Tbl.get (fun _ => none) t.tally.stage m.val = none ∧
      ((s.wrapOf i.val).ovf = true → (i.val % 2 = 1 → s.chained (i.val - 1) = false) → t.rbit (CNT i.val 3) 0 = false) ∧
      (s.tally.wraps = [] → ∀ a, a ≠ CNT i.val 0 → a ≠ CNT i.val 1 → a ≠ HL_PARK → t.rd a = s.rd a)) ∧
  (∀ (s : State) m (i : Fin 1272), s.Serves m false (CNT i.val 0) (.window (.counter i.val)) → (i.val % 2 = 1 → s.latch m.val (CNT i.val 0) = none) →
    ∃ t, exec (.counterWindowRead m i) s = .next t ∧ t.hlLast m.val = { data := s.rd (CNT i.val 0) } ∧
      t.latch m.val (CNT i.val 1) = some (s.rd (CNT i.val 1) &&& 0xFFFF) ∧
      (s.chained i.val = true → t.latch m.val (CNT (i.val + 1) 0) = some (s.rd (CNT (i.val + 1) 0)) ∧
        t.latch m.val (CNT (i.val + 1) 1) = some (s.rd (CNT (i.val + 1) 1))) ∧ (∀ a, a ≠ HL_PARK → t.rd a = s.rd a)) ∧
  (∀ (s : State) m (i : Fin 1272) w, s.Serves m false (CNT i.val 0) (.window (.counter i.val)) → i.val % 2 = 1 → s.latch m.val (CNT i.val 0) = some w →
    exec (.counterWindowRead m i) s = .next (s.answered m (CNT i.val 0) (.window (.counter i.val)) w id)) ∧
  (∀ (s : State) (i : Fin 1272) add, s.chained i.val = false → (i.val % 2 = 1 → s.chained (i.val - 1) = false) → s.cntSet i.val = false →
    (if i.val < 1144 then s.tally.frozen = false ∨ s.tally.frozenFc = s.fc else s.tally.frozenG = false) → (cntTile i.val).all s.tileOn = true →
    2 ^ 48 ≤ s.cntVal i.val + add → ∃ t, exec (.counterOverflow i add) s = .next t ∧ t.cntVal i.val = (s.cntVal i.val + add) % 2 ^ 48 ∧
      t.rbit (CNT i.val 3) 0 = true ∧ t.rbit (TLY_OVF (i.val / 32)) (i.val % 32) = true ∧ (∀ j, j < 1272 → j ≠ i.val → t.cntVal j = s.cntVal j)) ∧
  (∀ (s : State) (i : Fin 1272) add, s.chained i.val = true → s.cntSet i.val = false → s.cntSet (i.val + 1) = false →
    (if i.val < 1144 then s.tally.frozen = false ∨ s.tally.frozenFc = s.fc else s.tally.frozenG = false) → (cntTile i.val).all s.tileOn = true →
    2 ^ 96 ≤ s.cntVal i.val + s.cntVal (i.val + 1) * 2 ^ 48 + add → ∃ t, exec (.counterOverflow i add) s = .next t ∧
      t.cntVal i.val + t.cntVal (i.val + 1) * 2 ^ 48 = (s.cntVal i.val + s.cntVal (i.val + 1) * 2 ^ 48 + add) % 2 ^ 96 ∧
      t.rbit (CNT i.val 3) 0 = true ∧ t.rbit (TLY_OVF (i.val / 32)) (i.val % 32) = true) ∧
  (∀ (s : State) (i : Fin 1272) add, ((if i.val < 1144 then s.tally.frozen = true ∧ s.tally.frozenFc ≠ s.fc else s.tally.frozenG = true) ∨ s.cntSet i.val = true ∨
    i.val % 2 = 1 ∧ s.chained (i.val - 1) = true ∨ s.chained i.val = false ∧ s.cntVal i.val + add < 2 ^ 48) →
    exec (.counterOverflow i add) s = .next s) ∧
  (∀ (s : State) m v, s.Takes m .tally 0x100 → bit v 1 = false →
    exec (.tallyFreeze m v) s = .next (s.wrote m .tally 0x100 fun u =>
      { u.setFld TLY_CTRL 0 0 1 with tally := { s.tally with cmds := s.tally.cmds ++ [(.freeze, s.mc)] } }) ∧
    exec (.tallyUnfreeze m v) s = .next (s.wrote m .tally 0x100 fun u =>
      { u.setFld TLY_CTRL 0 0 0 with tally := { s.tally with cmds := s.tally.cmds ++ [(.unfreeze, s.mc)] } })) ∧
  (∀ (s : State) m v, s.Takes m .tally 0x100 → ∃ t, exec (.tallyClrAll m v) s = .next t ∧ (∀ i, i < 1272 → t.cntVal i = 0 ∧ t.rd (CNT i 2) = s.rd (CNT i 2)) ∧
    (∀ i, i < 40 → t.rd (TLY_OVF i) = 0) ∧
    t.tally = { s.tally with clrMc := s.mc + 1, cmds := (s.tally.cmds.map fun c => if c = (.snapshot, s.mc) then (.snapZero, s.mc) else c) ++
      [(if bit v 0 then .freeze else .unfreeze, s.mc)] }) ∧
  (∀ (s : State) m v, s.Takes m .tally 0x104 → ∃ t, exec (.tallySnapshot m v) s = .next t ∧ t.rbit TLY_SNAP 2 = true ∧
    t.tally = { s.tally with cmds := s.tally.cmds ++ [(if s.tally.clrMc = s.mc + 1 then .snapZero else .snapshot, s.mc)] } ∧ (∀ i w, t.rd (CNT i w) = s.rd (CNT i w))) ∧
  (∀ (s : State) c b rest, s.tally.cmds = (c, b) :: rest → exec .tallyCommandApply s = .next { s with tally := { s.tally with
    cmds := s.tally.cmds.filter fun x => x.2 ≠ b, acting := s.tally.acting ++ (s.tally.cmds.filter fun x => x.2 = b).map (·.1) } }) ∧
  (∀ (s : State), s.tally.acting = [.freeze] → s.tlyFc = { s with tally := { s.tally with
    acting := [], actingG := s.tally.actingG ++ [.freeze], frozen := true, frozenFc := s.fc } }) ∧
  (∀ (s : State), s.tally.acting = [.unfreeze] → s.tlyFc = ({ s with tally := { s.tally with
    acting := [], actingG := s.tally.actingG ++ [.unfreeze], frozen := false } } : State).clrBit TLY_STAT 0) ∧
  (∀ (s : State) c, s.tally.acting = [c] → c = .snapshot ∨ c = .snapZero → ∃ t, s.tlyFc = t ∧
    t.tally = { s.tally with acting := [], actingG := s.tally.actingG ++ [c], snapAt := some s.mc } ∧ t.rd TLY_SNAP_T_LO = BitVec.ofNat 32 s.nowNs ∧
    t.rd TLY_SNAP_T_HI = BitVec.ofNat 32 (s.nowNs / 2 ^ 32) ∧
    (∀ i, i < 1144 → (cntTile i).any s.fenced = false → t.rd (SNAP i 0) = (if c = .snapshot then s.rd (CNT i 0) else 0) ∧
      t.rd (SNAP i 1) = (if c = .snapshot then s.rd (CNT i 1) &&& 0xFFFF else 0)) ∧
    (∀ i, i < 1144 → (cntTile i).any s.fenced = true → t.rd (SNAP i 0) = 0 ∧ t.rd (SNAP i 1) = 0x80000000) ∧
    (∀ i w, i < 1272 → w < 4 → t.rd (CNT i w) = s.rd (CNT i w))) ∧
  (∀ (s : State), s.tally.actingG = [.freeze] → s.tally.cmds = [] → s.tally.snapAt = none → ∃ t, s.tlyMc = t ∧
    t.tally = { s.tally with actingG := [], frozenG := true } ∧ t.rbit TLY_STAT 0 = true) ∧
  (∀ (s : State) b, s.tally.actingG = [.snapshot] → s.tally.cmds = [] → s.tally.snapAt = some b → s.mc < b + 64 → ∃ t, s.tlyMc = t ∧
    t.tally = { s.tally with actingG := [] } ∧ (∀ i, 1144 ≤ i → i < 1272 → t.rd (SNAP i 0) = s.rd (CNT i 0) ∧
      t.rd (SNAP i 1) = s.rd (CNT i 1) &&& 0xFFFF)) ∧
  (∀ (s : State), s.tally.cmds = [] → exec .tallyCommandApply s = .next s) ∧
  (∀ (s : State) c, s.tally.snapAt = some c → s.tally.actingG.any (·.snaps) = false → ∃ t, exec .tallySnapshotDone s = .next t ∧
    t.tally = { s.tally with snapAt := none } ∧ t.rbit TLY_SNAP 1 = true ∧ t.rbit TLY_SNAP 2 = s.tally.snapsLeft) ∧
  (∀ (s : State), s.tally.snapAt = none ∨ s.tally.actingG.any (·.snaps) = true → exec .tallySnapshotDone s = .next s) ∧
  (∀ (s : State) m (j : Fin 16) v, s.Takes m .tally (0x800 + 0x40 * j.val) → ∃ t, exec (.probeCtrlWrite m j v) s = .next t ∧
    t.rd (PRB_CTRL j.val) = v &&& 0x1FFF ∧ t.rbit (PRB_STAT j.val) 16 = false ∧ Tbl.get (fun _ => 0) t.tally.wrote j.val = 0 ∧
    t.rd (PRB_WIDX j.val) = (if 2 ≤ getBits v 1 0 ∧ Tbl.get (fun _ => 0) s.tally.ringMode j.val ≠ 0 ∧ Tbl.get (fun _ => 0) s.tally.ringMode j.val ≠ getBits v 1 0 then 0
      else s.rd (PRB_WIDX j.val)) ∧ t.tally.buf = s.tally.buf) ∧
  (∀ (s : State) (j : Fin 16) r rest, Tbl.get (fun _ => []) s.tally.buf j.val = r :: rest → s.rbit (PRB_STAT j.val) 16 = false →
    (s.rbit (PRB_CTRL j.val) 2 = true ∨ (s.rd (PRB_WIDX j.val) - s.rd (PRB_RIDX j.val)).toNat < 2 ^ s.fld (PRB_RING_CFG j.val) 20 16) →
    s.qValid (76 + s.fld (PRB_RING_CFG j.val) 1 0) (s.fld (PRB_RING_CFG j.val) 15 8) = true →
    ((s.niOf (76 + s.fld (PRB_RING_CFG j.val) 1 0)).freeKey false = none ∨ s.roomFor (76 + s.fld (PRB_RING_CFG j.val) 1 0) (s.fld (PRB_RING_CFG j.val) 15 8) (if r.full then 2 else 1) = false →
      exec (.probeRecordWrite j) s = .next s) ∧
    (∀ k, (s.niOf (76 + s.fld (PRB_RING_CFG j.val) 1 0)).freeKey false = some k →
      s.roomFor (76 + s.fld (PRB_RING_CFG j.val) 1 0) (s.fld (PRB_RING_CFG j.val) 15 8) (if r.full then 2 else 1) = true → ∃ t, exec (.probeRecordWrite j) s = .next t ∧
      t.rd (PRB_WIDX j.val) = s.rd (PRB_WIDX j.val) + 1 ∧ Tbl.get (fun _ => []) t.tally.buf j.val = rest ∧
      Tbl.get (fun _ => false) t.tally.gap j.val = false ∧
      ((t.niOf (76 + s.fld (PRB_RING_CFG j.val) 1 0)).led k).owner = .probe j.val)) ∧
  (∀ (s : State) (j : Fin 16) r rest, Tbl.get (fun _ => []) s.tally.buf j.val = r :: rest → s.rbit (PRB_STAT j.val) 16 = false →
    s.rbit (PRB_CTRL j.val) 2 = false → 2 ^ s.fld (PRB_RING_CFG j.val) 20 16 ≤ (s.rd (PRB_WIDX j.val) - s.rd (PRB_RIDX j.val)).toNat →
    ∃ t, exec (.probeRecordWrite j) s = .next t ∧ Tbl.get (fun _ => []) t.tally.buf j.val = rest ∧ Tbl.get (fun _ => false) t.tally.gap j.val = true ∧
      t.fld (PRB_STAT j.val) 15 0 = min (s.fld (PRB_STAT j.val) 15 0 + 1) 65535 ∧ t.rd (PRB_WIDX j.val) = s.rd (PRB_WIDX j.val) ∧ t.ni = s.ni) ∧
  (∀ (s : State) (j : Fin 16) r rest, Tbl.get (fun _ => []) s.tally.buf j.val = r :: rest → s.rbit (PRB_STAT j.val) 16 = true → exec (.probeRecordWrite j) s =
    .next { s with tally := { s.tally with buf := Tbl.set (fun _ => []) j.val rest s.tally.buf } }) ∧
  (∀ (s : State) (j : Fin 16), Tbl.get (fun _ => []) s.tally.buf j.val = [] → exec (.probeRecordWrite j) s = .next s)

/-- Cruise starts a sweep once its period has passed and publishes the record of every NI and router at its end. Foreman evaluates once after a sweep: with authority it lowers the rate
of a congested NI by a step, not below its limit; with nothing to act on it counts no action. A variant it has loaded is armed for a later time and its sequence ends. Gleaner begins a write-back of a corrected entry where write-back is on,
and of a poisoned one where it cannot correct it, and counts both; a write-back (MODEL'S CHOICE, log 101: at the next management cycle) takes effect if the entry is still what was read, else it is dropped and counted; a pass past its period is flagged; a reported entry is read again. The audit, which measures a crossing once in an interval, flags one whose latency is not 3 to 6 cycles. With
nothing due nothing happens. -/
def Obligations.BackgroundEngines : Prop :=
  (∀ (s : State), s.engRuns = true → s.eng.sweepFrom = none → s.rbit CLK_STAT 2 = false → s.sweepPeriod ≤ (s.time.now - s.eng.lastSweep).toNat →
    exec .cruiseSweep s = .next { s with eng := { s.eng with sweepFrom := some s.mc, lastSweep := s.time.now, auth := s.fld FM_CTRL 1 0 } }) ∧
  (∀ (s : State), (s.eng.sweepFrom.isSome = true ∨ (s.time.now - s.eng.lastSweep).toNat < s.sweepPeriod) → exec .cruiseSweep s = .next s) ∧
  (∀ (s : State) c, s.engRuns = true → s.eng.sweepFrom = some c → ∃ t, exec .cruiseSweepDone s = .next t ∧ (∀ n, n < 87 → t.rd (CRU_NI n) = s.cruNi n) ∧
    (∀ k, k < 56 → t.rd (CRU_RTR k) = s.cruRtr k (s.fc - s.eng.sampleFc)) ∧ t.rd CRU_STAT = s.rd CRU_STAT + 1 ∧
    t.rd CRU_TIME_LO = BitVec.ofNat 32 s.nowNs ∧ t.eng.sweepFrom = none ∧ t.eng.sweeps = s.eng.sweeps + 1 ∧ t.eng.evalDue = s.fmOn ∧
    t.eng.sampleFc = s.fc ∧ t.ni = s.ni ∧ t.rtr = s.rtr) ∧
  (∀ (s : State), s.eng.sweepFrom = none → exec .cruiseSweepDone s = .next s) ∧
  (∀ (s : State), s.engRuns = true → s.eng.evalDue = true → s.fclkDead = false → s.fmOn = true → s.fmNis = [] → s.varWanted = none →
    exec .foremanEvaluate s = .next (({ s with eng := { s.eng with evalDue := false } } : State).setFld FM_STAT 15 0 0)) ∧
  (∀ (s : State) (n : Fin 81) r, s.engRuns = true → s.eng.evalDue = true → s.fclkDead = false → s.fmOn = true → 2 ≤ s.eng.auth → s.fmNis = [n.val] →
    s.feat fDEVLOAD = false → s.varWanted = none → s.rbit (ARB_CTRL n.val) 0 = false → s.marksNow.req = [] → s.hung = [] → s.tileOn (niTile n.val) = true →
    s.rbit (pageBase (niPage n.val) + 0x10) 0 = true → s.fmBlocked (INJ_THR n.val) = false → 0 < s.fld FM_CTRL 15 8 →
    s.fld FM_POL0 7 0 ≤ s.fld CRU_G 7 0 → s.fld FM_POL1 7 0 ≤ s.fld (CRU_NI n.val) 15 8 →
    r = max (s.fld (INJ_THR n.val) 8 0 - s.fld FM_POL1 24 16) (s.fld FM_THR_LIM 8 0) → r < s.fld (INJ_THR n.val) 8 0 →
    ∃ t, exec .foremanEvaluate s = .next t ∧ t.fld (INJ_THR n.val) 8 0 = r ∧ t.fld FM_STAT 7 0 = 1 ∧ t.fld FM_STAT 15 8 = 0 ∧ t.eng.evalDue = false) ∧
  (∀ (s : State), s.eng.evalDue = false → exec .foremanEvaluate s = .next s) ∧
  (∀ (s : State) u sec r d, s.engRuns = true → s.eng.varStep = 2 → s.fmOn = true → s.eng.auth = 3 → s.feat fSCHEDULED = true → s.hung = [] → s.marksNow.req = [] →
    s.rbit 0x7010 0 = true → s.swState = 1 → s.mode = .scheduled → s.fld TIME_STAT 3 2 = 2 →
    u = ((s.wr SW_TGT_SUB (BitVec.ofNat 32 (s.varTarget % 65536))).wr SW_TGT_LO (BitVec.ofNat 32 (s.varTarget / 65536))).wr SW_TGT_HI
      (BitVec.ofNat 32 (s.varTarget / 2 ^ 48)) → s.varTarget < 2 ^ 80 →
    u.swStamp = (sec, r) → u.fcUntil sec r = some d → 2048 ≤ d →
    ∃ t, exec .foremanVariantArm s = .next t ∧ t.swState = 2 ∧ t.fld SW_STAT 11 9 = 5 ∧ t.fld SW_IDX 21 0 = r % 2 ^ 22 ∧ t.eng.varStep = 0 ∧
      t.rbit FM_STAT 24 = false ∧ t.rd SW_TGT_LO = u.rd SW_TGT_LO ∧ t.rd SW_TGT_HI = u.rd SW_TGT_HI) ∧
  (∀ (s : State), s.eng.varStep ≠ 2 → exec .foremanVariantArm s = .next s) ∧
  (∀ (s : State) i, s.glnRuns = true → i < 16384 → s.hung = [] → (s.dom 63).cut = false → ∃ t, exec (.gleanerRead .routeStore i) s = .next t ∧
    t.eng.glnWb = s.eng.glnWb ++ (List.range 8).flatMap (fun c => match readEntry ((s.bankOf c).at i) with
      | (some _, false) => []
      | (some e, true) => if s.rbit GLN_CTRL 1 then [{ table := .routeStore, bank := c, idx := i, old := (s.bankOf c).at i, new := storeEntry e 0 }] else []
      | (none, _) => [{ table := .routeStore, bank := c, idx := i, old := (s.bankOf c).at i, new := poisoned ((s.bankOf c).at i) }]) ∧
    t.banks = s.banks ∧ t.rules = s.rules) ∧
  (∀ (s : State) i, s.glnRuns = true → i < 8192 → s.hung = [] → (s.dom 63).cut = false → ∃ t, exec (.gleanerRead .rule i) s = .next t ∧
    (∀ e, readEntry (s.rules.at i) = (some e, false) → t.eng.glnWb = s.eng.glnWb ∧ t.rd GLN_ERR = s.rd GLN_ERR) ∧
    (∀ e, readEntry (s.rules.at i) = (some e, true) → s.rbit GLN_CTRL 1 = true → t.fld GLN_ERR 15 0 = min (s.fld GLN_ERR 15 0 + 1) 65535 ∧
      t.eng.glnWb = s.eng.glnWb ++ [{ table := .rule, idx := i, old := s.rules.at i, new := storeEntry e 0 }]) ∧
    (∀ b, readEntry (s.rules.at i) = (none, b) → t.fld GLN_ERR 31 16 = min (s.fld GLN_ERR 31 16 + 1) 65535 ∧
      t.eng.glnWb = s.eng.glnWb ++ [{ table := .rule, idx := i, old := s.rules.at i, new := poisoned (s.rules.at i) }] ∧
      (s.rbit GLN_UE_FIRST 31 = false → t.fld GLN_UE_FIRST 2 0 = 3 ∧ t.fld GLN_UE_FIRST 24 6 = i)) ∧ t.rules = s.rules ∧ t.banks = s.banks) ∧
  (∀ (s : State) w, s.eng.glnWb = [w] → w.table = .routeStore → w.bank < 8 → w.idx < 16384 → s.hung = [] → (s.dom 63).cut = false →
    ∃ t, s.glnFlush = t ∧ t.eng.glnWb = [] ∧ t.rules = s.rules ∧ (if (s.bankOf w.bank).at w.idx = w.old
      then (t.bankOf w.bank).at w.idx = w.new ∧ t.rd GLN_SKIP = s.rd GLN_SKIP ∧
        (∀ c j, c ≠ w.bank ∨ j ≠ w.idx → (t.bankOf c).at j = (s.bankOf c).at j)
      else t.banks = s.banks ∧ t.fld GLN_SKIP 15 0 = min (s.fld GLN_SKIP 15 0 + 1) 65535)) ∧
  (∀ (s : State) tb i, s.glnRuns = false → exec (.gleanerRead tb i) s = .next s) ∧
  (∀ (s : State) tb, s.glnRuns = true → Tbl.get (fun _ => 0) s.eng.glnRead (glnNum tb) ≠ 0 →
    Tbl.get (fun _ => 0) s.eng.glnStart (glnNum tb) + s.glnPeriod tb ≤ s.mc → ∃ t, exec (.gleanerPassOverrun tb) s = .next t ∧
      t.rbit GLN_STAT (glnNum tb) = true ∧ { t with regs := s.regs, notes := s.notes } = s) ∧
  (∀ (s : State) tb, Tbl.get (fun _ => 0) s.eng.glnRead (glnNum tb) = 0 → exec (.gleanerPassOverrun tb) s = .next s) ∧
  (∀ (s : State) (c : Fin 8) i rest, s.glnRuns = true → Tbl.get (fun _ => []) s.eng.glnQueue c.val = i :: rest → s.hung = [] →
    (s.dom 63).cut = false → ∃ t, exec (.gleanerReportReread c) s = .next t ∧
    Tbl.get (fun _ => []) t.eng.glnQueue c.val = rest ∧ t.banks = s.banks ∧
    t.eng.glnWb = s.eng.glnWb ++ (match readEntry ((s.bankOf c.val).at i) with
      | (some _, false) => []
      | (some e, true) => if s.rbit GLN_CTRL 1 then [{ table := .routeStore, bank := c.val, idx := i, old := (s.bankOf c.val).at i, new := storeEntry e 0 }] else []
      | (none, _) => [{ table := .routeStore, bank := c.val, idx := i, old := (s.bankOf c.val).at i, new := poisoned ((s.bankOf c.val).at i) }])) ∧
  (∀ (s : State) (c : Fin 8), Tbl.get (fun _ => []) s.eng.glnQueue c.val = [] → exec (.gleanerReportReread c) s = .next s) ∧
  (∀ (s : State) (n : Fin 81) dir c, s.audRuns n.val = true → s.audDue (2 * n.val + flag dir) = true → 3 ≤ c → c ≤ 6 → ∃ t, exec (.cdcAuditMeasure n dir c) s = .next t ∧
    Tbl.get (fun _ => false) t.eng.audBad (2 * n.val + flag dir) = false ∧ t.jq = s.jq ∧ (∀ a, a ≠ CAL_AUD_MM → t.rd a = s.rd a) ∧
    (s.fld CAL_AUD_SEL 6 0 = n.val → s.rbit CAL_AUD_SEL 7 = dir → t.fld CAL_AUD_MM 3 0 = min (s.fld CAL_AUD_MM 3 0) c ∧
      t.fld CAL_AUD_MM 7 4 = max (s.fld CAL_AUD_MM 7 4) c)) ∧
  (∀ (s : State) (n : Fin 81) dir c, s.audRuns n.val = true → s.audDue (2 * n.val + flag dir) = true → c < 3 ∨ 6 < c → ∃ t, exec (.cdcAuditMeasure n dir c) s = .next t ∧
    t.rbit (CAL_AUD_FLAG (n.val / 32)) (n.val % 32) = true ∧ (s.rbit CAL_AUD_FIRST 31 = false →
      t.rd CAL_AUD_FIRST = BitVec.ofNat 32 (n.val + flag dir * 2 ^ 7 + min c 15 * 2 ^ 8 + 2 ^ 31)) ∧
    (Tbl.get (fun _ => false) s.eng.audBad (2 * n.val + flag dir) = false →
      Tbl.get (fun _ => false) t.eng.audBad (2 * n.val + flag dir) = true)) ∧
  (∀ (s : State) (n : Fin 81) dir c, s.audRuns n.val = false ∨ s.audDue (2 * n.val + flag dir) = false → exec (.cdcAuditMeasure n dir c) s = .next s)

/-- At reset the bits 0 to 12 of FEAT_OFFER_HI:FEAT_OFFER_LO are 1 and the bits 13 to 63 are 0. With the registers at those values, a served read of FEAT_OFFER_LO by any master that has latched nothing there answers 0x1FFF and latches FEAT_OFFER_HI for
it, one of FEAT_OFFER_HI answers 0, and a served write of either leaves both words as they were. -/
def Obligations.OfferedFeatures : Prop :=
  (∀ i, i < 64 → (State.reset.rd FEAT_OFFER_HI ++ State.reset.rd FEAT_OFFER_LO).getLsbD i = decide (i ≤ 12)) ∧
  (∀ (s : State) m, s.Serves m false 0x120 (.page .global 0x120) → s.latch m.val 0x120 = none → s.rd FEAT_OFFER_LO = State.reset.rd FEAT_OFFER_LO →
    exec (.latchingRead m 0x120) s =
      .next (s.answered m 0x120 (.page .global 0x120) 0x1FFF fun u => u.setLatch m.val 0x124 (some (s.rd FEAT_OFFER_HI)))) ∧
  (∀ (s : State) m, s.Serves m false 0x124 (.page .global 0x124) → s.latch m.val 0x124 = none → s.rd FEAT_OFFER_HI = State.reset.rd FEAT_OFFER_HI →
    exec (.latchingRead m 0x124) s = .next (s.answered m 0x124 (.page .global 0x124) 0 id)) ∧
  (∀ (s : State) m (a : BitVec 26) v, a = 0x120 ∨ a = 0x124 → s.Serves m true a.toNat (.page .global a.toNat) →
    exec (.registerWrite m a v) s = .next (s.answered m a.toNat (.page .global a.toNat) 0 id))
end

