-- ==== Sys2Proof/Laws/Tbl.lean ====
section
/-! SUPPORT. The laws of the sparse tables: a read after a write, and that every operation keeps the canonical form. -/

namespace Sys2Proof.Machine
set_option Elab.async false

section
variable {α : Type} (d : Nat → α)

@[simp] theorem Tbl.get_nil (k : Nat) : Tbl.get d [] k = d k := rfl

@[simp] theorem Tbl.get_erase_self (k : Nat) (t : Tbl α) : Tbl.get d (Tbl.erase k t) k = d k := by
  induction t with
  | nil => rfl
  | cons x t ih =>
    obtain ⟨a, v⟩ := x
    by_cases h : a = k <;> simp [Tbl.erase, Tbl.get, h, ih]

theorem Tbl.get_erase_ne {j k : Nat} (h : j ≠ k) (t : Tbl α) : Tbl.get d (Tbl.erase k t) j = Tbl.get d t j := by
  induction t with
  | nil => rfl
  | cons x t ih =>
    obtain ⟨a, v⟩ := x
    by_cases hk : a = k
    · have hj : a ≠ j := fun e => h (e ▸ hk)
      simp only [Tbl.erase, Tbl.get, hk, if_true, ih]
      rw [if_neg (hk ▸ hj)]
    · simp only [Tbl.erase, hk, if_false, Tbl.get, ih]

/-- No entry of the table has key `k`. -/
def Tbl.lacks (k : Nat) (t : Tbl α) : Prop := ∀ x ∈ t, x.1 ≠ k

theorem Tbl.erase_lacks (k : Nat) (t : Tbl α) : Tbl.lacks k (Tbl.erase k t) := by
  induction t with
  | nil => intro x hx; cases hx
  | cons x t ih =>
    obtain ⟨a, v⟩ := x
    by_cases h : a = k
    · simpa [Tbl.erase, h] using ih
    · intro y hy
      simp only [Tbl.erase, h, if_false, List.mem_cons] at hy
      rcases hy with rfl | hy
      · exact h
      · exact ih y hy

theorem Tbl.get_insert_self (k : Nat) (v : α) (t : Tbl α) (h : Tbl.lacks k t) : Tbl.get d (Tbl.insert k v t) k = v := by
  induction t with
  | nil => simp [Tbl.insert, Tbl.get]
  | cons x t ih =>
    obtain ⟨a, w⟩ := x
    have ha : a ≠ k := h (a, w) (by simp)
    by_cases hlt : k < a
    · simp [Tbl.insert, Tbl.get, hlt]
    · simp only [Tbl.insert, hlt, if_false, Tbl.get, ha]
      exact ih fun y hy => h y (by simp [hy])

theorem Tbl.get_insert_ne {j k : Nat} (h : j ≠ k) (v : α) (t : Tbl α) :
    Tbl.get d (Tbl.insert k v t) j = Tbl.get d t j := by
  induction t with
  | nil => simp [Tbl.insert, Tbl.get, h.symm]
  | cons x t ih =>
    obtain ⟨a, w⟩ := x
    by_cases hlt : k < a
    · simp [Tbl.insert, Tbl.get, hlt, h.symm]
    · simp only [Tbl.insert, hlt, if_false, Tbl.get, ih]

/-- A read of a table of which some keys were kept. -/
theorem Tbl.get_keep (p : Nat → Bool) (t : Tbl α) (k : Nat) :
    Tbl.get d (Tbl.keep p t) k = if p k then Tbl.get d t k else d k := by
  induction t with
  | nil => simp [Tbl.keep]
  | cons x t ih =>
    obtain ⟨a, v⟩ := x
    by_cases hp : p a = true
    · by_cases hk : a = k
      · subst hk; simp [Tbl.keep, Tbl.get, hp]
      · simp [Tbl.keep, Tbl.get, hp, hk, ih]
    · by_cases hk : a = k
      · subst hk; simp [Tbl.keep, hp, ih]
      · simp [Tbl.keep, Tbl.get, hp, hk, ih]

variable [DecidableEq α]

/-- A read after a write to the same key. -/
@[simp] theorem Tbl.get_set_self (k : Nat) (v : α) (t : Tbl α) : Tbl.get d (Tbl.set d k v t) k = v := by
  unfold Tbl.set
  split
  · next h => simp [h]
  · exact Tbl.get_insert_self d k v _ (Tbl.erase_lacks k t)

/-- A write leaves every other key alone. -/
theorem Tbl.get_set_ne {j k : Nat} (h : j ≠ k) (v : α) (t : Tbl α) : Tbl.get d (Tbl.set d k v t) j = Tbl.get d t j := by
  unfold Tbl.set
  split
  · exact Tbl.get_erase_ne d h t
  · rw [Tbl.get_insert_ne d h, Tbl.get_erase_ne d h]

/-- A read after a write. -/
theorem Tbl.get_set (j k : Nat) (v : α) (t : Tbl α) :
    Tbl.get d (Tbl.set d k v t) j = if j = k then v else Tbl.get d t j := by
  split
  · next h => simp [h]
  · next h => exact Tbl.get_set_ne d h v t

/-! The canonical form -/

@[simp] theorem Tbl.wf_nil : Tbl.wf d [] = true := rfl

/-- Key `a` lies above a bound. -/
def Tbl.above (b : Option Nat) (a : Nat) : Prop := ∀ x, b = some x → x < a

theorem Tbl.wfFrom_cons (b : Option Nat) (a : Nat) (v : α) (t : Tbl α) :
    Tbl.wfFrom d b ((a, v) :: t) = true ↔ Tbl.above b a ∧ v ≠ d a ∧ Tbl.wfFrom d (some a) t = true := by
  cases b <;> simp [Tbl.wfFrom, Tbl.above, and_assoc]

theorem Tbl.wfFrom_lower {b c : Option Nat} (t : Tbl α) (h : ∀ a, Tbl.above c a → Tbl.above b a)
    (ht : Tbl.wfFrom d c t = true) : Tbl.wfFrom d b t = true := by
  cases t with
  | nil => rfl
  | cons x t =>
    obtain ⟨a, v⟩ := x
    rw [Tbl.wfFrom_cons] at ht ⊢
    exact ⟨h a ht.1, ht.2⟩

theorem Tbl.wfFrom_tail {b : Option Nat} {a : Nat} {v : α} {t : Tbl α} (h : Tbl.wfFrom d b ((a, v) :: t) = true) :
    Tbl.wfFrom d b t = true := by
  rw [Tbl.wfFrom_cons] at h
  refine Tbl.wfFrom_lower d t (fun c hc x hx => ?_) h.2.2
  exact Nat.lt_trans (h.1 x hx) (hc a rfl)

theorem Tbl.wfFrom_erase (k : Nat) (t : Tbl α) (b : Option Nat) (h : Tbl.wfFrom d b t = true) :
    Tbl.wfFrom d b (Tbl.erase k t) = true := by
  induction t generalizing b with
  | nil => rfl
  | cons x t ih =>
    obtain ⟨a, v⟩ := x
    by_cases hk : a = k
    · simpa [Tbl.erase, hk] using ih b (Tbl.wfFrom_tail d h)
    · rw [Tbl.wfFrom_cons] at h
      simp only [Tbl.erase, hk, if_false]
      rw [Tbl.wfFrom_cons]
      exact ⟨h.1, h.2.1, ih _ h.2.2⟩

theorem Tbl.wfFrom_insert (k : Nat) (v : α) (hv : v ≠ d k) (t : Tbl α) (b : Option Nat) (hb : Tbl.above b k)
    (hl : Tbl.lacks k t) (h : Tbl.wfFrom d b t = true) : Tbl.wfFrom d b (Tbl.insert k v t) = true := by
  induction t generalizing b with
  | nil => simp only [Tbl.insert]; rw [Tbl.wfFrom_cons]; exact ⟨hb, hv, rfl⟩
  | cons x t ih =>
    obtain ⟨a, w⟩ := x
    rw [Tbl.wfFrom_cons] at h
    have ha : a ≠ k := hl (a, w) (by simp)
    by_cases hlt : k < a
    · simp only [Tbl.insert, hlt, if_true]
      rw [Tbl.wfFrom_cons, Tbl.wfFrom_cons]
      exact ⟨hb, hv, fun y hy => by cases hy; exact hlt, h.2⟩
    · simp only [Tbl.insert, hlt, if_false]
      rw [Tbl.wfFrom_cons]
      refine ⟨h.1, h.2.1, ih _ (fun y hy => by cases hy; omega) (fun y hy => hl y (by simp [hy])) h.2.2⟩

/-- A write keeps the canonical form. -/
theorem Tbl.wf_set (k : Nat) (v : α) (t : Tbl α) (h : Tbl.wf d t = true) : Tbl.wf d (Tbl.set d k v t) = true := by
  unfold Tbl.set
  split
  · exact Tbl.wfFrom_erase d k t none h
  · next hv =>
    exact Tbl.wfFrom_insert d k v hv _ none (fun x hx => by cases hx) (Tbl.erase_lacks k t)
      (Tbl.wfFrom_erase d k t none h)

theorem Tbl.wf_erase (k : Nat) (t : Tbl α) (h : Tbl.wf d t = true) : Tbl.wf d (Tbl.erase k t) = true :=
  Tbl.wfFrom_erase d k t none h

/-- A change of one key keeps the canonical form. -/
theorem Tbl.wf_upd (k : Nat) (f : α → α) (t : Tbl α) (h : Tbl.wf d t = true) : Tbl.wf d (Tbl.upd d k f t) = true :=
  Tbl.wf_set d k _ t h

theorem Tbl.wfFrom_keep (p : Nat → Bool) (t : Tbl α) (b : Option Nat) (h : Tbl.wfFrom d b t = true) :
    Tbl.wfFrom d b (Tbl.keep p t) = true := by
  induction t generalizing b with
  | nil => rfl
  | cons x t ih =>
    obtain ⟨a, v⟩ := x
    by_cases hp : p a = true
    · rw [Tbl.wfFrom_cons] at h
      simp only [Tbl.keep, hp, if_true]
      rw [Tbl.wfFrom_cons]
      exact ⟨h.1, h.2.1, ih _ h.2.2⟩
    · simpa [Tbl.keep, hp] using ih b (Tbl.wfFrom_tail d h)

theorem Tbl.wfFrom_filter (p : Nat × α → Bool) (t : Tbl α) (b : Option Nat) (h : Tbl.wfFrom d b t = true) :
    Tbl.wfFrom d b (t.filter p) = true := by
  induction t generalizing b with
  | nil => rfl
  | cons x t ih =>
    obtain ⟨a, v⟩ := x
    rw [List.filter_cons]
    split
    · rw [Tbl.wfFrom_cons] at h ⊢
      exact ⟨h.1, h.2.1, ih _ h.2.2⟩
    · exact ih b (Tbl.wfFrom_tail d h)

/-- Keeping some entries keeps the canonical form. -/
theorem Tbl.wf_filter (p : Nat × α → Bool) (t : Tbl α) (h : Tbl.wf d t = true) : Tbl.wf d (t.filter p) = true :=
  Tbl.wfFrom_filter d p t none h

/-- Keeping some keys keeps the canonical form. -/
theorem Tbl.wf_keep (p : Nat → Bool) (t : Tbl α) (h : Tbl.wf d t = true) : Tbl.wf d (Tbl.keep p t) = true :=
  Tbl.wfFrom_keep d p t none h

theorem Tbl.wfFrom_mapWith (f : Nat → α → α) (t : Tbl α) (b : Option Nat) (h : Tbl.wfFrom d b t = true) :
    Tbl.wfFrom d b (Tbl.mapWith d f t) = true := by
  induction t generalizing b with
  | nil => rfl
  | cons x t ih =>
    obtain ⟨a, v⟩ := x
    by_cases hf : f a v = d a
    · simpa [Tbl.mapWith, hf] using ih b (Tbl.wfFrom_tail d h)
    · rw [Tbl.wfFrom_cons] at h
      simp only [Tbl.mapWith, hf, if_false]
      rw [Tbl.wfFrom_cons]
      exact ⟨h.1, hf, ih _ h.2.2⟩

/-- A change of every entry keeps the canonical form. -/
theorem Tbl.wf_mapWith (f : Nat → α → α) (t : Tbl α) (h : Tbl.wf d t = true) : Tbl.wf d (Tbl.mapWith d f t) = true :=
  Tbl.wfFrom_mapWith d f t none h

end

end Sys2Proof.Machine
end

