-- ==== Sys2Proof/Laws/State.lean ====
section
/-! SUPPORT. What each named update of the state leaves as it is: one lemma for each field. -/

namespace Sys2Proof.Machine
set_option Elab.async false

@[simp] theorem State.wr_pending (s : State) (a : Nat) (v : Word) : (s.wr a v).pending = s.pending := rfl
@[simp] theorem State.wr_fc (s : State) (a : Nat) (v : Word) : (s.wr a v).fc = s.fc := rfl
@[simp] theorem State.wr_mc (s : State) (a : Nat) (v : Word) : (s.wr a v).mc = s.mc := rfl
@[simp] theorem State.wr_mAcc (s : State) (a : Nat) (v : Word) : (s.wr a v).mAcc = s.mAcc := rfl
@[simp] theorem State.wr_tAcc (s : State) (a : Nat) (v : Word) : (s.wr a v).tAcc = s.tAcc := rfl
@[simp] theorem State.wr_fclkMHz (s : State) (a : Nat) (v : Word) : (s.wr a v).fclkMHz = s.fclkMHz := rfl
@[simp] theorem State.wr_tclkMHz (s : State) (a : Nat) (v : Word) : (s.wr a v).tclkMHz = s.tclkMHz := rfl
@[simp] theorem State.wr_draws (s : State) (a : Nat) (v : Word) : (s.wr a v).draws = s.draws := rfl
@[simp] theorem State.wr_time (s : State) (a : Nat) (v : Word) : (s.wr a v).time = s.time := rfl
@[simp] theorem State.wr_niAlive (s : State) (a : Nat) (v : Word) : (s.wr a v).niAlive = s.niAlive := rfl
@[simp] theorem State.wr_quiesceAck (s : State) (a : Nat) (v : Word) : (s.wr a v).quiesceAck = s.quiesceAck := rfl
@[simp] theorem State.wr_quiesceReq (s : State) (a : Nat) (v : Word) : (s.wr a v).quiesceReq = s.quiesceReq := rfl
@[simp] theorem State.wr_pwrOk (s : State) (a : Nat) (v : Word) : (s.wr a v).pwrOk = s.pwrOk := rfl
@[simp] theorem State.wr_held (s : State) (a : Nat) (v : Word) : (s.wr a v).held = s.held := rfl
@[simp] theorem State.wr_coldPin (s : State) (a : Nat) (v : Word) : (s.wr a v).coldPin = s.coldPin := rfl
@[simp] theorem State.wr_warmPin (s : State) (a : Nat) (v : Word) : (s.wr a v).warmPin = s.warmPin := rfl
@[simp] theorem State.wr_efuse (s : State) (a : Nat) (v : Word) : (s.wr a v).efuse = s.efuse := rfl
@[simp] theorem State.wr_fuseShadow (s : State) (a : Nat) (v : Word) : (s.wr a v).fuseShadow = s.fuseShadow := rfl
@[simp] theorem State.wr_tdo (s : State) (a : Nat) (v : Word) : (s.wr a v).tdo = s.tdo := rfl
@[simp] theorem State.wr_wso (s : State) (a : Nat) (v : Word) : (s.wr a v).wso = s.wso := rfl
@[simp] theorem State.wr_mode (s : State) (a : Nat) (v : Word) : (s.wr a v).mode = s.mode := rfl
@[simp] theorem State.wr_change (s : State) (a : Nat) (v : Word) : (s.wr a v).change = s.change := rfl
@[simp] theorem State.wr_frozenAt (s : State) (a : Nat) (v : Word) : (s.wr a v).frozenAt = s.frozenAt := rfl
@[simp] theorem State.wr_testLock (s : State) (a : Nat) (v : Word) : (s.wr a v).testLock = s.testLock := rfl
@[simp] theorem State.wr_latches (s : State) (a : Nat) (v : Word) : (s.wr a v).latches = s.latches := rfl
@[simp] theorem State.wr_notes (s : State) (a : Nat) (v : Word) : (s.wr a v).notes = s.notes := rfl
@[simp] theorem State.wr_hlPend (s : State) (a : Nat) (v : Word) : (s.wr a v).hlPend = s.hlPend := rfl
@[simp] theorem State.wr_hung (s : State) (a : Nat) (v : Word) : (s.wr a v).hung = s.hung := rfl
@[simp] theorem State.wr_hlAns (s : State) (a : Nat) (v : Word) : (s.wr a v).hlAns = s.hlAns := rfl
@[simp] theorem State.wr_banks (s : State) (a : Nat) (v : Word) : (s.wr a v).banks = s.banks := rfl
@[simp] theorem State.wr_rules (s : State) (a : Nat) (v : Word) : (s.wr a v).rules = s.rules := rfl
@[simp] theorem State.wr_sw (s : State) (a : Nat) (v : Word) : (s.wr a v).sw = s.sw := rfl
@[simp] theorem State.wr_loader (s : State) (a : Nat) (v : Word) : (s.wr a v).loader = s.loader := rfl
@[simp] theorem State.wr_flows (s : State) (a : Nat) (v : Word) : (s.wr a v).flows = s.flows := rfl
@[simp] theorem State.wr_shRate (s : State) (a : Nat) (v : Word) : (s.wr a v).shRate = s.shRate := rfl
@[simp] theorem State.wr_ni (s : State) (a : Nat) (v : Word) : (s.wr a v).ni = s.ni := rfl
@[simp] theorem State.wr_rtr (s : State) (a : Nat) (v : Word) : (s.wr a v).rtr = s.rtr := rfl
@[simp] theorem State.wr_links (s : State) (a : Nat) (v : Word) : (s.wr a v).links = s.links := rfl
@[simp] theorem State.wr_creds (s : State) (a : Nat) (v : Word) : (s.wr a v).creds = s.creds := rfl
@[simp] theorem State.wr_lni (s : State) (a : Nat) (v : Word) : (s.wr a v).lni = s.lni := rfl
@[simp] theorem State.wr_skw (s : State) (a : Nat) (v : Word) : (s.wr a v).skw = s.skw := rfl
@[simp] theorem State.wr_parts (s : State) (a : Nat) (v : Word) : (s.wr a v).parts = s.parts := rfl
@[simp] theorem State.wr_boom (s : State) (a : Nat) (v : Word) : (s.wr a v).boom = s.boom := rfl
@[simp] theorem State.wr_boomEvts (s : State) (a : Nat) (v : Word) : (s.wr a v).boomEvts = s.boomEvts := rfl
@[simp] theorem State.wr_mclkOff (s : State) (a : Nat) (v : Word) : (s.wr a v).mclkOff = s.mclkOff := rfl
@[simp] theorem State.wr_warmUntil (s : State) (a : Nat) (v : Word) : (s.wr a v).warmUntil = s.warmUntil := rfl
@[simp] theorem State.wr_jq (s : State) (a : Nat) (v : Word) : (s.wr a v).jq = s.jq := rfl
@[simp] theorem State.wr_jring (s : State) (a : Nat) (v : Word) : (s.wr a v).jring = s.jring := rfl
@[simp] theorem State.wr_jgap (s : State) (a : Nat) (v : Word) : (s.wr a v).jgap = s.jgap := rfl
@[simp] theorem State.wr_jmc (s : State) (a : Nat) (v : Word) : (s.wr a v).jmc = s.jmc := rfl
@[simp] theorem State.wr_due (s : State) (a : Nat) (v : Word) : (s.wr a v).due = s.due := rfl
@[simp] theorem State.wr_wins (s : State) (a : Nat) (v : Word) : (s.wr a v).wins = s.wins := rfl
@[simp] theorem State.wr_escWait (s : State) (a : Nat) (v : Word) : (s.wr a v).escWait = s.escWait := rfl
@[simp] theorem State.wr_eng (s : State) (a : Nat) (v : Word) : (s.wr a v).eng = s.eng := rfl
@[simp] theorem State.wr_tally (s : State) (a : Nat) (v : Word) : (s.wr a v).tally = s.tally := rfl

@[simp] theorem State.setFld_pending (s : State) (a hi lo v : Nat) : (s.setFld a hi lo v).pending = s.pending := rfl
@[simp] theorem State.setFld_fc (s : State) (a hi lo v : Nat) : (s.setFld a hi lo v).fc = s.fc := rfl
@[simp] theorem State.setFld_mc (s : State) (a hi lo v : Nat) : (s.setFld a hi lo v).mc = s.mc := rfl
@[simp] theorem State.setFld_mAcc (s : State) (a hi lo v : Nat) : (s.setFld a hi lo v).mAcc = s.mAcc := rfl
@[simp] theorem State.setFld_tAcc (s : State) (a hi lo v : Nat) : (s.setFld a hi lo v).tAcc = s.tAcc := rfl
@[simp] theorem State.setFld_fclkMHz (s : State) (a hi lo v : Nat) : (s.setFld a hi lo v).fclkMHz = s.fclkMHz := rfl
@[simp] theorem State.setFld_tclkMHz (s : State) (a hi lo v : Nat) : (s.setFld a hi lo v).tclkMHz = s.tclkMHz := rfl
@[simp] theorem State.setFld_draws (s : State) (a hi lo v : Nat) : (s.setFld a hi lo v).draws = s.draws := rfl
@[simp] theorem State.setFld_time (s : State) (a hi lo v : Nat) : (s.setFld a hi lo v).time = s.time := rfl
@[simp] theorem State.setFld_niAlive (s : State) (a hi lo v : Nat) : (s.setFld a hi lo v).niAlive = s.niAlive := rfl
@[simp] theorem State.setFld_quiesceAck (s : State) (a hi lo v : Nat) : (s.setFld a hi lo v).quiesceAck = s.quiesceAck := rfl
@[simp] theorem State.setFld_quiesceReq (s : State) (a hi lo v : Nat) : (s.setFld a hi lo v).quiesceReq = s.quiesceReq := rfl
@[simp] theorem State.setFld_pwrOk (s : State) (a hi lo v : Nat) : (s.setFld a hi lo v).pwrOk = s.pwrOk := rfl
@[simp] theorem State.setFld_held (s : State) (a hi lo v : Nat) : (s.setFld a hi lo v).held = s.held := rfl
@[simp] theorem State.setFld_coldPin (s : State) (a hi lo v : Nat) : (s.setFld a hi lo v).coldPin = s.coldPin := rfl
@[simp] theorem State.setFld_warmPin (s : State) (a hi lo v : Nat) : (s.setFld a hi lo v).warmPin = s.warmPin := rfl
@[simp] theorem State.setFld_efuse (s : State) (a hi lo v : Nat) : (s.setFld a hi lo v).efuse = s.efuse := rfl
@[simp] theorem State.setFld_fuseShadow (s : State) (a hi lo v : Nat) : (s.setFld a hi lo v).fuseShadow = s.fuseShadow := rfl
@[simp] theorem State.setFld_tdo (s : State) (a hi lo v : Nat) : (s.setFld a hi lo v).tdo = s.tdo := rfl
@[simp] theorem State.setFld_wso (s : State) (a hi lo v : Nat) : (s.setFld a hi lo v).wso = s.wso := rfl
@[simp] theorem State.setFld_mode (s : State) (a hi lo v : Nat) : (s.setFld a hi lo v).mode = s.mode := rfl
@[simp] theorem State.setFld_change (s : State) (a hi lo v : Nat) : (s.setFld a hi lo v).change = s.change := rfl
@[simp] theorem State.setFld_frozenAt (s : State) (a hi lo v : Nat) : (s.setFld a hi lo v).frozenAt = s.frozenAt := rfl
@[simp] theorem State.setFld_testLock (s : State) (a hi lo v : Nat) : (s.setFld a hi lo v).testLock = s.testLock := rfl
@[simp] theorem State.setFld_latches (s : State) (a hi lo v : Nat) : (s.setFld a hi lo v).latches = s.latches := rfl
@[simp] theorem State.setFld_notes (s : State) (a hi lo v : Nat) : (s.setFld a hi lo v).notes = s.notes := rfl
@[simp] theorem State.setFld_hlPend (s : State) (a hi lo v : Nat) : (s.setFld a hi lo v).hlPend = s.hlPend := rfl
@[simp] theorem State.setFld_hung (s : State) (a hi lo v : Nat) : (s.setFld a hi lo v).hung = s.hung := rfl
@[simp] theorem State.setFld_hlAns (s : State) (a hi lo v : Nat) : (s.setFld a hi lo v).hlAns = s.hlAns := rfl
@[simp] theorem State.setFld_banks (s : State) (a hi lo v : Nat) : (s.setFld a hi lo v).banks = s.banks := rfl
@[simp] theorem State.setFld_rules (s : State) (a hi lo v : Nat) : (s.setFld a hi lo v).rules = s.rules := rfl
@[simp] theorem State.setFld_sw (s : State) (a hi lo v : Nat) : (s.setFld a hi lo v).sw = s.sw := rfl
@[simp] theorem State.setFld_loader (s : State) (a hi lo v : Nat) : (s.setFld a hi lo v).loader = s.loader := rfl
@[simp] theorem State.setFld_flows (s : State) (a hi lo v : Nat) : (s.setFld a hi lo v).flows = s.flows := rfl
@[simp] theorem State.setFld_shRate (s : State) (a hi lo v : Nat) : (s.setFld a hi lo v).shRate = s.shRate := rfl
@[simp] theorem State.setFld_ni (s : State) (a hi lo v : Nat) : (s.setFld a hi lo v).ni = s.ni := rfl
@[simp] theorem State.setFld_rtr (s : State) (a hi lo v : Nat) : (s.setFld a hi lo v).rtr = s.rtr := rfl
@[simp] theorem State.setFld_links (s : State) (a hi lo v : Nat) : (s.setFld a hi lo v).links = s.links := rfl
@[simp] theorem State.setFld_creds (s : State) (a hi lo v : Nat) : (s.setFld a hi lo v).creds = s.creds := rfl
@[simp] theorem State.setFld_lni (s : State) (a hi lo v : Nat) : (s.setFld a hi lo v).lni = s.lni := rfl
@[simp] theorem State.setFld_skw (s : State) (a hi lo v : Nat) : (s.setFld a hi lo v).skw = s.skw := rfl
@[simp] theorem State.setFld_parts (s : State) (a hi lo v : Nat) : (s.setFld a hi lo v).parts = s.parts := rfl
@[simp] theorem State.setFld_boom (s : State) (a hi lo v : Nat) : (s.setFld a hi lo v).boom = s.boom := rfl
@[simp] theorem State.setFld_boomEvts (s : State) (a hi lo v : Nat) : (s.setFld a hi lo v).boomEvts = s.boomEvts := rfl
@[simp] theorem State.setFld_mclkOff (s : State) (a hi lo v : Nat) : (s.setFld a hi lo v).mclkOff = s.mclkOff := rfl
@[simp] theorem State.setFld_warmUntil (s : State) (a hi lo v : Nat) : (s.setFld a hi lo v).warmUntil = s.warmUntil := rfl
@[simp] theorem State.setFld_jq (s : State) (a hi lo v : Nat) : (s.setFld a hi lo v).jq = s.jq := rfl
@[simp] theorem State.setFld_jring (s : State) (a hi lo v : Nat) : (s.setFld a hi lo v).jring = s.jring := rfl
@[simp] theorem State.setFld_jgap (s : State) (a hi lo v : Nat) : (s.setFld a hi lo v).jgap = s.jgap := rfl
@[simp] theorem State.setFld_jmc (s : State) (a hi lo v : Nat) : (s.setFld a hi lo v).jmc = s.jmc := rfl
@[simp] theorem State.setFld_due (s : State) (a hi lo v : Nat) : (s.setFld a hi lo v).due = s.due := rfl
@[simp] theorem State.setFld_wins (s : State) (a hi lo v : Nat) : (s.setFld a hi lo v).wins = s.wins := rfl
@[simp] theorem State.setFld_escWait (s : State) (a hi lo v : Nat) : (s.setFld a hi lo v).escWait = s.escWait := rfl
@[simp] theorem State.setFld_eng (s : State) (a hi lo v : Nat) : (s.setFld a hi lo v).eng = s.eng := rfl
@[simp] theorem State.setFld_tally (s : State) (a hi lo v : Nat) : (s.setFld a hi lo v).tally = s.tally := rfl

@[simp] theorem State.setNi_pending (s : State) (n : Nat) (x : Ni) : (s.setNi n x).pending = s.pending := rfl
@[simp] theorem State.setNi_fc (s : State) (n : Nat) (x : Ni) : (s.setNi n x).fc = s.fc := rfl
@[simp] theorem State.setNi_mc (s : State) (n : Nat) (x : Ni) : (s.setNi n x).mc = s.mc := rfl
@[simp] theorem State.setNi_mAcc (s : State) (n : Nat) (x : Ni) : (s.setNi n x).mAcc = s.mAcc := rfl
@[simp] theorem State.setNi_tAcc (s : State) (n : Nat) (x : Ni) : (s.setNi n x).tAcc = s.tAcc := rfl
@[simp] theorem State.setNi_fclkMHz (s : State) (n : Nat) (x : Ni) : (s.setNi n x).fclkMHz = s.fclkMHz := rfl
@[simp] theorem State.setNi_tclkMHz (s : State) (n : Nat) (x : Ni) : (s.setNi n x).tclkMHz = s.tclkMHz := rfl
@[simp] theorem State.setNi_draws (s : State) (n : Nat) (x : Ni) : (s.setNi n x).draws = s.draws := rfl
@[simp] theorem State.setNi_time (s : State) (n : Nat) (x : Ni) : (s.setNi n x).time = s.time := rfl
@[simp] theorem State.setNi_niAlive (s : State) (n : Nat) (x : Ni) : (s.setNi n x).niAlive = s.niAlive := rfl
@[simp] theorem State.setNi_quiesceAck (s : State) (n : Nat) (x : Ni) : (s.setNi n x).quiesceAck = s.quiesceAck := rfl
@[simp] theorem State.setNi_quiesceReq (s : State) (n : Nat) (x : Ni) : (s.setNi n x).quiesceReq = s.quiesceReq := rfl
@[simp] theorem State.setNi_pwrOk (s : State) (n : Nat) (x : Ni) : (s.setNi n x).pwrOk = s.pwrOk := rfl
@[simp] theorem State.setNi_held (s : State) (n : Nat) (x : Ni) : (s.setNi n x).held = s.held := rfl
@[simp] theorem State.setNi_coldPin (s : State) (n : Nat) (x : Ni) : (s.setNi n x).coldPin = s.coldPin := rfl
@[simp] theorem State.setNi_warmPin (s : State) (n : Nat) (x : Ni) : (s.setNi n x).warmPin = s.warmPin := rfl
@[simp] theorem State.setNi_efuse (s : State) (n : Nat) (x : Ni) : (s.setNi n x).efuse = s.efuse := rfl
@[simp] theorem State.setNi_fuseShadow (s : State) (n : Nat) (x : Ni) : (s.setNi n x).fuseShadow = s.fuseShadow := rfl
@[simp] theorem State.setNi_tdo (s : State) (n : Nat) (x : Ni) : (s.setNi n x).tdo = s.tdo := rfl
@[simp] theorem State.setNi_wso (s : State) (n : Nat) (x : Ni) : (s.setNi n x).wso = s.wso := rfl
@[simp] theorem State.setNi_mode (s : State) (n : Nat) (x : Ni) : (s.setNi n x).mode = s.mode := rfl
@[simp] theorem State.setNi_change (s : State) (n : Nat) (x : Ni) : (s.setNi n x).change = s.change := rfl
@[simp] theorem State.setNi_frozenAt (s : State) (n : Nat) (x : Ni) : (s.setNi n x).frozenAt = s.frozenAt := rfl
@[simp] theorem State.setNi_testLock (s : State) (n : Nat) (x : Ni) : (s.setNi n x).testLock = s.testLock := rfl
@[simp] theorem State.setNi_regs (s : State) (n : Nat) (x : Ni) : (s.setNi n x).regs = s.regs := rfl
@[simp] theorem State.setNi_latches (s : State) (n : Nat) (x : Ni) : (s.setNi n x).latches = s.latches := rfl
@[simp] theorem State.setNi_notes (s : State) (n : Nat) (x : Ni) : (s.setNi n x).notes = s.notes := rfl
@[simp] theorem State.setNi_hlPend (s : State) (n : Nat) (x : Ni) : (s.setNi n x).hlPend = s.hlPend := rfl
@[simp] theorem State.setNi_hung (s : State) (n : Nat) (x : Ni) : (s.setNi n x).hung = s.hung := rfl
@[simp] theorem State.setNi_hlAns (s : State) (n : Nat) (x : Ni) : (s.setNi n x).hlAns = s.hlAns := rfl
@[simp] theorem State.setNi_banks (s : State) (n : Nat) (x : Ni) : (s.setNi n x).banks = s.banks := rfl
@[simp] theorem State.setNi_rules (s : State) (n : Nat) (x : Ni) : (s.setNi n x).rules = s.rules := rfl
@[simp] theorem State.setNi_sw (s : State) (n : Nat) (x : Ni) : (s.setNi n x).sw = s.sw := rfl
@[simp] theorem State.setNi_loader (s : State) (n : Nat) (x : Ni) : (s.setNi n x).loader = s.loader := rfl
@[simp] theorem State.setNi_flows (s : State) (n : Nat) (x : Ni) : (s.setNi n x).flows = s.flows := rfl
@[simp] theorem State.setNi_shRate (s : State) (n : Nat) (x : Ni) : (s.setNi n x).shRate = s.shRate := rfl
@[simp] theorem State.setNi_rtr (s : State) (n : Nat) (x : Ni) : (s.setNi n x).rtr = s.rtr := rfl
@[simp] theorem State.setNi_links (s : State) (n : Nat) (x : Ni) : (s.setNi n x).links = s.links := rfl
@[simp] theorem State.setNi_creds (s : State) (n : Nat) (x : Ni) : (s.setNi n x).creds = s.creds := rfl
@[simp] theorem State.setNi_lni (s : State) (n : Nat) (x : Ni) : (s.setNi n x).lni = s.lni := rfl
@[simp] theorem State.setNi_skw (s : State) (n : Nat) (x : Ni) : (s.setNi n x).skw = s.skw := rfl
@[simp] theorem State.setNi_parts (s : State) (n : Nat) (x : Ni) : (s.setNi n x).parts = s.parts := rfl
@[simp] theorem State.setNi_boom (s : State) (n : Nat) (x : Ni) : (s.setNi n x).boom = s.boom := rfl
@[simp] theorem State.setNi_boomEvts (s : State) (n : Nat) (x : Ni) : (s.setNi n x).boomEvts = s.boomEvts := rfl
@[simp] theorem State.setNi_mclkOff (s : State) (n : Nat) (x : Ni) : (s.setNi n x).mclkOff = s.mclkOff := rfl
@[simp] theorem State.setNi_warmUntil (s : State) (n : Nat) (x : Ni) : (s.setNi n x).warmUntil = s.warmUntil := rfl
@[simp] theorem State.setNi_jq (s : State) (n : Nat) (x : Ni) : (s.setNi n x).jq = s.jq := rfl
@[simp] theorem State.setNi_jring (s : State) (n : Nat) (x : Ni) : (s.setNi n x).jring = s.jring := rfl
@[simp] theorem State.setNi_jgap (s : State) (n : Nat) (x : Ni) : (s.setNi n x).jgap = s.jgap := rfl
@[simp] theorem State.setNi_jmc (s : State) (n : Nat) (x : Ni) : (s.setNi n x).jmc = s.jmc := rfl
@[simp] theorem State.setNi_due (s : State) (n : Nat) (x : Ni) : (s.setNi n x).due = s.due := rfl
@[simp] theorem State.setNi_wins (s : State) (n : Nat) (x : Ni) : (s.setNi n x).wins = s.wins := rfl
@[simp] theorem State.setNi_escWait (s : State) (n : Nat) (x : Ni) : (s.setNi n x).escWait = s.escWait := rfl
@[simp] theorem State.setNi_eng (s : State) (n : Nat) (x : Ni) : (s.setNi n x).eng = s.eng := rfl
@[simp] theorem State.setNi_tally (s : State) (n : Nat) (x : Ni) : (s.setNi n x).tally = s.tally := rfl

@[simp] theorem State.setRtr_pending (s : State) (n : Nat) (x : Rtr) : (s.setRtr n x).pending = s.pending := rfl
@[simp] theorem State.setRtr_fc (s : State) (n : Nat) (x : Rtr) : (s.setRtr n x).fc = s.fc := rfl
@[simp] theorem State.setRtr_mc (s : State) (n : Nat) (x : Rtr) : (s.setRtr n x).mc = s.mc := rfl
@[simp] theorem State.setRtr_mAcc (s : State) (n : Nat) (x : Rtr) : (s.setRtr n x).mAcc = s.mAcc := rfl
@[simp] theorem State.setRtr_tAcc (s : State) (n : Nat) (x : Rtr) : (s.setRtr n x).tAcc = s.tAcc := rfl
@[simp] theorem State.setRtr_fclkMHz (s : State) (n : Nat) (x : Rtr) : (s.setRtr n x).fclkMHz = s.fclkMHz := rfl
@[simp] theorem State.setRtr_tclkMHz (s : State) (n : Nat) (x : Rtr) : (s.setRtr n x).tclkMHz = s.tclkMHz := rfl
@[simp] theorem State.setRtr_draws (s : State) (n : Nat) (x : Rtr) : (s.setRtr n x).draws = s.draws := rfl
@[simp] theorem State.setRtr_time (s : State) (n : Nat) (x : Rtr) : (s.setRtr n x).time = s.time := rfl
@[simp] theorem State.setRtr_niAlive (s : State) (n : Nat) (x : Rtr) : (s.setRtr n x).niAlive = s.niAlive := rfl
@[simp] theorem State.setRtr_quiesceAck (s : State) (n : Nat) (x : Rtr) : (s.setRtr n x).quiesceAck = s.quiesceAck := rfl
@[simp] theorem State.setRtr_quiesceReq (s : State) (n : Nat) (x : Rtr) : (s.setRtr n x).quiesceReq = s.quiesceReq := rfl
@[simp] theorem State.setRtr_pwrOk (s : State) (n : Nat) (x : Rtr) : (s.setRtr n x).pwrOk = s.pwrOk := rfl
@[simp] theorem State.setRtr_held (s : State) (n : Nat) (x : Rtr) : (s.setRtr n x).held = s.held := rfl
@[simp] theorem State.setRtr_coldPin (s : State) (n : Nat) (x : Rtr) : (s.setRtr n x).coldPin = s.coldPin := rfl
@[simp] theorem State.setRtr_warmPin (s : State) (n : Nat) (x : Rtr) : (s.setRtr n x).warmPin = s.warmPin := rfl
@[simp] theorem State.setRtr_efuse (s : State) (n : Nat) (x : Rtr) : (s.setRtr n x).efuse = s.efuse := rfl
@[simp] theorem State.setRtr_fuseShadow (s : State) (n : Nat) (x : Rtr) : (s.setRtr n x).fuseShadow = s.fuseShadow := rfl
@[simp] theorem State.setRtr_tdo (s : State) (n : Nat) (x : Rtr) : (s.setRtr n x).tdo = s.tdo := rfl
@[simp] theorem State.setRtr_wso (s : State) (n : Nat) (x : Rtr) : (s.setRtr n x).wso = s.wso := rfl
@[simp] theorem State.setRtr_mode (s : State) (n : Nat) (x : Rtr) : (s.setRtr n x).mode = s.mode := rfl
@[simp] theorem State.setRtr_change (s : State) (n : Nat) (x : Rtr) : (s.setRtr n x).change = s.change := rfl
@[simp] theorem State.setRtr_frozenAt (s : State) (n : Nat) (x : Rtr) : (s.setRtr n x).frozenAt = s.frozenAt := rfl
@[simp] theorem State.setRtr_testLock (s : State) (n : Nat) (x : Rtr) : (s.setRtr n x).testLock = s.testLock := rfl
@[simp] theorem State.setRtr_regs (s : State) (n : Nat) (x : Rtr) : (s.setRtr n x).regs = s.regs := rfl
@[simp] theorem State.setRtr_latches (s : State) (n : Nat) (x : Rtr) : (s.setRtr n x).latches = s.latches := rfl
@[simp] theorem State.setRtr_notes (s : State) (n : Nat) (x : Rtr) : (s.setRtr n x).notes = s.notes := rfl
@[simp] theorem State.setRtr_hlPend (s : State) (n : Nat) (x : Rtr) : (s.setRtr n x).hlPend = s.hlPend := rfl
@[simp] theorem State.setRtr_hung (s : State) (n : Nat) (x : Rtr) : (s.setRtr n x).hung = s.hung := rfl
@[simp] theorem State.setRtr_hlAns (s : State) (n : Nat) (x : Rtr) : (s.setRtr n x).hlAns = s.hlAns := rfl
@[simp] theorem State.setRtr_banks (s : State) (n : Nat) (x : Rtr) : (s.setRtr n x).banks = s.banks := rfl
@[simp] theorem State.setRtr_rules (s : State) (n : Nat) (x : Rtr) : (s.setRtr n x).rules = s.rules := rfl
@[simp] theorem State.setRtr_sw (s : State) (n : Nat) (x : Rtr) : (s.setRtr n x).sw = s.sw := rfl
@[simp] theorem State.setRtr_loader (s : State) (n : Nat) (x : Rtr) : (s.setRtr n x).loader = s.loader := rfl
@[simp] theorem State.setRtr_flows (s : State) (n : Nat) (x : Rtr) : (s.setRtr n x).flows = s.flows := rfl
@[simp] theorem State.setRtr_shRate (s : State) (n : Nat) (x : Rtr) : (s.setRtr n x).shRate = s.shRate := rfl
@[simp] theorem State.setRtr_ni (s : State) (n : Nat) (x : Rtr) : (s.setRtr n x).ni = s.ni := rfl
@[simp] theorem State.setRtr_links (s : State) (n : Nat) (x : Rtr) : (s.setRtr n x).links = s.links := rfl
@[simp] theorem State.setRtr_creds (s : State) (n : Nat) (x : Rtr) : (s.setRtr n x).creds = s.creds := rfl
@[simp] theorem State.setRtr_lni (s : State) (n : Nat) (x : Rtr) : (s.setRtr n x).lni = s.lni := rfl
@[simp] theorem State.setRtr_skw (s : State) (n : Nat) (x : Rtr) : (s.setRtr n x).skw = s.skw := rfl
@[simp] theorem State.setRtr_parts (s : State) (n : Nat) (x : Rtr) : (s.setRtr n x).parts = s.parts := rfl
@[simp] theorem State.setRtr_boom (s : State) (n : Nat) (x : Rtr) : (s.setRtr n x).boom = s.boom := rfl
@[simp] theorem State.setRtr_boomEvts (s : State) (n : Nat) (x : Rtr) : (s.setRtr n x).boomEvts = s.boomEvts := rfl
@[simp] theorem State.setRtr_mclkOff (s : State) (n : Nat) (x : Rtr) : (s.setRtr n x).mclkOff = s.mclkOff := rfl
@[simp] theorem State.setRtr_warmUntil (s : State) (n : Nat) (x : Rtr) : (s.setRtr n x).warmUntil = s.warmUntil := rfl
@[simp] theorem State.setRtr_jq (s : State) (n : Nat) (x : Rtr) : (s.setRtr n x).jq = s.jq := rfl
@[simp] theorem State.setRtr_jring (s : State) (n : Nat) (x : Rtr) : (s.setRtr n x).jring = s.jring := rfl
@[simp] theorem State.setRtr_jgap (s : State) (n : Nat) (x : Rtr) : (s.setRtr n x).jgap = s.jgap := rfl
@[simp] theorem State.setRtr_jmc (s : State) (n : Nat) (x : Rtr) : (s.setRtr n x).jmc = s.jmc := rfl
@[simp] theorem State.setRtr_due (s : State) (n : Nat) (x : Rtr) : (s.setRtr n x).due = s.due := rfl
@[simp] theorem State.setRtr_wins (s : State) (n : Nat) (x : Rtr) : (s.setRtr n x).wins = s.wins := rfl
@[simp] theorem State.setRtr_escWait (s : State) (n : Nat) (x : Rtr) : (s.setRtr n x).escWait = s.escWait := rfl
@[simp] theorem State.setRtr_eng (s : State) (n : Nat) (x : Rtr) : (s.setRtr n x).eng = s.eng := rfl
@[simp] theorem State.setRtr_tally (s : State) (n : Nat) (x : Rtr) : (s.setRtr n x).tally = s.tally := rfl

@[simp] theorem State.setLink_pending (s : State) (n : Nat) (x : List Fly) : (s.setLink n x).pending = s.pending := rfl
@[simp] theorem State.setLink_fc (s : State) (n : Nat) (x : List Fly) : (s.setLink n x).fc = s.fc := rfl
@[simp] theorem State.setLink_mc (s : State) (n : Nat) (x : List Fly) : (s.setLink n x).mc = s.mc := rfl
@[simp] theorem State.setLink_mAcc (s : State) (n : Nat) (x : List Fly) : (s.setLink n x).mAcc = s.mAcc := rfl
@[simp] theorem State.setLink_tAcc (s : State) (n : Nat) (x : List Fly) : (s.setLink n x).tAcc = s.tAcc := rfl
@[simp] theorem State.setLink_fclkMHz (s : State) (n : Nat) (x : List Fly) : (s.setLink n x).fclkMHz = s.fclkMHz := rfl
@[simp] theorem State.setLink_tclkMHz (s : State) (n : Nat) (x : List Fly) : (s.setLink n x).tclkMHz = s.tclkMHz := rfl
@[simp] theorem State.setLink_draws (s : State) (n : Nat) (x : List Fly) : (s.setLink n x).draws = s.draws := rfl
@[simp] theorem State.setLink_time (s : State) (n : Nat) (x : List Fly) : (s.setLink n x).time = s.time := rfl
@[simp] theorem State.setLink_niAlive (s : State) (n : Nat) (x : List Fly) : (s.setLink n x).niAlive = s.niAlive := rfl
@[simp] theorem State.setLink_quiesceAck (s : State) (n : Nat) (x : List Fly) : (s.setLink n x).quiesceAck = s.quiesceAck := rfl
@[simp] theorem State.setLink_quiesceReq (s : State) (n : Nat) (x : List Fly) : (s.setLink n x).quiesceReq = s.quiesceReq := rfl
@[simp] theorem State.setLink_pwrOk (s : State) (n : Nat) (x : List Fly) : (s.setLink n x).pwrOk = s.pwrOk := rfl
@[simp] theorem State.setLink_held (s : State) (n : Nat) (x : List Fly) : (s.setLink n x).held = s.held := rfl
@[simp] theorem State.setLink_coldPin (s : State) (n : Nat) (x : List Fly) : (s.setLink n x).coldPin = s.coldPin := rfl
@[simp] theorem State.setLink_warmPin (s : State) (n : Nat) (x : List Fly) : (s.setLink n x).warmPin = s.warmPin := rfl
@[simp] theorem State.setLink_efuse (s : State) (n : Nat) (x : List Fly) : (s.setLink n x).efuse = s.efuse := rfl
@[simp] theorem State.setLink_fuseShadow (s : State) (n : Nat) (x : List Fly) : (s.setLink n x).fuseShadow = s.fuseShadow := rfl
@[simp] theorem State.setLink_tdo (s : State) (n : Nat) (x : List Fly) : (s.setLink n x).tdo = s.tdo := rfl
@[simp] theorem State.setLink_wso (s : State) (n : Nat) (x : List Fly) : (s.setLink n x).wso = s.wso := rfl
@[simp] theorem State.setLink_mode (s : State) (n : Nat) (x : List Fly) : (s.setLink n x).mode = s.mode := rfl
@[simp] theorem State.setLink_change (s : State) (n : Nat) (x : List Fly) : (s.setLink n x).change = s.change := rfl
@[simp] theorem State.setLink_frozenAt (s : State) (n : Nat) (x : List Fly) : (s.setLink n x).frozenAt = s.frozenAt := rfl
@[simp] theorem State.setLink_testLock (s : State) (n : Nat) (x : List Fly) : (s.setLink n x).testLock = s.testLock := rfl
@[simp] theorem State.setLink_regs (s : State) (n : Nat) (x : List Fly) : (s.setLink n x).regs = s.regs := rfl
@[simp] theorem State.setLink_latches (s : State) (n : Nat) (x : List Fly) : (s.setLink n x).latches = s.latches := rfl
@[simp] theorem State.setLink_notes (s : State) (n : Nat) (x : List Fly) : (s.setLink n x).notes = s.notes := rfl
@[simp] theorem State.setLink_hlPend (s : State) (n : Nat) (x : List Fly) : (s.setLink n x).hlPend = s.hlPend := rfl
@[simp] theorem State.setLink_hung (s : State) (n : Nat) (x : List Fly) : (s.setLink n x).hung = s.hung := rfl
@[simp] theorem State.setLink_hlAns (s : State) (n : Nat) (x : List Fly) : (s.setLink n x).hlAns = s.hlAns := rfl
@[simp] theorem State.setLink_banks (s : State) (n : Nat) (x : List Fly) : (s.setLink n x).banks = s.banks := rfl
@[simp] theorem State.setLink_rules (s : State) (n : Nat) (x : List Fly) : (s.setLink n x).rules = s.rules := rfl
@[simp] theorem State.setLink_sw (s : State) (n : Nat) (x : List Fly) : (s.setLink n x).sw = s.sw := rfl
@[simp] theorem State.setLink_loader (s : State) (n : Nat) (x : List Fly) : (s.setLink n x).loader = s.loader := rfl
@[simp] theorem State.setLink_flows (s : State) (n : Nat) (x : List Fly) : (s.setLink n x).flows = s.flows := rfl
@[simp] theorem State.setLink_shRate (s : State) (n : Nat) (x : List Fly) : (s.setLink n x).shRate = s.shRate := rfl
@[simp] theorem State.setLink_ni (s : State) (n : Nat) (x : List Fly) : (s.setLink n x).ni = s.ni := rfl
@[simp] theorem State.setLink_rtr (s : State) (n : Nat) (x : List Fly) : (s.setLink n x).rtr = s.rtr := rfl
@[simp] theorem State.setLink_creds (s : State) (n : Nat) (x : List Fly) : (s.setLink n x).creds = s.creds := rfl
@[simp] theorem State.setLink_lni (s : State) (n : Nat) (x : List Fly) : (s.setLink n x).lni = s.lni := rfl
@[simp] theorem State.setLink_skw (s : State) (n : Nat) (x : List Fly) : (s.setLink n x).skw = s.skw := rfl
@[simp] theorem State.setLink_parts (s : State) (n : Nat) (x : List Fly) : (s.setLink n x).parts = s.parts := rfl
@[simp] theorem State.setLink_boom (s : State) (n : Nat) (x : List Fly) : (s.setLink n x).boom = s.boom := rfl
@[simp] theorem State.setLink_boomEvts (s : State) (n : Nat) (x : List Fly) : (s.setLink n x).boomEvts = s.boomEvts := rfl
@[simp] theorem State.setLink_mclkOff (s : State) (n : Nat) (x : List Fly) : (s.setLink n x).mclkOff = s.mclkOff := rfl
@[simp] theorem State.setLink_warmUntil (s : State) (n : Nat) (x : List Fly) : (s.setLink n x).warmUntil = s.warmUntil := rfl
@[simp] theorem State.setLink_jq (s : State) (n : Nat) (x : List Fly) : (s.setLink n x).jq = s.jq := rfl
@[simp] theorem State.setLink_jring (s : State) (n : Nat) (x : List Fly) : (s.setLink n x).jring = s.jring := rfl
@[simp] theorem State.setLink_jgap (s : State) (n : Nat) (x : List Fly) : (s.setLink n x).jgap = s.jgap := rfl
@[simp] theorem State.setLink_jmc (s : State) (n : Nat) (x : List Fly) : (s.setLink n x).jmc = s.jmc := rfl
@[simp] theorem State.setLink_due (s : State) (n : Nat) (x : List Fly) : (s.setLink n x).due = s.due := rfl
@[simp] theorem State.setLink_wins (s : State) (n : Nat) (x : List Fly) : (s.setLink n x).wins = s.wins := rfl
@[simp] theorem State.setLink_escWait (s : State) (n : Nat) (x : List Fly) : (s.setLink n x).escWait = s.escWait := rfl
@[simp] theorem State.setLink_eng (s : State) (n : Nat) (x : List Fly) : (s.setLink n x).eng = s.eng := rfl
@[simp] theorem State.setLink_tally (s : State) (n : Nat) (x : List Fly) : (s.setLink n x).tally = s.tally := rfl

@[simp] theorem State.setCred_pending (s : State) (n : Nat) (x : List (Nat × Nat)) : (s.setCred n x).pending = s.pending := rfl
@[simp] theorem State.setCred_fc (s : State) (n : Nat) (x : List (Nat × Nat)) : (s.setCred n x).fc = s.fc := rfl
@[simp] theorem State.setCred_mc (s : State) (n : Nat) (x : List (Nat × Nat)) : (s.setCred n x).mc = s.mc := rfl
@[simp] theorem State.setCred_mAcc (s : State) (n : Nat) (x : List (Nat × Nat)) : (s.setCred n x).mAcc = s.mAcc := rfl
@[simp] theorem State.setCred_tAcc (s : State) (n : Nat) (x : List (Nat × Nat)) : (s.setCred n x).tAcc = s.tAcc := rfl
@[simp] theorem State.setCred_fclkMHz (s : State) (n : Nat) (x : List (Nat × Nat)) : (s.setCred n x).fclkMHz = s.fclkMHz := rfl
@[simp] theorem State.setCred_tclkMHz (s : State) (n : Nat) (x : List (Nat × Nat)) : (s.setCred n x).tclkMHz = s.tclkMHz := rfl
@[simp] theorem State.setCred_draws (s : State) (n : Nat) (x : List (Nat × Nat)) : (s.setCred n x).draws = s.draws := rfl
@[simp] theorem State.setCred_time (s : State) (n : Nat) (x : List (Nat × Nat)) : (s.setCred n x).time = s.time := rfl
@[simp] theorem State.setCred_niAlive (s : State) (n : Nat) (x : List (Nat × Nat)) : (s.setCred n x).niAlive = s.niAlive := rfl
@[simp] theorem State.setCred_quiesceAck (s : State) (n : Nat) (x : List (Nat × Nat)) : (s.setCred n x).quiesceAck = s.quiesceAck := rfl
@[simp] theorem State.setCred_quiesceReq (s : State) (n : Nat) (x : List (Nat × Nat)) : (s.setCred n x).quiesceReq = s.quiesceReq := rfl
@[simp] theorem State.setCred_pwrOk (s : State) (n : Nat) (x : List (Nat × Nat)) : (s.setCred n x).pwrOk = s.pwrOk := rfl
@[simp] theorem State.setCred_held (s : State) (n : Nat) (x : List (Nat × Nat)) : (s.setCred n x).held = s.held := rfl
@[simp] theorem State.setCred_coldPin (s : State) (n : Nat) (x : List (Nat × Nat)) : (s.setCred n x).coldPin = s.coldPin := rfl
@[simp] theorem State.setCred_warmPin (s : State) (n : Nat) (x : List (Nat × Nat)) : (s.setCred n x).warmPin = s.warmPin := rfl
@[simp] theorem State.setCred_efuse (s : State) (n : Nat) (x : List (Nat × Nat)) : (s.setCred n x).efuse = s.efuse := rfl
@[simp] theorem State.setCred_fuseShadow (s : State) (n : Nat) (x : List (Nat × Nat)) : (s.setCred n x).fuseShadow = s.fuseShadow := rfl
@[simp] theorem State.setCred_tdo (s : State) (n : Nat) (x : List (Nat × Nat)) : (s.setCred n x).tdo = s.tdo := rfl
@[simp] theorem State.setCred_wso (s : State) (n : Nat) (x : List (Nat × Nat)) : (s.setCred n x).wso = s.wso := rfl
@[simp] theorem State.setCred_mode (s : State) (n : Nat) (x : List (Nat × Nat)) : (s.setCred n x).mode = s.mode := rfl
@[simp] theorem State.setCred_change (s : State) (n : Nat) (x : List (Nat × Nat)) : (s.setCred n x).change = s.change := rfl
@[simp] theorem State.setCred_frozenAt (s : State) (n : Nat) (x : List (Nat × Nat)) : (s.setCred n x).frozenAt = s.frozenAt := rfl
@[simp] theorem State.setCred_testLock (s : State) (n : Nat) (x : List (Nat × Nat)) : (s.setCred n x).testLock = s.testLock := rfl
@[simp] theorem State.setCred_regs (s : State) (n : Nat) (x : List (Nat × Nat)) : (s.setCred n x).regs = s.regs := rfl
@[simp] theorem State.setCred_latches (s : State) (n : Nat) (x : List (Nat × Nat)) : (s.setCred n x).latches = s.latches := rfl
@[simp] theorem State.setCred_notes (s : State) (n : Nat) (x : List (Nat × Nat)) : (s.setCred n x).notes = s.notes := rfl
@[simp] theorem State.setCred_hlPend (s : State) (n : Nat) (x : List (Nat × Nat)) : (s.setCred n x).hlPend = s.hlPend := rfl
@[simp] theorem State.setCred_hung (s : State) (n : Nat) (x : List (Nat × Nat)) : (s.setCred n x).hung = s.hung := rfl
@[simp] theorem State.setCred_hlAns (s : State) (n : Nat) (x : List (Nat × Nat)) : (s.setCred n x).hlAns = s.hlAns := rfl
@[simp] theorem State.setCred_banks (s : State) (n : Nat) (x : List (Nat × Nat)) : (s.setCred n x).banks = s.banks := rfl
@[simp] theorem State.setCred_rules (s : State) (n : Nat) (x : List (Nat × Nat)) : (s.setCred n x).rules = s.rules := rfl
@[simp] theorem State.setCred_sw (s : State) (n : Nat) (x : List (Nat × Nat)) : (s.setCred n x).sw = s.sw := rfl
@[simp] theorem State.setCred_loader (s : State) (n : Nat) (x : List (Nat × Nat)) : (s.setCred n x).loader = s.loader := rfl
@[simp] theorem State.setCred_flows (s : State) (n : Nat) (x : List (Nat × Nat)) : (s.setCred n x).flows = s.flows := rfl
@[simp] theorem State.setCred_shRate (s : State) (n : Nat) (x : List (Nat × Nat)) : (s.setCred n x).shRate = s.shRate := rfl
@[simp] theorem State.setCred_ni (s : State) (n : Nat) (x : List (Nat × Nat)) : (s.setCred n x).ni = s.ni := rfl
@[simp] theorem State.setCred_rtr (s : State) (n : Nat) (x : List (Nat × Nat)) : (s.setCred n x).rtr = s.rtr := rfl
@[simp] theorem State.setCred_links (s : State) (n : Nat) (x : List (Nat × Nat)) : (s.setCred n x).links = s.links := rfl
@[simp] theorem State.setCred_lni (s : State) (n : Nat) (x : List (Nat × Nat)) : (s.setCred n x).lni = s.lni := rfl
@[simp] theorem State.setCred_skw (s : State) (n : Nat) (x : List (Nat × Nat)) : (s.setCred n x).skw = s.skw := rfl
@[simp] theorem State.setCred_parts (s : State) (n : Nat) (x : List (Nat × Nat)) : (s.setCred n x).parts = s.parts := rfl
@[simp] theorem State.setCred_boom (s : State) (n : Nat) (x : List (Nat × Nat)) : (s.setCred n x).boom = s.boom := rfl
@[simp] theorem State.setCred_boomEvts (s : State) (n : Nat) (x : List (Nat × Nat)) : (s.setCred n x).boomEvts = s.boomEvts := rfl
@[simp] theorem State.setCred_mclkOff (s : State) (n : Nat) (x : List (Nat × Nat)) : (s.setCred n x).mclkOff = s.mclkOff := rfl
@[simp] theorem State.setCred_warmUntil (s : State) (n : Nat) (x : List (Nat × Nat)) : (s.setCred n x).warmUntil = s.warmUntil := rfl
@[simp] theorem State.setCred_jq (s : State) (n : Nat) (x : List (Nat × Nat)) : (s.setCred n x).jq = s.jq := rfl
@[simp] theorem State.setCred_jring (s : State) (n : Nat) (x : List (Nat × Nat)) : (s.setCred n x).jring = s.jring := rfl
@[simp] theorem State.setCred_jgap (s : State) (n : Nat) (x : List (Nat × Nat)) : (s.setCred n x).jgap = s.jgap := rfl
@[simp] theorem State.setCred_jmc (s : State) (n : Nat) (x : List (Nat × Nat)) : (s.setCred n x).jmc = s.jmc := rfl
@[simp] theorem State.setCred_due (s : State) (n : Nat) (x : List (Nat × Nat)) : (s.setCred n x).due = s.due := rfl
@[simp] theorem State.setCred_wins (s : State) (n : Nat) (x : List (Nat × Nat)) : (s.setCred n x).wins = s.wins := rfl
@[simp] theorem State.setCred_escWait (s : State) (n : Nat) (x : List (Nat × Nat)) : (s.setCred n x).escWait = s.escWait := rfl
@[simp] theorem State.setCred_eng (s : State) (n : Nat) (x : List (Nat × Nat)) : (s.setCred n x).eng = s.eng := rfl
@[simp] theorem State.setCred_tally (s : State) (n : Nat) (x : List (Nat × Nat)) : (s.setCred n x).tally = s.tally := rfl

@[simp] theorem State.setBank_pending (s : State) (n : Nat) (x : Pool) : (s.setBank n x).pending = s.pending := rfl
@[simp] theorem State.setBank_fc (s : State) (n : Nat) (x : Pool) : (s.setBank n x).fc = s.fc := rfl
@[simp] theorem State.setBank_mc (s : State) (n : Nat) (x : Pool) : (s.setBank n x).mc = s.mc := rfl
@[simp] theorem State.setBank_mAcc (s : State) (n : Nat) (x : Pool) : (s.setBank n x).mAcc = s.mAcc := rfl
@[simp] theorem State.setBank_tAcc (s : State) (n : Nat) (x : Pool) : (s.setBank n x).tAcc = s.tAcc := rfl
@[simp] theorem State.setBank_fclkMHz (s : State) (n : Nat) (x : Pool) : (s.setBank n x).fclkMHz = s.fclkMHz := rfl
@[simp] theorem State.setBank_tclkMHz (s : State) (n : Nat) (x : Pool) : (s.setBank n x).tclkMHz = s.tclkMHz := rfl
@[simp] theorem State.setBank_draws (s : State) (n : Nat) (x : Pool) : (s.setBank n x).draws = s.draws := rfl
@[simp] theorem State.setBank_time (s : State) (n : Nat) (x : Pool) : (s.setBank n x).time = s.time := rfl
@[simp] theorem State.setBank_niAlive (s : State) (n : Nat) (x : Pool) : (s.setBank n x).niAlive = s.niAlive := rfl
@[simp] theorem State.setBank_quiesceAck (s : State) (n : Nat) (x : Pool) : (s.setBank n x).quiesceAck = s.quiesceAck := rfl
@[simp] theorem State.setBank_quiesceReq (s : State) (n : Nat) (x : Pool) : (s.setBank n x).quiesceReq = s.quiesceReq := rfl
@[simp] theorem State.setBank_pwrOk (s : State) (n : Nat) (x : Pool) : (s.setBank n x).pwrOk = s.pwrOk := rfl
@[simp] theorem State.setBank_held (s : State) (n : Nat) (x : Pool) : (s.setBank n x).held = s.held := rfl
@[simp] theorem State.setBank_coldPin (s : State) (n : Nat) (x : Pool) : (s.setBank n x).coldPin = s.coldPin := rfl
@[simp] theorem State.setBank_warmPin (s : State) (n : Nat) (x : Pool) : (s.setBank n x).warmPin = s.warmPin := rfl
@[simp] theorem State.setBank_efuse (s : State) (n : Nat) (x : Pool) : (s.setBank n x).efuse = s.efuse := rfl
@[simp] theorem State.setBank_fuseShadow (s : State) (n : Nat) (x : Pool) : (s.setBank n x).fuseShadow = s.fuseShadow := rfl
@[simp] theorem State.setBank_tdo (s : State) (n : Nat) (x : Pool) : (s.setBank n x).tdo = s.tdo := rfl
@[simp] theorem State.setBank_wso (s : State) (n : Nat) (x : Pool) : (s.setBank n x).wso = s.wso := rfl
@[simp] theorem State.setBank_mode (s : State) (n : Nat) (x : Pool) : (s.setBank n x).mode = s.mode := rfl
@[simp] theorem State.setBank_change (s : State) (n : Nat) (x : Pool) : (s.setBank n x).change = s.change := rfl
@[simp] theorem State.setBank_frozenAt (s : State) (n : Nat) (x : Pool) : (s.setBank n x).frozenAt = s.frozenAt := rfl
@[simp] theorem State.setBank_testLock (s : State) (n : Nat) (x : Pool) : (s.setBank n x).testLock = s.testLock := rfl
@[simp] theorem State.setBank_regs (s : State) (n : Nat) (x : Pool) : (s.setBank n x).regs = s.regs := rfl
@[simp] theorem State.setBank_latches (s : State) (n : Nat) (x : Pool) : (s.setBank n x).latches = s.latches := rfl
@[simp] theorem State.setBank_notes (s : State) (n : Nat) (x : Pool) : (s.setBank n x).notes = s.notes := rfl
@[simp] theorem State.setBank_hlPend (s : State) (n : Nat) (x : Pool) : (s.setBank n x).hlPend = s.hlPend := rfl
@[simp] theorem State.setBank_hung (s : State) (n : Nat) (x : Pool) : (s.setBank n x).hung = s.hung := rfl
@[simp] theorem State.setBank_hlAns (s : State) (n : Nat) (x : Pool) : (s.setBank n x).hlAns = s.hlAns := rfl
@[simp] theorem State.setBank_rules (s : State) (n : Nat) (x : Pool) : (s.setBank n x).rules = s.rules := rfl
@[simp] theorem State.setBank_sw (s : State) (n : Nat) (x : Pool) : (s.setBank n x).sw = s.sw := rfl
@[simp] theorem State.setBank_loader (s : State) (n : Nat) (x : Pool) : (s.setBank n x).loader = s.loader := rfl
@[simp] theorem State.setBank_flows (s : State) (n : Nat) (x : Pool) : (s.setBank n x).flows = s.flows := rfl
@[simp] theorem State.setBank_shRate (s : State) (n : Nat) (x : Pool) : (s.setBank n x).shRate = s.shRate := rfl
@[simp] theorem State.setBank_ni (s : State) (n : Nat) (x : Pool) : (s.setBank n x).ni = s.ni := rfl
@[simp] theorem State.setBank_rtr (s : State) (n : Nat) (x : Pool) : (s.setBank n x).rtr = s.rtr := rfl
@[simp] theorem State.setBank_links (s : State) (n : Nat) (x : Pool) : (s.setBank n x).links = s.links := rfl
@[simp] theorem State.setBank_creds (s : State) (n : Nat) (x : Pool) : (s.setBank n x).creds = s.creds := rfl
@[simp] theorem State.setBank_lni (s : State) (n : Nat) (x : Pool) : (s.setBank n x).lni = s.lni := rfl
@[simp] theorem State.setBank_skw (s : State) (n : Nat) (x : Pool) : (s.setBank n x).skw = s.skw := rfl
@[simp] theorem State.setBank_parts (s : State) (n : Nat) (x : Pool) : (s.setBank n x).parts = s.parts := rfl
@[simp] theorem State.setBank_boom (s : State) (n : Nat) (x : Pool) : (s.setBank n x).boom = s.boom := rfl
@[simp] theorem State.setBank_boomEvts (s : State) (n : Nat) (x : Pool) : (s.setBank n x).boomEvts = s.boomEvts := rfl
@[simp] theorem State.setBank_mclkOff (s : State) (n : Nat) (x : Pool) : (s.setBank n x).mclkOff = s.mclkOff := rfl
@[simp] theorem State.setBank_warmUntil (s : State) (n : Nat) (x : Pool) : (s.setBank n x).warmUntil = s.warmUntil := rfl
@[simp] theorem State.setBank_jq (s : State) (n : Nat) (x : Pool) : (s.setBank n x).jq = s.jq := rfl
@[simp] theorem State.setBank_jring (s : State) (n : Nat) (x : Pool) : (s.setBank n x).jring = s.jring := rfl
@[simp] theorem State.setBank_jgap (s : State) (n : Nat) (x : Pool) : (s.setBank n x).jgap = s.jgap := rfl
@[simp] theorem State.setBank_jmc (s : State) (n : Nat) (x : Pool) : (s.setBank n x).jmc = s.jmc := rfl
@[simp] theorem State.setBank_due (s : State) (n : Nat) (x : Pool) : (s.setBank n x).due = s.due := rfl
@[simp] theorem State.setBank_wins (s : State) (n : Nat) (x : Pool) : (s.setBank n x).wins = s.wins := rfl
@[simp] theorem State.setBank_escWait (s : State) (n : Nat) (x : Pool) : (s.setBank n x).escWait = s.escWait := rfl
@[simp] theorem State.setBank_eng (s : State) (n : Nat) (x : Pool) : (s.setBank n x).eng = s.eng := rfl
@[simp] theorem State.setBank_tally (s : State) (n : Nat) (x : Pool) : (s.setBank n x).tally = s.tally := rfl

@[simp] theorem State.setPart_pending (s : State) (n : Nat) (x : Part) : (s.setPart n x).pending = s.pending := rfl
@[simp] theorem State.setPart_fc (s : State) (n : Nat) (x : Part) : (s.setPart n x).fc = s.fc := rfl
@[simp] theorem State.setPart_mc (s : State) (n : Nat) (x : Part) : (s.setPart n x).mc = s.mc := rfl
@[simp] theorem State.setPart_mAcc (s : State) (n : Nat) (x : Part) : (s.setPart n x).mAcc = s.mAcc := rfl
@[simp] theorem State.setPart_tAcc (s : State) (n : Nat) (x : Part) : (s.setPart n x).tAcc = s.tAcc := rfl
@[simp] theorem State.setPart_fclkMHz (s : State) (n : Nat) (x : Part) : (s.setPart n x).fclkMHz = s.fclkMHz := rfl
@[simp] theorem State.setPart_tclkMHz (s : State) (n : Nat) (x : Part) : (s.setPart n x).tclkMHz = s.tclkMHz := rfl
@[simp] theorem State.setPart_draws (s : State) (n : Nat) (x : Part) : (s.setPart n x).draws = s.draws := rfl
@[simp] theorem State.setPart_time (s : State) (n : Nat) (x : Part) : (s.setPart n x).time = s.time := rfl
@[simp] theorem State.setPart_niAlive (s : State) (n : Nat) (x : Part) : (s.setPart n x).niAlive = s.niAlive := rfl
@[simp] theorem State.setPart_quiesceAck (s : State) (n : Nat) (x : Part) : (s.setPart n x).quiesceAck = s.quiesceAck := rfl
@[simp] theorem State.setPart_quiesceReq (s : State) (n : Nat) (x : Part) : (s.setPart n x).quiesceReq = s.quiesceReq := rfl
@[simp] theorem State.setPart_pwrOk (s : State) (n : Nat) (x : Part) : (s.setPart n x).pwrOk = s.pwrOk := rfl
@[simp] theorem State.setPart_held (s : State) (n : Nat) (x : Part) : (s.setPart n x).held = s.held := rfl
@[simp] theorem State.setPart_coldPin (s : State) (n : Nat) (x : Part) : (s.setPart n x).coldPin = s.coldPin := rfl
@[simp] theorem State.setPart_warmPin (s : State) (n : Nat) (x : Part) : (s.setPart n x).warmPin = s.warmPin := rfl
@[simp] theorem State.setPart_efuse (s : State) (n : Nat) (x : Part) : (s.setPart n x).efuse = s.efuse := rfl
@[simp] theorem State.setPart_fuseShadow (s : State) (n : Nat) (x : Part) : (s.setPart n x).fuseShadow = s.fuseShadow := rfl
@[simp] theorem State.setPart_tdo (s : State) (n : Nat) (x : Part) : (s.setPart n x).tdo = s.tdo := rfl
@[simp] theorem State.setPart_wso (s : State) (n : Nat) (x : Part) : (s.setPart n x).wso = s.wso := rfl
@[simp] theorem State.setPart_mode (s : State) (n : Nat) (x : Part) : (s.setPart n x).mode = s.mode := rfl
@[simp] theorem State.setPart_change (s : State) (n : Nat) (x : Part) : (s.setPart n x).change = s.change := rfl
@[simp] theorem State.setPart_frozenAt (s : State) (n : Nat) (x : Part) : (s.setPart n x).frozenAt = s.frozenAt := rfl
@[simp] theorem State.setPart_testLock (s : State) (n : Nat) (x : Part) : (s.setPart n x).testLock = s.testLock := rfl
@[simp] theorem State.setPart_regs (s : State) (n : Nat) (x : Part) : (s.setPart n x).regs = s.regs := rfl
@[simp] theorem State.setPart_latches (s : State) (n : Nat) (x : Part) : (s.setPart n x).latches = s.latches := rfl
@[simp] theorem State.setPart_notes (s : State) (n : Nat) (x : Part) : (s.setPart n x).notes = s.notes := rfl
@[simp] theorem State.setPart_hlPend (s : State) (n : Nat) (x : Part) : (s.setPart n x).hlPend = s.hlPend := rfl
@[simp] theorem State.setPart_hung (s : State) (n : Nat) (x : Part) : (s.setPart n x).hung = s.hung := rfl
@[simp] theorem State.setPart_hlAns (s : State) (n : Nat) (x : Part) : (s.setPart n x).hlAns = s.hlAns := rfl
@[simp] theorem State.setPart_banks (s : State) (n : Nat) (x : Part) : (s.setPart n x).banks = s.banks := rfl
@[simp] theorem State.setPart_rules (s : State) (n : Nat) (x : Part) : (s.setPart n x).rules = s.rules := rfl
@[simp] theorem State.setPart_sw (s : State) (n : Nat) (x : Part) : (s.setPart n x).sw = s.sw := rfl
@[simp] theorem State.setPart_loader (s : State) (n : Nat) (x : Part) : (s.setPart n x).loader = s.loader := rfl
@[simp] theorem State.setPart_flows (s : State) (n : Nat) (x : Part) : (s.setPart n x).flows = s.flows := rfl
@[simp] theorem State.setPart_shRate (s : State) (n : Nat) (x : Part) : (s.setPart n x).shRate = s.shRate := rfl
@[simp] theorem State.setPart_ni (s : State) (n : Nat) (x : Part) : (s.setPart n x).ni = s.ni := rfl
@[simp] theorem State.setPart_rtr (s : State) (n : Nat) (x : Part) : (s.setPart n x).rtr = s.rtr := rfl
@[simp] theorem State.setPart_links (s : State) (n : Nat) (x : Part) : (s.setPart n x).links = s.links := rfl
@[simp] theorem State.setPart_creds (s : State) (n : Nat) (x : Part) : (s.setPart n x).creds = s.creds := rfl
@[simp] theorem State.setPart_lni (s : State) (n : Nat) (x : Part) : (s.setPart n x).lni = s.lni := rfl
@[simp] theorem State.setPart_skw (s : State) (n : Nat) (x : Part) : (s.setPart n x).skw = s.skw := rfl
@[simp] theorem State.setPart_boom (s : State) (n : Nat) (x : Part) : (s.setPart n x).boom = s.boom := rfl
@[simp] theorem State.setPart_boomEvts (s : State) (n : Nat) (x : Part) : (s.setPart n x).boomEvts = s.boomEvts := rfl
@[simp] theorem State.setPart_mclkOff (s : State) (n : Nat) (x : Part) : (s.setPart n x).mclkOff = s.mclkOff := rfl
@[simp] theorem State.setPart_warmUntil (s : State) (n : Nat) (x : Part) : (s.setPart n x).warmUntil = s.warmUntil := rfl
@[simp] theorem State.setPart_jq (s : State) (n : Nat) (x : Part) : (s.setPart n x).jq = s.jq := rfl
@[simp] theorem State.setPart_jring (s : State) (n : Nat) (x : Part) : (s.setPart n x).jring = s.jring := rfl
@[simp] theorem State.setPart_jgap (s : State) (n : Nat) (x : Part) : (s.setPart n x).jgap = s.jgap := rfl
@[simp] theorem State.setPart_jmc (s : State) (n : Nat) (x : Part) : (s.setPart n x).jmc = s.jmc := rfl
@[simp] theorem State.setPart_due (s : State) (n : Nat) (x : Part) : (s.setPart n x).due = s.due := rfl
@[simp] theorem State.setPart_wins (s : State) (n : Nat) (x : Part) : (s.setPart n x).wins = s.wins := rfl
@[simp] theorem State.setPart_escWait (s : State) (n : Nat) (x : Part) : (s.setPart n x).escWait = s.escWait := rfl
@[simp] theorem State.setPart_eng (s : State) (n : Nat) (x : Part) : (s.setPart n x).eng = s.eng := rfl
@[simp] theorem State.setPart_tally (s : State) (n : Nat) (x : Part) : (s.setPart n x).tally = s.tally := rfl

@[simp] theorem State.setSkw_pending (s : State) (n : Nat) (x : Skw) : (s.setSkw n x).pending = s.pending := rfl
@[simp] theorem State.setSkw_fc (s : State) (n : Nat) (x : Skw) : (s.setSkw n x).fc = s.fc := rfl
@[simp] theorem State.setSkw_mc (s : State) (n : Nat) (x : Skw) : (s.setSkw n x).mc = s.mc := rfl
@[simp] theorem State.setSkw_mAcc (s : State) (n : Nat) (x : Skw) : (s.setSkw n x).mAcc = s.mAcc := rfl
@[simp] theorem State.setSkw_tAcc (s : State) (n : Nat) (x : Skw) : (s.setSkw n x).tAcc = s.tAcc := rfl
@[simp] theorem State.setSkw_fclkMHz (s : State) (n : Nat) (x : Skw) : (s.setSkw n x).fclkMHz = s.fclkMHz := rfl
@[simp] theorem State.setSkw_tclkMHz (s : State) (n : Nat) (x : Skw) : (s.setSkw n x).tclkMHz = s.tclkMHz := rfl
@[simp] theorem State.setSkw_draws (s : State) (n : Nat) (x : Skw) : (s.setSkw n x).draws = s.draws := rfl
@[simp] theorem State.setSkw_time (s : State) (n : Nat) (x : Skw) : (s.setSkw n x).time = s.time := rfl
@[simp] theorem State.setSkw_niAlive (s : State) (n : Nat) (x : Skw) : (s.setSkw n x).niAlive = s.niAlive := rfl
@[simp] theorem State.setSkw_quiesceAck (s : State) (n : Nat) (x : Skw) : (s.setSkw n x).quiesceAck = s.quiesceAck := rfl
@[simp] theorem State.setSkw_quiesceReq (s : State) (n : Nat) (x : Skw) : (s.setSkw n x).quiesceReq = s.quiesceReq := rfl
@[simp] theorem State.setSkw_pwrOk (s : State) (n : Nat) (x : Skw) : (s.setSkw n x).pwrOk = s.pwrOk := rfl
@[simp] theorem State.setSkw_held (s : State) (n : Nat) (x : Skw) : (s.setSkw n x).held = s.held := rfl
@[simp] theorem State.setSkw_coldPin (s : State) (n : Nat) (x : Skw) : (s.setSkw n x).coldPin = s.coldPin := rfl
@[simp] theorem State.setSkw_warmPin (s : State) (n : Nat) (x : Skw) : (s.setSkw n x).warmPin = s.warmPin := rfl
@[simp] theorem State.setSkw_efuse (s : State) (n : Nat) (x : Skw) : (s.setSkw n x).efuse = s.efuse := rfl
@[simp] theorem State.setSkw_fuseShadow (s : State) (n : Nat) (x : Skw) : (s.setSkw n x).fuseShadow = s.fuseShadow := rfl
@[simp] theorem State.setSkw_tdo (s : State) (n : Nat) (x : Skw) : (s.setSkw n x).tdo = s.tdo := rfl
@[simp] theorem State.setSkw_wso (s : State) (n : Nat) (x : Skw) : (s.setSkw n x).wso = s.wso := rfl
@[simp] theorem State.setSkw_mode (s : State) (n : Nat) (x : Skw) : (s.setSkw n x).mode = s.mode := rfl
@[simp] theorem State.setSkw_change (s : State) (n : Nat) (x : Skw) : (s.setSkw n x).change = s.change := rfl
@[simp] theorem State.setSkw_frozenAt (s : State) (n : Nat) (x : Skw) : (s.setSkw n x).frozenAt = s.frozenAt := rfl
@[simp] theorem State.setSkw_testLock (s : State) (n : Nat) (x : Skw) : (s.setSkw n x).testLock = s.testLock := rfl
@[simp] theorem State.setSkw_regs (s : State) (n : Nat) (x : Skw) : (s.setSkw n x).regs = s.regs := rfl
@[simp] theorem State.setSkw_latches (s : State) (n : Nat) (x : Skw) : (s.setSkw n x).latches = s.latches := rfl
@[simp] theorem State.setSkw_notes (s : State) (n : Nat) (x : Skw) : (s.setSkw n x).notes = s.notes := rfl
@[simp] theorem State.setSkw_hlPend (s : State) (n : Nat) (x : Skw) : (s.setSkw n x).hlPend = s.hlPend := rfl
@[simp] theorem State.setSkw_hung (s : State) (n : Nat) (x : Skw) : (s.setSkw n x).hung = s.hung := rfl
@[simp] theorem State.setSkw_hlAns (s : State) (n : Nat) (x : Skw) : (s.setSkw n x).hlAns = s.hlAns := rfl
@[simp] theorem State.setSkw_banks (s : State) (n : Nat) (x : Skw) : (s.setSkw n x).banks = s.banks := rfl
@[simp] theorem State.setSkw_rules (s : State) (n : Nat) (x : Skw) : (s.setSkw n x).rules = s.rules := rfl
@[simp] theorem State.setSkw_sw (s : State) (n : Nat) (x : Skw) : (s.setSkw n x).sw = s.sw := rfl
@[simp] theorem State.setSkw_loader (s : State) (n : Nat) (x : Skw) : (s.setSkw n x).loader = s.loader := rfl
@[simp] theorem State.setSkw_flows (s : State) (n : Nat) (x : Skw) : (s.setSkw n x).flows = s.flows := rfl
@[simp] theorem State.setSkw_shRate (s : State) (n : Nat) (x : Skw) : (s.setSkw n x).shRate = s.shRate := rfl
@[simp] theorem State.setSkw_ni (s : State) (n : Nat) (x : Skw) : (s.setSkw n x).ni = s.ni := rfl
@[simp] theorem State.setSkw_rtr (s : State) (n : Nat) (x : Skw) : (s.setSkw n x).rtr = s.rtr := rfl
@[simp] theorem State.setSkw_links (s : State) (n : Nat) (x : Skw) : (s.setSkw n x).links = s.links := rfl
@[simp] theorem State.setSkw_creds (s : State) (n : Nat) (x : Skw) : (s.setSkw n x).creds = s.creds := rfl
@[simp] theorem State.setSkw_lni (s : State) (n : Nat) (x : Skw) : (s.setSkw n x).lni = s.lni := rfl
@[simp] theorem State.setSkw_parts (s : State) (n : Nat) (x : Skw) : (s.setSkw n x).parts = s.parts := rfl
@[simp] theorem State.setSkw_boom (s : State) (n : Nat) (x : Skw) : (s.setSkw n x).boom = s.boom := rfl
@[simp] theorem State.setSkw_boomEvts (s : State) (n : Nat) (x : Skw) : (s.setSkw n x).boomEvts = s.boomEvts := rfl
@[simp] theorem State.setSkw_mclkOff (s : State) (n : Nat) (x : Skw) : (s.setSkw n x).mclkOff = s.mclkOff := rfl
@[simp] theorem State.setSkw_warmUntil (s : State) (n : Nat) (x : Skw) : (s.setSkw n x).warmUntil = s.warmUntil := rfl
@[simp] theorem State.setSkw_jq (s : State) (n : Nat) (x : Skw) : (s.setSkw n x).jq = s.jq := rfl
@[simp] theorem State.setSkw_jring (s : State) (n : Nat) (x : Skw) : (s.setSkw n x).jring = s.jring := rfl
@[simp] theorem State.setSkw_jgap (s : State) (n : Nat) (x : Skw) : (s.setSkw n x).jgap = s.jgap := rfl
@[simp] theorem State.setSkw_jmc (s : State) (n : Nat) (x : Skw) : (s.setSkw n x).jmc = s.jmc := rfl
@[simp] theorem State.setSkw_due (s : State) (n : Nat) (x : Skw) : (s.setSkw n x).due = s.due := rfl
@[simp] theorem State.setSkw_wins (s : State) (n : Nat) (x : Skw) : (s.setSkw n x).wins = s.wins := rfl
@[simp] theorem State.setSkw_escWait (s : State) (n : Nat) (x : Skw) : (s.setSkw n x).escWait = s.escWait := rfl
@[simp] theorem State.setSkw_eng (s : State) (n : Nat) (x : Skw) : (s.setSkw n x).eng = s.eng := rfl
@[simp] theorem State.setSkw_tally (s : State) (n : Nat) (x : Skw) : (s.setSkw n x).tally = s.tally := rfl

@[simp] theorem State.setBoom_pending (s : State) (n : Nat) (x : Boom) : (s.setBoom n x).pending = s.pending := rfl
@[simp] theorem State.setBoom_fc (s : State) (n : Nat) (x : Boom) : (s.setBoom n x).fc = s.fc := rfl
@[simp] theorem State.setBoom_mc (s : State) (n : Nat) (x : Boom) : (s.setBoom n x).mc = s.mc := rfl
@[simp] theorem State.setBoom_mAcc (s : State) (n : Nat) (x : Boom) : (s.setBoom n x).mAcc = s.mAcc := rfl
@[simp] theorem State.setBoom_tAcc (s : State) (n : Nat) (x : Boom) : (s.setBoom n x).tAcc = s.tAcc := rfl
@[simp] theorem State.setBoom_fclkMHz (s : State) (n : Nat) (x : Boom) : (s.setBoom n x).fclkMHz = s.fclkMHz := rfl
@[simp] theorem State.setBoom_tclkMHz (s : State) (n : Nat) (x : Boom) : (s.setBoom n x).tclkMHz = s.tclkMHz := rfl
@[simp] theorem State.setBoom_draws (s : State) (n : Nat) (x : Boom) : (s.setBoom n x).draws = s.draws := rfl
@[simp] theorem State.setBoom_time (s : State) (n : Nat) (x : Boom) : (s.setBoom n x).time = s.time := rfl
@[simp] theorem State.setBoom_niAlive (s : State) (n : Nat) (x : Boom) : (s.setBoom n x).niAlive = s.niAlive := rfl
@[simp] theorem State.setBoom_quiesceAck (s : State) (n : Nat) (x : Boom) : (s.setBoom n x).quiesceAck = s.quiesceAck := rfl
@[simp] theorem State.setBoom_quiesceReq (s : State) (n : Nat) (x : Boom) : (s.setBoom n x).quiesceReq = s.quiesceReq := rfl
@[simp] theorem State.setBoom_pwrOk (s : State) (n : Nat) (x : Boom) : (s.setBoom n x).pwrOk = s.pwrOk := rfl
@[simp] theorem State.setBoom_held (s : State) (n : Nat) (x : Boom) : (s.setBoom n x).held = s.held := rfl
@[simp] theorem State.setBoom_coldPin (s : State) (n : Nat) (x : Boom) : (s.setBoom n x).coldPin = s.coldPin := rfl
@[simp] theorem State.setBoom_warmPin (s : State) (n : Nat) (x : Boom) : (s.setBoom n x).warmPin = s.warmPin := rfl
@[simp] theorem State.setBoom_efuse (s : State) (n : Nat) (x : Boom) : (s.setBoom n x).efuse = s.efuse := rfl
@[simp] theorem State.setBoom_fuseShadow (s : State) (n : Nat) (x : Boom) : (s.setBoom n x).fuseShadow = s.fuseShadow := rfl
@[simp] theorem State.setBoom_tdo (s : State) (n : Nat) (x : Boom) : (s.setBoom n x).tdo = s.tdo := rfl
@[simp] theorem State.setBoom_wso (s : State) (n : Nat) (x : Boom) : (s.setBoom n x).wso = s.wso := rfl
@[simp] theorem State.setBoom_mode (s : State) (n : Nat) (x : Boom) : (s.setBoom n x).mode = s.mode := rfl
@[simp] theorem State.setBoom_change (s : State) (n : Nat) (x : Boom) : (s.setBoom n x).change = s.change := rfl
@[simp] theorem State.setBoom_frozenAt (s : State) (n : Nat) (x : Boom) : (s.setBoom n x).frozenAt = s.frozenAt := rfl
@[simp] theorem State.setBoom_testLock (s : State) (n : Nat) (x : Boom) : (s.setBoom n x).testLock = s.testLock := rfl
@[simp] theorem State.setBoom_regs (s : State) (n : Nat) (x : Boom) : (s.setBoom n x).regs = s.regs := rfl
@[simp] theorem State.setBoom_latches (s : State) (n : Nat) (x : Boom) : (s.setBoom n x).latches = s.latches := rfl
@[simp] theorem State.setBoom_notes (s : State) (n : Nat) (x : Boom) : (s.setBoom n x).notes = s.notes := rfl
@[simp] theorem State.setBoom_hlPend (s : State) (n : Nat) (x : Boom) : (s.setBoom n x).hlPend = s.hlPend := rfl
@[simp] theorem State.setBoom_hung (s : State) (n : Nat) (x : Boom) : (s.setBoom n x).hung = s.hung := rfl
@[simp] theorem State.setBoom_hlAns (s : State) (n : Nat) (x : Boom) : (s.setBoom n x).hlAns = s.hlAns := rfl
@[simp] theorem State.setBoom_banks (s : State) (n : Nat) (x : Boom) : (s.setBoom n x).banks = s.banks := rfl
@[simp] theorem State.setBoom_rules (s : State) (n : Nat) (x : Boom) : (s.setBoom n x).rules = s.rules := rfl
@[simp] theorem State.setBoom_sw (s : State) (n : Nat) (x : Boom) : (s.setBoom n x).sw = s.sw := rfl
@[simp] theorem State.setBoom_loader (s : State) (n : Nat) (x : Boom) : (s.setBoom n x).loader = s.loader := rfl
@[simp] theorem State.setBoom_flows (s : State) (n : Nat) (x : Boom) : (s.setBoom n x).flows = s.flows := rfl
@[simp] theorem State.setBoom_shRate (s : State) (n : Nat) (x : Boom) : (s.setBoom n x).shRate = s.shRate := rfl
@[simp] theorem State.setBoom_ni (s : State) (n : Nat) (x : Boom) : (s.setBoom n x).ni = s.ni := rfl
@[simp] theorem State.setBoom_rtr (s : State) (n : Nat) (x : Boom) : (s.setBoom n x).rtr = s.rtr := rfl
@[simp] theorem State.setBoom_links (s : State) (n : Nat) (x : Boom) : (s.setBoom n x).links = s.links := rfl
@[simp] theorem State.setBoom_creds (s : State) (n : Nat) (x : Boom) : (s.setBoom n x).creds = s.creds := rfl
@[simp] theorem State.setBoom_lni (s : State) (n : Nat) (x : Boom) : (s.setBoom n x).lni = s.lni := rfl
@[simp] theorem State.setBoom_skw (s : State) (n : Nat) (x : Boom) : (s.setBoom n x).skw = s.skw := rfl
@[simp] theorem State.setBoom_parts (s : State) (n : Nat) (x : Boom) : (s.setBoom n x).parts = s.parts := rfl
@[simp] theorem State.setBoom_boomEvts (s : State) (n : Nat) (x : Boom) : (s.setBoom n x).boomEvts = s.boomEvts := rfl
@[simp] theorem State.setBoom_mclkOff (s : State) (n : Nat) (x : Boom) : (s.setBoom n x).mclkOff = s.mclkOff := rfl
@[simp] theorem State.setBoom_warmUntil (s : State) (n : Nat) (x : Boom) : (s.setBoom n x).warmUntil = s.warmUntil := rfl
@[simp] theorem State.setBoom_jq (s : State) (n : Nat) (x : Boom) : (s.setBoom n x).jq = s.jq := rfl
@[simp] theorem State.setBoom_jring (s : State) (n : Nat) (x : Boom) : (s.setBoom n x).jring = s.jring := rfl
@[simp] theorem State.setBoom_jgap (s : State) (n : Nat) (x : Boom) : (s.setBoom n x).jgap = s.jgap := rfl
@[simp] theorem State.setBoom_jmc (s : State) (n : Nat) (x : Boom) : (s.setBoom n x).jmc = s.jmc := rfl
@[simp] theorem State.setBoom_due (s : State) (n : Nat) (x : Boom) : (s.setBoom n x).due = s.due := rfl
@[simp] theorem State.setBoom_wins (s : State) (n : Nat) (x : Boom) : (s.setBoom n x).wins = s.wins := rfl
@[simp] theorem State.setBoom_escWait (s : State) (n : Nat) (x : Boom) : (s.setBoom n x).escWait = s.escWait := rfl
@[simp] theorem State.setBoom_eng (s : State) (n : Nat) (x : Boom) : (s.setBoom n x).eng = s.eng := rfl
@[simp] theorem State.setBoom_tally (s : State) (n : Nat) (x : Boom) : (s.setBoom n x).tally = s.tally := rfl

@[simp] theorem State.setTime_pending (s : State) (t : FTime) : (s.setTime t).pending = s.pending := rfl
@[simp] theorem State.setTime_fc (s : State) (t : FTime) : (s.setTime t).fc = s.fc := rfl
@[simp] theorem State.setTime_mc (s : State) (t : FTime) : (s.setTime t).mc = s.mc := rfl
@[simp] theorem State.setTime_mAcc (s : State) (t : FTime) : (s.setTime t).mAcc = s.mAcc := rfl
@[simp] theorem State.setTime_tAcc (s : State) (t : FTime) : (s.setTime t).tAcc = s.tAcc := rfl
@[simp] theorem State.setTime_fclkMHz (s : State) (t : FTime) : (s.setTime t).fclkMHz = s.fclkMHz := rfl
@[simp] theorem State.setTime_tclkMHz (s : State) (t : FTime) : (s.setTime t).tclkMHz = s.tclkMHz := rfl
@[simp] theorem State.setTime_draws (s : State) (t : FTime) : (s.setTime t).draws = s.draws := rfl
@[simp] theorem State.setTime_niAlive (s : State) (t : FTime) : (s.setTime t).niAlive = s.niAlive := rfl
@[simp] theorem State.setTime_quiesceAck (s : State) (t : FTime) : (s.setTime t).quiesceAck = s.quiesceAck := rfl
@[simp] theorem State.setTime_quiesceReq (s : State) (t : FTime) : (s.setTime t).quiesceReq = s.quiesceReq := rfl
@[simp] theorem State.setTime_pwrOk (s : State) (t : FTime) : (s.setTime t).pwrOk = s.pwrOk := rfl
@[simp] theorem State.setTime_held (s : State) (t : FTime) : (s.setTime t).held = s.held := rfl
@[simp] theorem State.setTime_coldPin (s : State) (t : FTime) : (s.setTime t).coldPin = s.coldPin := rfl
@[simp] theorem State.setTime_warmPin (s : State) (t : FTime) : (s.setTime t).warmPin = s.warmPin := rfl
@[simp] theorem State.setTime_efuse (s : State) (t : FTime) : (s.setTime t).efuse = s.efuse := rfl
@[simp] theorem State.setTime_fuseShadow (s : State) (t : FTime) : (s.setTime t).fuseShadow = s.fuseShadow := rfl
@[simp] theorem State.setTime_tdo (s : State) (t : FTime) : (s.setTime t).tdo = s.tdo := rfl
@[simp] theorem State.setTime_wso (s : State) (t : FTime) : (s.setTime t).wso = s.wso := rfl
@[simp] theorem State.setTime_mode (s : State) (t : FTime) : (s.setTime t).mode = s.mode := rfl
@[simp] theorem State.setTime_change (s : State) (t : FTime) : (s.setTime t).change = s.change := rfl
@[simp] theorem State.setTime_frozenAt (s : State) (t : FTime) : (s.setTime t).frozenAt = s.frozenAt := rfl
@[simp] theorem State.setTime_testLock (s : State) (t : FTime) : (s.setTime t).testLock = s.testLock := rfl
@[simp] theorem State.setTime_regs (s : State) (t : FTime) : (s.setTime t).regs = s.regs := rfl
@[simp] theorem State.setTime_latches (s : State) (t : FTime) : (s.setTime t).latches = s.latches := rfl
@[simp] theorem State.setTime_notes (s : State) (t : FTime) : (s.setTime t).notes = s.notes := rfl
@[simp] theorem State.setTime_hlPend (s : State) (t : FTime) : (s.setTime t).hlPend = s.hlPend := rfl
@[simp] theorem State.setTime_hung (s : State) (t : FTime) : (s.setTime t).hung = s.hung := rfl
@[simp] theorem State.setTime_hlAns (s : State) (t : FTime) : (s.setTime t).hlAns = s.hlAns := rfl
@[simp] theorem State.setTime_banks (s : State) (t : FTime) : (s.setTime t).banks = s.banks := rfl
@[simp] theorem State.setTime_rules (s : State) (t : FTime) : (s.setTime t).rules = s.rules := rfl
@[simp] theorem State.setTime_sw (s : State) (t : FTime) : (s.setTime t).sw = s.sw := rfl
@[simp] theorem State.setTime_loader (s : State) (t : FTime) : (s.setTime t).loader = s.loader := rfl
@[simp] theorem State.setTime_flows (s : State) (t : FTime) : (s.setTime t).flows = s.flows := rfl
@[simp] theorem State.setTime_shRate (s : State) (t : FTime) : (s.setTime t).shRate = s.shRate := rfl
@[simp] theorem State.setTime_ni (s : State) (t : FTime) : (s.setTime t).ni = s.ni := rfl
@[simp] theorem State.setTime_rtr (s : State) (t : FTime) : (s.setTime t).rtr = s.rtr := rfl
@[simp] theorem State.setTime_links (s : State) (t : FTime) : (s.setTime t).links = s.links := rfl
@[simp] theorem State.setTime_creds (s : State) (t : FTime) : (s.setTime t).creds = s.creds := rfl
@[simp] theorem State.setTime_lni (s : State) (t : FTime) : (s.setTime t).lni = s.lni := rfl
@[simp] theorem State.setTime_skw (s : State) (t : FTime) : (s.setTime t).skw = s.skw := rfl
@[simp] theorem State.setTime_parts (s : State) (t : FTime) : (s.setTime t).parts = s.parts := rfl
@[simp] theorem State.setTime_boom (s : State) (t : FTime) : (s.setTime t).boom = s.boom := rfl
@[simp] theorem State.setTime_boomEvts (s : State) (t : FTime) : (s.setTime t).boomEvts = s.boomEvts := rfl
@[simp] theorem State.setTime_mclkOff (s : State) (t : FTime) : (s.setTime t).mclkOff = s.mclkOff := rfl
@[simp] theorem State.setTime_warmUntil (s : State) (t : FTime) : (s.setTime t).warmUntil = s.warmUntil := rfl
@[simp] theorem State.setTime_jq (s : State) (t : FTime) : (s.setTime t).jq = s.jq := rfl
@[simp] theorem State.setTime_jring (s : State) (t : FTime) : (s.setTime t).jring = s.jring := rfl
@[simp] theorem State.setTime_jgap (s : State) (t : FTime) : (s.setTime t).jgap = s.jgap := rfl
@[simp] theorem State.setTime_jmc (s : State) (t : FTime) : (s.setTime t).jmc = s.jmc := rfl
@[simp] theorem State.setTime_due (s : State) (t : FTime) : (s.setTime t).due = s.due := rfl
@[simp] theorem State.setTime_wins (s : State) (t : FTime) : (s.setTime t).wins = s.wins := rfl
@[simp] theorem State.setTime_escWait (s : State) (t : FTime) : (s.setTime t).escWait = s.escWait := rfl
@[simp] theorem State.setTime_eng (s : State) (t : FTime) : (s.setTime t).eng = s.eng := rfl
@[simp] theorem State.setTime_tally (s : State) (t : FTime) : (s.setTime t).tally = s.tally := rfl

@[simp] theorem State.drawn_pending (s : State) : (s.drawn).pending = s.pending := rfl
@[simp] theorem State.drawn_fc (s : State) : (s.drawn).fc = s.fc := rfl
@[simp] theorem State.drawn_mc (s : State) : (s.drawn).mc = s.mc := rfl
@[simp] theorem State.drawn_mAcc (s : State) : (s.drawn).mAcc = s.mAcc := rfl
@[simp] theorem State.drawn_tAcc (s : State) : (s.drawn).tAcc = s.tAcc := rfl
@[simp] theorem State.drawn_fclkMHz (s : State) : (s.drawn).fclkMHz = s.fclkMHz := rfl
@[simp] theorem State.drawn_tclkMHz (s : State) : (s.drawn).tclkMHz = s.tclkMHz := rfl
@[simp] theorem State.drawn_time (s : State) : (s.drawn).time = s.time := rfl
@[simp] theorem State.drawn_niAlive (s : State) : (s.drawn).niAlive = s.niAlive := rfl
@[simp] theorem State.drawn_quiesceAck (s : State) : (s.drawn).quiesceAck = s.quiesceAck := rfl
@[simp] theorem State.drawn_quiesceReq (s : State) : (s.drawn).quiesceReq = s.quiesceReq := rfl
@[simp] theorem State.drawn_pwrOk (s : State) : (s.drawn).pwrOk = s.pwrOk := rfl
@[simp] theorem State.drawn_held (s : State) : (s.drawn).held = s.held := rfl
@[simp] theorem State.drawn_coldPin (s : State) : (s.drawn).coldPin = s.coldPin := rfl
@[simp] theorem State.drawn_warmPin (s : State) : (s.drawn).warmPin = s.warmPin := rfl
@[simp] theorem State.drawn_efuse (s : State) : (s.drawn).efuse = s.efuse := rfl
@[simp] theorem State.drawn_fuseShadow (s : State) : (s.drawn).fuseShadow = s.fuseShadow := rfl
@[simp] theorem State.drawn_tdo (s : State) : (s.drawn).tdo = s.tdo := rfl
@[simp] theorem State.drawn_wso (s : State) : (s.drawn).wso = s.wso := rfl
@[simp] theorem State.drawn_mode (s : State) : (s.drawn).mode = s.mode := rfl
@[simp] theorem State.drawn_change (s : State) : (s.drawn).change = s.change := rfl
@[simp] theorem State.drawn_frozenAt (s : State) : (s.drawn).frozenAt = s.frozenAt := rfl
@[simp] theorem State.drawn_testLock (s : State) : (s.drawn).testLock = s.testLock := rfl
@[simp] theorem State.drawn_regs (s : State) : (s.drawn).regs = s.regs := rfl
@[simp] theorem State.drawn_latches (s : State) : (s.drawn).latches = s.latches := rfl
@[simp] theorem State.drawn_notes (s : State) : (s.drawn).notes = s.notes := rfl
@[simp] theorem State.drawn_hlPend (s : State) : (s.drawn).hlPend = s.hlPend := rfl
@[simp] theorem State.drawn_hung (s : State) : (s.drawn).hung = s.hung := rfl
@[simp] theorem State.drawn_hlAns (s : State) : (s.drawn).hlAns = s.hlAns := rfl
@[simp] theorem State.drawn_banks (s : State) : (s.drawn).banks = s.banks := rfl
@[simp] theorem State.drawn_rules (s : State) : (s.drawn).rules = s.rules := rfl
@[simp] theorem State.drawn_sw (s : State) : (s.drawn).sw = s.sw := rfl
@[simp] theorem State.drawn_loader (s : State) : (s.drawn).loader = s.loader := rfl
@[simp] theorem State.drawn_flows (s : State) : (s.drawn).flows = s.flows := rfl
@[simp] theorem State.drawn_shRate (s : State) : (s.drawn).shRate = s.shRate := rfl
@[simp] theorem State.drawn_ni (s : State) : (s.drawn).ni = s.ni := rfl
@[simp] theorem State.drawn_rtr (s : State) : (s.drawn).rtr = s.rtr := rfl
@[simp] theorem State.drawn_links (s : State) : (s.drawn).links = s.links := rfl
@[simp] theorem State.drawn_creds (s : State) : (s.drawn).creds = s.creds := rfl
@[simp] theorem State.drawn_lni (s : State) : (s.drawn).lni = s.lni := rfl
@[simp] theorem State.drawn_skw (s : State) : (s.drawn).skw = s.skw := rfl
@[simp] theorem State.drawn_parts (s : State) : (s.drawn).parts = s.parts := rfl
@[simp] theorem State.drawn_boom (s : State) : (s.drawn).boom = s.boom := rfl
@[simp] theorem State.drawn_boomEvts (s : State) : (s.drawn).boomEvts = s.boomEvts := rfl
@[simp] theorem State.drawn_mclkOff (s : State) : (s.drawn).mclkOff = s.mclkOff := rfl
@[simp] theorem State.drawn_warmUntil (s : State) : (s.drawn).warmUntil = s.warmUntil := rfl
@[simp] theorem State.drawn_jq (s : State) : (s.drawn).jq = s.jq := rfl
@[simp] theorem State.drawn_jring (s : State) : (s.drawn).jring = s.jring := rfl
@[simp] theorem State.drawn_jgap (s : State) : (s.drawn).jgap = s.jgap := rfl
@[simp] theorem State.drawn_jmc (s : State) : (s.drawn).jmc = s.jmc := rfl
@[simp] theorem State.drawn_due (s : State) : (s.drawn).due = s.due := rfl
@[simp] theorem State.drawn_wins (s : State) : (s.drawn).wins = s.wins := rfl
@[simp] theorem State.drawn_escWait (s : State) : (s.drawn).escWait = s.escWait := rfl
@[simp] theorem State.drawn_eng (s : State) : (s.drawn).eng = s.eng := rfl
@[simp] theorem State.drawn_tally (s : State) : (s.drawn).tally = s.tally := rfl

@[simp] theorem State.hlReturn_pending (s : State) (m : Nat) (r : HlAnswer) : (s.hlReturn m r).pending = s.pending := rfl
@[simp] theorem State.hlReturn_fc (s : State) (m : Nat) (r : HlAnswer) : (s.hlReturn m r).fc = s.fc := rfl
@[simp] theorem State.hlReturn_mc (s : State) (m : Nat) (r : HlAnswer) : (s.hlReturn m r).mc = s.mc := rfl
@[simp] theorem State.hlReturn_mAcc (s : State) (m : Nat) (r : HlAnswer) : (s.hlReturn m r).mAcc = s.mAcc := rfl
@[simp] theorem State.hlReturn_tAcc (s : State) (m : Nat) (r : HlAnswer) : (s.hlReturn m r).tAcc = s.tAcc := rfl
@[simp] theorem State.hlReturn_fclkMHz (s : State) (m : Nat) (r : HlAnswer) : (s.hlReturn m r).fclkMHz = s.fclkMHz := rfl
@[simp] theorem State.hlReturn_tclkMHz (s : State) (m : Nat) (r : HlAnswer) : (s.hlReturn m r).tclkMHz = s.tclkMHz := rfl
@[simp] theorem State.hlReturn_draws (s : State) (m : Nat) (r : HlAnswer) : (s.hlReturn m r).draws = s.draws := rfl
@[simp] theorem State.hlReturn_time (s : State) (m : Nat) (r : HlAnswer) : (s.hlReturn m r).time = s.time := rfl
@[simp] theorem State.hlReturn_niAlive (s : State) (m : Nat) (r : HlAnswer) : (s.hlReturn m r).niAlive = s.niAlive := rfl
@[simp] theorem State.hlReturn_quiesceAck (s : State) (m : Nat) (r : HlAnswer) : (s.hlReturn m r).quiesceAck = s.quiesceAck := rfl
@[simp] theorem State.hlReturn_quiesceReq (s : State) (m : Nat) (r : HlAnswer) : (s.hlReturn m r).quiesceReq = s.quiesceReq := rfl
@[simp] theorem State.hlReturn_pwrOk (s : State) (m : Nat) (r : HlAnswer) : (s.hlReturn m r).pwrOk = s.pwrOk := rfl
@[simp] theorem State.hlReturn_held (s : State) (m : Nat) (r : HlAnswer) : (s.hlReturn m r).held = s.held := rfl
@[simp] theorem State.hlReturn_coldPin (s : State) (m : Nat) (r : HlAnswer) : (s.hlReturn m r).coldPin = s.coldPin := rfl
@[simp] theorem State.hlReturn_warmPin (s : State) (m : Nat) (r : HlAnswer) : (s.hlReturn m r).warmPin = s.warmPin := rfl
@[simp] theorem State.hlReturn_efuse (s : State) (m : Nat) (r : HlAnswer) : (s.hlReturn m r).efuse = s.efuse := rfl
@[simp] theorem State.hlReturn_fuseShadow (s : State) (m : Nat) (r : HlAnswer) : (s.hlReturn m r).fuseShadow = s.fuseShadow := rfl
@[simp] theorem State.hlReturn_tdo (s : State) (m : Nat) (r : HlAnswer) : (s.hlReturn m r).tdo = s.tdo := rfl
@[simp] theorem State.hlReturn_wso (s : State) (m : Nat) (r : HlAnswer) : (s.hlReturn m r).wso = s.wso := rfl
@[simp] theorem State.hlReturn_mode (s : State) (m : Nat) (r : HlAnswer) : (s.hlReturn m r).mode = s.mode := rfl
@[simp] theorem State.hlReturn_change (s : State) (m : Nat) (r : HlAnswer) : (s.hlReturn m r).change = s.change := rfl
@[simp] theorem State.hlReturn_frozenAt (s : State) (m : Nat) (r : HlAnswer) : (s.hlReturn m r).frozenAt = s.frozenAt := rfl
@[simp] theorem State.hlReturn_testLock (s : State) (m : Nat) (r : HlAnswer) : (s.hlReturn m r).testLock = s.testLock := rfl
@[simp] theorem State.hlReturn_regs (s : State) (m : Nat) (r : HlAnswer) : (s.hlReturn m r).regs = s.regs := rfl
@[simp] theorem State.hlReturn_latches (s : State) (m : Nat) (r : HlAnswer) : (s.hlReturn m r).latches = s.latches := rfl
@[simp] theorem State.hlReturn_notes (s : State) (m : Nat) (r : HlAnswer) : (s.hlReturn m r).notes = s.notes := rfl
@[simp] theorem State.hlReturn_hlPend (s : State) (m : Nat) (r : HlAnswer) : (s.hlReturn m r).hlPend = s.hlPend := rfl
@[simp] theorem State.hlReturn_hung (s : State) (m : Nat) (r : HlAnswer) : (s.hlReturn m r).hung = s.hung := rfl
@[simp] theorem State.hlReturn_banks (s : State) (m : Nat) (r : HlAnswer) : (s.hlReturn m r).banks = s.banks := rfl
@[simp] theorem State.hlReturn_rules (s : State) (m : Nat) (r : HlAnswer) : (s.hlReturn m r).rules = s.rules := rfl
@[simp] theorem State.hlReturn_sw (s : State) (m : Nat) (r : HlAnswer) : (s.hlReturn m r).sw = s.sw := rfl
@[simp] theorem State.hlReturn_loader (s : State) (m : Nat) (r : HlAnswer) : (s.hlReturn m r).loader = s.loader := rfl
@[simp] theorem State.hlReturn_flows (s : State) (m : Nat) (r : HlAnswer) : (s.hlReturn m r).flows = s.flows := rfl
@[simp] theorem State.hlReturn_shRate (s : State) (m : Nat) (r : HlAnswer) : (s.hlReturn m r).shRate = s.shRate := rfl
@[simp] theorem State.hlReturn_ni (s : State) (m : Nat) (r : HlAnswer) : (s.hlReturn m r).ni = s.ni := rfl
@[simp] theorem State.hlReturn_rtr (s : State) (m : Nat) (r : HlAnswer) : (s.hlReturn m r).rtr = s.rtr := rfl
@[simp] theorem State.hlReturn_links (s : State) (m : Nat) (r : HlAnswer) : (s.hlReturn m r).links = s.links := rfl
@[simp] theorem State.hlReturn_creds (s : State) (m : Nat) (r : HlAnswer) : (s.hlReturn m r).creds = s.creds := rfl
@[simp] theorem State.hlReturn_lni (s : State) (m : Nat) (r : HlAnswer) : (s.hlReturn m r).lni = s.lni := rfl
@[simp] theorem State.hlReturn_skw (s : State) (m : Nat) (r : HlAnswer) : (s.hlReturn m r).skw = s.skw := rfl
@[simp] theorem State.hlReturn_parts (s : State) (m : Nat) (r : HlAnswer) : (s.hlReturn m r).parts = s.parts := rfl
@[simp] theorem State.hlReturn_boom (s : State) (m : Nat) (r : HlAnswer) : (s.hlReturn m r).boom = s.boom := rfl
@[simp] theorem State.hlReturn_boomEvts (s : State) (m : Nat) (r : HlAnswer) : (s.hlReturn m r).boomEvts = s.boomEvts := rfl
@[simp] theorem State.hlReturn_mclkOff (s : State) (m : Nat) (r : HlAnswer) : (s.hlReturn m r).mclkOff = s.mclkOff := rfl
@[simp] theorem State.hlReturn_warmUntil (s : State) (m : Nat) (r : HlAnswer) : (s.hlReturn m r).warmUntil = s.warmUntil := rfl
@[simp] theorem State.hlReturn_jq (s : State) (m : Nat) (r : HlAnswer) : (s.hlReturn m r).jq = s.jq := rfl
@[simp] theorem State.hlReturn_jring (s : State) (m : Nat) (r : HlAnswer) : (s.hlReturn m r).jring = s.jring := rfl
@[simp] theorem State.hlReturn_jgap (s : State) (m : Nat) (r : HlAnswer) : (s.hlReturn m r).jgap = s.jgap := rfl
@[simp] theorem State.hlReturn_jmc (s : State) (m : Nat) (r : HlAnswer) : (s.hlReturn m r).jmc = s.jmc := rfl
@[simp] theorem State.hlReturn_due (s : State) (m : Nat) (r : HlAnswer) : (s.hlReturn m r).due = s.due := rfl
@[simp] theorem State.hlReturn_wins (s : State) (m : Nat) (r : HlAnswer) : (s.hlReturn m r).wins = s.wins := rfl
@[simp] theorem State.hlReturn_escWait (s : State) (m : Nat) (r : HlAnswer) : (s.hlReturn m r).escWait = s.escWait := rfl
@[simp] theorem State.hlReturn_eng (s : State) (m : Nat) (r : HlAnswer) : (s.hlReturn m r).eng = s.eng := rfl
@[simp] theorem State.hlReturn_tally (s : State) (m : Nat) (r : HlAnswer) : (s.hlReturn m r).tally = s.tally := rfl

@[simp] theorem State.ladder_pending (s : State) (it : FaultItem) (c w : Nat) : (s.ladder it c w).pending = s.pending := rfl
@[simp] theorem State.ladder_fc (s : State) (it : FaultItem) (c w : Nat) : (s.ladder it c w).fc = s.fc := rfl
@[simp] theorem State.ladder_mc (s : State) (it : FaultItem) (c w : Nat) : (s.ladder it c w).mc = s.mc := rfl
@[simp] theorem State.ladder_mAcc (s : State) (it : FaultItem) (c w : Nat) : (s.ladder it c w).mAcc = s.mAcc := rfl
@[simp] theorem State.ladder_tAcc (s : State) (it : FaultItem) (c w : Nat) : (s.ladder it c w).tAcc = s.tAcc := rfl
@[simp] theorem State.ladder_fclkMHz (s : State) (it : FaultItem) (c w : Nat) : (s.ladder it c w).fclkMHz = s.fclkMHz := rfl
@[simp] theorem State.ladder_tclkMHz (s : State) (it : FaultItem) (c w : Nat) : (s.ladder it c w).tclkMHz = s.tclkMHz := rfl
@[simp] theorem State.ladder_draws (s : State) (it : FaultItem) (c w : Nat) : (s.ladder it c w).draws = s.draws := rfl
@[simp] theorem State.ladder_time (s : State) (it : FaultItem) (c w : Nat) : (s.ladder it c w).time = s.time := rfl
@[simp] theorem State.ladder_niAlive (s : State) (it : FaultItem) (c w : Nat) : (s.ladder it c w).niAlive = s.niAlive := rfl
@[simp] theorem State.ladder_quiesceAck (s : State) (it : FaultItem) (c w : Nat) : (s.ladder it c w).quiesceAck = s.quiesceAck := rfl
@[simp] theorem State.ladder_quiesceReq (s : State) (it : FaultItem) (c w : Nat) : (s.ladder it c w).quiesceReq = s.quiesceReq := rfl
@[simp] theorem State.ladder_pwrOk (s : State) (it : FaultItem) (c w : Nat) : (s.ladder it c w).pwrOk = s.pwrOk := rfl
@[simp] theorem State.ladder_held (s : State) (it : FaultItem) (c w : Nat) : (s.ladder it c w).held = s.held := rfl
@[simp] theorem State.ladder_coldPin (s : State) (it : FaultItem) (c w : Nat) : (s.ladder it c w).coldPin = s.coldPin := rfl
@[simp] theorem State.ladder_warmPin (s : State) (it : FaultItem) (c w : Nat) : (s.ladder it c w).warmPin = s.warmPin := rfl
@[simp] theorem State.ladder_efuse (s : State) (it : FaultItem) (c w : Nat) : (s.ladder it c w).efuse = s.efuse := rfl
@[simp] theorem State.ladder_fuseShadow (s : State) (it : FaultItem) (c w : Nat) : (s.ladder it c w).fuseShadow = s.fuseShadow := rfl
@[simp] theorem State.ladder_tdo (s : State) (it : FaultItem) (c w : Nat) : (s.ladder it c w).tdo = s.tdo := rfl
@[simp] theorem State.ladder_wso (s : State) (it : FaultItem) (c w : Nat) : (s.ladder it c w).wso = s.wso := rfl
@[simp] theorem State.ladder_mode (s : State) (it : FaultItem) (c w : Nat) : (s.ladder it c w).mode = s.mode := rfl
@[simp] theorem State.ladder_change (s : State) (it : FaultItem) (c w : Nat) : (s.ladder it c w).change = s.change := rfl
@[simp] theorem State.ladder_frozenAt (s : State) (it : FaultItem) (c w : Nat) : (s.ladder it c w).frozenAt = s.frozenAt := rfl
@[simp] theorem State.ladder_testLock (s : State) (it : FaultItem) (c w : Nat) : (s.ladder it c w).testLock = s.testLock := rfl
@[simp] theorem State.ladder_regs (s : State) (it : FaultItem) (c w : Nat) : (s.ladder it c w).regs = s.regs := rfl
@[simp] theorem State.ladder_latches (s : State) (it : FaultItem) (c w : Nat) : (s.ladder it c w).latches = s.latches := rfl
@[simp] theorem State.ladder_notes (s : State) (it : FaultItem) (c w : Nat) : (s.ladder it c w).notes = s.notes := rfl
@[simp] theorem State.ladder_hlPend (s : State) (it : FaultItem) (c w : Nat) : (s.ladder it c w).hlPend = s.hlPend := rfl
@[simp] theorem State.ladder_hung (s : State) (it : FaultItem) (c w : Nat) : (s.ladder it c w).hung = s.hung := rfl
@[simp] theorem State.ladder_hlAns (s : State) (it : FaultItem) (c w : Nat) : (s.ladder it c w).hlAns = s.hlAns := rfl
@[simp] theorem State.ladder_banks (s : State) (it : FaultItem) (c w : Nat) : (s.ladder it c w).banks = s.banks := rfl
@[simp] theorem State.ladder_rules (s : State) (it : FaultItem) (c w : Nat) : (s.ladder it c w).rules = s.rules := rfl
@[simp] theorem State.ladder_sw (s : State) (it : FaultItem) (c w : Nat) : (s.ladder it c w).sw = s.sw := rfl
@[simp] theorem State.ladder_loader (s : State) (it : FaultItem) (c w : Nat) : (s.ladder it c w).loader = s.loader := rfl
@[simp] theorem State.ladder_flows (s : State) (it : FaultItem) (c w : Nat) : (s.ladder it c w).flows = s.flows := rfl
@[simp] theorem State.ladder_shRate (s : State) (it : FaultItem) (c w : Nat) : (s.ladder it c w).shRate = s.shRate := rfl
@[simp] theorem State.ladder_ni (s : State) (it : FaultItem) (c w : Nat) : (s.ladder it c w).ni = s.ni := rfl
@[simp] theorem State.ladder_rtr (s : State) (it : FaultItem) (c w : Nat) : (s.ladder it c w).rtr = s.rtr := rfl
@[simp] theorem State.ladder_links (s : State) (it : FaultItem) (c w : Nat) : (s.ladder it c w).links = s.links := rfl
@[simp] theorem State.ladder_creds (s : State) (it : FaultItem) (c w : Nat) : (s.ladder it c w).creds = s.creds := rfl
@[simp] theorem State.ladder_lni (s : State) (it : FaultItem) (c w : Nat) : (s.ladder it c w).lni = s.lni := rfl
@[simp] theorem State.ladder_skw (s : State) (it : FaultItem) (c w : Nat) : (s.ladder it c w).skw = s.skw := rfl
@[simp] theorem State.ladder_parts (s : State) (it : FaultItem) (c w : Nat) : (s.ladder it c w).parts = s.parts := rfl
@[simp] theorem State.ladder_boom (s : State) (it : FaultItem) (c w : Nat) : (s.ladder it c w).boom = s.boom := rfl
@[simp] theorem State.ladder_boomEvts (s : State) (it : FaultItem) (c w : Nat) : (s.ladder it c w).boomEvts = s.boomEvts := rfl
@[simp] theorem State.ladder_mclkOff (s : State) (it : FaultItem) (c w : Nat) : (s.ladder it c w).mclkOff = s.mclkOff := rfl
@[simp] theorem State.ladder_warmUntil (s : State) (it : FaultItem) (c w : Nat) : (s.ladder it c w).warmUntil = s.warmUntil := rfl
@[simp] theorem State.ladder_jq (s : State) (it : FaultItem) (c w : Nat) : (s.ladder it c w).jq = s.jq := rfl
@[simp] theorem State.ladder_jring (s : State) (it : FaultItem) (c w : Nat) : (s.ladder it c w).jring = s.jring := rfl
@[simp] theorem State.ladder_jgap (s : State) (it : FaultItem) (c w : Nat) : (s.ladder it c w).jgap = s.jgap := rfl
@[simp] theorem State.ladder_jmc (s : State) (it : FaultItem) (c w : Nat) : (s.ladder it c w).jmc = s.jmc := rfl
@[simp] theorem State.ladder_wins (s : State) (it : FaultItem) (c w : Nat) : (s.ladder it c w).wins = s.wins := rfl
@[simp] theorem State.ladder_escWait (s : State) (it : FaultItem) (c w : Nat) : (s.ladder it c w).escWait = s.escWait := rfl
@[simp] theorem State.ladder_eng (s : State) (it : FaultItem) (c w : Nat) : (s.ladder it c w).eng = s.eng := rfl
@[simp] theorem State.ladder_tally (s : State) (it : FaultItem) (c w : Nat) : (s.ladder it c w).tally = s.tally := rfl

end Sys2Proof.Machine
end

