-- ==== Sys2Proof/Laws/Bits.lean ====
section
/-! SUPPORT. Fields of words, and what a register reads after a write to it or to another. -/

namespace Sys2Proof.Machine
set_option Elab.async false

theorem testBit_ones (n i : Nat) : (2 ^ n - 1).testBit i = decide (i < n) := Nat.testBit_two_pow_sub_one n i

/-- Each bit of a word after a field of it was replaced. -/
theorem putBits_getLsbD {w : Nat} (x : BitVec w) (hi lo v i : Nat) (hi' : i < w) :
    (putBits x hi lo v).getLsbD i = if lo ≤ i ∧ i < hi + 1 then v.testBit (i - lo) else x.getLsbD i := by
  unfold putBits
  simp only [BitVec.getLsbD_or, BitVec.getLsbD_and, BitVec.getLsbD_not, BitVec.getLsbD_ofNat, Nat.testBit_shiftLeft,
    testBit_ones, Nat.testBit_mod_two_pow, hi', decide_true, Bool.true_and]
  by_cases h1 : lo ≤ i
  · by_cases h2 : i < hi + 1
    · have h3 : i - lo < hi + 1 - lo := by omega
      simp [h1, h2, h3]
    · have h3 : ¬ i - lo < hi + 1 - lo := by omega
      simp [h1, h2, h3]
  · simp [h1]

/-- Each bit of a field. -/
theorem getBits_testBit {w : Nat} (x : BitVec w) (hi lo i : Nat) :
    (getBits x hi lo).testBit i = (decide (i < hi + 1 - lo) && x.getLsbD (lo + i)) := by
  unfold getBits
  rw [Nat.testBit_mod_two_pow, Nat.testBit_shiftRight]
  simp [BitVec.getLsbD]

theorem getBits_putBits_self {w : Nat} (x : BitVec w) (hi lo v : Nat) (h : lo ≤ hi) (hw : hi < w) :
    getBits (putBits x hi lo v) hi lo = v % 2 ^ (hi + 1 - lo) := by
  refine Nat.eq_of_testBit_eq fun i => ?_
  rw [getBits_testBit, Nat.testBit_mod_two_pow]
  by_cases hi' : i < hi + 1 - lo
  · rw [putBits_getLsbD _ _ _ _ _ (by omega), if_pos (by omega)]
    simp
  · simp [hi']

theorem getBits_putBits_ne {w : Nat} (x : BitVec w) (hi lo v hi' lo' : Nat) (h : hi' < lo ∨ hi < lo') :
    getBits (putBits x hi lo v) hi' lo' = getBits x hi' lo' := by
  refine Nat.eq_of_testBit_eq fun i => ?_
  rw [getBits_testBit, getBits_testBit]
  by_cases hi'' : i < hi' + 1 - lo'
  · by_cases hw : lo' + i < w
    · rw [putBits_getLsbD _ _ _ _ _ hw, if_neg (by omega)]
    · rw [BitVec.getLsbD_of_ge _ _ (by omega), BitVec.getLsbD_of_ge _ _ (by omega)]
  · simp [hi'']

theorem bit_putBits_ne {w : Nat} (x : BitVec w) (hi lo v i : Nat) (h : i < lo ∨ hi < i) :
    bit (putBits x hi lo v) i = bit x i := by
  unfold bit
  by_cases hw : i < w
  · rw [putBits_getLsbD _ _ _ _ _ hw, if_neg (by omega)]
  · rw [BitVec.getLsbD_of_ge _ _ (by omega), BitVec.getLsbD_of_ge _ _ (by omega)]

theorem bit_putBits_self {w : Nat} (x : BitVec w) (hi lo v i : Nat) (h : lo ≤ i) (h' : i ≤ hi) (hw : i < w) :
    bit (putBits x hi lo v) i = v.testBit (i - lo) := by
  unfold bit
  rw [putBits_getLsbD _ _ _ _ _ hw, if_pos (by omega)]

@[simp] theorem bit_putBit_self {w : Nat} (x : BitVec w) (i : Nat) (b : Bool) (hw : i < w) :
    bit (putBit x i b) i = b := by
  rw [putBit, bit_putBits_self _ _ _ _ _ (Nat.le_refl i) (Nat.le_refl i) hw]
  cases b <;> simp [flag]

theorem bit_putBit_ne {w : Nat} (x : BitVec w) (i j : Nat) (b : Bool) (h : j ≠ i) : bit (putBit x i b) j = bit x j :=
  bit_putBits_ne x i i (flag b) j (by omega)

/-! Registers -/

theorem State.rd_wr (s : State) (a b : Nat) (v : Word) : (s.wr a v).rd b = if b = a then v else s.rd b :=
  Tbl.get_set _ _ _ _ _

@[simp] theorem State.rd_wr_self (s : State) (a : Nat) (v : Word) : (s.wr a v).rd a = v := by
  rw [State.rd_wr, if_pos rfl]

theorem State.rd_wr_ne (s : State) {a b : Nat} (h : b ≠ a) (v : Word) : (s.wr a v).rd b = s.rd b := by
  rw [State.rd_wr, if_neg h]

theorem State.rd_setFld (s : State) (a b hi lo v : Nat) :
    (s.setFld a hi lo v).rd b = if b = a then putBits (s.rd a) hi lo v else s.rd b := State.rd_wr _ _ _ _

theorem State.rd_setFld_ne (s : State) {a b : Nat} (h : b ≠ a) (hi lo v : Nat) : (s.setFld a hi lo v).rd b = s.rd b :=
  State.rd_wr_ne s h _

/-- Two states whose registers agree at `a` agree on its fields and bits. -/
theorem State.fld_congr {s t : State} {a : Nat} (h : t.rd a = s.rd a) (hi lo : Nat) : t.fld a hi lo = s.fld a hi lo := by
  unfold State.fld; rw [h]

theorem State.rbit_congr {s t : State} {a : Nat} (h : t.rd a = s.rd a) (i : Nat) : t.rbit a i = s.rbit a i := by
  unfold State.rbit; rw [h]

theorem State.rd_hlPark (s : State) {a : Nat} (h : a ≠ HL_PARK) (m g : Nat) : (s.hlPark m g).rd a = s.rd a :=
  State.rd_setFld_ne s h _ _ _

theorem State.rd_seq (s : State) {a : Nat} {p : Page} (h : a ≠ pageBase p + 0x30) : (s.seq p).rd a = s.rd a :=
  State.rd_setFld_ne s h _ _ _

theorem State.rd_setBit_ne (s : State) {a b : Nat} (h : b ≠ a) (i : Nat) : (s.setBit a i).rd b = s.rd b :=
  State.rd_setFld_ne s h _ _ _

/-- An error bit of a page touches its PAGE_ERR and PAGE_ERR_FIRST alone. -/
theorem State.rd_errBit (s : State) {a : Nat} {p : Page} (h : a ≠ pageBase p + 0x18) (k : a ≠ pageBase p + 0x20)
    (b : Nat) : (s.errBit p b).rd a = s.rd a := by
  refine (State.rd_setBit_ne _ h _).trans ?_
  split
  · exact State.rd_wr_ne _ k _
  · split
    · rfl
    · exact State.rd_setFld_ne _ k _ _ _

/-- The registers in which an overrun of a pulse into MCLK is flagged (R410): XING_OVR and the errors of the POWER page. -/
def pulseRegs : List Nat := [XING_OVR0, XING_OVR1, 0x6018, 0x6020]

/-- A pulse into MCLK touches them alone. -/
theorem State.rd_pulse (s : State) {a : Nat} (h : a ∉ pulseRegs) (p : Page) : (s.pulse p).rd a = s.rd a := by
  simp only [pulseRegs, List.mem_cons, not_or] at h
  obtain ⟨h0, h1, h2, h3, -⟩ := h
  have hx : a ≠ if pageDomain p < 32 then XING_OVR0 else XING_OVR1 := by split <;> assumption
  unfold State.pulse
  dsimp only
  split
  · rfl
  · split
    · rfl
    · refine ((State.rd_errBit (p := .power) _ h2 h3 _).trans (State.rd_setBit_ne _ hx _)).trans ?_
      generalize State.rbit _ _ _ = b
      cases b <;> rfl

/-- An error of a page touches its PAGE_ERR and PAGE_ERR_FIRST, and what its pulse touches. -/
theorem State.rd_pageErr (s : State) {a : Nat} {p : Page} (h : a ≠ pageBase p + 0x18) (k : a ≠ pageBase p + 0x20)
    (x : a ∉ pulseRegs) (b : Nat) : (s.pageErr p b).rd a = s.rd a :=
  (State.rd_pulse _ x p).trans (State.rd_errBit s h k b)

theorem State.rd_pageIrq (s : State) {a : Nat} {p : Page} (h : a ≠ pageBase p + 0x24) (x : a ∉ pulseRegs) (b : Nat) :
    (s.pageIrq p b).rd a = s.rd a :=
  (State.rd_pulse _ x p).trans (State.rd_setBit_ne s h b)

/-! The tables of parts -/

@[simp] theorem State.niOf_setNi_self (s : State) (n : Nat) (x : Ni) : (s.setNi n x).niOf n = x := Tbl.get_set_self _ _ _ _
theorem State.niOf_setNi_ne (s : State) {n k : Nat} (h : k ≠ n) (x : Ni) : (s.setNi n x).niOf k = s.niOf k :=
  Tbl.get_set_ne _ h _ _
@[simp] theorem State.niOf_modNi_self (s : State) (n : Nat) (f : Ni → Ni) : (s.modNi n f).niOf n = f (s.niOf n) :=
  Tbl.get_set_self _ _ _ _
theorem State.niOf_modNi_ne (s : State) {n k : Nat} (h : k ≠ n) (f : Ni → Ni) : (s.modNi n f).niOf k = s.niOf k :=
  Tbl.get_set_ne _ h _ _
@[simp] theorem State.rtrOf_setRtr_self (s : State) (k : Nat) (x : Rtr) : (s.setRtr k x).rtrOf k = x :=
  Tbl.get_set_self _ _ _ _
@[simp] theorem State.skwOf_setSkw_self (s : State) (k : Nat) (x : Skw) : (s.setSkw k x).skwOf k = x :=
  Tbl.get_set_self _ _ _ _
theorem State.skwOf_setSkw_ne (s : State) {n k : Nat} (h : k ≠ n) (x : Skw) : (s.setSkw n x).skwOf k = s.skwOf k :=
  Tbl.get_set_ne _ h _ _
@[simp] theorem State.partOf_setPart_self (s : State) (p : Nat) (x : Part) : (s.setPart p x).partOf p = x :=
  Tbl.get_set_self _ _ _ _
theorem State.partOf_setPart_ne (s : State) {n k : Nat} (h : k ≠ n) (x : Part) : (s.setPart n x).partOf k = s.partOf k :=
  Tbl.get_set_ne _ h _ _
@[simp] theorem State.boomOf_setBoom_self (s : State) (d : Nat) (x : Boom) : (s.setBoom d x).boomOf d = x :=
  Tbl.get_set_self _ _ _ _
theorem State.boomOf_setBoom_ne (s : State) {n k : Nat} (h : k ≠ n) (x : Boom) : (s.setBoom n x).boomOf k = s.boomOf k :=
  Tbl.get_set_ne _ h _ _
@[simp] theorem State.bankOf_setBank_self (s : State) (c : Nat) (x : Pool) : (s.setBank c x).bankOf c = x :=
  Tbl.get_set_self _ _ _ _
@[simp] theorem State.linkOf_setLink_self (s : State) (l : Nat) (x : List Fly) : (s.setLink l x).linkOf l = x :=
  Tbl.get_set_self _ _ _ _
@[simp] theorem State.credOf_setCred_self (s : State) (l : Nat) (x : List (Nat × Nat)) : (s.setCred l x).credOf l = x :=
  Tbl.get_set_self _ _ _ _

end Sys2Proof.Machine
end

