-- ==== Sys2Proof/Laws/Access.lean ====
section
/-! SUPPORT. What an access that Hayloft performs at once does: the page or window operation on the state in which the
segment is parked, and the answer. -/

namespace Sys2Proof.Machine
set_option Elab.async false

/-- The base and offset of an address name its page. -/
theorem pageOf_base (p : Page) (o : Nat) (h : o < 0x1000) : pageOf (pageBase p + o) = some (p, o) := by
  cases p with
  | ni n =>
    have hn := n.isLt
    unfold pageOf pageBase
    have e : (0x100000 + 0x1000 * n.val + o) / 0x1000 = 0x100 + n.val := by omega
    have f : (0x100000 + 0x1000 * n.val + o) % 0x1000 = o := by omega
    simp (disch := omega) only [e, f, if_neg, dif_neg, dif_pos]
    simp
  | router n =>
    have hn := n.isLt
    unfold pageOf pageBase
    have e : (0x200000 + 0x1000 * n.val + o) / 0x1000 = 0x200 + n.val := by omega
    have f : (0x200000 + 0x1000 * n.val + o) % 0x1000 = o := by omega
    simp (disch := omega) only [e, f, if_neg, dif_neg, dif_pos]
    simp
  | skidway n =>
    have hn := n.isLt
    unfold pageOf pageBase
    have e : (0x300000 + 0x1000 * n.val + o) / 0x1000 = 0x300 + n.val := by omega
    have f : (0x300000 + 0x1000 * n.val + o) % 0x1000 = o := by omega
    simp (disch := omega) only [e, f, if_neg, dif_neg, dif_pos]
    simp
  | cluster n =>
    have hn := n.isLt
    unfold pageOf pageBase
    have e : (0x340000 + 0x1000 * n.val + o) / 0x1000 = 0x340 + n.val := by omega
    have f : (0x340000 + 0x1000 * n.val + o) % 0x1000 = o := by omega
    simp (disch := omega) only [e, f, if_neg, dif_neg, dif_pos]
    simp
  | partition n =>
    have hn := n.isLt
    unfold pageOf pageBase
    have e : (0x1000000 + 0x1000 * n.val + o) / 0x1000 = 0x1000 + n.val := by omega
    have f : (0x1000000 + 0x1000 * n.val + o) % 0x1000 = o := by omega
    simp (disch := omega) only [e, f, if_neg, dif_neg, dif_pos]
    simp
  | _ =>
    have h4 : ¬ 4096 ≤ o := by omega
    unfold pageOf pageBase
    simp [h4, Nat.add_mod, Nat.mod_eq_of_lt h, Nat.div_eq_of_lt h, Nat.add_div]

theorem slaveOf_base (p : Page) (o : Nat) (h : o < 0x1000) : slaveOf (pageBase p + o) = some (.page p o) := by
  unfold slaveOf; rw [pageOf_base p o h]

/-- A request is noted, and nothing else of the state changes. -/
theorem State.asked_eq (s : State) (m a : Nat) : ∃ n, s.asked m a = { s with notes := n } := by
  unfold State.asked
  split
  · exact ⟨_, rfl⟩
  · exact ⟨s.notes, rfl⟩

theorem State.rd_asked (s : State) (m a b : Nat) : (s.asked m a).rd b = s.rd b := by
  obtain ⟨n, h⟩ := s.asked_eq m a
  rw [h]; rfl

/-- The state in which the operation of a served access of master `m` acts. -/
def State.served (s : State) (m : Master) (a : Nat) (t : HlSlave) : State := (s.asked m.val a).hlPark m.val t.segment

theorem State.rd_served (s : State) (m : Master) (a : Nat) (t : HlSlave) {b : Nat} (h : b ≠ HL_PARK) :
    (s.served m a t).rd b = s.rd b := (State.rd_hlPark _ h _ _).trans (State.rd_asked s _ _ b)

/-- What a served access does. -/
theorem State.hlAccess_serves {s : State} {m : Master} {wr : Bool} {a : Nat} {t : HlSlave} (h : s.Serves m wr a t)
    (hs : slaveOf a = some t) (v : Word) :
    s.hlAccess m.val wr a v = (((s.served m a t).hlPerform m.val wr a v t).2.hlTaken m.val).hlReturn m.val
      ((s.served m a t).hlPerform m.val wr a v t).1 := by
  obtain ⟨h1, h2, h3, h4, hc, h5, h6, h7, h8, h9⟩ := h
  have hm : (m.val = 5) = False := by
    simp only [eq_iff_iff, iff_false]
    exact fun e => h9 (Fin.ext e)
  have hr : s.hlRuns = true := by simp [State.hlRuns, h1, h2, h3, hc]
  have hk : s.hlStuck m.val wr a = false := by simp [State.hlStuck, h4]
  obtain ⟨n, hn⟩ := s.asked_eq m.val a
  have hd : ((s.served m a t).dom t.domain).cut = false := by
    have : (s.served m a t).dom t.domain = s.dom t.domain := by rw [State.served, hn]; rfl
    rw [this]; exact h8
  have hh : (s.asked m.val a).hung.contains (a / 0x1000) = false := by rw [hn]; exact h6
  simp only [State.served] at hd ⊢
  simp only [State.hlAccess, hr, h5, hk, State.hlIssue, hm, State.hlDo, hh, hs, Option.filter, h7]
  simp [hd]

theorem State.regWrite_serves {s : State} {m : Master} {a : Nat} {t : HlSlave} (h : s.Serves m true a t)
    (hs : slaveOf a = some t) (ha : a % 4 = 0) (v : Word) :
    s.regWrite m a v = (((s.served m a t).hlPerform m.val true a v t).2.hlTaken m.val).hlReturn m.val
      ((s.served m a t).hlPerform m.val true a v t).1 := by
  rw [← State.hlAccess_serves h hs]
  simp [State.regWrite, State.aperture, ha]

theorem State.regGet_serves {s : State} {m : Master} {a : Nat} {t : HlSlave} (h : s.Serves m false a t)
    (hs : slaveOf a = some t) (ha : a % 4 = 0) :
    s.regGet m a = (((s.served m a t).hlPerform m.val false a 0 t).2.hlTaken m.val).hlReturn m.val
      ((s.served m a t).hlPerform m.val false a 0 t).1 := by
  rw [← State.hlAccess_serves h hs]
  simp [State.regGet, State.aperture, ha]

/-- A write that is served at a page. -/
theorem State.regWrite_page {s : State} {m : Master} {p : Page} {o : Nat}
    (h : s.Serves m true (pageBase p + o) (.page p o)) (ho : o < 0x1000) (ha : o % 4 = 0) (v : Word) :
    s.regWrite m (pageBase p + o) v =
      (((s.served m (pageBase p + o) (.page p o)).pageWrite m.val p o v).2.hlTaken m.val).hlReturn m.val
        { code := ((s.served m (pageBase p + o) (.page p o)).pageWrite m.val p o v).1 } := by
  have hb : pageBase p % 4 = 0 := by cases p <;> simp [pageBase] <;> omega
  have hm : (m.val = 5) = False := by
    simp only [eq_iff_iff, iff_false]
    exact fun e => h.user (Fin.ext e)
  rw [State.regWrite_serves h (slaveOf_base p o ho) (by omega)]
  simp [State.hlPerform, hm]

/-- A write that is served at a table window. -/
theorem State.regWrite_window {s : State} {m : Master} {a : Nat} {w : Window} (h : s.Serves m true a (.window w))
    (hs : slaveOf a = some (.window w)) (ha : a % 4 = 0) (v : Word) :
    s.regWrite m a v = s.answered m a (.window w) 0 fun u => u.windowWrite m.val w a v := by
  rw [State.regWrite_serves h hs ha]; rfl

/-- A read that is served at a table window. -/
theorem State.regGet_window {s : State} {m : Master} {a : Nat} {w : Window} (h : s.Serves m false a (.window w))
    (hs : slaveOf a = some (.window w)) (ha : a % 4 = 0) :
    s.regGet m a = s.answered m a (.window w) ((s.served m a (.window w)).windowRead m.val w a).1
      fun u => (u.windowRead m.val w a).2 := by
  rw [State.regGet_serves h hs ha]; rfl

/-- A read that is served at a page. -/
theorem State.regGet_page {s : State} {m : Master} {p : Page} {o : Nat}
    (h : s.Serves m false (pageBase p + o) (.page p o)) (ho : o < 0x1000) (ha : o % 4 = 0) :
    s.regGet m (pageBase p + o) = s.answered m (pageBase p + o) (.page p o)
      ((s.served m (pageBase p + o) (.page p o)).pageRead m.val p o).1 fun u => (u.pageRead m.val p o).2 := by
  have hb : pageBase p % 4 = 0 := by cases p <;> simp [pageBase] <;> omega
  rw [State.regGet_serves h (slaveOf_base p o ho) (by omega)]; rfl

/-- A write that reaches a register whose row has no field cleared by a one, and is not refused: PAGE_SEQ counts it, and
its effect takes the bits written that are open and the word that the register then holds. -/
theorem State.regWrite_row {s : State} {m : Master} {p : Page} {o : Nat} (h : s.Takes m p o) (ho : 0x100 ≤ o)
    (ho' : o < 0x1000) (ha : o % 4 = 0) {r : RegRow} (hr : rowAt p o = some r) (hc : r.mask .w1c = 0)
    (hw : r.writable ≠ 0) {u : State} (hu : u = s.served m (pageBase p + o) (.page p o)) {open_ store : Word}
    (hopen : open_ = ~~~ (u.inert p o ||| u.shut p o))
    (hstore : store = (r.mask .rw ||| (if s.rbit (pageBase p + 0x10) 2 then 0 else r.mask .rwl)) &&& open_)
    (hne : store ||| (r.mask .wo &&& open_) ≠ 0)
    (hp : pageBase p + 0x10 ≠ HL_PARK) (hp' : pageBase p + o ≠ HL_PARK) (v : Word)
    (hsr : u.stateRefused p o (v &&& open_) = none)
    (hva : varTouched (pageBase p + o) = true → s.eng.varStep = 0) :
    s.regWrite m (pageBase p + o) v = s.wrote m p o fun u =>
      (u.writeEffect m.val p o (v &&& open_) ((s.rd (pageBase p + o) &&& ~~~ store) ||| (v &&& store))).managerWrote
        m.val (pageBase p + o) := by
  rw [State.regWrite_page h.serves ho' ha, ← hu]
  have e1 : u.rd (pageBase p + 0x10) = s.rd (pageBase p + 0x10) := by rw [hu]; exact State.rd_served _ _ _ _ hp
  have e2 : u.rd (pageBase p + o) = s.rd (pageBase p + o) := by rw [hu]; exact State.rd_served _ _ _ _ hp'
  have e3 : u.rbit (pageBase p + 0x10) 0 = true := by rw [State.rbit_congr e1]; exact h.enabled
  have e4 : u.rbit (pageBase p + 0x10) 2 = s.rbit (pageBase p + 0x10) 2 := State.rbit_congr e1 2
  have e6 : u.eng = s.eng := by
    obtain ⟨n, hn⟩ := s.asked_eq m.val (pageBase p + o)
    rw [hu, State.served, hn]; rfl
  have key : u.pageWrite m.val p o v = (OK, ((u.seq p).writeEffect m.val p o (v &&& open_)
      ((s.rd (pageBase p + o) &&& ~~~ store) ||| (v &&& store))).managerWrote m.val (pageBase p + o)) := by
    have hva' : (if m.val ≠ 5 && varTouched (pageBase p + o) then u.varAbandon (pageBase p + o) else u) = u := by
      split
      · next hc =>
        have hv : varTouched (pageBase p + o) = true := by revert hc; simp
        rw [State.varAbandon, e6, if_pos (hva hv)]
      · rfl
    simp only [State.pageWrite, hr, State.rowWrite, hc, if_true, e3, e4, ← hopen, ← hstore, hw, hne, hsr]
    rw [if_neg (by omega)]
    simp only [if_false, Bool.not_true, Bool.false_and, Bool.false_eq_true, hva', e2]
  rw [key]
  simp only [State.wrote, State.answered]
  rw [hu]
  rfl

end Sys2Proof.Machine
end

