-- ==== Sys2Proof/Laws/Keeps.lean ====
section
/-! SUPPORT. `Keeps s t`: what every operation does to the parts of the state that none of them owns. The queue of
commands, the pins, the clocks and the eFuse array stay, and a sound state stays sound. Each operation has one lemma of
this form; this file has those of the base operations. -/

namespace Sys2Proof.Machine
set_option Elab.async false

/-- The queue and the pins stay, and soundness is kept. -/
structure Keeps (s t : State) : Prop where
  pending : t.pending = s.pending
  pins    : s.SamePins t
  sound   : s.Sound → t.Sound

theorem State.SamePins.refl (s : State) : s.SamePins s := ⟨rfl, rfl, rfl, rfl, rfl, rfl, rfl⟩

theorem State.SamePins.trans {s t u : State} (h : s.SamePins t) (k : t.SamePins u) : s.SamePins u := by
  cases h; cases k; constructor <;> simp only [*]

theorem Keeps.refl (s : State) : Keeps s s := ⟨rfl, .refl s, id⟩

theorem Keeps.trans {s t u : State} (h : Keeps s t) (k : Keeps t u) : Keeps s u :=
  ⟨k.1.trans h.1, h.2.trans k.2, fun x => k.3 (h.3 x)⟩

/-- An update of fields that neither soundness nor the pins speak of: each of the others stays by reflexivity. -/
theorem Keeps.same {s t : State} (hp : t.pending = s.pending := by rfl)
    (hs : s.SamePins t := by exact ⟨rfl, rfl, rfl, rfl, rfl, rfl, rfl⟩)
    (h1 : t.regs = s.regs := by rfl) (h2 : t.latches = s.latches := by rfl) (h3 : t.hlAns = s.hlAns := by rfl)
    (h4 : t.banks = s.banks := by rfl) (h5 : t.flows = s.flows := by rfl) (h6 : t.ni = s.ni := by rfl)
    (h7 : t.rtr = s.rtr := by rfl) (h8 : t.links = s.links := by rfl) (h9 : t.creds = s.creds := by rfl)
    (h10 : t.skw = s.skw := by rfl) (h11 : t.parts = s.parts := by rfl) (h12 : t.boom = s.boom := by rfl)
    (h13 : t.jring = s.jring := by rfl) (h14 : t.jq = s.jq := by rfl) : Keeps s t :=
  ⟨hp, hs, fun h => by cases h; constructor <;> simp only [*]⟩

theorem Keeps.ite {s a b : State} {c : Prop} [Decidable c] (ha : Keeps s a) (hb : Keeps s b) :
    Keeps s (if c then a else b) := by split <;> assumption

theorem Keeps.foldl {α : Type} {s t : State} (f : State → α → State) (l : List α) (hf : ∀ u x, Keeps u (f u x))
    (h : Keeps s t) : Keeps s (l.foldl f t) := by
  induction l generalizing t with
  | nil => exact h
  | cons x l ih => exact ih (h.trans (hf t x))

theorem Keeps.forN {s t : State} (n : Nat) (f : Nat → State → State) (hf : ∀ i u, Keeps u (f i u)) (h : Keeps s t) :
    Keeps s (forN n f t) := by
  induction n with
  | zero => exact h
  | succ n ih => exact ih.trans (hf n _)

theorem Keeps.atTile {s t : State} (k : Nat) (f : State → State) (hf : ∀ u, Keeps u (f u)) (h : Keeps s t) :
    Keeps s (t.atTile k f) := by
  unfold State.atTile
  split
  · exact h.trans (hf t)
  · exact h

theorem Keeps.eq {s t u : State} (h : Keeps s t) (e : t = u) : Keeps s u := e ▸ h

/-- The second of a pair that an operation answers. -/
theorem Keeps.snd {α : Type} {s t : State} {p : α × State} {a : α} (h : Keeps s p.2) (e : p = (a, t)) : Keeps s t := by
  subst e; exact h

/-- The first of a pair that an operation answers. -/
theorem Keeps.fst {α : Type} {s t : State} {p : State × α} {a : α} (h : Keeps s p.1) (e : p = (t, a)) : Keeps s t := by
  subst e; exact h

theorem Keeps.getD {s d : State} {o : Option State} (ho : ∀ t, o = some t → Keeps s t) (hd : Keeps s d) :
    Keeps s (o.getD d) := by
  cases o with
  | none => exact hd
  | some t => exact ho t rfl

theorem State.wr_keeps (s : State) (a : Nat) (v : Word) : Keeps s (s.wr a v) :=
  ⟨rfl, ⟨rfl, rfl, rfl, rfl, rfl, rfl, rfl⟩, fun h => { h with regs := Tbl.wf_set _ _ _ _ h.regs }⟩
theorem State.setNi_keeps (s : State) (n : Nat) (x : Ni) : Keeps s (s.setNi n x) :=
  ⟨rfl, ⟨rfl, rfl, rfl, rfl, rfl, rfl, rfl⟩, fun h => { h with ni := Tbl.wf_set _ _ _ _ h.ni }⟩
theorem State.setRtr_keeps (s : State) (k : Nat) (x : Rtr) : Keeps s (s.setRtr k x) :=
  ⟨rfl, ⟨rfl, rfl, rfl, rfl, rfl, rfl, rfl⟩, fun h => { h with rtr := Tbl.wf_set _ _ _ _ h.rtr }⟩
theorem State.setLink_keeps (s : State) (l : Nat) (x : List Fly) : Keeps s (s.setLink l x) :=
  ⟨rfl, ⟨rfl, rfl, rfl, rfl, rfl, rfl, rfl⟩, fun h => { h with links := Tbl.wf_set _ _ _ _ h.links }⟩
theorem State.setCred_keeps (s : State) (l : Nat) (x : List (Nat × Nat)) : Keeps s (s.setCred l x) :=
  ⟨rfl, ⟨rfl, rfl, rfl, rfl, rfl, rfl, rfl⟩, fun h => { h with creds := Tbl.wf_set _ _ _ _ h.creds }⟩
theorem State.setBank_keeps (s : State) (c : Nat) (x : Pool) : Keeps s (s.setBank c x) :=
  ⟨rfl, ⟨rfl, rfl, rfl, rfl, rfl, rfl, rfl⟩, fun h => { h with banks := Tbl.wf_set _ _ _ _ h.banks }⟩
theorem State.setPart_keeps (s : State) (p : Nat) (x : Part) : Keeps s (s.setPart p x) :=
  ⟨rfl, ⟨rfl, rfl, rfl, rfl, rfl, rfl, rfl⟩, fun h => { h with parts := Tbl.wf_set _ _ _ _ h.parts }⟩
theorem State.setSkw_keeps (s : State) (k : Nat) (x : Skw) : Keeps s (s.setSkw k x) :=
  ⟨rfl, ⟨rfl, rfl, rfl, rfl, rfl, rfl, rfl⟩, fun h => { h with skw := Tbl.wf_set _ _ _ _ h.skw }⟩
theorem State.setBoom_keeps (s : State) (d : Nat) (x : Boom) : Keeps s (s.setBoom d x) :=
  ⟨rfl, ⟨rfl, rfl, rfl, rfl, rfl, rfl, rfl⟩, fun h => { h with boom := Tbl.wf_set _ _ _ _ h.boom }⟩
theorem State.setLatch_keeps (s : State) (m a : Nat) (v : Option Word) : Keeps s (s.setLatch m a v) :=
  ⟨rfl, ⟨rfl, rfl, rfl, rfl, rfl, rfl, rfl⟩, fun h => { h with latches := Tbl.wf_set _ _ _ _ h.latches }⟩
theorem State.hlReturn_keeps (s : State) (m : Nat) (r : HlAnswer) : Keeps s (s.hlReturn m r) :=
  ⟨rfl, ⟨rfl, rfl, rfl, rfl, rfl, rfl, rfl⟩, fun h => { h with hlAns := Tbl.wf_set _ _ _ _ h.hlAns }⟩

theorem Keeps.setRegs (s : State) (r : Tbl Word) (hr : s.Sound → Tbl.wf resetWord r = true) : Keeps s { s with regs := r } :=
  ⟨rfl, ⟨rfl, rfl, rfl, rfl, rfl, rfl, rfl⟩, fun h => { h with regs := hr h }⟩
theorem Keeps.setNis (s : State) (r : Tbl Ni) (hr : s.Sound → Tbl.wf (fun _ => {}) r = true) : Keeps s { s with ni := r } :=
  ⟨rfl, ⟨rfl, rfl, rfl, rfl, rfl, rfl, rfl⟩, fun h => { h with ni := hr h }⟩
theorem Keeps.setSkws (s : State) (r : Tbl Skw) (hr : s.Sound → Tbl.wf (fun _ => {}) r = true) : Keeps s { s with skw := r } :=
  ⟨rfl, ⟨rfl, rfl, rfl, rfl, rfl, rfl, rfl⟩, fun h => { h with skw := hr h }⟩
theorem Keeps.setFlows (s : State) (r : Tbl (BitVec 256)) (hr : s.Sound → Tbl.wf (fun _ => 0) r = true) :
    Keeps s { s with flows := r } :=
  ⟨rfl, ⟨rfl, rfl, rfl, rfl, rfl, rfl, rfl⟩, fun h => { h with flows := hr h }⟩
theorem Keeps.setJring (s : State) (r : Tbl JEntry) (hr : s.Sound → Tbl.wf (fun _ => {}) r = true) :
    Keeps s { s with jring := r } :=
  ⟨rfl, ⟨rfl, rfl, rfl, rfl, rfl, rfl, rfl⟩, fun h => { h with jring := hr h }⟩
theorem Keeps.setJq (s : State) (q : List JEntry) (hq : s.Sound → q.length ≤ 64) : Keeps s { s with jq := q } :=
  ⟨rfl, ⟨rfl, rfl, rfl, rfl, rfl, rfl, rfl⟩, fun h => { h with jq := hq h }⟩

end Sys2Proof.Machine
end

