-- ==== Sys2Proof/Laws/Keeps1.lean ====
section
/-! SUPPORT. What every operation of Machine/Ops, Machine/Flags, Machine/RouteStore, Machine/Rules, Machine/Count, Machine/Ledger, Machine/Build, Machine/Journal, Machine/SchedBank, Machine/Router, Machine/Wcb, Machine/Intake, Machine/Inject keeps: one lemma for each operation. -/

namespace Sys2Proof.Machine
set_option Elab.async false

theorem State.setFld_keeps (s : State) (a hi lo v : Nat) : Keeps s (State.setFld s a hi lo v) :=
    State.wr_keeps _ _ _

theorem State.setMarks_keeps (s : State) (m : McMarks) : Keeps s (State.setMarks s m) :=
    Keeps.same

theorem State.setBit_keeps (s : State) (a i : Nat) : Keeps s (State.setBit s a i) :=
    (State.setFld_keeps _ _ _ _ _).trans (State.setMarks_keeps _ _)

theorem State.w1c_keeps (s : State) (a : Nat) (v : Word) : Keeps s (State.w1c s a v) :=
    State.wr_keeps _ _ _

theorem State.keepWas_keeps (s : State) (a : Nat) : Keeps s (State.keepWas s a) := by
  unfold State.keepWas
  extract_lets x1 x2 x3
  clear_value x1 x2 x3
  exact Keeps.same

theorem State.clrBit_keeps (s : State) (a i : Nat) : Keeps s (State.clrBit s a i) :=
    State.setFld_keeps _ _ _ _ _

theorem State.satFld_keeps (s : State) (a hi lo n : Nat) : Keeps s (State.satFld s a hi lo n) :=
    State.setFld_keeps _ _ _ _ _

theorem State.wrapFld_keeps (s : State) (a hi lo n : Nat) : Keeps s (State.wrapFld s a hi lo n) :=
    State.setFld_keeps _ _ _ _ _

theorem State.seq_keeps (s : State) (p : Page) : Keeps s (State.seq s p) :=
    State.wrapFld_keeps _ _ _ _ _

theorem State.wrAll_keeps (s : State) (l : List (Nat × Word)) : Keeps s (State.wrAll s l) := by
  unfold State.wrAll
  refine Keeps.foldl _ _ (fun u1 y1 => ?_) ?_
  · split
    exact State.wr_keeps _ _ _
  · exact Keeps.refl _

theorem State.drawn_keeps (s : State) : Keeps s (State.drawn s) :=
    Keeps.same

theorem State.modNi_keeps (s : State) (n : Nat) (f : Ni → Ni) : Keeps s (State.modNi s n f) :=
    State.setNi_keeps _ _ _

theorem State.modRtr_keeps (s : State) (k : Nat) (f : Rtr → Rtr) : Keeps s (State.modRtr s k f) :=
    State.setRtr_keeps _ _ _

theorem State.modPart_keeps (s : State) (p : Nat) (f : Part → Part) : Keeps s (State.modPart s p f) :=
    State.setPart_keeps _ _ _

theorem State.modSkw_keeps (s : State) (k : Nat) (f : Skw → Skw) : Keeps s (State.modSkw s k f) :=
    State.setSkw_keeps _ _ _

theorem State.setTime_keeps (s : State) (t : FTime) : Keeps s (State.setTime s t) :=
    Keeps.same

theorem State.modLed_keeps (s : State) (n k : Nat) (f : LEntry → LEntry) : Keeps s (State.modLed s n k f) :=
    State.modNi_keeps _ _ _

theorem State.firstErr_keeps (s : State) (a b : Nat) : Keeps s (State.firstErr s a b) :=
    State.wr_keeps _ _ _

theorem State.errBit_keeps (s : State) (p : Page) (b : Nat) : Keeps s (State.errBit s p b) := by
  unfold State.errBit
  extract_lets x1 x2 x3
  clear_value x1 x2
  have hx3 : Keeps s x3 := Keeps.ite (State.firstErr_keeps _ _ _) (Keeps.ite (Keeps.refl _) (State.satFld_keeps _ _
      _ _ _))
  clear_value x3
  exact hx3.trans (State.setBit_keeps _ _ _)

theorem State.ladder_keeps (s : State) (it : FaultItem) (cause who : Nat) : Keeps s (State.ladder s it cause who) :=
    Keeps.same

theorem State.tileFault_keeps (s : State) (k cause who : Nat) : Keeps s (State.tileFault s k cause who) :=
    State.ladder_keeps _ _ _ _

theorem State.partFault_keeps (s : State) (p : BitVec 9) : Keeps s (State.partFault s p) :=
    State.ladder_keeps _ _ _ _

theorem State.pulse_keeps (s : State) (p : Page) : Keeps s (State.pulse s p) := by
  unfold State.pulse
  extract_lets x1 x2 x3 x4 x5 x6
  clear_value x1 x2 x3
  have hx4 : Keeps s x4 := Keeps.same
  clear_value x4 x5
  have hx6 : Keeps s x6 := Keeps.ite hx4 (hx4.trans (State.tileFault_keeps _ _ _ _))
  clear_value x6
  exact Keeps.ite (Keeps.refl _) (Keeps.ite hx4 ((hx6.trans (State.setBit_keeps _ _ _)).trans (State.errBit_keeps _
      _ _)))

theorem State.pageErr_keeps (s : State) (p : Page) (b : Nat) : Keeps s (State.pageErr s p b) :=
    (State.errBit_keeps _ _ _).trans (State.pulse_keeps _ _)

theorem State.pageIrq_keeps (s : State) (p : Page) (b : Nat) : Keeps s (State.pageIrq s p b) :=
    (State.setBit_keeps _ _ _).trans (State.pulse_keeps _ _)

theorem State.niErr_keeps (s : State) (n b : Nat) : Keeps s (State.niErr s n b) :=
    State.pageErr_keeps _ _ _

theorem State.jdrop_keeps (s : State) : Keeps s (State.jdrop s) := by
  unfold State.jdrop
  extract_lets x1
  have hx1 : Keeps s x1 := (State.satFld_keeps _ _ _ _ _).trans (State.pageErr_keeps _ _ _)
  clear_value x1
  exact Keeps.trans (t := x1) hx1 Keeps.same

theorem State.journal_keeps (s : State) (a1 : JEntry) : Keeps s (State.journal s a1) := by
  unfold State.journal
  split
  · next h => exact Keeps.setJq s _ fun _ => by simp only [List.length_append, List.length_cons, List.length_nil]; omega
  · exact State.jdrop_keeps s

theorem State.rsCommit_keeps (s : State) (c idx : Nat) (v : Word) : Keeps s (State.rsCommit s c idx v) := by
  unfold State.rsCommit
  extract_lets x1 x2
  clear_value x1 x2
  split
  extract_lets x7 x8 x9 x10
  have hx7 : Keeps s x7 := Keeps.ite ((State.setBit_keeps _ _ _).trans (State.pageErr_keeps _ _ _)) (Keeps.refl _)
  clear_value x7 x8 x9
  have hx10 : Keeps s x10 := Keeps.ite hx7 ((hx7.trans (State.setFld_keeps _ _ _ _ _)).trans (State.setFld_keeps _ _
      _ _ _))
  clear_value x10
  exact Keeps.ite (hx7.trans (State.setBank_keeps _ _ _)) (((hx10.trans (State.setBit_keeps _ _ _)).trans
      (State.pageErr_keeps _ _ _)).trans (State.setBank_keeps _ _ _))

theorem State.rtFail_keeps (s : State) (n : Nat) (code : Code) (idx : Option Nat) :
    Keeps s (State.rtFail s n code idx) := by
  unfold State.rtFail
  extract_lets x1 x2
  clear_value x1
  have hx2 : Keeps s x2 := by
    unfold x2
    refine Keeps.ite ?_ ?_
    · exact Keeps.refl _
    · split
      · exact (State.setFld_keeps _ _ _ _ _).trans (State.setFld_keeps _ _ _ _ _)
      · exact ((State.setFld_keeps _ _ _ _ _).trans (State.setFld_keeps _ _ _ _ _)).trans (State.drawn_keeps _)
  clear_value x2
  exact (hx2.trans (State.setBit_keeps _ _ _)).trans (State.niErr_keeps _ _ _)

theorem State.lookMarks_keeps (s : State) (c : Nat) (f : Found) : Keeps s (State.lookMarks s c f) := by
  unfold State.lookMarks
  extract_lets x1
  have hx1 : Keeps s x1 := Keeps.ite (Keeps.refl _) (State.pageErr_keeps _ _ _)
  clear_value x1
  refine Keeps.foldl _ _ (fun u2 y2 => ?_) ?_
  · extract_lets x3 x4 x5
    have hx3 : Keeps u2 x3 := (State.pageErr_keeps _ _ _).trans (State.ladder_keeps _ _ _ _)
    clear_value x3 x4 x5
    exact Keeps.ite (Keeps.trans (t := x3) hx3 Keeps.same) (hx3.trans (State.pageErr_keeps _ _ _))
  · exact hx1

theorem State.sprayed_keeps (s : State) (n vn : Nat) (f : Found) : Keeps s (State.sprayed s n vn f) := by
  unfold State.sprayed
  split
  · exact State.modNi_keeps _ _ _
  · exact Keeps.refl _

theorem State.shadowHold_keeps (s : State) (i : Nat) : Keeps s (State.shadowHold s i) :=
    Keeps.forN _ _ (fun _ _ => Keeps.ite (State.modNi_keeps _ _ _) (Keeps.refl _)) (Keeps.refl _)

theorem State.putRule_keeps (s : State) (i : Nat) (x : BitVec 144) : Keeps s (State.putRule s i x) := by
  unfold State.putRule
  extract_lets x1 x2
  have hx1 : Keeps s x1 := State.shadowHold_keeps _ _
  clear_value x1 x2
  exact Keeps.trans (t := x1) hx1 Keeps.same

theorem State.ruleCommitOp_keeps (s : State) (i : Nat) (v : Word) : Keeps s (State.ruleCommitOp s i v) := by
  unfold State.ruleCommitOp
  split
  extract_lets x5 x6 x7 x8 x9 x10 x11
  have hx5 : Keeps s x5 := Keeps.ite ((State.setBit_keeps _ _ _).trans (State.pageErr_keeps _ _ _)) (Keeps.refl _)
  clear_value x5 x6
  have hx7 : Keeps s x7 := hx5.trans (State.putRule_keeps _ _ _)
  clear_value x7 x8
  have hx9 : Keeps s x9 := Keeps.ite hx5 ((hx5.trans (State.setFld_keeps _ _ _ _ _)).trans (State.setFld_keeps _ _ _
      _ _))
  clear_value x9
  have hx10 : Keeps s x10 := (hx9.trans (State.setBit_keeps _ _ _)).trans (State.pageErr_keeps _ _ _)
  clear_value x10 x11
  exact Keeps.ite (Keeps.trans (t := x7) hx7 Keeps.same) (Keeps.trans (t := x10) hx10 Keeps.same)

theorem State.reloadShadow_keeps (s : State) (n : Nat) : Keeps s (State.reloadShadow s n) :=
    State.modNi_keeps _ _ _

theorem State.ruleNote_keeps (s : State) (n : Nat) (tgt : Bool) (v : Verdict) : Keeps s (State.ruleNote s n tgt v) := by
  unfold State.ruleNote
  refine Keeps.ite ?_ ?_
  · exact Keeps.refl _
  · extract_lets x1 x2
    clear_value x1
    have hx2 : Keeps s x2 := Keeps.ite (Keeps.refl _) ((((State.setFld_keeps _ _ _ _ _).trans (State.setFld_keeps _
        _ _ _ _)).trans (State.setFld_keeps _ _ _ _ _)).trans (State.setFld_keeps _ _ _ _ _))
    clear_value x2
    exact ((hx2.trans (State.satFld_keeps _ _ _ _ _)).trans (State.setBit_keeps _ _ _)).trans (State.niErr_keeps _ _ _)

theorem State.setCnt_keeps (s : State) (i v : Nat) : Keeps s (State.setCnt s i v) :=
    (State.setFld_keeps _ _ _ _ _).trans (State.setFld_keeps _ _ _ _ _)

theorem State.setWrap_keeps (s : State) (i : Nat) (w : Wrap) : Keeps s (State.setWrap s i w) :=
    Keeps.same

theorem State.ovfIrq_keeps (s : State) (on : Bool) : Keeps s (State.ovfIrq s on) :=
    Keeps.ite (State.pageIrq_keeps _ _ _) (Keeps.refl _)

theorem State.cntOvf_keeps (s : State) (i : Nat) : Keeps s (State.cntOvf s i) := by
  unfold State.cntOvf
  extract_lets x1 x2 x3
  clear_value x1 x2 x3
  exact (((State.setWrap_keeps _ _ _).trans (State.setBit_keeps _ _ _)).trans (State.setBit_keeps _ _ _)).trans
      (State.ovfIrq_keeps _ _)

theorem State.cntCarry_keeps (s : State) (i n : Nat) : Keeps s (State.cntCarry s i n) :=
    Keeps.ite (Keeps.refl _) (State.setWrap_keeps _ _ _)

theorem State.addCnt_keeps (s : State) (i add : Nat) : Keeps s (State.addCnt s i add) := by
  unfold State.addCnt
  extract_lets x1 x2 x3 x4
  clear_value x1 x2
  have hx3 : Keeps s x3 := ((State.setCnt_keeps _ _ _).trans (State.setCnt_keeps _ _ _)).trans (State.cntCarry_keeps
      _ _ _)
  clear_value x3
  have hx4 : Keeps s x4 := State.setCnt_keeps _ _ _
  clear_value x4
  exact Keeps.ite (Keeps.refl _) (Keeps.ite (State.setCnt_keeps _ _ _) (Keeps.ite (Keeps.ite (hx3.trans
      (State.cntOvf_keeps _ _)) hx3) (Keeps.ite (hx4.trans (State.cntOvf_keeps _ _)) hx4)))

theorem State.cntLose_keeps (s : State) (i : Nat) : Keeps s (State.cntLose s i) := by
  unfold State.cntLose
  extract_lets x1 x2 x3 x4 x5
  clear_value x1 x2
  have hx3 : Keeps s x3 := Keeps.ite (Keeps.refl _) (State.setCnt_keeps _ _ _)
  clear_value x3
  have hx4 : Keeps s x4 := Keeps.ite (hx3.trans (State.clrBit_keeps _ _ _)) hx3
  clear_value x4
  have hx5 : Keeps s x5 := Keeps.ite (hx4.trans (State.clrBit_keeps _ _ _)) hx4
  clear_value x5
  exact (Keeps.ite (hx5.trans (State.clrBit_keeps _ _ _)) hx5).trans (State.setWrap_keeps _ _ _)

theorem State.filterHold_keeps (s : State) (a : Nat) : Keeps s (State.filterHold s a) :=
    Keeps.same

theorem State.filterLoad_keeps (s : State) (k : Nat) : Keeps s (State.filterLoad s k) :=
    Keeps.same

theorem State.countIn_keeps (s : State) (base n code port add : Nat) (hit : Nat → Bool) :
    Keeps s (State.countIn s base n code port add hit) := by
  unfold State.countIn
  refine Keeps.ite ?_ ?_
  · exact Keeps.refl _
  · refine Keeps.forN _ _ (fun y1 u1 => ?_) ?_
    · extract_lets x2 x3
      clear_value x2 x3
      exact Keeps.ite (State.addCnt_keeps _ _ _) (Keeps.refl _)
    · exact Keeps.refl _

theorem State.countRs_keeps (s : State) (k code port add : Nat) (hit : Nat → Bool) :
    Keeps s (State.countRs s k code port add hit) :=
    State.countIn_keeps _ _ _ _ _ _ _

theorem State.countR_keeps (s : State) (k code port : Nat) (hit : Nat → Bool) :
    Keeps s (State.countR s k code port hit) :=
    State.countRs_keeps _ _ _ _ _ _

theorem State.countN_keeps (s : State) (n code add : Nat) (hit : Nat → Bool) :
    Keeps s (State.countN s n code add hit) :=
    State.countIn_keeps _ _ _ _ _ _ _

theorem State.countOnce_keeps (s : State) (n code : Nat) : Keeps s (State.countOnce s n code) := by
  unfold State.countOnce
  extract_lets x1 x2
  clear_value x1 x2
  exact Keeps.ite (Keeps.refl _) (Keeps.trans Keeps.same (State.countN_keeps _ _ _ _ _))

theorem State.countG_keeps (s : State) (code port add : Nat) : Keeps s (State.countG s code port add) :=
    Keeps.ite (Keeps.refl _) (State.countIn_keeps _ _ _ _ _ _ _)

theorem State.rsConflict_keeps (s : State) (c : Nat) (idx : List Nat) : Keeps s (State.rsConflict s c idx) := by
  unfold State.rsConflict
  extract_lets x1 x2 x3 x4
  clear_value x1 x2 x3 x4
  exact Keeps.trans Keeps.same (State.countG_keeps _ _ _ _)

theorem State.lookCount_keeps (s : State) (n : Nat) (f : Found) : Keeps s (State.lookCount s n f) :=
    (((State.lookMarks_keeps _ _ _).trans (State.rsConflict_keeps _ _ _)).trans (State.countN_keeps _ _ _ _
        _)).trans (State.countN_keeps _ _ _ _ _)

theorem State.sentBackoff_keeps (s : State) (n : Nat) : Keeps s (State.sentBackoff s n) :=
    Keeps.same

theorem State.sampleOut_keeps (s : State) (k o : Nat) (dyn head : Bool) (age : Nat) :
    Keeps s (State.sampleOut s k o dyn head age) :=
    Keeps.same

theorem State.probeDrop_keeps (s : State) (j : Nat) : Keeps s (State.probeDrop s j) := by
  unfold State.probeDrop
  extract_lets x1 x2 x3
  have hx1 : Keeps s x1 := Keeps.ite (State.pageErr_keeps _ _ _) (Keeps.refl _)
  clear_value x1
  have hx2 : Keeps s x2 := (hx1.trans (State.satFld_keeps _ _ _ _ _)).trans (State.countG_keeps _ _ _ _)
  clear_value x2 x3
  exact Keeps.trans (t := x2) hx2 Keeps.same

theorem State.probeKeep_keeps (s : State) (j : Nat) (r : PRec) : Keeps s (State.probeKeep s j r) := by
  unfold State.probeKeep
  extract_lets x1 x2
  clear_value x1 x2
  exact Keeps.ite Keeps.same (State.probeDrop_keeps _ _)

theorem State.probeTake_keeps (s : State) (j : Nat) (f : Flit) (full : Bool) :
    Keeps s (State.probeTake s j f full) :=
    Keeps.ite (Keeps.refl _) (Keeps.trans Keeps.same (State.probeKeep_keeps _ _ _))

theorem State.probeOne_keeps (s : State) (k j : Nat) (f : Flit) : Keeps s (State.probeOne s k j f) := by
  unfold State.probeOne
  extract_lets x1 x2 x3 x4 x5 x6 x7 x8 x9 x10
  clear_value x1 x2 x3 x6
  have hx7 : Keeps s x7 := (State.setFld_keeps _ _ _ _ _).trans (State.setFld_keeps _ _ _ _ _)
  clear_value x7
  have hx8 : Keeps s x8 := hx7.trans (State.probeTake_keeps _ _ _ _)
  clear_value x8 x9
  have hx10 : Keeps s x10 := Keeps.ite (Keeps.refl _) (State.probeTake_keeps _ _ _ _)
  clear_value x10
  refine Keeps.ite ?_ ?_
  · refine Keeps.ite ?_ ?_
    · refine Keeps.ite ?_ ?_
      · refine Keeps.ite ?_ ?_
        · unfold x4
          exact Keeps.trans (t := x8) hx8 Keeps.same
        · exact hx8
      · exact hx7
    · exact Keeps.refl _
  · refine Keeps.ite ?_ ?_
    · refine Keeps.ite ?_ ?_
      · unfold x4
        exact Keeps.trans (t := x10) hx10 Keeps.same
      · exact hx10
    · exact Keeps.refl _

theorem State.probes_keeps (s : State) (kind : Bool) (index port : Nat) (dir : Bool) (f : Flit) :
    Keeps s (State.probes s kind index port dir f) := by
  unfold State.probes
  extract_lets x1
  clear_value x1
  refine Keeps.ite ?_ ?_
  · exact Keeps.refl _
  · refine Keeps.forN _ _ (fun y2 u2 => ?_) ?_
    · extract_lets x3
      clear_value x3
      exact Keeps.ite (State.probeOne_keeps _ _ _ _) (Keeps.refl _)
    · exact Keeps.refl _

theorem State.readShadow_keeps (s : State) (n : Nat) (tgt : Bool) : Keeps s (State.readShadow s n tgt) := by
  unfold State.readShadow
  split
  exact (State.countN_keeps _ _ _ _ _).trans (State.modNi_keeps _ _ _)

theorem State.toUnit_keeps (s : State) (n : Nat) (m : Msg) : Keeps s (State.toUnit s n m) :=
    Keeps.ite (State.modNi_keeps _ _ _) (Keeps.refl _)

theorem State.ledgerJ_keeps (s : State) (n k : Nat) (kind : BitVec 8) (code : Code) (detail : Nat) :
    Keeps s (State.ledgerJ s n k kind code detail) := by
  unfold State.ledgerJ
  extract_lets x1
  clear_value x1
  exact State.journal_keeps _ _

theorem State.ownerDone_keeps (s : State) (o : Owner) (code : Code) : Keeps s (State.ownerDone s o code) := by
  unfold State.ownerDone
  refine Keeps.ite ?_ ?_
  · exact Keeps.refl _
  · split
    · exact (State.satFld_keeps _ _ _ _ _).trans (State.pageErr_keeps _ _ _)
    · exact (State.satFld_keeps _ _ _ _ _).trans (State.pageErr_keeps _ _ _)
    · exact (State.setBit_keeps _ _ _).trans (State.pageErr_keeps _ _ _)
    · exact Keeps.refl _

theorem State.answerUnit_keeps (s : State) (n : Nat) (m : Msg) (load : Nat) :
    Keeps s (State.answerUnit s n m load) := by
  unfold State.answerUnit
  refine Keeps.ite ?_ ?_
  · extract_lets x1
    clear_value x1
    exact (State.setFld_keeps _ _ _ _ _).trans (State.toUnit_keeps _ _ _)
  · exact State.toUnit_keeps _ _ _

theorem State.failUnitBy_keeps (s : State) (n k : Nat) (lines : List Nat) (code : Code) (src : Option (BitVec 128))
    (load : Nat) :
    Keeps s (State.failUnitBy s n k lines code src load) := by
  unfold State.failUnitBy
  extract_lets x1
  clear_value x1
  refine Keeps.ite ?_ ?_
  · exact Keeps.refl _
  · refine Keeps.foldl _ _ (fun u2 y2 => ?_) ?_
    · split
      · exact State.answerUnit_keeps _ _ _ _
      · exact Keeps.refl _
    · exact Keeps.refl _

theorem State.failUnit_keeps (s : State) (n k : Nat) (lines : List Nat) (code : Code) :
    Keeps s (State.failUnit s n k lines code) :=
    State.failUnitBy_keeps _ _ _ _ _ _ _

theorem State.countEnd_keeps (s : State) (n k : Nat) : Keeps s (State.countEnd s n k) := by
  unfold State.countEnd
  extract_lets x1 x2 x3
  clear_value x1 x2
  have hx3 : Keeps s x3 := Keeps.ite (State.countN_keeps _ _ _ _ _) (Keeps.refl _)
  clear_value x3
  exact Keeps.ite (Keeps.ite hx3 ((hx3.trans (State.countN_keeps _ _ _ _ _)).trans (State.countN_keeps _ _ _ _ _)))
      (hx3.trans (State.countN_keeps _ _ _ _ _))

theorem State.endEntry_keeps (s : State) (n k : Nat) (st : LState) (code : Code) (split : Nat) (unk : Bool) :
    Keeps s (State.endEntry s n k st code split unk) := by
  unfold State.endEntry
  extract_lets x1 x2 x3 x4
  clear_value x1
  have hx2 : Keeps s x2 := State.modLed_keeps _ _ _ _
  clear_value x2
  have hx3 : Keeps s x3 := (hx2.trans (State.modNi_keeps _ _ _)).trans (State.ownerDone_keeps _ _ _)
  clear_value x3
  have hx4 : Keeps s x4 := hx3.trans (State.countEnd_keeps _ _ _)
  clear_value x4
  exact Keeps.ite (hx4.trans (State.ledgerJ_keeps _ _ _ _ _ _)) hx4

theorem State.stickEntry_keeps (s : State) (n k : Nat) : Keeps s (State.stickEntry s n k) := by
  unfold State.stickEntry
  extract_lets x1 x2 x3
  clear_value x1
  have hx2 : Keeps s x2 := State.modNi_keeps _ _ _
  clear_value x2
  have hx3 : Keeps s x3 := ((hx2.trans (State.ownerDone_keeps _ _ _)).trans (State.niErr_keeps _ _ _)).trans
      (State.countN_keeps _ _ _ _ _)
  clear_value x3
  exact hx3.trans (State.ledgerJ_keeps _ _ _ _ _ _)

theorem State.finish_keeps (s : State) (n k : Nat) : Keeps s (State.finish s n k) := by
  unfold State.finish
  extract_lets x1
  clear_value x1
  refine Keeps.ite ?_ ?_
  · split
    exact State.endEntry_keeps _ _ _ _ _ _ _
  · exact Keeps.refl _

theorem State.failLinesBy_keeps (s : State) (n k : Nat) (lines : List Nat) (code : Code) (src : Option (BitVec 128))
    (load : Nat) :
    Keeps s (State.failLinesBy s n k lines code src load) := by
  unfold State.failLinesBy
  extract_lets x1 x2 x3 x4
  clear_value x1 x2 x3
  have hx4 : Keeps s x4 := State.failUnitBy_keeps _ _ _ _ _ _ _
  clear_value x4
  exact Keeps.ite (Keeps.refl _) (Keeps.ite (State.modLed_keeps _ _ _ _) ((hx4.trans (State.modLed_keeps _ _ _
      _)).trans (State.finish_keeps _ _ _)))

theorem State.failLines_keeps (s : State) (n k : Nat) (lines : List Nat) (code : Code) :
    Keeps s (State.failLines s n k lines code) :=
    State.failLinesBy_keeps _ _ _ _ _ _ _

theorem State.failAll_keeps (s : State) (n k : Nat) (code : Code) : Keeps s (State.failAll s n k code) :=
    State.failLines_keeps _ _ _ _ _

theorem State.lateAnswer_keeps (s : State) (n : Nat) (hdr : BitVec 128) (status : Code) (unmatched : Bool) :
    Keeps s (State.lateAnswer s n hdr status unmatched) :=
    (State.niErr_keeps _ _ _).trans (State.journal_keeps _ _)

theorem State.injErr_keeps (s : State) (n b : Nat) : Keeps s (State.injErr s n b) :=
    (State.setBit_keeps _ _ _).trans (State.niErr_keeps _ _ _)

theorem State.failRest_keeps (s : State) (n : Nat) (it : QItem) (from_ : Nat) (code : Code) :
    Keeps s (State.failRest s n it from_ code) := by
  unfold State.failRest
  extract_lets x1 x2
  clear_value x1
  have hx2 : Keeps s x2 := Keeps.ite (State.modNi_keeps _ _ _) (Keeps.refl _)
  clear_value x2
  exact Keeps.ite (hx2.trans (State.failAll_keeps _ _ _ _)) (hx2.trans (State.failLines_keeps _ _ _ _ _))

theorem State.checkLines_keeps (s : State) (n j i : Nat) (ls : List Nat) : Keeps s (State.checkLines s n j i ls) := by
  unfold State.checkLines
  split
  · exact Keeps.refl _
  · extract_lets x6 x7 x8 x9 x10
    clear_value x6 x7
    have hx8 : Keeps s x8 := Keeps.ite (State.readShadow_keeps _ _ _) (Keeps.refl _)
    clear_value x8 x9
    have hx10 : Keeps s x10 := hx8.trans (State.modLed_keeps _ _ _ _)
    clear_value x10
    split
    · exact hx10
    · extract_lets x16 x17 x18
      clear_value x16 x17 x18
      split
      extract_lets x23 x24 x25 x26
      have hx23 : Keeps s x23 := (hx10.trans (State.ruleNote_keeps _ _ _ _)).trans (State.countN_keeps _ _ _ _ _)
      clear_value x23 x24
      have hx25 : Keeps s x25 := hx23.trans (State.modNi_keeps _ _ _)
      clear_value x25
      have hx26 : Keeps s x26 := hx25.trans (State.modLed_keeps _ _ _ _)
      clear_value x26
      exact Keeps.ite (hx26.trans (State.failRest_keeps _ _ _ _ _)) hx26

theorem State.sendOwn_keeps (s : State) (n : Nat) (qsel : Option Nat) (o : Owner) (cls : BitVec 4) (opc : BitVec 8)
    (posted : Bool) (key : Key) (part : BitVec 9) (addr : Nat) (body : List (BitVec 128 × BitVec 512)) :
    ∀ t, State.sendOwn s n qsel o cls opc posted key part addr body = some t → Keeps s t := by
  intro t ht
  unfold State.sendOwn at ht
  obtain ⟨kx, -, rfl⟩ := Option.map_eq_some_iff.mp ht
  exact (State.setNi_keeps _ _ _).trans (State.checkLines_keeps _ _ _ _ _)

theorem State.sendVia_keeps (s : State) (n : Nat) (q : Nat) (o : Owner) (cls : BitVec 4) (opc : BitVec 8) (posted :
    Bool)
    (key : Key) (part : BitVec 9) (addr : Nat) (body : List (BitVec 128 × BitVec 512)) :
    ∀ t, State.sendVia s n q o cls opc posted key part addr body = some t → Keeps s t := by
  intro t ht
  unfold State.sendVia at ht
  split at ht
  · split at ht
    · exact State.sendOwn_keeps _ _ _ _ _ _ _ _ _ _ _ _ ht
    · cases ht
  · cases ht
    exact Keeps.trans (State.injErr_keeps _ _ _) (State.ownerDone_keeps _ _ _)

theorem State.memOpen_keeps (s : State) (n : Nat) (o : Owner) (write : Bool) (addr : Nat) :
    ∀ k t, s.memOpen n o write addr = some (k, t) → Keeps s t := by
  intro k t h
  obtain ⟨⟨j, x⟩, -, h⟩ := Option.map_eq_some_iff.mp h
  cases h
  exact State.setNi_keeps _ _ _

theorem State.memClose_keeps (s : State) (n k : Nat) (o : Owner) (code : Code) : Keeps s (State.memClose s n k o
    code) :=
  Keeps.ite (Keeps.refl _) (Keeps.ite (State.stickEntry_keeps _ _ _) (State.endEntry_keeps _ _ _ _ _ _ _))

theorem State.memCheck_keeps (s : State) (n : Nat) (write : Bool) (addr len : Nat) :
    Keeps s (State.memCheck s n write addr len).1 := by
  rw [State.memCheck.eq_def]
  extract_lets x1 x2 x3
  clear_value x1 x2
  have hx3 : Keeps s x3 := (State.readShadow_keeps _ _ _).trans (State.countN_keeps _ _ _ _ _)
  clear_value x3
  dsimp only
  exact hx3.trans (State.ruleNote_keeps _ _ _ _)

theorem State.resolvedMarks_keeps (s : State) (n j : Nat) (it : QItem) (f : Found) :
    Keeps s (State.resolvedMarks s n j it f) := by
  unfold State.resolvedMarks
  extract_lets x1 x2 x3
  have hx1 : Keeps s x1 := State.lookCount_keeps _ _ _
  clear_value x1
  have hx2 : Keeps s x2 := Keeps.ite (Keeps.refl _) (Keeps.ite ((hx1.trans (State.rtFail_keeps _ _ _ _)).trans
      (State.countN_keeps _ _ _ _ _)) hx1)
  clear_value x2
  have hx3 : Keeps s x3 := Keeps.ite (hx2.trans (State.setBit_keeps _ _ _)) hx2
  clear_value x3
  exact Keeps.ite (hx3.trans (State.injErr_keeps _ _ _)) hx3

theorem State.buildAt_keeps (s : State) (n j i : Nat) : Keeps s (State.buildAt s n j i) := by
  unfold State.buildAt
  split
  · exact Keeps.refl _
  · refine Keeps.ite ?_ ?_
    · exact Keeps.refl _
    · extract_lets x6 x7 x8 x9 x10 x11 x12 x13 x14 x15 x16 x17 x18 x19 x20
      clear_value x6 x7 x8 x9 x10 x11
      have hx12 : Keeps s x12 := (State.resolvedMarks_keeps _ _ _ _ _).trans (State.modLed_keeps _ _ _ _)
      clear_value x12 x13 x14 x15 x16 x17
      have hx18 : Keeps s x18 := hx12.trans (State.modNi_keeps _ _ _)
      clear_value x18
      have hx19 : Keeps s x19 := Keeps.ite (hx18.trans (State.modNi_keeps _ _ _)) hx18
      clear_value x19
      have hx20 : Keeps s x20 := (hx19.trans (State.sprayed_keeps _ _ _ _)).trans (State.modLed_keeps _ _ _ _)
      clear_value x20
      exact Keeps.ite (Keeps.refl _) (Keeps.ite ((hx12.trans (State.modNi_keeps _ _ _)).trans (State.failRest_keeps
          _ _ _ _ _)) (Keeps.ite (hx12.trans (State.modNi_keeps _ _ _)) (Keeps.ite hx20 (hx20.trans
          (State.failLines_keeps _ _ _ _ _)))))

theorem State.buildQueue_keeps (s : State) (n j : Nat) : Keeps s (State.buildQueue s n j) := by
  unfold State.buildQueue
  split
  · exact Keeps.refl _
  · split
    · exact Keeps.ite (Keeps.refl _) (State.buildAt_keeps _ _ _ _)
    · exact Keeps.refl _

theorem State.relook_keeps (s : State) (n j : Nat) : Keeps s (State.relook s n j) := by
  unfold State.relook
  split
  · exact Keeps.ite (State.buildAt_keeps _ _ _ _) (Keeps.refl _)
  · exact Keeps.refl _

theorem State.holdEnd_keeps (s : State) (n j : Nat) : Keeps s (State.holdEnd s n j) := by
  unfold State.holdEnd
  split
  · split
    · refine Keeps.ite ?_ ?_
      · extract_lets x12
        have hx12 : Keeps s x12 := State.modNi_keeps _ _ _
        clear_value x12
        exact (hx12.trans (State.failRest_keeps _ _ _ _ _)).trans (State.satFld_keeps _ _ _ _ _)
      · exact Keeps.refl _
    · exact Keeps.refl _
  · exact Keeps.refl _

theorem State.partEvent_keeps (s : State) (p : Nat) (opc : BitVec 8) (arg : Nat) :
    Keeps s (State.partEvent s p opc arg) :=
    Keeps.ite (Keeps.refl _) (State.modPart_keeps _ _ _)

theorem State.eventSend_keeps (s : State) (p : Nat) : Keeps s (State.eventSend s p) := by
  unfold State.eventSend
  extract_lets x1 x2
  clear_value x1 x2
  split
  · exact Keeps.refl _
  · extract_lets x8
    clear_value x8
    split
    · exact Keeps.refl _
    · rename_i z13
      exact ((State.sendVia_keeps _ _ _ _ _ _ _ _ _ _ _ _ z13).trans (State.modPart_keeps _ _ _)).trans
          (State.wrapFld_keeps _ _ _ _ _)

theorem State.ringCopy_keeps (s : State) (a1 : JEntry) : ∀ t, State.ringCopy s a1 = some t → Keeps s t := by
  intro t ht
  unfold State.ringCopy at ht
  split at ht
  · cases ht
    exact Keeps.refl _
  · dsimp only at ht
    split at ht
    · cases ht
      exact Keeps.refl _
    · split at ht
      · split at ht
        · cases ht
          exact State.satFld_keeps _ _ _ _ _
        · cases ht
          exact ((State.satFld_keeps _ _ _ _ _).trans (State.modPart_keeps _ _ _)).trans (State.partEvent_keeps _ _ _ _)
      · obtain ⟨u, hu, rfl⟩ := Option.map_eq_some_iff.mp ht
        have h := State.sendVia_keeps _ _ _ _ _ _ _ _ _ _ _ _ hu
        refine Keeps.ite ?_ ?_
        · exact (h.trans (State.wrapFld_keeps _ _ _ _ _)).trans (State.partEvent_keeps _ _ _ _)
        · exact h.trans (State.wrapFld_keeps _ _ _ _ _)

theorem State.journalStep_keeps (s : State) : Keeps s (State.journalStep s) := by
  unfold State.journalStep
  refine Keeps.ite (Keeps.refl _) ?_
  split
  · exact Keeps.refl _
  · next e rest hq =>
    have h0 : Keeps s { s with jq := rest } := Keeps.setJq s rest fun h => by
      have := h.jq
      rw [hq, List.length_cons] at this
      omega
    dsimp only
    split
    · exact h0.trans (State.jdrop_keeps _)
    · split
      · exact Keeps.refl _
      · next t ht =>
        have h1 : Keeps s t := h0.trans (State.ringCopy_keeps _ _ _ ht)
        refine Keeps.trans (Keeps.trans (Keeps.trans h1 ?_) (State.wrapFld_keeps _ _ _ _ _)) (State.countG_keeps _ _
            _ _)
        exact ⟨rfl, ⟨rfl, rfl, rfl, rfl, rfl, rfl, rfl⟩, fun h => { h with jring := Tbl.wf_set _ _ _ _ h.jring }⟩

theorem State.jrnSelect_keeps (s : State) (slot : Nat) : Keeps s (State.jrnSelect s slot) := by
  unfold State.jrnSelect
  extract_lets x1
  clear_value x1
  exact Keeps.forN _ _ (fun _ _ => State.wr_keeps _ _ _) (Keeps.refl _)

theorem State.slotMarks_keeps (s : State) (k : Nat) : Keeps s (State.slotMarks s k) := by
  unfold State.slotMarks
  split
  · exact Keeps.refl _
  · refine Keeps.forN _ _ (fun y6 u6 => ?_) ?_
    · split
      · exact State.pageErr_keeps _ _ _
      · exact (State.pageErr_keeps _ _ _).trans (State.countR_keeps _ _ _ _ _)
      · exact Keeps.refl _
    · exact Keeps.refl _

theorem State.injMarks_keeps (s : State) (n : Nat) : Keeps s (State.injMarks s n) := by
  unfold State.injMarks
  split
  · exact Keeps.refl _
  · split
    · exact State.pageErr_keeps _ _ _
    · exact State.pageErr_keeps _ _ _
    · exact Keeps.refl _

theorem State.demote_keeps (s : State) (det f : Nat) : Keeps s (State.demote s det f) := by
  unfold State.demote
  extract_lets x1
  have hx1 : Keeps s x1 := ((State.setBit_keeps _ _ _).trans (State.satFld_keeps _ _ _ _ _)).trans
      (State.setFld_keeps _ _ _ _ _)
  clear_value x1
  exact (hx1.trans (State.countG_keeps _ _ _ _)).trans (State.partEvent_keeps _ _ _ _)

theorem State.violation_keeps (s : State) (det : Nat) (where_ : BitVec 16) (flows : List Nat) :
    Keeps s (State.violation s det where_ flows) := by
  unfold State.violation
  extract_lets x1 x2 x3 x4
  clear_value x1
  have hx2 : Keeps s x2 := Keeps.foldl _ _ (fun _ _ => State.demote_keeps _ _ _) (Keeps.refl _)
  clear_value x2 x3 x4
  exact (hx2.trans (State.pageErr_keeps _ _ _)).trans (State.journal_keeps _ _)

theorem State.send_keeps (s : State) (k o vc : Nat) (f : Flit) (la : Nat) : Keeps s (State.send s k o vc f la) := by
  unfold State.send
  split
  · exact State.setLink_keeps _ _ _
  · refine Keeps.ite ?_ ?_
    · exact State.modRtr_keeps _ _ _
    · extract_lets x9
      clear_value x9
      exact State.setLink_keeps _ _ _
  · exact Keeps.refl _

theorem State.creditUp_keeps (s : State) (k i vc : Nat) : Keeps s (State.creditUp s k i vc) := by
  unfold State.creditUp
  split
  · exact State.modNi_keeps _ _ _
  · extract_lets x9 x10
    clear_value x9 x10
    exact Keeps.ite (State.modRtr_keeps _ _ _) (State.setCred_keeps _ _ _)
  · exact Keeps.refl _

theorem State.relayStep_keeps (s : State) (k o : Nat) : Keeps s (State.relayStep s k o) := by
  unfold State.relayStep
  split
  · extract_lets x6 x7 x8 x9 x10 x11
    clear_value x6 x7 x8 x9 x10 x11
    refine Keeps.ite ?_ ?_
    · exact Keeps.refl _
    · split
      · exact State.modRtr_keeps _ _ _
      · extract_lets x17 x18 x19 x20
        clear_value x17
        have hx18 : Keeps s x18 := State.modRtr_keeps _ _ _
        clear_value x18
        have hx19 : Keeps s x19 := hx18.trans (State.setLink_keeps _ _ _)
        clear_value x19 x20
        exact Keeps.ite hx19 (hx19.trans (State.setCred_keeps _ _ _))
  · exact Keeps.refl _

theorem State.creditArrive_keeps (s : State) (k o : Nat) : Keeps s (State.creditArrive s k o) := by
  unfold State.creditArrive
  split
  · exact Keeps.refl _
  · extract_lets x6 x7
    have hx6 : Keeps s x6 := State.setCred_keeps _ _ _
    clear_value x6 x7
    exact Keeps.ite ((hx6.trans (State.pageErr_keeps _ _ _)).trans (State.tileFault_keeps _ _ _ _)) (hx6.trans
        (State.modRtr_keeps _ _ _))

theorem State.headerMarks_keeps (s : State) (k i o c u : Nat) (u0 : Bool) :
    Keeps s (State.headerMarks s k i o c u u0) := by
  unfold State.headerMarks
  extract_lets x1 x2 x3
  have hx1 : Keeps s x1 := Keeps.ite ((State.pageErr_keeps _ _ _).trans (State.countRs_keeps _ _ _ _ _ _))
      (Keeps.refl _)
  clear_value x1
  have hx2 : Keeps s x2 := Keeps.ite hx1 ((hx1.trans (State.setFld_keeps _ _ _ _ _)).trans (State.setFld_keeps _ _ _
      _ _))
  clear_value x2
  have hx3 : Keeps s x3 := ((hx2.trans (State.satFld_keeps _ _ _ _ _)).trans (State.setBit_keeps _ _ _)).trans
      (State.pageErr_keeps _ _ _)
  clear_value x3
  exact Keeps.ite ((hx3.trans (State.countRs_keeps _ _ _ _ _ _)).trans (State.tileFault_keeps _ _ _ _)) hx1

theorem State.bypassOverflow_keeps (s : State) (k i o : Nat) (f : Flit) : Keeps s (State.bypassOverflow s k i o f) := by
  unfold State.bypassOverflow
  extract_lets x1 x2
  have hx1 : Keeps s x1 := Keeps.ite (Keeps.refl _) (((State.setFld_keeps _ _ _ _ _).trans (State.setFld_keeps _ _ _
      _ _)).trans (State.setBit_keeps _ _ _))
  clear_value x1
  have hx2 : Keeps s x2 := (hx1.trans (State.pageErr_keeps _ _ _)).trans (State.countR_keeps _ _ _ _ _)
  clear_value x2
  exact (hx2.trans (State.violation_keeps _ _ _ _)).trans (State.tileFault_keeps _ _ _ _)

theorem State.routerArrive_keeps (s : State) (k i : Nat) (err : FlitErr) (laErr : Bool) :
    Keeps s (State.routerArrive s k i err laErr) := by
  unfold State.routerArrive
  extract_lets x1
  clear_value x1
  split
  · exact Keeps.refl _
  · refine Keeps.ite ?_ ?_
    · exact Keeps.refl _
    · extract_lets x8
      have hx8 : Keeps s x8 := State.setLink_keeps _ _ _
      clear_value x8
      split
      extract_lets x15 x16 x17 x18 x19 x20 x21 x22 x23 x24 x25 x26 x27
      clear_value x15
      have hx16 : Keeps s x16 := hx8.trans (State.headerMarks_keeps _ _ _ _ _ _ _)
      clear_value x16
      have hx17 : Keeps s x17 := Keeps.ite (hx16.trans (State.pageErr_keeps _ _ _)) hx16
      clear_value x17 x18
      have hx19 : Keeps s x19 := hx17.trans (State.modRtr_keeps _ _ _)
      clear_value x19 x20 x21 x22 x24 x25
      have hx26 : Keeps s x26 := Keeps.ite (hx19.trans (State.pageErr_keeps _ _ _)) hx19
      clear_value x26 x27
      exact Keeps.ite (Keeps.ite (hx19.trans (State.bypassOverflow_keeps _ _ _ _ _)) (hx19.trans (State.modRtr_keeps
          _ _ _))) (Keeps.ite (hx26.trans (State.creditUp_keeps _ _ _ _)) (hx26.trans (State.modRtr_keeps _ _ _)))

theorem State.ageUp_keeps (s : State) (k i vc : Nat) : Keeps s (State.ageUp s k i vc) := by
  unfold State.ageUp
  extract_lets x1
  clear_value x1
  exact Keeps.ite (State.modRtr_keeps _ _ _) (Keeps.refl _)

theorem State.seenOut_keeps (s : State) (k o : Nat) (f : Flit) : Keeps s (State.seenOut s k o f) := by
  unfold State.seenOut
  extract_lets x1 x2 x3 x4 x5 x6 x7
  clear_value x1
  have hx3 : Keeps s x3 := State.countR_keeps _ _ _ _ _
  clear_value x3
  have hx4 : Keeps s x4 := Keeps.ite (hx3.trans (State.countR_keeps _ _ _ _ _)) hx3
  clear_value x4
  have hx5 : Keeps s x5 := Keeps.ite (hx4.trans (State.countR_keeps _ _ _ _ _)) hx4
  clear_value x5
  have hx6 : Keeps s x6 := Keeps.ite (hx5.trans (State.countR_keeps _ _ _ _ _)) hx5
  clear_value x6
  have hx7 : Keeps s x7 := hx6.trans (State.sampleOut_keeps _ _ _ _ _ _)
  clear_value x7
  exact hx7.trans (State.probes_keeps _ _ _ _ _ _)

theorem State.backstop_keeps (s : State) (k : Nat) (f : Flit) : Keeps s (State.backstop s k f) :=
    ((State.satFld_keeps _ _ _ _ _).trans (State.pageErr_keeps _ _ _)).trans (State.journal_keeps _ _)

theorem State.schedOut_keeps (s : State) (k i : Nat) (y : VFlit) : Keeps s (State.schedOut s k i y) := by
  unfold State.schedOut
  extract_lets x1
  have hx1 : Keeps s x1 := State.modRtr_keeps _ _ _
  clear_value x1
  refine Keeps.ite ?_ ?_
  · exact hx1.trans (State.backstop_keeps _ _ _)
  · split
    exact (hx1.trans (State.seenOut_keeps _ _ _ _)).trans (State.send_keeps _ _ _ _ _ _)

theorem State.schedGrants_keeps (s : State) (k : Nat) : Keeps s (State.schedGrants s k).1 := by
  rw [State.schedGrants.eq_def]
  extract_lets x1 x2 x3 x4 x5 x6
  clear_value x1 x2 x3
  have hx4 : Keeps s x4 := by
    unfold x4
    refine Keeps.foldl _ _ (fun u7 y7 => ?_) ?_
    · split
      exact Keeps.ite (Keeps.refl _) (State.countR_keeps _ _ _ _ _)
    · exact Keeps.refl _
  clear_value x4
  have hx5 : Keeps s x5 := by
    unfold x5
    refine Keeps.foldl _ _ (fun u11 y11 => ?_) ?_
    · split
      exact State.schedOut_keeps _ _ _ _
    · exact hx4
  clear_value x5
  have hx6 : Keeps s x6 := by
    unfold x6
    refine Keeps.forN _ _ (fun y15 u15 => ?_) ?_
    · split
      · extract_lets x21
        have hx21 : Keeps u15 x21 := State.modRtr_keeps _ _ _
        clear_value x21
        exact (hx21.trans (State.countR_keeps _ _ _ _ _)).trans (State.violation_keeps _ _ _ _)
      · exact Keeps.refl _
    · exact hx5
  clear_value x6
  dsimp only
  exact hx6

theorem State.dynOut_keeps (s : State) (k : Nat) (n : Nominee) : Keeps s (State.dynOut s k n) := by
  unfold State.dynOut
  extract_lets x1 x2
  clear_value x1 x2
  split
  · exact Keeps.refl _
  · extract_lets x9 x10 x11 x12 x13 x14 x15 x16 x17
    clear_value x9 x11 x12 x13 x14 x15 x16
    have hx17 : Keeps s x17 := State.setRtr_keeps _ _ _
    clear_value x17
    split
    extract_lets x22 x23
    have hx22 : Keeps s x22 := Keeps.ite (hx17.trans (State.countR_keeps _ _ _ _ _)) hx17
    clear_value x22
    have hx23 : Keeps s x23 := (hx22.trans (State.seenOut_keeps _ _ _ _)).trans (State.send_keeps _ _ _ _ _ _)
    clear_value x23
    exact Keeps.ite (hx23.trans (State.creditUp_keeps _ _ _ _)) hx23

theorem State.dropCut_keeps (s : State) (k : Nat) : Keeps s (State.dropCut s k) := by
  unfold State.dropCut
  refine Keeps.ite ?_ ?_
  · exact Keeps.refl _
  · refine Keeps.forN _ _ (fun y1 u1 => ?_) ?_
    · refine Keeps.forN _ _ (fun y2 u2 => ?_) ?_
      · extract_lets x3
        clear_value x3
        split
        · exact Keeps.refl _
        · extract_lets x10 x11 x12 x13 x14 x15
          clear_value x10 x11
          have hx12 : Keeps u2 x12 := State.backstop_keeps _ _ _
          clear_value x12 x14
          have hx15 : Keeps u2 x15 := by
            unfold x15
            refine Keeps.ite ?_ ?_
            · split
              · exact State.modRtr_keeps _ _ _
              · exact Keeps.refl _
            · exact Keeps.refl _
          clear_value x15
          exact Keeps.ite (Keeps.ite (Keeps.refl _) (Keeps.ite (hx12.trans (State.modRtr_keeps _ _ _)) ((hx12.trans
              (State.modRtr_keeps _ _ _)).trans (State.creditUp_keeps _ _ _ _)))) (Keeps.ite (Keeps.refl _)
              (((hx15.trans (State.modRtr_keeps _ _ _)).trans (State.backstop_keeps _ _ _)).trans (State.creditUp_keeps
              _ _ _ _)))
      · exact Keeps.refl _
    · exact Keeps.refl _

theorem State.traverse_keeps (s : State) (k : Nat) : Keeps s (State.traverse s k) := by
  unfold State.traverse
  refine Keeps.ite ?_ ?_
  · exact Keeps.refl _
  · extract_lets x1 x2 x3
    have hx1 : Keeps s x1 := State.modRtr_keeps _ _ _
    clear_value x1
    have hx2 : Keeps s x2 := Keeps.forN _ _ (fun _ _ => State.relayStep_keeps _ _ _) hx1
    clear_value x2
    have hx3 : Keeps s x3 := hx2.trans (State.slotMarks_keeps _ _)
    clear_value x3
    split
    rename_i z8
    extract_lets x9 x10 x11 x12 x13 x14 x15
    have hx9 : Keeps s x9 := (Keeps.fst (hx3.trans (State.schedGrants_keeps _ _)) z8).trans (State.dropCut_keeps _ _)
    clear_value x9 x10 x11 x12 x13
    have hx14 : Keeps s x14 := by
      unfold x14
      refine Keeps.foldl _ _ (fun u16 y16 => ?_) ?_
      · refine Keeps.ite ?_ ?_
        · exact Keeps.refl _
        · split
          · exact State.countR_keeps _ _ _ _ _
          · exact Keeps.refl _
      · exact hx9
    clear_value x14
    have hx15 : Keeps s x15 := by
      unfold x15
      refine Keeps.forN _ _ (fun y23 u23 => ?_) ?_
      · refine Keeps.forN _ _ (fun y24 u24 => ?_) ?_
        · split
          · exact Keeps.refl _
          · split
            · exact State.countR_keeps _ _ _ _ _
            · exact Keeps.refl _
        · exact Keeps.refl _
      · exact hx14
    clear_value x15
    exact Keeps.foldl _ _ (fun _ _ => State.dynOut_keeps _ _ _) hx15

theorem State.credUse_keeps (s : State) (n : Nat) (c : BitVec 4) : Keeps s (State.credUse s n c) :=
    State.modNi_keeps _ _ _

theorem State.wcbClose_keeps (s : State) (n i : Nat) : Keeps s (State.wcbClose s n i) := by
  unfold State.wcbClose
  split
  · exact Keeps.ite (State.modNi_keeps _ _ _) (Keeps.refl _)
  · exact Keeps.refl _

theorem State.cmpNow_keeps (s : State) (n : Nat) (etag : BitVec 16) (part : BitVec 9) :
    Keeps s (State.cmpNow s n etag part) :=
    (State.credUse_keeps _ _ _).trans (State.answerUnit_keeps _ _ _ _)

theorem State.wcbStore_keeps (s : State) (n j : Nat) (key : Key) (etag : BitVec 16) (part : BitVec 9) (d : NodeId)
    (sc : BitVec 128) (data : BitVec 512) (hold : Bool) :
    Keeps s (State.wcbStore s n j key etag part d sc data hold) := by
  unfold State.wcbStore
  extract_lets x1 x2 x3 x4 x5 x6
  clear_value x1 x2 x3 x4 x5 x6
  split
  · extract_lets x12 x13
    clear_value x12 x13
    exact ((State.setNi_keeps _ _ _).trans (State.countN_keeps _ _ _ _ _)).trans (State.cmpNow_keeps _ _ _ _)
  · refine Keeps.ite ?_ ?_
    · exact State.setNi_keeps _ _ _
    · split
      · exact State.setNi_keeps _ _ _
      · extract_lets x20 x21 x22
        clear_value x20 x21 x22
        exact (State.setNi_keeps _ _ _).trans (State.cmpNow_keeps _ _ _ _)

theorem State.hazards_keeps (s : State) (n : Nat) (part : BitVec 9) (a k : Nat) :
    Keeps s (State.hazards s n part a k).1 := by
  rw [State.hazards.eq_def]
  extract_lets x1 x2 x3
  clear_value x1 x2
  have hx3 : Keeps s x3 := State.modNi_keeps _ _ _
  clear_value x3
  dsimp only
  exact Keeps.ite hx3 (hx3.trans (State.satFld_keeps _ _ _ _ _))

theorem State.takeBarrier_keeps (s : State) (n : Nat) (k : BarKind) (sc : BarScope) (q : BitVec 8) (etag : BitVec 16) :
    Keeps s (State.takeBarrier s n k sc q etag) := by
  unfold State.takeBarrier
  refine Keeps.ite ?_ ?_
  · exact (State.credUse_keeps _ _ _).trans (State.toUnit_keeps _ _ _)
  · refine Keeps.ite ?_ ?_
    · exact Keeps.refl _
    · extract_lets x1 x2 x3 x4 x5 x6 x7
      have hx1 : Keeps s x1 := State.credUse_keeps _ _ _
      clear_value x1 x2
      have hx3 : Keeps s x3 := Keeps.ite hx1 (hx1.trans (State.modNi_keeps _ _ _))
      clear_value x3 x4 x5 x6 x7
      exact hx3.trans (State.setNi_keeps _ _ _)

theorem State.barComplete_keeps (s : State) (n : Nat) : Keeps s (State.barComplete s n) := by
  unfold State.barComplete
  extract_lets x1
  clear_value x1
  refine Keeps.ite ?_ ?_
  · exact Keeps.refl _
  · split
    · exact Keeps.refl _
    · extract_lets x7 x8 x9 x10
      clear_value x7
      have hx8 : Keeps s x8 := State.modNi_keeps _ _ _
      clear_value x8
      have hx9 : Keeps s x9 := Keeps.ite (((hx8.trans (State.setFld_keeps _ _ _ _ _)).trans (State.setBit_keeps _ _
          _)).trans (State.niErr_keeps _ _ _)) hx8
      clear_value x9 x10
      exact hx9.trans (State.toUnit_keeps _ _ _)

theorem State.sourceJ_keeps (s : State) (n : Nat) (m : Msg) (part : Option (BitVec 9)) (code : Code) :
    Keeps s (State.sourceJ s n m part code) :=
    State.journal_keeps _ _

theorem State.refuse_keeps (s : State) (n : Nat) (m : Msg) (part : BitVec 9) (code : Code) :
    Keeps s (State.refuse s n m part code) := by
  unfold State.refuse
  refine Keeps.ite ?_ ?_
  · exact State.sourceJ_keeps _ _ _ _ _
  · refine Keeps.foldl _ _ (fun u1 y1 => ?_) ?_
    · split
      · exact State.answerUnit_keeps _ _ _ _
      · exact Keeps.refl _
    · exact Keeps.refl _

theorem State.takeLine_keeps (s : State) (n : Nat) (m : Msg) : Keeps s (State.takeLine s n m) := by
  unfold State.takeLine
  extract_lets x1
  clear_value x1
  split
  · exact (State.setNi_keeps _ _ _).trans (State.credUse_keeps _ _ _)
  · split
    · exact (State.setNi_keeps _ _ _).trans (State.credUse_keeps _ _ _)
    · refine Keeps.ite ?_ ?_
      · exact Keeps.refl _
      · split
        · exact Keeps.refl _
        · extract_lets x18 x19 x20 x21
          clear_value x18 x19
          have hx20 : Keeps s x20 := (State.setNi_keeps _ _ _).trans (State.credUse_keeps _ _ _)
          clear_value x20
          have hx21 : Keeps s x21 := hx20.trans (State.checkLines_keeps _ _ _ _ _)
          clear_value x21
          exact Keeps.ite (hx21.trans (State.buildAt_keeps _ _ _ _)) hx21

theorem State.enqueue_keeps (s : State) (n j : Nat) (m : Msg) : Keeps s (State.enqueue s n j m) := by
  unfold State.enqueue
  extract_lets x1 x2 x3 x4 x5 x6 x7 x8 x9
  clear_value x1 x2 x3 x4 x5 x6 x7 x9
  refine Keeps.ite ?_ ?_
  · exact (Keeps.ite (Keeps.refl _) (State.readShadow_keeps _ _ _)).trans (State.wcbStore_keeps _ _ _ _ _ _ _ _ _ _)
  · split
    · exact Keeps.refl _
    · extract_lets x16 x17 x18
      clear_value x16 x17
      have hx18 : Keeps s x18 := (State.setNi_keeps _ _ _).trans (State.credUse_keeps _ _ _)
      clear_value x18
      refine Keeps.ite ?_ ?_
      · exact (Keeps.ite (hx18.trans (State.injErr_keeps _ _ _)) hx18).trans (State.failAll_keeps _ _ _ _)
      · split
        rename_i z22
        extract_lets x23 x24 x25 x26
        clear_value x23 x24 x25
        have hx26 : Keeps s x26 := by
          unfold x26
          refine Keeps.trans ?_ (State.checkLines_keeps _ _ _ _ _)
          refine Keeps.trans ?_ (State.modNi_keeps _ _ _)
          refine Keeps.fst ?_ z22
          split
          · exact hx18.trans (State.hazards_keeps _ _ _ _ _)
          · dsimp only
            exact hx18
        clear_value x26
        exact Keeps.ite (hx26.trans (State.buildAt_keeps _ _ _ _)) hx26

theorem State.takeRequest_keeps (s : State) (n : Nat) (m : Msg) : Keeps s (State.takeRequest s n m) := by
  unfold State.takeRequest
  extract_lets x1 x2 x3
  clear_value x1 x3
  refine Keeps.ite ?_ ?_
  · exact State.takeLine_keeps _ _ _
  · refine Keeps.ite ?_ ?_
    · unfold x2
      extract_lets x4
      have hx4 : Keeps s x4 := ((State.injErr_keeps _ _ _).trans (State.refuse_keeps _ _ _ _ _)).trans
          (State.credUse_keeps _ _ _)
      clear_value x4
      exact Keeps.ite (hx4.trans (State.modNi_keeps _ _ _)) hx4
    · refine Keeps.ite ?_ ?_
      · exact Keeps.refl _
      · refine Keeps.ite ?_ ?_
        · unfold x2
          extract_lets x5
          have hx5 : Keeps s x5 := (State.refuse_keeps _ _ _ _ _).trans (State.credUse_keeps _ _ _)
          clear_value x5
          exact Keeps.ite (hx5.trans (State.modNi_keeps _ _ _)) hx5
        · exact State.enqueue_keeps _ _ _ _

theorem State.pmcErr_keeps (s : State) (n : Nat) (bits : List Nat) (cls : Nat) :
    Keeps s (State.pmcErr s n bits cls) := by
  unfold State.pmcErr
  refine Keeps.ite ?_ ?_
  · exact Keeps.refl _
  · extract_lets x1
    have hx1 : Keeps s x1 := Keeps.ite (State.setFld_keeps _ _ _ _ _) (Keeps.refl _)
    clear_value x1
    exact (Keeps.foldl _ _ (fun _ _ => State.setBit_keeps _ _ _) hx1).trans (State.niErr_keeps _ _ _)

theorem State.badMessage_keeps (s : State) (n : Nat) (m : Msg) (bits : List Nat) :
    Keeps s (State.badMessage s n m bits) :=
    ((State.pmcErr_keeps _ _ _ _).trans (State.sourceJ_keeps _ _ _ _ _)).trans (State.credUse_keeps _ _ _)

theorem State.takeEvent_keeps (s : State) (n : Nat) (m : Msg) : Keeps s (State.takeEvent s n m) := by
  unfold State.takeEvent
  extract_lets x1
  have hx1 : Keeps s x1 := State.credUse_keeps _ _ _
  clear_value x1
  exact Keeps.ite hx1 (hx1.trans (State.modNi_keeps _ _ _))

theorem State.eventReady_keeps (s : State) (n : Nat) : Keeps s (State.eventReady s n) := by
  unfold State.eventReady
  extract_lets x1
  clear_value x1
  split
  · exact Keeps.refl _
  · extract_lets x8 x9
    clear_value x8 x9
    refine Keeps.ite ?_ ?_
    · exact Keeps.refl _
    · split
      · rename_i z12
        exact (State.sendOwn_keeps _ _ _ _ _ _ _ _ _ _ _ _ z12).trans (State.modNi_keeps _ _ _)
      · exact Keeps.refl _

theorem State.takeCredits_keeps (s : State) (n : Nat) : Keeps s (State.takeCredits s n) :=
    State.modNi_keeps _ _ _

theorem State.niSend_keeps (s : State) (n vc : Nat) (f : Flit) : Keeps s (State.niSend s n vc f) := by
  unfold State.niSend
  extract_lets x1 x2 x3 x4 x5 x6 x7
  clear_value x1 x2
  have hx3 : Keeps s x3 := State.setLink_keeps _ _ _
  clear_value x3
  have hx4 : Keeps s x4 := hx3.trans (State.modNi_keeps _ _ _)
  clear_value x4 x5
  have hx6 : Keeps s x6 := hx4.trans (State.countN_keeps _ _ _ _ _)
  clear_value x6
  have hx7 : Keeps s x7 := Keeps.ite (hx6.trans (State.countN_keeps _ _ _ _ _)) hx6
  clear_value x7
  exact hx7.trans (State.probes_keeps _ _ _ _ _ _)

theorem State.dynSend_keeps (s : State) (n vc : Nat) (f : Flit) : Keeps s (State.dynSend s n vc f) := by
  unfold State.dynSend
  extract_lets x1 x2
  have hx2 : Keeps s x2 := State.modNi_keeps _ _ _
  clear_value x2
  exact hx2.trans (State.niSend_keeps _ _ _ _)

theorem State.servedFlit_keeps (s : State) (n j : Nat) : Keeps s (State.servedFlit s n j) :=
    State.wrapFld_keeps _ _ _ _ _

theorem State.charge_keeps (s : State) (n j : Nat) : Keeps s (State.charge s n j) := by
  unfold State.charge
  refine Keeps.ite ?_ ?_
  · exact Keeps.refl _
  · extract_lets x1 x2 x3
    have hx1 : Keeps s x1 := State.servedFlit_keeps _ _ _
    clear_value x1 x2 x3
    exact hx1.trans (State.modNi_keeps _ _ _)

theorem State.takeSeq_keeps (s : State) (n : Nat) (d : NodeId) (vn : Nat) : Keeps s (State.takeSeq s n d vn).2 := by
  rw [State.takeSeq.eq_def]
  extract_lets x1 x2
  clear_value x1 x2
  dsimp only
  exact State.modNi_keeps _ _ _

theorem State.startPkt_keeps (s : State) (n vc : Nat) (q : Option Nat) (p : Pkt) :
    Keeps s (State.startPkt s n vc q p) := by
  unfold State.startPkt
  split
  rename_i z4
  extract_lets x5
  clear_value x5
  split
  · exact Keeps.snd (State.takeSeq_keeps _ _ _ _) z4
  · extract_lets x10 x11
    have hx10 : Keeps s x10 := (Keeps.snd (State.takeSeq_keeps _ _ _ _) z4).trans (State.dynSend_keeps _ _ _ _)
    clear_value x10
    have hx11 : Keeps s x11 := by
      unfold x11
      split
      · exact hx10.trans (State.charge_keeps _ _ _)
      · exact hx10
    clear_value x11
    exact Keeps.ite hx11 (hx11.trans (State.modNi_keeps _ _ _))

theorem State.issue_keeps (s : State) (n : Nat) (it : QItem) (p : Pkt) : Keeps s (State.issue s n it p) := by
  unfold State.issue
  extract_lets x1 x2 x3 x4
  clear_value x1 x2 x3 x4
  split
  extract_lets x9 x10
  clear_value x9 x10
  exact State.setNi_keeps _ _ _

theorem State.moveTag_keeps (s : State) (n : Nat) (tag : BitVec 12) : Keeps s (State.moveTag s n tag).1 := by
  rw [State.moveTag.eq_def]
  extract_lets x1 x2 x3
  clear_value x1 x2 x3
  split
  · dsimp only
    exact Keeps.refl _
  · extract_lets x9 x10 x11
    clear_value x9 x10 x11
    dsimp only
    exact State.setNi_keeps _ _ _

theorem State.control_keeps (s : State) (n : Nat) (opc : BitVec 8) (part : BitVec 9) (d : NodeId) (tag : BitVec 12) :
    Keeps s (State.control s n opc part d tag) := by
  unfold State.control
  extract_lets x1
  clear_value x1
  exact State.modNi_keeps _ _ _

theorem State.rsvClr_keeps (s : State) (n : Nat) (o : RsvOwn) : Keeps s (State.rsvClr s n o) :=
    State.control_keeps _ _ _ _ _ _

theorem State.injectHead_keeps (s : State) (n j i : Nat) (it : QItem) (p : Pkt) :
    Keeps s (State.injectHead s n j i it p) := by
  unfold State.injectHead
  extract_lets x1
  clear_value x1
  split
  rename_i z5
  extract_lets x6 x7 x8 x9 x10 x11
  clear_value x6 x7 x8 x9
  have hx10 : Keeps s x10 := by
    unfold x10
    refine Keeps.trans ?_ (State.modNi_keeps _ _ _)
    refine Keeps.fst ?_ z5
    split
    · exact State.moveTag_keeps _ _ _
    · dsimp only
      exact Keeps.refl _
  clear_value x10
  have hx11 : Keeps s x11 := hx10.trans (State.issue_keeps _ _ _ _)
  clear_value x11
  refine Keeps.ite ?_ ?_
  · refine Keeps.trans ?_ (State.failAll_keeps _ _ _ _)
    refine Keeps.trans ?_ (State.modNi_keeps _ _ _)
    refine Keeps.fst ?_ z5
    split
    · exact State.moveTag_keeps _ _ _
    · dsimp only
      exact Keeps.refl _
  · split
    · refine Keeps.fst ?_ z5
      split
      · exact State.moveTag_keeps _ _ _
      · dsimp only
        exact Keeps.refl _
    · extract_lets x23 x24 x25
      have hx23 : Keeps s x23 := hx11.trans (State.startPkt_keeps _ _ _ _ _)
      clear_value x23
      have hx24 : Keeps s x24 := Keeps.ite hx23 (hx23.trans (State.modNi_keeps _ _ _))
      clear_value x24
      have hx25 : Keeps s x25 := Keeps.ite ((hx24.trans (State.modNi_keeps _ _ _)).trans (State.countN_keeps _ _ _ _
          _)) hx24
      clear_value x25
      refine Keeps.ite ?_ ?_
      · split
        extract_lets x30
        have hx30 : Keeps s x30 := hx25.trans (State.setNi_keeps _ _ _)
        clear_value x30
        split
        · exact hx30.trans (State.rsvClr_keeps _ _ _)
        · exact hx30
      · exact hx25

theorem State.releases_keeps (s : State) (n : Nat) : Keeps s (State.releases s n) := by
  unfold State.releases
  refine Keeps.foldl _ _ (fun u1 y1 => ?_) ?_
  · refine Keeps.ite ?_ ?_
    · extract_lets x2
      have hx2 : Keeps u1 x2 := State.control_keeps _ _ _ _ _ _
      clear_value x2
      exact hx2.trans (State.modNi_keeps _ _ _)
    · exact Keeps.refl _
  · exact Keeps.refl _

theorem State.setLni_keeps (s : State) (l : Lni) : Keeps s (State.setLni s l) :=
    Keeps.same

theorem State.ehFill_keeps (s : State) (a : AItem) : Keeps s (State.ehFill s a).1 := by
  rw [State.ehFill.eq_def]
  split
  · dsimp only
    exact Keeps.refl _
  · extract_lets x6 x7
    clear_value x6 x7
    dsimp only
    exact State.setLni_keeps _ _

theorem State.routeAnswer_keeps (s : State) (n : Nat) : Keeps s (State.routeAnswer s n) := by
  unfold State.routeAnswer
  split
  · exact Keeps.refl _
  · extract_lets x6 x7 x8 x9 x10
    clear_value x6 x7
    have hx8 : Keeps s x8 := State.lookCount_keeps _ _ _
    clear_value x8 x9
    have hx10 : Keeps s x10 := (hx8.trans (State.rtFail_keeps _ _ _ _)).trans (State.countN_keeps _ _ _ _ _)
    clear_value x10
    exact Keeps.ite (((hx10.trans (State.ehFill_keeps _ _)).trans (State.modNi_keeps _ _ _)).trans
        (State.journal_keeps _ _)) ((hx8.trans (State.sprayed_keeps _ _ _ _)).trans (State.modNi_keeps _ _ _))

theorem State.askRoom_keeps (s : State) (n j : Nat) : Keeps s (State.askRoom s n j) := by
  unfold State.askRoom
  split
  · exact Keeps.refl _
  · extract_lets x8 x9 x10 x11
    clear_value x8 x9 x10 x11
    exact Keeps.ite (State.modNi_keeps _ _ _) (Keeps.refl _)

theorem State.weighted_keeps (s : State) (n strict : Nat) : Keeps s (State.weighted s n strict).1 := by
  rw [State.weighted.eq_def]
  extract_lets x1 x2 x3 x4 x5
  clear_value x1 x2 x3 x4 x5
  split
  · split
    · dsimp only
      exact State.modNi_keeps _ _ _
    · dsimp only
      exact Keeps.refl _
  · split
    · dsimp only
      exact Keeps.refl _
    · extract_lets x18
      clear_value x18
      dsimp only
      exact State.modNi_keeps _ _ _

theorem State.schedInject_keeps (s : State) (n : Nat) : Keeps s (State.schedInject s n) := by
  unfold State.schedInject
  extract_lets x1 x2 x3 x4
  clear_value x1
  have hx2 : Keeps s x2 := State.injMarks_keeps _ _
  clear_value x2
  have hx3 : Keeps s x3 := by
    unfold x3
    split
    · exact hx2.trans (State.servedFlit_keeps _ _ _)
    · exact hx2
  clear_value x3
  refine Keeps.ite ?_ ?_
  · exact Keeps.refl _
  · split
    · exact (hx3.trans (State.modNi_keeps _ _ _)).trans (State.niSend_keeps _ _ _ _)
    · split
      · exact hx2
      · split
        · exact hx2
        · extract_lets x26 x27 x28
          clear_value x26 x27 x28
          split
          · unfold x4
            exact hx2.trans (State.countOnce_keeps _ _ _)
          · split
            refine Keeps.ite ?_ ?_
            · unfold x4
              exact hx2.trans (State.countOnce_keeps _ _ _)
            · extract_lets x41 x42
              clear_value x41
              have hx42 : Keeps s x42 := (hx2.trans (State.modNi_keeps _ _ _)).trans (State.issue_keeps _ _ _ _)
              clear_value x42
              split
              rename_i z46
              split
              · exact Keeps.snd (hx42.trans (State.takeSeq_keeps _ _ _ _)) z46
              · extract_lets x53
                have hx53 : Keeps s x53 := (Keeps.snd (hx42.trans (State.takeSeq_keeps _ _ _ _)) z46).trans
                    (State.servedFlit_keeps _ _ _)
                clear_value x53
                exact (hx53.trans (State.modNi_keeps _ _ _)).trans (State.niSend_keeps _ _ _ _)

theorem State.injectFrom_keeps (s : State) (n j : Nat) : Keeps s (State.injectFrom s n j) := by
  unfold State.injectFrom
  split
  · exact State.injectHead_keeps _ _ _ _ _ _
  · exact Keeps.refl _

theorem State.holdMarks_keeps (s : State) (n j : Nat) : Keeps s (State.holdMarks s n j) := by
  unfold State.holdMarks
  split
  · exact Keeps.refl _
  · extract_lets x8
    have hx8 : Keeps s x8 := Keeps.ite (State.setBit_keeps _ _ _) (Keeps.refl _)
    clear_value x8
    exact Keeps.ite (hx8.trans (State.countOnce_keeps _ _ _)) hx8

theorem State.poolCredit_keeps (s : State) (n : Nat) (i : Option Nat) : Keeps s (State.poolCredit s n i) := by
  unfold State.poolCredit
  split
  · exact Keeps.ite (State.modSkw_keeps _ _ _) (Keeps.refl _)
  · exact Keeps.refl _

theorem State.dynInject_keeps (s : State) (n : Nat) : Keeps s (State.dynInject s n) := by
  unfold State.dynInject
  extract_lets x1 x2 x3 x4 x5
  clear_value x1
  have hx2 : Keeps s x2 := Keeps.ite (State.setBit_keeps _ _ _) (Keeps.refl _)
  clear_value x2 x3
  have hx4 : Keeps s x4 := Keeps.foldl _ _ (fun _ _ => (State.askRoom_keeps _ _ _).trans (State.holdMarks_keeps _ _
      _)) hx2
  clear_value x4 x5
  split
  · split
    · exact State.modNi_keeps _ _ _
    · extract_lets x18 x19 x20
      clear_value x18
      have hx19 : Keeps s x19 := State.modNi_keeps _ _ _
      clear_value x19
      have hx20 : Keeps s x20 := by
        unfold x20
        split
        · exact hx19.trans (State.charge_keeps _ _ _)
        · exact hx19
      clear_value x20
      exact (hx20.trans (State.dynSend_keeps _ _ _ _)).trans (State.poolCredit_keeps _ _ _)
  · split
    · extract_lets x32
      have hx32 : Keeps s x32 := hx2.trans (State.modNi_keeps _ _ _)
      clear_value x32
      split
      rename_i z36
      exact (Keeps.fst (hx32.trans (State.ehFill_keeps _ _)) z36).trans (State.startPkt_keeps _ _ _ _ _)
    · refine Keeps.ite ?_ ?_
      · exact hx4.trans (State.injectFrom_keeps _ _ _)
      · split
        · exact hx4.trans (State.injectFrom_keeps _ _ _)
        · split
          · rename_i z45
            exact (Keeps.fst (hx4.trans (State.weighted_keeps _ _ _)) z45).trans (State.injectFrom_keeps _ _ _)
          · rename_i z48
            exact Keeps.fst (hx4.trans (State.weighted_keeps _ _ _)) z48

theorem State.kniInject_keeps (s : State) (n : Nat) : Keeps s (State.kniInject s n) := by
  unfold State.kniInject
  extract_lets x1 x2
  clear_value x1 x2
  split
  · exact Keeps.refl _
  · split
    · split
      · split
        · extract_lets x24
          have hx24 : Keeps s x24 := State.modNi_keeps _ _ _
          clear_value x24
          split
          · exact hx24
          · extract_lets x31
            have hx31 : Keeps s x31 := (hx24.trans (State.dynSend_keeps _ _ _ _)).trans (State.poolCredit_keeps _ _ _)
            clear_value x31
            exact Keeps.ite hx31 (hx31.trans (State.modNi_keeps _ _ _))
        · exact Keeps.refl _
      · exact Keeps.refl _
    · exact Keeps.refl _

theorem State.kniDyn_keeps (s : State) (n : Nat) : Keeps s (State.kniDyn s n) := by
  unfold State.kniDyn
  extract_lets x1
  clear_value x1
  split
  · exact State.dynInject_keeps _ _
  · split
    · exact State.dynInject_keeps _ _
    · exact State.kniInject_keeps _ _

theorem State.lookupAt_keeps (s : State) (n : Nat) (q : QRef) : Keeps s (State.lookupAt s n q) := by
  unfold State.lookupAt
  refine Keeps.ite ?_ ?_
  · exact Keeps.refl _
  · split
    · exact State.buildQueue_keeps _ _ _
    · exact Keeps.ite (State.routeAnswer_keeps _ _) ((State.eventReady_keeps _ _).trans (State.buildQueue_keeps _ _ _))

theorem State.frame_keeps (s : State) : Keeps s (State.frame s) := by
  unfold State.frame
  refine Keeps.ite ?_ ?_
  · exact Keeps.refl _
  · extract_lets x1
    have hx1 : Keeps s x1 := Keeps.forN _ _ (fun _ _ => State.modNi_keeps _ _ _) (Keeps.refl _)
    clear_value x1
    exact Keeps.trans (t := x1) hx1 Keeps.same

end Sys2Proof.Machine
end

