-- ==== Sys2Proof/Laws/Keeps2.lean ====
section
/-! SUPPORT. What every operation of Machine/Eject, Machine/Target, Machine/Answers, Machine/Ehrup, Machine/Time keeps: one lemma for each operation. -/

namespace Sys2Proof.Machine
set_option Elab.async false

theorem State.loadNow_keeps (s : State) (n : Nat) : Keeps s (State.loadNow s n).2 := by
  rw [State.loadNow.eq_def]
  extract_lets x1
  clear_value x1
  split
  · dsimp only
    exact State.setFld_keeps _ _ _ _ _
  · dsimp only
    exact Keeps.refl _

theorem State.sendAnswer_keeps (s : State) (n : Nat) (p : Pkt) : Keeps s (State.sendAnswer s n p) := by
  unfold State.sendAnswer
  extract_lets x1
  have hx1 : Keeps s x1 := State.modNi_keeps _ _ _
  clear_value x1
  exact Keeps.ite (hx1.trans (State.routeAnswer_keeps _ _)) hx1

theorem State.reply_keeps (s : State) (n : Nat) (h : BitVec 128) (cls : BitVec 4) (body : List (BitVec 128 × BitVec
    512)) :
    Keeps s (State.reply s n h cls body) :=
    State.sendAnswer_keeps _ _ _

theorem State.ndrMeta_keeps (s : State) (n : Nat) (h sc : BitVec 128) (opc : BitVec 8) (code : Code) (meta_ : Nat) :
    Keeps s (State.ndrMeta s n h sc opc code meta_) := by
  unfold State.ndrMeta
  split
  rename_i z4
  exact (Keeps.snd (State.loadNow_keeps _ _) z4).trans (State.reply_keeps _ _ _ _ _)

theorem State.ndr_keeps (s : State) (n : Nat) (h sc : BitVec 128) (opc : BitVec 8) (code : Code) :
    Keeps s (State.ndr s n h sc opc code) :=
    State.ndrMeta_keeps _ _ _ _ _ _ _

theorem State.endReply_keeps (s : State) (n : Nat) (h sc : BitVec 128) (code : Code) :
    Keeps s (State.endReply s n h sc code) := by
  unfold State.endReply
  extract_lets x1 x2
  clear_value x1 x2
  exact Keeps.ite (State.ndr_keeps _ _ _ _ _ _) (Keeps.ite (State.reply_keeps _ _ _ _ _) (Keeps.ite
      (State.reply_keeps _ _ _ _ _) (State.ndr_keeps _ _ _ _ _ _)))

theorem State.targetJ_keeps (s : State) (n : Nat) (h : BitVec 128) (code : Code) (addr split done hi : Nat) :
    Keeps s (State.targetJ s n h code addr split done hi) :=
    State.journal_keeps _ _

theorem State.refuseAt_keeps (s : State) (n : Nat) (h sc : BitVec 128) (code : Code) (jnl : Bool) :
    Keeps s (State.refuseAt s n h sc code jnl) := by
  unfold State.refuseAt
  extract_lets x1 x2
  have hx1 : Keeps s x1 := Keeps.ite (State.targetJ_keeps _ _ _ _ _ _ _ _) (Keeps.refl _)
  clear_value x1
  have hx2 : Keeps s x2 := Keeps.ite ((hx1.trans (State.countN_keeps _ _ _ _ _)).trans (State.sentBackoff_keeps _
      _)) hx1
  clear_value x2
  exact hx2.trans (State.endReply_keeps _ _ _ _ _)

theorem State.closedAt_keeps (s : State) (n : Nat) (h sc : BitVec 128) (code : Code) (jnl : Bool) :
    Keeps s (State.closedAt s n h sc code jnl) := by
  unfold State.closedAt
  refine Keeps.ite ?_ ?_
  · exact State.targetJ_keeps _ _ _ _ _ _ _ _
  · extract_lets x1
    have hx1 : Keeps s x1 := Keeps.ite (State.targetJ_keeps _ _ _ _ _ _ _ _) (Keeps.refl _)
    clear_value x1
    exact hx1.trans (State.endReply_keeps _ _ _ _ _)

theorem State.skwRefuse_keeps (s : State) (n : Nat) (h sc : BitVec 128) : Keeps s (State.skwRefuse s n h sc) := by
  unfold State.skwRefuse
  extract_lets x1
  clear_value x1
  exact Keeps.ite (State.journal_keeps _ _) (State.endReply_keeps _ _ _ _ _)

theorem State.discardPkt_keeps (s : State) (n : Nat) (h sc : BitVec 128) : Keeps s (State.discardPkt s n h sc) :=
    (State.niErr_keeps _ _ _).trans (State.journal_keeps _ _)

theorem State.ejCredit_keeps (s : State) (n vc : Nat) : Keeps s (State.ejCredit s n vc) := by
  unfold State.ejCredit
  refine Keeps.ite ?_ ?_
  · exact Keeps.refl _
  · extract_lets x1 x2
    clear_value x1 x2
    exact State.setCred_keeps _ _ _

theorem State.ejCredits_keeps (s : State) (n : Nat) (vc : Nat) (a3 : Nat) : Keeps s (State.ejCredits s n vc a3) := by
  induction a3 generalizing s with
  | zero => exact Keeps.refl _
  | succ k ih => exact (State.ejCredit_keeps s n vc).trans (ih _)

theorem State.endRefused_keeps (s : State) (n : Nat) (h sc : BitVec 128) (code : Code) :
    Keeps s (State.endRefused s n h sc code) :=
    Keeps.ite (State.closedAt_keeps _ _ _ _ _ _) (State.refuseAt_keeps _ _ _ _ _ _)

theorem State.refused_keeps (s : State) (n : Nat) (p : HPkt) (code : Code) : Keeps s (State.refused s n p code).1 := by
  rw [State.refused.eq_def]
  split
  · dsimp only
    exact Keeps.refl _
  · dsimp only
    exact State.endRefused_keeps _ _ _ _ _

theorem State.targetCheck_keeps (s : State) (n : Nat) (a : Asm) : Keeps s (State.targetCheck s n a).1 := by
  rw [State.targetCheck.eq_def]
  extract_lets x1 x2 x3 x4 x5 x6 x7
  clear_value x1 x2 x3 x4 x5 x6
  have hx7 : Keeps s x7 := Keeps.ite (State.drawn_keeps _) (Keeps.refl _)
  clear_value x7
  split
  · exact State.refused_keeps _ _ _ _
  · split
    · dsimp only
      exact hx7
    · extract_lets x15 x16 x17 x18
      clear_value x15
      have hx16 : Keeps s x16 := (hx7.trans (State.ruleNote_keeps _ _ _ _)).trans (State.countN_keeps _ _ _ _ _)
      clear_value x16 x17
      have hx18 : Keeps s x18 := hx16.trans (State.targetJ_keeps _ _ _ _ _ _ _ _)
      clear_value x18
      split
      · dsimp only
        exact hx16
      · split
        · dsimp only
          exact hx18
        · exact hx16.trans (State.refused_keeps _ _ _ _)

theorem State.beginPkt_keeps (s : State) (n vc : Nat) (h sc : BitVec 128) : Keeps s (State.beginPkt s n vc h sc).1 := by
  rw [State.beginPkt.eq_def]
  extract_lets x1 x2 x3 x4 x5 x6 x7 x8 x9
  clear_value x1 x3 x4 x5 x6 x7 x8 x9
  dsimp only
  exact Keeps.ite (State.setNi_keeps _ _ _) ((State.setNi_keeps _ _ _).trans (State.readShadow_keeps _ _ _))

theorem State.completePkt_keeps (s : State) (n : Nat) (a : Asm) : Keeps s (State.completePkt s n a).1 := by
  rw [State.completePkt.eq_def]
  extract_lets x1
  clear_value x1
  split
  · split
    · dsimp only
      exact State.closedAt_keeps _ _ _ _ _ _
    · split
      · dsimp only
        exact Keeps.refl _
      · dsimp only
        exact State.skwRefuse_keeps _ _ _ _
  · split
    · dsimp only
      exact Keeps.refl _
    · split
      · rename_i z13
        dsimp only
        exact Keeps.fst (State.targetCheck_keeps _ _ _) z13
      · rename_i z16
        dsimp only
        exact Keeps.fst (State.targetCheck_keeps _ _ _) z16

theorem State.holdPkt_keeps (s : State) (n : Nat) (p : HPkt) : Keeps s (State.holdPkt s n p) :=
    State.modNi_keeps _ _ _

theorem State.settle_keeps (s : State) (n : Nat) (a : Asm) : Keeps s (State.settle s n a) := by
  unfold State.settle
  refine Keeps.ite ?_ ?_
  · exact Keeps.refl _
  · split
    · exact State.holdPkt_keeps _ _ _
    · exact State.modNi_keeps _ _ _

theorem State.joinFlit_keeps (s : State) (n vc : Nat) (a : Asm) (others : List Asm) (f : Flit) :
    Keeps s (State.joinFlit s n vc a others f) := by
  unfold State.joinFlit
  extract_lets x1
  clear_value x1
  refine Keeps.ite ?_ ?_
  · exact State.modNi_keeps _ _ _
  · split
    rename_i z5
    exact Keeps.ite (((Keeps.fst (State.completePkt_keeps _ _ _) z5).trans (State.modNi_keeps _ _ _)).trans
        (State.settle_keeps _ _ _)) ((Keeps.fst (State.completePkt_keeps _ _ _) z5).trans (State.modNi_keeps _ _ _))

theorem State.schedFull_keeps (s : State) (n : Nat) (h : BitVec 128) : Keeps s (State.schedFull s n h) :=
    (State.niErr_keeps _ _ _).trans (State.violation_keeps _ _ _ _)

theorem State.ejectMarks_keeps (s : State) (n : Nat) (f : Flit) (ce : Nat) (ue setPsn : Bool) :
    Keeps s (State.ejectMarks s n f ce ue setPsn) := by
  unfold State.ejectMarks
  extract_lets x1 x2 x3 x4 x5 x6 x7
  clear_value x1
  have hx2 : Keeps s x2 := (State.countN_keeps _ _ _ _ _).trans (State.countN_keeps _ _ _ _ _)
  clear_value x2
  have hx3 : Keeps s x3 := Keeps.ite (hx2.trans (State.countN_keeps _ _ _ _ _)) hx2
  clear_value x3
  have hx4 : Keeps s x4 := Keeps.ite (hx3.trans (State.countN_keeps _ _ _ _ _)) hx3
  clear_value x4
  have hx5 : Keeps s x5 := Keeps.ite (hx4.trans (State.countN_keeps _ _ _ _ _)) hx4
  clear_value x5
  have hx6 : Keeps s x6 := Keeps.ite (hx5.trans (State.niErr_keeps _ _ _)) hx5
  clear_value x6
  have hx7 : Keeps s x7 := Keeps.ite (hx6.trans (State.niErr_keeps _ _ _)) hx6
  clear_value x7
  exact hx7.trans (State.probes_keeps _ _ _ _ _ _)

theorem State.poisonJ_keeps (s : State) (n : Nat) (h : BitVec 128) (opc : BitVec 8) :
    Keeps s (State.poisonJ s n h opc) := by
  unfold State.poisonJ
  extract_lets x1
  clear_value x1
  exact (State.targetJ_keeps _ _ _ _ _ _ _ _).trans (State.partFault_keeps _ _)

theorem State.kniSched_keeps (s : State) (n : Nat) (f : Flit) (due : Nat) : Keeps s (State.kniSched s n f due) := by
  unfold State.kniSched
  extract_lets x1
  clear_value x1
  exact Keeps.ite (State.modSkw_keeps _ _ _) (Keeps.ite (State.skwRefuse_keeps _ _ _ _) (Keeps.refl _))

theorem State.newFlit_keeps (s : State) (n : Nat) (y : Fly) (f : Flit) (ce ue : List Nat) :
    Keeps s (State.newFlit s n y f ce ue) := by
  unfold State.newFlit
  extract_lets x1 x2 x3 x4 x5 x6 x7 x8 x9 x10 x11 x12
  clear_value x1 x2 x3 x4
  have hx5 : Keeps s x5 := (State.ejectMarks_keeps _ _ _ _ _ _).trans (State.ejCredit_keeps _ _ _)
  clear_value x5
  have hx6 : Keeps s x6 := (State.ejectMarks_keeps _ _ _ _ _ _).trans (State.modNi_keeps _ _ _)
  clear_value x6
  have hx7 : Keeps s x7 := State.modNi_keeps _ _ _
  clear_value x7 x8
  have hx9 : Keeps s x9 := hx7.trans (State.ejectMarks_keeps _ _ _ _ _ _)
  clear_value x9
  have hx10 : Keeps s x10 := Keeps.ite (hx9.trans (State.poisonJ_keeps _ _ _ _)) hx9
  clear_value x10 x11
  have hx12 : Keeps s x12 := hx10.trans (State.schedFull_keeps _ _ _)
  clear_value x12
  refine Keeps.ite ?_ ?_
  · exact Keeps.ite (hx5.trans (State.modNi_keeps _ _ _)) ((((hx5.trans (State.niErr_keeps _ _ _)).trans
        (State.journal_keeps _ _)).trans (State.partFault_keeps _ _)).trans (State.modNi_keeps _ _ _))
  · refine Keeps.ite ?_ ?_
    · exact Keeps.ite (hx6.trans (State.kniSched_keeps _ _ _ _)) (hx6.trans (State.ejCredit_keeps _ _ _))
    · refine Keeps.ite ?_ ?_
      · exact (((State.ejectMarks_keeps _ _ _ _ _ _).trans (State.ejCredit_keeps _ _ _)).trans
            (State.discardPkt_keeps _ _ _ _)).trans (State.modNi_keeps _ _ _)
      · refine Keeps.ite ?_ ?_
        · exact hx10.trans (State.kniSched_keeps _ _ _ _)
        · refine Keeps.ite ?_ ?_
          · exact Keeps.ite hx12 (hx12.trans (State.modNi_keeps _ _ _))
          · split
            rename_i z16
            exact (Keeps.fst (hx10.trans (State.beginPkt_keeps _ _ _ _ _)) z16).trans (State.joinFlit_keeps _ _ _ _ _ _)

theorem State.misplaced_keeps (s : State) (n vc : Nat) (a : Asm) (others : List Asm) :
    Keeps s (State.misplaced s n vc a others) :=
    ((State.ejCredits_keeps _ _ _ _).trans (State.modNi_keeps _ _ _)).trans (State.discardPkt_keeps _ _ _ _)

theorem State.ejectFlit_keeps (s : State) (n : Nat) (y : Fly) (f : Flit) (ce ue : List Nat) :
    Keeps s (State.ejectFlit s n y f ce ue) := by
  unfold State.ejectFlit
  extract_lets x1 x2 x3 x4 x5
  clear_value x1 x2 x3 x4 x5
  split
  · exact State.newFlit_keeps _ _ _ _ _ _
  · extract_lets x11 x12 x13 x14 x15 x16
    clear_value x11 x12
    have hx13 : Keeps s x13 := State.ejectMarks_keeps _ _ _ _ _ _
    clear_value x13
    have hx14 : Keeps s x14 := Keeps.ite (hx13.trans (State.poisonJ_keeps _ _ _ _)) hx13
    clear_value x14
    have hx15 : Keeps s x15 := Keeps.ite (hx14.trans (State.schedFull_keeps _ _ _)) hx14
    clear_value x15 x16
    exact Keeps.ite ((State.misplaced_keeps _ _ _ _ _).trans (State.newFlit_keeps _ _ _ _ _ _)) (Keeps.ite
        (hx15.trans (State.modNi_keeps _ _ _)) (hx14.trans (State.joinFlit_keeps _ _ _ _ _ _)))

theorem State.leaveByp_keeps (s : State) (n : Nat) (ce ue : List Nat) : Keeps s (State.leaveByp s n ce ue) := by
  unfold State.leaveByp
  split
  · exact Keeps.refl _
  · exact (State.modNi_keeps _ _ _).trans (State.ejectFlit_keeps _ _ _ _ _ _)

theorem State.ejectArrive_keeps (s : State) (n : Nat) (err : FlitErr) : Keeps s (State.ejectArrive s n err) := by
  unfold State.ejectArrive
  split
  · exact Keeps.refl _
  · refine Keeps.ite ?_ ?_
    · exact Keeps.refl _
    · extract_lets x7 x8
      clear_value x7
      have hx8 : Keeps s x8 := State.setLink_keeps _ _ _
      clear_value x8
      exact Keeps.ite ((hx8.trans (State.modNi_keeps _ _ _)).trans (State.leaveByp_keeps _ _ _ _)) (hx8.trans
          (State.ejectFlit_keeps _ _ _ _ _ _))

theorem State.granAdmit_keeps (s : State) (n vc : Nat) : Keeps s (State.granAdmit s n vc) := by
  unfold State.granAdmit
  extract_lets x1 x2
  clear_value x1
  have hx2 : Keeps s x2 := (State.modNi_keeps _ _ _).trans (State.ejCredit_keeps _ _ _)
  clear_value x2
  refine Keeps.ite ?_ ?_
  · exact Keeps.refl _
  · split
    · exact Keeps.refl _
    · extract_lets x9 x10 x11 x12
      clear_value x9 x10 x11 x12
      exact Keeps.ite (State.countOnce_keeps _ _ _) (Keeps.ite (Keeps.refl _) (Keeps.ite (State.modNi_keeps _ _ _)
          (Keeps.ite ((hx2.trans (State.modNi_keeps _ _ _)).trans (State.settle_keeps _ _ _)) (hx2.trans
          (State.modNi_keeps _ _ _)))))

theorem State.setMonitor_keeps (s : State) (n : Nat) (r : Requester) (a : Nat) :
    Keeps s (State.setMonitor s n r a) := by
  unfold State.setMonitor
  extract_lets x1 x2 x3 x4 x5
  clear_value x1 x2 x3
  have hx4 : Keeps s x4 := Keeps.ite (State.satFld_keeps _ _ _ _ _) (Keeps.refl _)
  clear_value x4 x5
  exact hx4.trans (State.modNi_keeps _ _ _)

theorem State.loseMonitors_keeps (s : State) (n : Nat) (r : Requester) (addrs : List Nat) :
    Keeps s (State.loseMonitors s n r addrs) := by
  unfold State.loseMonitors
  extract_lets x1 x2 x3 x4
  clear_value x1 x2 x3
  have hx4 : Keeps s x4 := Keeps.ite (Keeps.refl _) (State.satFld_keeps _ _ _ _ _)
  clear_value x4
  exact hx4.trans (State.modNi_keeps _ _ _)

theorem State.setArb_keeps (s : State) (n : Nat) (a : Arb) : Keeps s (State.setArb s n a) :=
    State.modNi_keeps _ _ _

theorem State.arbYield_keeps (s : State) (n : Nat) : Keeps s (State.arbYield s n) := by
  unfold State.arbYield
  extract_lets x1
  clear_value x1
  exact Keeps.ite (State.setArb_keeps _ _ _) (Keeps.refl _)

theorem State.arbBreak_keeps (s : State) (n : Nat) : Keeps s (State.arbBreak s n) := by
  unfold State.arbBreak
  extract_lets x1 x2
  have hx1 : Keeps s x1 := State.arbYield_keeps _ _
  clear_value x1 x2
  exact Keeps.ite (hx1.trans (State.setArb_keeps _ _ _)) hx1

theorem State.backOff_keeps (s : State) (n : Nat) (h : HPkt) : Keeps s (State.backOff s n h) :=
    (State.modNi_keeps _ _ _).trans (State.refuseAt_keeps _ _ _ _ _ _)

theorem State.accept_keeps (s : State) (n : Nat) (h : HPkt) (tenure : Bool) : Keeps s (State.accept s n h tenure) :=
    State.modNi_keeps _ _ _

theorem State.judge_keeps (s : State) (n : Nat) (h : HPkt) : Keeps s (State.judge s n h) := by
  unfold State.judge
  extract_lets x1 x2 x3 x4 x5 x6
  have hx1 : Keeps s x1 := State.arbYield_keeps _ _
  clear_value x1 x2 x3 x5
  have hx6 : Keeps s x6 := hx1.trans (State.setArb_keeps _ _ _)
  clear_value x6
  refine Keeps.ite ?_ ?_
  · exact hx1.trans (State.accept_keeps _ _ _ _)
  · split
    · unfold x4
      exact (hx6.trans (State.setArb_keeps _ _ _)).trans (State.modNi_keeps _ _ _)
    · refine Keeps.ite ?_ ?_
      · unfold x4
        exact hx6.trans (State.modNi_keeps _ _ _)
      · refine Keeps.ite ?_ ?_
        · unfold x4
          exact (hx6.trans (State.setArb_keeps _ _ _)).trans (State.modNi_keeps _ _ _)
        · exact hx6.trans (State.backOff_keeps _ _ _)
    · exact Keeps.ite (hx6.trans (State.accept_keeps _ _ _ _)) (((hx6.trans (State.setArb_keeps _ _ _)).trans
          (State.backOff_keeps _ _ _)).trans (State.arbYield_keeps _ _))
    · exact Keeps.ite (Keeps.ite ((hx6.trans (State.setArb_keeps _ _ _)).trans (State.backOff_keeps _ _ _))
          (hx6.trans (State.accept_keeps _ _ _ _))) (hx6.trans (State.backOff_keeps _ _ _))

theorem State.quotaEnd_keeps (s : State) (n : Nat) : Keeps s (State.quotaEnd s n) := by
  unfold State.quotaEnd
  extract_lets x1 x2
  clear_value x1 x2
  exact Keeps.ite (State.setArb_keeps _ _ _) (Keeps.refl _)

theorem State.draw_keeps (s : State) (n : Nat) : Keeps s (State.draw s n) := by
  unfold State.draw
  extract_lets x1 x2 x3 x4 x5 x6 x7 x8 x9 x10
  clear_value x1
  have hx2 : Keeps s x2 := State.quotaEnd_keeps _ _
  clear_value x2 x3 x4 x5 x6 x7 x8
  have hx9 : Keeps s x9 := Keeps.ite hx2 (hx2.trans (State.setFld_keeps _ _ _ _ _))
  clear_value x9
  have hx10 : Keeps s x10 := hx9.trans (State.setArb_keeps _ _ _)
  clear_value x10
  refine Keeps.ite ?_ ?_
  · exact Keeps.refl _
  · split
    · exact Keeps.foldl _ _ (fun _ _ => State.backOff_keeps _ _ _) hx10
    · extract_lets x17 x18 x19
      clear_value x17
      have hx18 : Keeps s x18 := hx9.trans (State.setArb_keeps _ _ _)
      clear_value x18
      have hx19 : Keeps s x19 := hx18.trans (State.countN_keeps _ _ _ _ _)
      clear_value x19
      exact Keeps.foldl _ _ (fun _ _ => Keeps.ite (State.accept_keeps _ _ _ _) (State.backOff_keeps _ _ _)) hx19

theorem State.answerNdr_keeps (s : State) (n : Nat) (h : HPkt) (opc : BitVec 8) :
    Keeps s (State.answerNdr s n h opc) := by
  unfold State.answerNdr
  extract_lets x1 x2 x3 x4 x5
  clear_value x1 x2 x3 x4
  have hx5 : Keeps s x5 := by
    unfold x5
    split
    · exact Keeps.ite (State.targetJ_keeps _ _ _ _ _ _ _ _) (Keeps.refl _)
    · exact Keeps.refl _
  clear_value x5
  exact hx5.trans (State.ndrMeta_keeps _ _ _ _ _ _ _)

theorem State.answerDrs_keeps (s : State) (n : Nat) (h : HPkt) (opc : BitVec 8) :
    Keeps s (State.answerDrs s n h opc) := by
  unfold State.answerDrs
  split
  rename_i z4
  extract_lets x5
  clear_value x5
  exact (Keeps.snd (State.loadNow_keeps _ _) z4).trans (State.reply_keeps _ _ _ _ _)

theorem State.answerIoc_keeps (s : State) (n : Nat) (h : HPkt) : Keeps s (State.answerIoc s n h) := by
  unfold State.answerIoc
  extract_lets x1 x2 x3 x4
  clear_value x1 x2 x3 x4
  exact State.reply_keeps _ _ _ _ _

theorem State.answerPkt_keeps (s : State) (n : Nat) (h : HPkt) : Keeps s (State.answerPkt s n h) := by
  unfold State.answerPkt
  extract_lets x1 x2 x3 x4
  have hx1 : Keeps s x1 := State.modNi_keeps _ _ _
  clear_value x1 x2 x3 x4
  split
  exact Keeps.ite (hx1.trans (State.ndr_keeps _ _ _ _ _ _)) (Keeps.ite hx1 (Keeps.ite (hx1.trans
      (State.answerNdr_keeps _ _ _ _)) (Keeps.ite (hx1.trans (State.answerDrs_keeps _ _ _ _)) (Keeps.ite (hx1.trans
      (State.answerNdr_keeps _ _ _ _)) (Keeps.ite (hx1.trans (State.reply_keeps _ _ _ _ _)) (hx1.trans
      (State.answerIoc_keeps _ _ _)))))))

theorem State.tryAnswer_keeps (s : State) (n pid : Nat) : Keeps s (State.tryAnswer s n pid) := by
  unfold State.tryAnswer
  split
  · exact Keeps.refl _
  · exact Keeps.ite (State.answerPkt_keeps _ _ _) (Keeps.refl _)

theorem State.offerLine_keeps (s : State) (n : Nat) (h : HPkt) (t : Nat) : Keeps s (State.offerLine s n h t) := by
  unfold State.offerLine
  extract_lets x1 x2 x3 x4 x5
  clear_value x1 x2
  have hx3 : Keeps s x3 := Keeps.ite (State.setMonitor_keeps _ _ _ _) (Keeps.refl _)
  clear_value x3
  have hx4 : Keeps s x4 := hx3.trans (State.loseMonitors_keeps _ _ _ _)
  clear_value x4 x5
  exact hx4.trans (State.modNi_keeps _ _ _)

theorem State.condWrite_keeps (s : State) (n : Nat) (h : HPkt) (t : Nat) : Keeps s (State.condWrite s n h t) := by
  unfold State.condWrite
  extract_lets x1
  clear_value x1
  exact Keeps.ite ((State.modNi_keeps _ _ _).trans (State.offerLine_keeps _ _ _ _)) ((State.modNi_keeps _ _ _).trans
      (State.endReply_keeps _ _ _ _ _))

theorem State.offer_keeps (s : State) (n : Nat) : Keeps s (State.offer s n) := by
  unfold State.offer
  refine Keeps.ite ?_ ?_
  · exact Keeps.refl _
  · split
    · exact Keeps.refl _
    · extract_lets x6 x7 x8
      clear_value x6
      have hx7 : Keeps s x7 := State.modNi_keeps _ _ _
      clear_value x7
      have hx8 : Keeps s x8 := Keeps.ite (State.judge_keeps _ _ _) (Keeps.refl _)
      clear_value x8
      refine Keeps.ite ?_ ?_
      · exact Keeps.ite (hx7.trans (State.closedAt_keeps _ _ _ _ _ _)) (hx7.trans (State.refuseAt_keeps _ _ _ _ _ _))
      · split
        · exact hx8
        · split
          · exact Keeps.ite hx8 (Keeps.ite (hx8.trans (State.condWrite_keeps _ _ _ _)) (hx8.trans
                (State.offerLine_keeps _ _ _ _)))
          · exact hx8

theorem State.outTaken_keeps (s : State) (n : Nat) (c : BitVec 4) : Keeps s (State.outTaken s n c) := by
  unfold State.outTaken
  extract_lets x1 x2
  clear_value x1 x2
  refine Keeps.ite ?_ ?_
  · exact Keeps.refl _
  · split
    · exact Keeps.refl _
    · extract_lets x8 x9
      clear_value x8
      have hx9 : Keeps s x9 := State.setNi_keeps _ _ _
      clear_value x9
      split
      · exact hx9
      · extract_lets x15 x16
        have hx15 : Keeps s x15 := hx9.trans (State.modNi_keeps _ _ _)
        clear_value x15
        have hx16 : Keeps s x16 := Keeps.ite (hx15.trans (State.modNi_keeps _ _ _)) hx15
        clear_value x16
        exact hx16.trans (State.tryAnswer_keeps _ _ _)

theorem State.forwardAns_keeps (s : State) (n : Nat) (h : HPkt) (m : Msg) (code : Code) :
    Keeps s (State.forwardAns s n h m code) := by
  unfold State.forwardAns
  split
  rename_i z4
  extract_lets x5 x6 x7
  clear_value x6 x7
  exact (Keeps.snd (State.loadNow_keeps _ _) z4).trans (State.reply_keeps _ _ _ _ _)

theorem State.takeDevload_keeps (s : State) (n : Nat) (m : Msg) : Keeps s (State.takeDevload s n m) := by
  unfold State.takeDevload
  refine Keeps.ite ?_ ?_
  · exact Keeps.refl _
  · extract_lets x1
    clear_value x1
    exact (State.modNi_keeps _ _ _).trans (State.setFld_keeps _ _ _ _ _)

theorem State.unitAnswer_keeps (s : State) (n : Nat) (m : Msg) : Keeps s (State.unitAnswer s n m) := by
  unfold State.unitAnswer
  extract_lets x1 x2 x3 x4 x5
  have hx1 : Keeps s x1 := State.credUse_keeps _ _ _
  clear_value x1 x2 x3 x4 x5
  split
  · exact hx1.trans (State.journal_keeps _ _)
  · refine Keeps.ite ?_ ?_
    · exact hx1.trans (State.journal_keeps _ _)
    · extract_lets x12 x13 x14 x15 x16 x17
      have hx12 : Keeps s x12 := Keeps.ite hx1 ((hx1.trans (State.targetJ_keeps _ _ _ _ _ _ _ _)).trans
          (State.niErr_keeps _ _ _))
      clear_value x12
      have hx13 : Keeps s x13 := hx12.trans (State.takeDevload_keeps _ _ _)
      clear_value x13 x14
      have hx15 : Keeps s x15 := Keeps.ite (hx13.trans (State.forwardAns_keeps _ _ _ _ _)) hx13
      clear_value x15 x16
      have hx17 : Keeps s x17 := hx15.trans (State.modNi_keeps _ _ _)
      clear_value x17
      exact hx17.trans (State.tryAnswer_keeps _ _ _)

theorem State.dropUnitWork_keeps (s : State) (n : Nat) : Keeps s (State.dropUnitWork s n) := by
  unfold State.dropUnitWork
  extract_lets x1 x2 x3 x4
  clear_value x1 x2 x3
  have hx4 : Keeps s x4 := State.setNi_keeps _ _ _
  clear_value x4
  refine Keeps.foldl _ _ (fun u5 y5 => ?_) ?_
  · extract_lets x6 x7 x8
    clear_value x6 x7 x8
    exact Keeps.ite ((State.modNi_keeps _ _ _).trans (State.ndr_keeps _ _ _ _ _ _)) (Keeps.ite ((State.modNi_keeps _
        _ _).trans (State.endReply_keeps _ _ _ _ _)) (State.answerPkt_keeps _ _ _))
  · exact hx4

theorem State.arbRelArrive_keeps (s : State) (n : Nat) : Keeps s (State.arbRelArrive s n) := by
  unfold State.arbRelArrive
  split
  · exact Keeps.refl _
  · extract_lets x7 x8
    clear_value x7 x8
    exact State.setNi_keeps _ _ _

theorem State.rsvClrArrive_keeps (s : State) (n : Nat) : Keeps s (State.rsvClrArrive s n) := by
  unfold State.rsvClrArrive
  split
  · exact Keeps.refl _
  · exact State.setNi_keeps _ _ _

theorem State.rsvReqArrive_keeps (s : State) (n : Nat) : Keeps s (State.rsvReqArrive s n) := by
  unfold State.rsvReqArrive
  split
  · exact Keeps.refl _
  · extract_lets x7 x8 x9 x10
    have hx7 : Keeps s x7 := State.setNi_keeps _ _ _
    clear_value x7 x8 x9 x10
    exact Keeps.ite (hx7.trans (State.closedAt_keeps _ _ _ _ _ _)) (Keeps.ite (hx7.trans (State.endReply_keeps _ _ _
        _ _)) (Keeps.ite (hx7.trans (State.endReply_keeps _ _ _ _ _)) (Keeps.ite (hx7.trans (State.endReply_keeps _ _ _
        _ _)) (hx7.trans (State.modNi_keeps _ _ _)))))

theorem State.rsvGrant_keeps (s : State) (n : Nat) : Keeps s (State.rsvGrant s n) := by
  unfold State.rsvGrant
  extract_lets x1
  clear_value x1
  refine Keeps.ite ?_ ?_
  · exact Keeps.refl _
  · split
    · exact Keeps.refl _
    · refine Keeps.ite ?_ ?_
      · exact Keeps.refl _
      · extract_lets x8
        have hx8 : Keeps s x8 := State.setNi_keeps _ _ _
        clear_value x8
        exact hx8.trans (State.reply_keeps _ _ _ _ _)

theorem State.rsvGrantExpire_keeps (s : State) (n src : Nat) : Keeps s (State.rsvGrantExpire s n src) := by
  unfold State.rsvGrantExpire
  extract_lets x1 x2
  clear_value x1 x2
  exact Keeps.ite ((State.setNi_keeps _ _ _).trans (State.pageErr_keeps _ _ _)) (Keeps.refl _)

theorem State.failAhead_keeps (s : State) (n : Nat) (part : BitVec 9) (d : NodeId) :
    Keeps s (State.failAhead s n part d) := by
  unfold State.failAhead
  extract_lets x1 x2
  clear_value x1
  have hx2 : Keeps s x2 := State.modNi_keeps _ _ _
  clear_value x2
  exact Keeps.ite (Keeps.refl _) (Keeps.foldl _ _ (fun _ _ => State.failLines_keeps _ _ _ _ _) hx2)

theorem State.enterLoss_keeps (s : State) (n : Nat) (part : BitVec 9) (d : NodeId) :
    Keeps s (State.enterLoss s n part d) := by
  unfold State.enterLoss
  extract_lets x1 x2 x3
  clear_value x1 x2 x3
  split
  · extract_lets x9 x10
    clear_value x9 x10
    exact State.setNi_keeps _ _ _
  · refine Keeps.ite ?_ ?_
    · exact State.setNi_keeps _ _ _
    · split
      · exact State.setNi_keeps _ _ _
      · split
        · exact (State.setNi_keeps _ _ _).trans (State.satFld_keeps _ _ _ _ _)
        · exact Keeps.refl _

theorem State.noteLoss_keeps (s : State) (n : Nat) (part : BitVec 9) (d : NodeId) :
    Keeps s (State.noteLoss s n part d) :=
    (State.enterLoss_keeps _ _ _ _).trans (State.failAhead_keeps _ _ _ _)

theorem State.backoffEnd_keeps (s : State) (n i : Nat) : Keeps s (State.backoffEnd s n i) := by
  unfold State.backoffEnd
  split
  · exact Keeps.ite (State.modNi_keeps _ _ _) (Keeps.refl _)
  · exact Keeps.refl _

theorem State.lineDone_keeps (s : State) (n k j : Nat) (code : Code) (m : Option Msg) (load : Nat) :
    Keeps s (State.lineDone s n k j code m load) := by
  unfold State.lineDone
  extract_lets x1 x2 x3 x4
  clear_value x1
  have hx2 : Keeps s x2 := Keeps.ite (State.modLed_keeps _ _ _ _) (Keeps.refl _)
  clear_value x2 x3
  have hx4 : Keeps s x4 := by
    unfold x4
    refine Keeps.ite ?_ ?_
    · exact hx2
    · split
      · exact hx2.trans (State.answerUnit_keeps _ _ _ _)
      · exact hx2
  clear_value x4
  exact Keeps.ite (Keeps.refl _) (hx4.trans (State.modLed_keeps _ _ _ _))

theorem State.partAnswered_keeps (s : State) (n key i k : Nat) : Keeps s (State.partAnswered s n key i k) := by
  unfold State.partAnswered
  extract_lets x1 x2
  clear_value x1 x2
  split
  · exact Keeps.refl _
  · extract_lets x8 x9 x10
    clear_value x9 x10
    exact State.setNi_keeps _ _ _

theorem State.sheafAnswer_keeps (s : State) (n k : Nat) (p : HPkt) (code : Code) :
    Keeps s (State.sheafAnswer s n k p code) := by
  unfold State.sheafAnswer
  extract_lets x1 x2 x3 x4 x5 x6 x7 x8
  clear_value x1
  have hx2 : Keeps s x2 := Keeps.ite (State.satFld_keeps _ _ _ _ _) (Keeps.refl _)
  clear_value x2
  have hx3 : Keeps s x3 := Keeps.ite (Keeps.refl _) (hx2.trans (State.journal_keeps _ _))
  clear_value x3
  have hx4 : Keeps s x4 := hx3.trans (State.modLed_keeps _ _ _ _)
  clear_value x4 x5 x6 x7
  have hx8 : Keeps s x8 := Keeps.ite hx4 (hx4.trans (State.answerUnit_keeps _ _ _ _))
  clear_value x8
  exact Keeps.ite hx4 (hx8.trans (State.endEntry_keeps _ _ _ _ _ _ _))

theorem State.deliverIoc_keeps (s : State) (n k from_ : Nat) (p : HPkt) : Keeps s (State.deliverIoc s n k from_ p) := by
  unfold State.deliverIoc
  refine Keeps.foldl _ _ (fun u1 y1 => ?_) ?_
  · split
    extract_lets x6 x7 x8 x9
    clear_value x6 x7 x8
    have hx9 : Keeps u1 x9 := Keeps.ite (State.modLed_keeps _ _ _ _) (Keeps.refl _)
    clear_value x9
    split
    extract_lets x14
    clear_value x14
    exact hx9.trans (State.lineDone_keeps _ _ _ _ _ _ _)
  · exact Keeps.refl _

theorem State.giveHeld_keeps (s : State) (n k : Nat) (h : Nat × Pkt) : Keeps s (State.giveHeld s n k h) := by
  unfold State.giveHeld
  extract_lets x1 x2
  clear_value x1 x2
  exact Keeps.ite (State.deliverIoc_keeps _ _ _ _ _) ((State.failUnitBy_keeps _ _ _ _ _ _ _).trans
      (State.modLed_keeps _ _ _ _))

theorem State.flushIoc_keeps (s : State) (n : Nat) (k : Nat) (a3 : Nat) : Keeps s (State.flushIoc s n k a3) := by
  induction a3 generalizing s with
  | zero => exact Keeps.refl _
  | succ f ih =>
    unfold State.flushIoc
    dsimp only
    split
    · exact Keeps.refl _
    · exact ((State.modLed_keeps _ _ _ _).trans (State.giveHeld_keeps _ _ _ _)).trans (ih _)

theorem State.endInOrder_keeps (s : State) (n : Nat) (k : Nat) (code : Code) (a4 : Nat) : Keeps s (State.endInOrder
    s n k code a4) := by
  induction a4 generalizing s with
  | zero => exact Keeps.refl _
  | succ fuel ih =>
    unfold State.endInOrder
    dsimp only
    split
    · exact Keeps.refl _
    · split
      · exact ((State.modLed_keeps _ _ _ _).trans (State.giveHeld_keeps _ _ _ _)).trans (ih _)
      · exact ((State.failUnit_keeps _ _ _ _ _).trans (State.modLed_keeps _ _ _ _)).trans (ih _)

theorem State.endUnit_keeps (s : State) (n k : Nat) (code : Code) : Keeps s (State.endUnit s n k code) := by
  unfold State.endUnit
  extract_lets x1
  clear_value x1
  exact Keeps.ite (State.failUnit_keeps _ _ _ _ _) (State.endInOrder_keeps _ _ _ _ _)

theorem State.endPart_keeps (s : State) (n k i : Nat) (p : HPkt) (code : Code) :
    Keeps s (State.endPart s n k i p code) := by
  unfold State.endPart
  split
  · extract_lets x6 x7
    clear_value x6 x7
    exact ((State.failLinesBy_keeps _ _ _ _ _ _ _).trans (State.flushIoc_keeps _ _ _ _)).trans (State.finish_keeps _
        _ _)
  · exact Keeps.refl _

theorem State.applyAnswer_keeps (s : State) (n k i : Nat) (p : HPkt) : Keeps s (State.applyAnswer s n k i p) := by
  unfold State.applyAnswer
  extract_lets x1 x2 x3 x4 x5 x6 x7 x8 x9 x10
  clear_value x1 x2 x3 x4 x5
  have hx6 : Keeps s x6 := State.partAnswered_keeps _ _ _ _ _
  clear_value x6
  have hx7 : Keeps s x7 := Keeps.ite ((hx6.trans (State.noteLoss_keeps _ _ _ _)).trans (State.countN_keeps _ _ _ _
      _)) (hx6.trans (State.modNi_keeps _ _ _))
  clear_value x7 x8 x9
  have hx10 : Keeps s x10 := by
    unfold x10
    refine Keeps.ite ?_ ?_
    · refine Keeps.foldl _ _ (fun u11 y11 => ?_) ?_
      · split
        exact State.lineDone_keeps _ _ _ _ _ _ _
      · exact hx7
    · refine Keeps.ite ?_ ?_
      · split
        · exact hx7.trans (State.lineDone_keeps _ _ _ _ _ _ _)
        · exact hx7
      · exact Keeps.ite (Keeps.ite (hx7.trans (State.deliverIoc_keeps _ _ _ _ _)) (hx7.trans (State.modLed_keeps _
            _ _ _))) (Keeps.foldl _ _ (fun _ _ => State.lineDone_keeps _ _ _ _ _ _ _) hx7)
  clear_value x10
  exact Keeps.ite (hx7.trans (State.sheafAnswer_keeps _ _ _ _ _)) (Keeps.ite (hx7.trans (State.endPart_keeps _ _ _ _
      _ _)) ((hx10.trans (State.flushIoc_keeps _ _ _ _)).trans (State.finish_keeps _ _ _)))

theorem State.applyLate_keeps (s : State) (n k i : Nat) (p : HPkt) : Keeps s (State.applyLate s n k i p) := by
  unfold State.applyLate
  extract_lets x1 x2 x3 x4 x5 x6
  clear_value x1
  have hx2 : Keeps s x2 := (State.partAnswered_keeps _ _ _ _ _).trans (State.lateAnswer_keeps _ _ _ _ _)
  clear_value x2
  have hx3 : Keeps s x3 := Keeps.ite hx2 ((hx2.trans (State.satFld_keeps _ _ _ _ _)).trans (State.pageErr_keeps _ _ _))
  clear_value x3 x4
  have hx5 : Keeps s x5 := Keeps.ite (hx3.trans (State.modLed_keeps _ _ _ _)) hx3
  clear_value x5
  have hx6 : Keeps s x6 := Keeps.ite ((hx5.trans (State.modLed_keeps _ _ _ _)).trans (State.countN_keeps _ _ _ _ _)) hx5
  clear_value x6
  exact Keeps.ite hx5 (hx6.trans (State.modNi_keeps _ _ _))

theorem State.applyRetry_keeps (s : State) (n k i : Nat) (p : HPkt) : Keeps s (State.applyRetry s n k i p) := by
  unfold State.applyRetry
  extract_lets x1 x2 x3
  clear_value x1 x2 x3
  split
  · exact Keeps.refl _
  · extract_lets x9
    clear_value x9
    exact State.setNi_keeps _ _ _

theorem State.ehRetry_keeps (s : State) (n k : Nat) : Keeps s (State.ehRetry s n k) := by
  unfold State.ehRetry
  extract_lets x1 x2 x3
  clear_value x1 x2 x3
  split
  · exact Keeps.refl _
  · exact Keeps.ite (Keeps.refl _) (State.setNi_keeps _ _ _)

theorem State.ringAnswer_keeps (s : State) (n : Nat) (p : HPkt) : Keeps s (State.ringAnswer s n p) := by
  unfold State.ringAnswer
  extract_lets x1 x2 x3 x4 x5 x6
  clear_value x1 x2
  have hx3 : Keeps s x3 := State.setNi_keeps _ _ _
  clear_value x3
  have hx4 : Keeps s x4 := hx3.trans (State.modNi_keeps _ _ _)
  clear_value x4 x5 x6
  refine Keeps.ite ?_ ?_
  · exact State.lateAnswer_keeps _ _ _ _ _
  · split
    · exact hx4
    · split
      · refine Keeps.ite ?_ ?_
        · exact hx4.trans (State.modNi_keeps _ _ _)
        · extract_lets x22
          have hx22 : Keeps s x22 := hx4.trans (State.modNi_keeps _ _ _)
          clear_value x22
          exact hx22.trans (State.failLines_keeps _ _ _ _ _)
      · exact hx4

theorem State.answerArrive_keeps (s : State) (n : Nat) : Keeps s (State.answerArrive s n) := by
  unfold State.answerArrive
  split
  · exact Keeps.refl _
  · extract_lets x7 x8 x9 x10
    have hx7 : Keeps s x7 := State.setNi_keeps _ _ _
    clear_value x7 x8 x9 x10
    refine Keeps.ite ?_ ?_
    · exact hx7.trans (State.ringAnswer_keeps _ _ _)
    · split
      · exact hx7.trans (State.lateAnswer_keeps _ _ _ _ _)
      · exact Keeps.ite (Keeps.ite (hx7.trans (State.applyRetry_keeps _ _ _ _ _)) (hx7.trans
            (State.applyAnswer_keeps _ _ _ _ _))) (Keeps.ite (hx7.trans (State.applyLate_keeps _ _ _ _ _)) (hx7.trans
            (State.lateAnswer_keeps _ _ _ _ _)))

theorem State.txnTimeout_keeps (s : State) (n k : Nat) : Keeps s (State.txnTimeout s n k) := by
  unfold State.txnTimeout
  extract_lets x1 x2 x3
  clear_value x1
  have hx2 : Keeps s x2 := State.modNi_keeps _ _ _
  clear_value x2
  have hx3 : Keeps s x3 := (hx2.trans (State.endUnit_keeps _ _ _ _)).trans (State.stickEntry_keeps _ _ _)
  clear_value x3
  split
  · exact Keeps.refl _
  · exact Keeps.ite (Keeps.refl _) (Keeps.ite (State.modNi_keeps _ _ _) (Keeps.ite (Keeps.ite (hx3.trans
        (State.partFault_keeps _ _)) hx3) (Keeps.refl _)))

theorem State.releaseEntry_keeps (s : State) (n k : Nat) : Keeps s (State.releaseEntry s n k) := by
  unfold State.releaseEntry
  extract_lets x1 x2
  clear_value x1
  have hx2 : Keeps s x2 := (State.modLed_keeps _ _ _ _).trans (State.countN_keeps _ _ _ _ _)
  clear_value x2
  exact Keeps.ite (hx2.trans (State.modNi_keeps _ _ _)) (Keeps.refl _)

theorem State.inboundBarrier_keeps (s : State) (n : Nat) (k : BarKind) (sc : BarScope) (m : Msg) :
    Keeps s (State.inboundBarrier s n k sc m) := by
  unfold State.inboundBarrier
  refine Keeps.ite ?_ ?_
  · exact Keeps.refl _
  · split
    · exact State.takeBarrier_keeps _ _ _ _ _ _
    · exact State.badMessage_keeps _ _ _ _

theorem State.inbound_keeps (s : State) (n : Nat) (m : Msg) : Keeps s (State.inbound s n m) := by
  unfold State.inbound
  refine Keeps.ite ?_ ?_
  · exact Keeps.refl _
  · split
    · exact State.badMessage_keeps _ _ _ _
    · refine Keeps.ite ?_ ?_
      · split
        · split
          · exact State.takeBarrier_keeps _ _ _ _ _ _
          · exact State.takeBarrier_keeps _ _ _ _ _ _
          · exact State.takeBarrier_keeps _ _ _ _ _ _
          · exact State.takeBarrier_keeps _ _ _ _ _ _
        · exact State.takeEvent_keeps _ _ _
        · exact State.takeRequest_keeps _ _ _
        · exact State.unitAnswer_keeps _ _ _
      · exact Keeps.ite (State.takeRequest_keeps _ _ _) (Keeps.ite ((State.credUse_keeps _ _ _).trans
            (State.sourceJ_keeps _ _ _ _ _)) (State.unitAnswer_keeps _ _ _))

theorem State.creditReturn_keeps (s : State) (n : Nat) (c : BitVec 4) : Keeps s (State.creditReturn s n c) := by
  unfold State.creditReturn
  refine Keeps.ite ?_ ?_
  · exact Keeps.refl _
  · extract_lets x1
    clear_value x1
    exact Keeps.ite (State.pmcErr_keeps _ _ _ _) (State.modNi_keeps _ _ _)

theorem State.ehTake_keeps (s : State) (h : HPkt) : Keeps s (State.ehTake s h) :=
    (State.setLni_keeps _ _).trans (State.modNi_keeps _ _ _)

theorem State.ehRefuse_keeps (s : State) (h : HPkt) (code : Code) : Keeps s (State.ehRefuse s h code) :=
    Keeps.ite ((State.ehTake_keeps _ _).trans (State.endRefused_keeps _ _ _ _ _)) ((State.ehTake_keeps _ _).trans
        (State.refuseAt_keeps _ _ _ _ _ _))

theorem State.ehTakeWr_keeps (s : State) : Keeps s (State.ehTakeWr s) := by
  unfold State.ehTakeWr
  split
  · exact Keeps.refl _
  · refine Keeps.ite ?_ ?_
    · exact Keeps.refl _
    · refine Keeps.ite ?_ ?_
      · exact State.ehRefuse_keeps _ _ _
      · refine Keeps.ite ?_ ?_
        · exact Keeps.refl _
        · extract_lets x6 x7 x8 x9
          clear_value x6 x7 x8
          have hx9 : Keeps s x9 := State.setLni_keeps _ _
          clear_value x9
          exact Keeps.ite (State.ehRefuse_keeps _ _ _) (Keeps.ite (Keeps.refl _) ((hx9.trans (State.ehTake_keeps _
              _)).trans (State.ndr_keeps _ _ _ _ _ _)))

theorem State.ehRsp_keeps (s : State) (h : HPkt) (code : Code) (noEntry : Bool) :
    Keeps s (State.ehRsp s h code noEntry) := by
  unfold State.ehRsp
  extract_lets x1
  clear_value x1
  exact State.reply_keeps _ _ _ _ _

theorem State.ehDeliver_keeps (s : State) (h : HPkt) (i : Nat) (a3 : EhRead) : Keeps s (State.ehDeliver s h i a3) :=
    Keeps.ite ((State.setLni_keeps _ _).trans (State.ehRsp_keeps _ _ _ _)) (((State.setLni_keeps _ _).trans
        (State.ehRsp_keeps _ _ _ _)).trans (State.modNi_keeps _ _ _))

theorem State.ehRetryRsp_keeps (s : State) (h : HPkt) (noEntry : Bool) : Keeps s (State.ehRetryRsp s h noEntry) :=
    (State.ehRsp_keeps _ _ _ _).trans (State.countN_keeps _ _ _ _ _)

theorem State.ehJ_keeps (s : State) (h : BitVec 128) (addr : BitVec 32) (kind : BitVec 8) (code : Code) (detail : Nat) :
    Keeps s (State.ehJ s h addr kind code detail) :=
    State.journal_keeps _ _

theorem State.ehExpire_keeps (s : State) (i : Nat) : Keeps s (State.ehExpire s i) := by
  unfold State.ehExpire
  split
  · split
    · refine Keeps.ite ?_ ?_
      · exact Keeps.refl _
      · extract_lets x11
        have hx11 : Keeps s x11 := State.setLni_keeps _ _
        clear_value x11
        exact (hx11.trans (State.ehJ_keeps _ _ _ _ _ _)).trans (State.satFld_keeps _ _ _ _ _)
    · exact Keeps.refl _
  · exact Keeps.refl _

theorem State.ehTakeRd_keeps (s : State) : Keeps s (State.ehTakeRd s) := by
  unfold State.ehTakeRd
  split
  · exact Keeps.refl _
  · refine Keeps.ite ?_ ?_
    · exact Keeps.refl _
    · refine Keeps.ite ?_ ?_
      · exact State.ehRefuse_keeps _ _ _
      · refine Keeps.ite ?_ ?_
        · exact Keeps.refl _
        · extract_lets x6 x7 x8 x9
          clear_value x6
          have hx7 : Keeps s x7 := by
            unfold x7
            refine Keeps.forN _ _ (fun y10 u10 => ?_) ?_
            · split
              · exact Keeps.ite (State.ehExpire_keeps _ _) (Keeps.refl _)
              · exact Keeps.refl _
            · exact State.ehTake_keeps _ _
          clear_value x7 x8 x9
          refine Keeps.ite ?_ ?_
          · exact State.ehRefuse_keeps _ _ _
          · split
            · extract_lets x21
              clear_value x21
              exact Keeps.ite (hx7.trans (State.ehDeliver_keeps _ _ _ _)) (hx7.trans (State.ehRetryRsp_keeps _ _ _))
            · refine Keeps.ite ?_ ?_
              · exact (hx7.trans (State.ehJ_keeps _ _ _ _ _ _)).trans (State.ehRsp_keeps _ _ _ _)
              · split
                · exact (hx7.trans (State.setLni_keeps _ _)).trans (State.ehRetryRsp_keeps _ _ _)
                · exact (hx7.trans (State.satFld_keeps _ _ _ _ _)).trans (State.ehRetryRsp_keeps _ _ _)

theorem State.ehTransfer_keeps (s : State) : Keeps s (State.ehTransfer s) := by
  unfold State.ehTransfer
  extract_lets x1 x2
  clear_value x1 x2
  split
  · refine Keeps.ite ?_ ?_
    · exact State.setLni_keeps _ _
    · refine Keeps.ite ?_ ?_
      · extract_lets x10
        clear_value x10
        exact State.setLni_keeps _ _
      · exact Keeps.refl _
  · exact Keeps.refl _

theorem State.ehErr_keeps (s : State) (flt : Nat) (wr : Bool) (slot : Nat) (addr : BitVec 32) :
    Keeps s (State.ehErr s flt wr slot addr) := by
  unfold State.ehErr
  extract_lets x1 x2
  clear_value x1
  have hx2 : Keeps s x2 := Keeps.ite (Keeps.refl _) ((((State.setFld_keeps _ _ _ _ _).trans (State.setFld_keeps _ _
      _ _ _)).trans (State.setFld_keeps _ _ _ _ _)).trans (State.wr_keeps _ _ _))
  clear_value x2
  exact (hx2.trans (State.setBit_keeps _ _ _)).trans (State.niErr_keeps _ _ _)

theorem State.ehLate_keeps (s : State) (h : BitVec 128) (addr : BitVec 32) (flt : Nat) (unmatched : Bool) :
    Keeps s (State.ehLate s h addr flt unmatched) := by
  unfold State.ehLate
  extract_lets x1 x2
  clear_value x1
  have hx2 : Keeps s x2 := Keeps.ite (State.journal_keeps _ _) (State.ehJ_keeps _ _ _ _ _ _)
  clear_value x2
  exact hx2.trans (State.satFld_keeps _ _ _ _ _)

theorem State.ehZombie_keeps (s : State) (t : Nat) : Keeps s (State.ehZombie s t) := by
  unfold State.ehZombie
  extract_lets x1 x2
  clear_value x1 x2
  exact State.setLni_keeps _ _

theorem State.ehTimeout_keeps (s : State) (slot : Nat) : Keeps s (State.ehTimeout s slot) := by
  unfold State.ehTimeout
  extract_lets x1
  clear_value x1
  refine Keeps.ite ?_ ?_
  · exact Keeps.refl _
  · refine Keeps.ite ?_ ?_
    · split
      · exact Keeps.ite (Keeps.refl _) (((State.setLni_keeps _ _).trans (State.niErr_keeps _ _ _)).trans
            (State.partFault_keeps _ _))
      · exact Keeps.refl _
    · split
      · refine Keeps.ite ?_ ?_
        · exact Keeps.refl _
        · extract_lets x12
          have hx12 : Keeps s x12 := State.setLni_keeps _ _
          clear_value x12
          exact ((hx12.trans (State.niErr_keeps _ _ _)).trans (State.ehJ_keeps _ _ _ _ _ _)).trans
              (State.partFault_keeps _ _)
      · exact Keeps.refl _

theorem State.ehTaken_keeps (s : State) (rtype slot : Nat) (word : Word) (fin : Bool) (flt : Nat) :
    Keeps s (State.ehTaken s rtype slot word fin flt) := by
  unfold State.ehTaken
  extract_lets x1
  clear_value x1
  refine Keeps.ite ?_ ?_
  · split
    · refine Keeps.ite ?_ ?_
      · exact State.ehLate_keeps _ _ _ _ _
      · extract_lets x7 x8 x9 x10 x11
        clear_value x7 x8
        have hx9 : Keeps s x9 := State.ehLate_keeps _ _ _ _ _
        clear_value x9 x10
        have hx11 : Keeps s x11 := Keeps.ite (State.ehErr_keeps _ _ _ _ _) (Keeps.refl _)
        clear_value x11
        exact Keeps.ite (hx9.trans (State.setLni_keeps _ _)) (hx11.trans (State.setLni_keeps _ _))
    · exact State.ehLate_keeps _ _ _ _ _
  · refine Keeps.ite ?_ ?_
    · split
      · extract_lets x17
        have hx17 : Keeps s x17 := State.setLni_keeps _ _
        clear_value x17
        exact Keeps.ite (hx17.trans (State.ehLate_keeps _ _ _ _ _)) (Keeps.ite hx17 ((hx17.trans (State.ehErr_keeps
            _ _ _ _ _)).trans (State.ehJ_keeps _ _ _ _ _ _)))
      · exact State.ehLate_keeps _ _ _ _ _
    · exact State.ehLate_keeps _ _ _ _ _

theorem State.ehReturn_keeps (s : State) (rtype slot : Nat) (word : Word) (fin : Bool) (flt : Nat) :
    Keeps s (State.ehReturn s rtype slot word fin flt) := by
  unfold State.ehReturn
  extract_lets x1
  clear_value x1
  exact Keeps.ite (Keeps.refl _) (Keeps.ite (State.ehZombie_keeps _ _) ((Keeps.ite (State.ehTimeout_keeps _ _)
      (Keeps.refl _)).trans (State.ehTaken_keeps _ _ _ _ _ _)))

theorem State.hlFenced_keeps (s : State) (k : optParam Nat 1) : Keeps s (State.hlFenced s k) :=
    Keeps.ite (Keeps.refl _) ((State.satFld_keeps _ _ _ _ _).trans (State.pageErr_keeps _ _ _))

theorem State.hlFirst_keeps (s : State) (reg bitNo m : Nat) (wr : Bool) (a : Nat) :
    Keeps s (State.hlFirst s reg bitNo m wr a) :=
    Keeps.ite (Keeps.refl _) (((State.wr_keeps _ _ _).trans (State.setBit_keeps _ _ _)).trans (State.pageErr_keeps _
        _ _))

theorem State.hlPark_keeps (s : State) (m seg : Nat) : Keeps s (State.hlPark s m seg) :=
    State.setFld_keeps _ _ _ _ _

theorem State.setSfld_keeps (s : State) (a hi lo : Nat) (v : Int) : Keeps s (State.setSfld s a hi lo v) :=
    State.setFld_keeps _ _ _ _ _

theorem State.newRate_keeps (s : State) : Keeps s (State.newRate s) := by
  unfold State.newRate
  extract_lets x1 x2
  clear_value x1 x2
  exact State.setSfld_keeps _ _ _ _ _

theorem State.tclkEdge_keeps (s : State) : Keeps s (State.tclkEdge s) := by
  unfold State.tclkEdge
  extract_lets x1 x2
  clear_value x1 x2
  exact State.setTime_keeps _ _

theorem State.incWritten_keeps (s : State) (nsWrite : Bool) : Keeps s (State.incWritten s nsWrite) := by
  unfold State.incWritten
  extract_lets x1 x2
  clear_value x1 x2
  exact Keeps.ite (State.setTime_keeps _ _) (Keeps.ite (State.pageErr_keeps _ _ _) (Keeps.refl _))

theorem State.stepped_keeps (s : State) (a1 : Int) : Keeps s (State.stepped s a1) := by
  unfold State.stepped
  extract_lets x1 x2 x3 x4 x5
  have hx1 : Keeps s x1 := (State.pageErr_keeps _ _ _).trans (State.satFld_keeps _ _ _ _ _)
  clear_value x1 x2
  have hx3 : Keeps s x3 := hx1.trans (State.setTime_keeps _ _)
  clear_value x3
  have hx4 : Keeps s x4 := hx3.trans (State.setFld_keeps _ _ _ _ _)
  clear_value x4
  have hx5 : Keeps s x5 := Keeps.ite (((hx4.trans (State.setFld_keeps _ _ _ _ _)).trans (State.setFld_keeps _ _ _ _
      _)).trans (State.setBit_keeps _ _ _)) hx4
  clear_value x5
  exact hx5.trans (State.newRate_keeps _)

theorem State.setNow_keeps (s : State) : Keeps s (State.setNow s) := by
  unfold State.setNow
  extract_lets x1 x2 x3
  clear_value x1
  have hx2 : Keeps s x2 := State.stepped_keeps _ _
  clear_value x2 x3
  exact hx2.trans (State.setTime_keeps _ _)

theorem State.servoWritten_keeps (s : State) : Keeps s (State.servoWritten s) := by
  unfold State.servoWritten
  extract_lets x1 x2
  clear_value x1
  have hx2 : Keeps s x2 := State.setTime_keeps _ _
  clear_value x2
  exact (hx2.trans (State.setFld_keeps _ _ _ _ _)).trans (State.newRate_keeps _)

theorem State.rotAcq_keeps (s : State) : Keeps s (State.rotAcq s) :=
    Keeps.ite (Keeps.refl _) (State.setFld_keeps _ _ _ _ _)

theorem State.servo_keeps (s : State) (a1 : Int) : Keeps s (State.servo s a1) := by
  unfold State.servo
  refine Keeps.ite ?_ ?_
  · extract_lets x1 x2
    have hx1 : Keeps s x1 := State.stepped_keeps _ _
    clear_value x1 x2
    exact hx1.trans (State.setTime_keeps _ _)
  · extract_lets x3 x4 x5 x6 x7 x8 x9 x10
    clear_value x3 x4 x5
    have hx6 : Keeps s x6 := State.setSfld_keeps _ _ _ _ _
    clear_value x6 x7
    have hx8 : Keeps s x8 := hx6.trans (State.setTime_keeps _ _)
    clear_value x8 x9
    have hx10 : Keeps s x10 := Keeps.ite (hx8.trans (State.setFld_keeps _ _ _ _ _)) hx8
    clear_value x10
    exact hx10.trans (State.newRate_keeps _)

theorem State.relabel_keeps (s : State) (near : Nat) : Keeps s (State.relabel s near) :=
    State.setTime_keeps _ _

theorem State.measure_keeps (s : State) : Keeps s (State.measure s) := by
  unfold State.measure
  extract_lets x1 x2 x3 x4
  clear_value x1
  have hx2 : Keeps s x2 := Keeps.ite (State.setSfld_keeps _ _ _ _ _) ((State.setFld_keeps _ _ _ _ _).trans
      (State.drawn_keeps _))
  clear_value x2
  have hx3 : Keeps s x3 := hx2.trans (State.setBit_keeps _ _ _)
  clear_value x3
  have hx4 : Keeps s x4 := (hx3.trans (State.setFld_keeps _ _ _ _ _)).trans (State.pageErr_keeps _ _ _)
  clear_value x4
  exact Keeps.ite ((hx4.trans (State.violation_keeps _ _ _ _)).trans (State.ladder_keeps _ _ _ _)) hx3

theorem State.acquire_keeps (s : State) (near : Nat) : Keeps s (State.acquire s near) := by
  unfold State.acquire
  extract_lets x1 x2 x3
  clear_value x1
  have hx2 : Keeps s x2 := State.setFld_keeps _ _ _ _ _
  clear_value x2 x3
  exact Keeps.ite (hx2.trans (State.setTime_keeps _ _)) (hx2.trans (State.setTime_keeps _ _))

theorem State.ppsTime_keeps (s : State) : Keeps s (State.ppsTime s).1 := by
  rw [State.ppsTime.eq_def]
  extract_lets x1 x2 x3 x4 x5 x6 x7 x8 x9
  clear_value x1 x2 x3
  have hx4 : Keeps s x4 := ((State.setFld_keeps _ _ _ _ _).trans (State.wr_keeps _ _ _)).trans (State.wr_keeps _ _ _)
  clear_value x4
  have hx5 : Keeps s x5 := hx4.trans (State.setSfld_keeps _ _ _ _ _)
  clear_value x5 x6
  have hx7 : Keeps s x7 := hx5.trans (State.setTime_keeps _ _)
  clear_value x7 x8
  have hx9 : Keeps s x9 := Keeps.ite (hx7.trans (State.acquire_keeps _ _)) (Keeps.ite ((hx7.trans
      (State.measure_keeps _)).trans (State.relabel_keeps _ _)) (Keeps.ite (hx7.trans (State.relabel_keeps _ _)) hx7))
  clear_value x9
  split
  · dsimp only
    exact (State.satFld_keeps _ _ _ _ _).trans (State.pageErr_keeps _ _ _)
  · dsimp only
    exact Keeps.ite (hx9.trans (State.servo_keeps _ _)) hx9

theorem State.phaseEnd_keeps (s : State) : Keeps s (State.phaseEnd s) := by
  unfold State.phaseEnd
  split
  · exact Keeps.ite ((State.setTime_keeps _ _).trans (State.newRate_keeps _)) (Keeps.refl _)
  · exact Keeps.refl _

theorem State.enterHoldover_keeps (s : State) : Keeps s (State.enterHoldover s) :=
    ((State.setFld_keeps _ _ _ _ _).trans (State.pageErr_keeps _ _ _)).trans (State.newRate_keeps _)

theorem State.holdover_keeps (s : State) : Keeps s (State.holdover s) := by
  unfold State.holdover
  split
  · exact Keeps.ite (State.enterHoldover_keeps _) (Keeps.refl _)
  · exact Keeps.refl _

theorem State.rotStep_keeps (s : State) : Keeps s (State.rotStep s) := by
  unfold State.rotStep
  extract_lets x1 x2
  clear_value x1 x2
  split
  · exact State.setTime_keeps _ _
  · exact State.setTime_keeps _ _

theorem State.swErr_keeps (s : State) (a1 : Nat) : Keeps s (State.swErr s a1) :=
    (State.setFld_keeps _ _ _ _ _).trans (State.setBit_keeps _ _ _)

theorem State.swArm_keeps (s : State) (m : Nat) : Keeps s (State.swArm s m) := by
  unfold State.swArm
  split
  extract_lets x5 x6 x7
  have hx5 : Keeps s x5 := (State.setFld_keeps _ _ _ _ _).trans (State.setFld_keeps _ _ _ _ _)
  clear_value x5
  have hx6 : Keeps s x6 := ((hx5.trans (State.setFld_keeps _ _ _ _ _)).trans (State.setFld_keeps _ _ _ _ _)).trans
      (State.setFld_keeps _ _ _ _ _)
  clear_value x6 x7
  exact Keeps.trans (t := x6) hx6 Keeps.same

theorem State.swCancel_keeps (s : State) (m : Nat) : Keeps s (State.swCancel s m) :=
    Keeps.ite ((State.setFld_keeps _ _ _ _ _).trans (State.setFld_keeps _ _ _ _ _)) (Keeps.refl _)

theorem State.swMark_keeps (s : State) : Keeps s (State.swMark s) :=
    Keeps.ite (State.setFld_keeps _ _ _ _ _) (Keeps.refl _)

theorem State.swCtrl_keeps (s : State) (m : Nat) (v : Word) : Keeps s (State.swCtrl s m v) := by
  unfold State.swCtrl
  extract_lets x1 x2
  have hx1 : Keeps s x1 := Keeps.ite (State.swArm_keeps _ _) (Keeps.refl _)
  clear_value x1
  have hx2 : Keeps s x2 := Keeps.ite (hx1.trans (State.swCancel_keeps _ _)) hx1
  clear_value x2
  exact Keeps.ite (hx2.trans (State.swMark_keeps _)) hx2

theorem State.swCommitStep_keeps (s : State) : Keeps s (State.swCommitStep s) := by
  unfold State.swCommitStep
  refine Keeps.ite ?_ ?_
  · exact Keeps.refl _
  · extract_lets x1 x2 x3
    clear_value x1
    have hx2 : Keeps s x2 := State.setFld_keeps _ _ _ _ _
    clear_value x2 x3
    split
    · exact Keeps.ite (Keeps.trans (t := x2) hx2 Keeps.same) (Keeps.refl _)
    · exact Keeps.refl _

theorem State.swEnd_keeps (s : State) : Keeps s (State.swEnd s) := by
  unfold State.swEnd
  refine Keeps.ite ?_ ?_
  · exact Keeps.refl _
  · extract_lets x1 x2 x3 x4 x5 x6
    have hx2 : Keeps s x2 := Keeps.forN _ _ (fun _ _ => State.setFld_keeps _ _ _ _ _) (Keeps.refl _)
    clear_value x2 x3
    have hx4 : Keeps s x4 := hx2.trans (State.setFld_keeps _ _ _ _ _)
    clear_value x4
    have hx5 : Keeps s x5 := (hx4.trans (State.setFld_keeps _ _ _ _ _)).trans (State.setFld_keeps _ _ _ _ _)
    clear_value x5
    have hx6 : Keeps s x6 := Keeps.ite hx2 (hx5.trans (State.setFld_keeps _ _ _ _ _))
    clear_value x6
    exact (hx6.trans (State.setFld_keeps _ _ _ _ _)).trans (State.pageIrq_keeps _ _ _)

end Sys2Proof.Machine
end

