-- ==== Sys2Proof/Laws/Keeps3.lean ====
section
/-! SUPPORT. What every operation of Machine/Sched, Machine/Kni, Machine/Skidway, Machine/Part, Machine/Engines keeps: one lemma for each operation. -/

namespace Sys2Proof.Machine
set_option Elab.async false

theorem State.loadEnd_keeps (s : State) (code where_ : Nat) (xcode : Code) :
    Keeps s (State.loadEnd s code where_ xcode) := by
  unfold State.loadEnd
  extract_lets x1 x2
  have hx1 : Keeps s x1 := ((State.setBit_keeps _ _ _).trans (State.setFld_keeps _ _ _ _ _)).trans
      (State.setFld_keeps _ _ _ _ _)
  clear_value x1
  have hx2 : Keeps s x2 := (hx1.trans (State.setFld_keeps _ _ _ _ _)).trans (State.pageIrq_keeps _ _ _)
  clear_value x2
  exact Keeps.ite hx2 (hx2.trans (State.pageErr_keeps _ _ _))

theorem State.loadEntry_keeps (s : State) (mni : Nat) : Keeps s (State.loadEntry s mni) := by
  unfold State.loadEntry
  split
  · exact Keeps.refl _
  · split
    · next k t h => exact Keeps.trans (t := t) (State.memOpen_keeps _ _ _ _ _ _ _ h) Keeps.same
    · exact Keeps.refl _

theorem State.loadOver_keeps (s : State) (mni : Nat) (xcode : Code) : Keeps s (State.loadOver s mni xcode) := by
  unfold State.loadOver
  extract_lets x1 x2 x3
  have hx1 : Keeps s x1 := by
    unfold x1
    split
    · exact State.memClose_keeps _ _ _ _ _
    · exact Keeps.refl _
  clear_value x1
  have hx2 : Keeps s x2 := hx1.trans (State.clrBit_keeps _ _ _)
  clear_value x2 x3
  exact Keeps.trans (t := x2) hx2 Keeps.same

theorem State.loadStart_keeps (s : State) (m : Nat) : Keeps s (State.loadStart s m) := by
  unfold State.loadStart
  refine Keeps.ite ?_ ?_
  · exact (Keeps.ite (State.setFld_keeps _ _ _ _ _) (Keeps.refl _)).trans (State.loadEnd_keeps _ _ _ _)
  · extract_lets x1 x2 x3 x4
    have hx1 : Keeps s x1 := (State.setFld_keeps _ _ _ _ _).trans (State.setFld_keeps _ _ _ _ _)
    clear_value x1 x2
    have hx3 : Keeps s x3 := hx1.trans (State.setBit_keeps _ _ _)
    clear_value x3 x4
    exact Keeps.trans (Keeps.trans (t := x3) hx3 Keeps.same) (State.loadEntry_keeps _ _)

theorem State.putSlot_keeps (s : State) (k b o w : Nat) (v : Word) : Keeps s (State.putSlot s k b o w v) :=
    (State.wr_keeps _ _ _).trans (State.wr_keeps _ _ _)

theorem State.putInj_keeps (s : State) (n b p : Nat) (v : Word) : Keeps s (State.putInj s n b p v) :=
    (State.wr_keeps _ _ _).trans (State.wr_keeps _ _ _)

theorem State.hlWords_keeps (s : State) (m seg d a k : Nat) (f : State → State) (hf : ∀ u, Keeps u (f u)) :
    Keeps s (s.hlWords m seg d a k f) := by
  unfold State.hlWords
  have hang (u : State) : Keeps u ((u.satFld HL_STAT 23 16 k).hlFirst HL_HANG 6 m false a) :=
    (State.satFld_keeps _ _ _ _ _).trans (State.hlFirst_keeps _ _ _ _ _ _)
  refine Keeps.ite (hang s) ((State.hlPark_keeps _ _ _).trans (Keeps.ite ?_ (Keeps.ite ?_ (hf _))))
  · exact Keeps.trans (Keeps.ite (State.setFld_keeps _ _ _ _ _) (Keeps.refl _)) (State.hlFenced_keeps _ _)
  · exact Keeps.trans Keeps.same (hang _)

theorem State.putVariant_keeps (s : State) (img : List (BitVec 8)) (var b : Nat) : Keeps s (State.putVariant s img
    var b) := by
  unfold State.putVariant
  refine Keeps.forN _ _ (fun _ _ => (State.setFld_keeps _ _ _ _ _).trans (State.seq_keeps _ _))
    (Keeps.forN _ _ (fun _ _ => (State.setFld_keeps _ _ _ _ _).trans (State.seq_keeps _ _))
    (Keeps.trans (Keeps.forN _ _ (fun n u => ?_) (Keeps.forN _ _ (fun k u => ?_) (Keeps.refl _)))
        (State.hlPark_keeps _ _ _)))
  · refine State.hlWords_keeps _ _ _ _ _ _ _ fun v => ?_
    exact Keeps.foldl _ _ (fun _ _ => State.putInj_keeps _ _ _ _ _)
      (Keeps.forN _ _ (fun _ _ => State.putInj_keeps _ _ _ _ _) (Keeps.refl _))
  · refine State.hlWords_keeps _ _ _ _ _ _ _ fun v => ?_
    exact Keeps.forN _ _ (fun _ _ => Keeps.forN _ _ (fun _ _ => State.putSlot_keeps _ _ _ _ _ _) (Keeps.refl _))
        (Keeps.refl _)

theorem State.freeWord_keeps (s : State) (a : Nat) (mask : Word) : Keeps s (State.freeWord s a mask) :=
    (State.wr_keeps _ _ _).trans (State.drawn_keeps _)

theorem State.freeBank_keeps (s : State) (b : Nat) : Keeps s (State.freeBank s b) := by
  unfold State.freeBank
  extract_lets x1 x2 x3 x4
  have hx1 : Keeps s x1 := Keeps.forN _ _ (fun _ _ => Keeps.forN _ _ (fun _ _ => Keeps.forN _ _ (fun _ _ =>
      (State.freeWord_keeps _ _ _).trans (State.freeWord_keeps _ _ _)) (Keeps.refl _)) (Keeps.refl _)) (Keeps.refl _)
  clear_value x1
  have hx2 : Keeps s x2 := Keeps.forN _ _ (fun _ _ => Keeps.forN _ _ (fun _ _ => (State.freeWord_keeps _ _ _).trans
      (State.freeWord_keeps _ _ _)) (Keeps.refl _)) hx1
  clear_value x2
  have hx3 : Keeps s x3 := hx2.trans (State.clrBit_keeps _ _ _)
  clear_value x3
  have hx4 : Keeps s x4 := Keeps.forN _ _ (fun _ _ => (State.setFld_keeps _ _ _ _ _).trans (State.drawn_keeps _)) hx3
  clear_value x4
  exact Keeps.forN _ _ (fun _ _ => (State.setFld_keeps _ _ _ _ _).trans (State.drawn_keeps _)) hx4

theorem State.putCommon_keeps (s : State) (img : List (BitVec 8)) : Keeps s (State.putCommon s img) := by
  unfold State.putCommon
  extract_lets x1
  have h1 : Keeps s x1 := Keeps.foldl _ _ (fun _ _ => Keeps.setFlows _ _ fun h => Tbl.wf_set _ _ _ _ h.flows)
      (Keeps.refl _)
  clear_value x1
  refine Keeps.forN _ _ (fun n u => ?_) h1
  refine State.hlWords_keeps _ _ _ _ _ _ _ fun v => ?_
  exact State.setFld_keeps _ _ _ _ _

theorem State.loadWrites_keeps (s : State) (img : List (BitVec 8)) (full : Bool) (var len got : Nat) (xcode : Code) :
    Keeps s (State.loadWrites s img full var len got xcode) := by
  unfold State.loadWrites
  extract_lets x1 x2 x3 x4 x5 x6 x7 x8 x9 x10
  clear_value x1
  have hx2 : Keeps s x2 := State.setFld_keeps _ _ _ _ _
  clear_value x2
  have hx3 : Keeps s x3 := Keeps.ite (hx2.trans (State.putCommon_keeps _ _)) hx2
  clear_value x3 x4
  have hx5 : Keeps s x5 := hx3.trans (State.putVariant_keeps _ _ _ _)
  clear_value x5
  have hx6 : Keeps s x6 := hx5.trans (State.setFld_keeps _ _ _ _ _)
  clear_value x6
  have hx7 : Keeps s x7 := ((hx6.trans (State.setFld_keeps _ _ _ _ _)).trans (State.setBit_keeps _ _ _)).trans
      (State.setFld_keeps _ _ _ _ _)
  clear_value x7 x8 x9
  have hx10 : Keeps s x10 := Keeps.trans (t := x7) hx7 Keeps.same
  clear_value x10
  exact Keeps.ite (((hx3.trans (State.freeBank_keeps _ _)).trans (State.setFld_keeps _ _ _ _ _)).trans
      (State.loadEnd_keeps _ _ _ _)) ((hx10.trans (State.setFld_keeps _ _ _ _ _)).trans (State.loadEnd_keeps _ _ _ _))

theorem State.loadDone_keeps (s : State) (image : List (BitVec 8)) (xcode : Code) :
    Keeps s (State.loadDone s image xcode) := by
  unfold State.loadDone
  refine Keeps.ite ?_ ?_
  · exact Keeps.refl _
  · split
    · exact Keeps.refl _
    · extract_lets x9
      have hx9 : Keeps s x9 := State.loadEntry_keeps _ _
      clear_value x9
      refine Keeps.ite ?_ ?_
      · exact hx9
      · split
        rename_i z14
        split
        extract_lets x19 x20 x21
        clear_value x19 x20
        have hx21 : Keeps s x21 := (Keeps.fst (hx9.trans (State.memCheck_keeps _ _ _ _ _)) z14).trans
            (State.loadOver_keeps _ _ _)
        clear_value x21
        refine Keeps.ite ?_ ?_
        · exact (Keeps.ite (hx21.trans (State.setFld_keeps _ _ _ _ _)) hx21).trans (State.loadEnd_keeps _ _ _ _)
        · refine Keeps.ite ?_ ?_
          · exact (hx21.trans (State.setFld_keeps _ _ _ _ _)).trans (State.loadEnd_keeps _ _ _ _)
          · split
            · exact Keeps.ite ((hx21.trans (State.setFld_keeps _ _ _ _ _)).trans (State.loadEnd_keeps _ _ _ _))
                  ((hx21.trans (State.setFld_keeps _ _ _ _ _)).trans (State.loadEnd_keeps _ _ _ _))
            · exact hx21.trans (State.loadWrites_keeps _ _ _ _ _ _ _)

theorem State.bankWrite_keeps (s : State) (b : Nat) : ∀ t, State.bankWrite s b = some t → Keeps s t := by
  intro t ht
  unfold State.bankWrite at ht
  split at ht
  · cases ht
  · cases ht
    exact (State.setFld_keeps _ _ _ _ _).trans (State.clrBit_keeps _ _ _)

theorem State.tableWrite_keeps (s : State) (a : Nat) (v : Word) : Keeps s (State.tableWrite s a v) := by
  unfold State.tableWrite
  extract_lets x1 x2 x3
  clear_value x2 x3
  refine Keeps.ite ?_ ?_
  · exact Keeps.refl _
  · split
    · exact State.pageErr_keeps _ _ _
    · rename_i z8
      exact Keeps.ite (((State.bankWrite_keeps _ _ _ z8).trans (State.wr_keeps _ _ _)).trans (State.wr_keeps _ _ _))
          (((State.bankWrite_keeps _ _ _ z8).trans (State.wr_keeps _ _ _)).trans (State.wr_keeps _ _ _))

theorem State.offWrite_keeps (s : State) (a : Nat) (v : Word) : Keeps s (State.offWrite s a v) := by
  unfold State.offWrite
  extract_lets x1 x2 x3
  clear_value x1 x2
  have hx3 : Keeps s x3 := Keeps.ite (State.pageErr_keeps _ _ _) (Keeps.refl _)
  clear_value x3
  split
  · exact hx3.trans (State.pageErr_keeps _ _ _)
  · rename_i z8
    exact (hx3.trans (State.bankWrite_keeps _ _ _ z8)).trans (State.setFld_keeps _ _ _ _ _)

theorem State.oweCredits_keeps (s : State) (p i n : Nat) : Keeps s (State.oweCredits s p i n) :=
    Keeps.ite (State.modSkw_keeps _ _ _) (Keeps.refl _)

theorem State.unnamed_keeps (s : State) (p : Nat) (h : BitVec 128) : Keeps s (State.unnamed s p h) :=
    (State.pageErr_keeps _ _ _).trans (State.journal_keeps _ _)

theorem State.kniFull_keeps (s : State) (p : Nat) (h sc : BitVec 128) : Keeps s (State.kniFull s p h sc) := by
  unfold State.kniFull
  extract_lets x1 x2
  clear_value x1
  have hx2 : Keeps s x2 := (State.niErr_keeps _ _ _).trans (State.journal_keeps _ _)
  clear_value x2
  exact Keeps.ite ((hx2.trans (State.pageErr_keeps _ _ _)).trans (State.violation_keeps _ _ _ _)) hx2

theorem State.kniMarks_keeps (s : State) (n ce : Nat) (ue psn : Bool) : Keeps s (State.kniMarks s n ce ue psn) := by
  unfold State.kniMarks
  extract_lets x1 x2 x3
  have hx1 : Keeps s x1 := State.countN_keeps _ _ _ _ _
  clear_value x1
  have hx2 : Keeps s x2 := Keeps.ite (hx1.trans (State.countN_keeps _ _ _ _ _)) hx1
  clear_value x2
  have hx3 : Keeps s x3 := Keeps.ite (hx2.trans (State.niErr_keeps _ _ _)) hx2
  clear_value x3
  exact Keeps.ite (hx3.trans (State.niErr_keeps _ _ _)) hx3

theorem State.schedFlit_keeps (s : State) (p : Nat) (f : Flit) (pa : Nat) : Keeps s (State.schedFlit s p f pa) := by
  unfold State.schedFlit
  extract_lets x1 x2 x3 x4 x5
  clear_value x1 x2 x4
  have hx5 : Keeps s x5 := State.setSkw_keeps _ _ _
  clear_value x5
  exact Keeps.ite (Keeps.refl _) (Keeps.ite (hx5.trans (State.kniFull_keeps _ _ _ _)) hx5)

theorem State.kniKeep_keeps (s : State) (p : Nat) (h : BitVec 128) (f : Flit) (ctl : Bool) (ce ue : List Nat) :
    Keeps s (State.kniKeep s p h f ctl ce ue).1 := by
  rw [State.kniKeep.eq_def]
  extract_lets x1 x2
  clear_value x1
  have hx2 : Keeps s x2 := State.kniMarks_keeps _ _ _ _ _
  clear_value x2
  split
  · dsimp only
    exact hx2.trans (State.poisonJ_keeps _ _ _ _)
  · dsimp only
    exact hx2

theorem State.slotNew_keeps (s : State) (p : Nat) (f : Flit) (ce ue : List Nat) (pool pa : Nat) :
    Keeps s (State.slotNew s p f ce ue pool pa) := by
  unfold State.slotNew
  extract_lets x1 x2 x3 x4 x5 x6 x7
  clear_value x1 x2 x3 x4
  have hx6 : Keeps s x6 := (State.kniMarks_keeps _ _ _ _ _).trans (State.oweCredits_keeps _ _ _ _)
  clear_value x6
  have hx7 : Keeps s x7 := ((State.kniMarks_keeps _ _ _ _ _).trans (State.oweCredits_keeps _ _ _ _)).trans
      (State.discardPkt_keeps _ _ _ _)
  clear_value x7
  refine Keeps.ite ?_ ?_
  · refine Keeps.ite ?_ ?_
    · unfold x5
      exact hx6.trans (State.modSkw_keeps _ _ _)
    · unfold x5
      exact (((hx6.trans (State.niErr_keeps _ _ _)).trans (State.journal_keeps _ _)).trans (State.partFault_keeps _
          _)).trans (State.modSkw_keeps _ _ _)
  · refine Keeps.ite ?_ ?_
    · refine Keeps.ite ?_ ?_
      · split
        rename_i z11
        exact (Keeps.fst (State.kniKeep_keeps _ _ _ _ _ _ _) z11).trans (State.schedFlit_keeps _ _ _ _)
      · unfold x5
        exact ((State.kniMarks_keeps _ _ _ _ _).trans (State.oweCredits_keeps _ _ _ _)).trans (State.modSkw_keeps _ _ _)
    · refine Keeps.ite ?_ ?_
      · refine Keeps.ite ?_ ?_
        · exact hx7
        · unfold x5
          exact hx7.trans (State.modSkw_keeps _ _ _)
      · split
        rename_i z15
        refine Keeps.ite ?_ ?_
        · refine Keeps.trans ?_ (State.schedFlit_keeps _ _ _ _)
          refine Keeps.fst ?_ z15
          refine Keeps.trans ?_ (State.kniKeep_keeps _ _ _ _ _ _ _)
          refine Keeps.ite ?_ ?_
          · exact Keeps.refl _
          · unfold x5
            exact State.modSkw_keeps _ _ _
        · extract_lets x16 x17
          clear_value x16 x17
          refine Keeps.ite ?_ ?_
          · refine Keeps.trans ?_ (State.modSkw_keeps _ _ _)
            refine Keeps.fst ?_ z15
            refine Keeps.trans ?_ (State.kniKeep_keeps _ _ _ _ _ _ _)
            refine Keeps.ite ?_ ?_
            · exact Keeps.refl _
            · unfold x5
              exact State.modSkw_keeps _ _ _
          · refine Keeps.trans ?_ (State.modSkw_keeps _ _ _)
            refine Keeps.fst ?_ z15
            refine Keeps.trans ?_ (State.kniKeep_keeps _ _ _ _ _ _ _)
            refine Keeps.ite ?_ ?_
            · exact Keeps.refl _
            · unfold x5
              exact State.modSkw_keeps _ _ _

theorem State.slotFixed_keeps (s : State) (p : Nat) (f : Flit) (ce ue : List Nat) (owes : Bool) (pa : Nat) :
    Keeps s (State.slotFixed s p f ce ue owes pa) := by
  unfold State.slotFixed
  extract_lets x1 x2 x3 x4 x5
  clear_value x1 x2 x3 x4 x5
  split
  · exact State.slotNew_keeps _ _ _ _ _ _ _
  · refine Keeps.ite ?_ ?_
    · extract_lets x11
      have hx11 : Keeps s x11 := (State.oweCredits_keeps _ _ _ _).trans (State.discardPkt_keeps _ _ _ _)
      clear_value x11
      exact (hx11.trans (State.modSkw_keeps _ _ _)).trans (State.slotNew_keeps _ _ _ _ _ _ _)
    · split
      rename_i z15
      extract_lets x16
      clear_value x16
      exact Keeps.ite ((Keeps.fst (State.kniKeep_keeps _ _ _ _ _ _ _) z15).trans (State.modSkw_keeps _ _ _))
          ((Keeps.fst (State.kniKeep_keeps _ _ _ _ _ _ _) z15).trans (State.modSkw_keeps _ _ _))

theorem State.slotFlit_keeps (s : State) (p : Nat) (f : Flit) (owes : Bool) (pa : Nat) :
    Keeps s (State.slotFlit s p f owes pa) := by
  unfold State.slotFlit
  extract_lets x1
  clear_value x1
  exact State.slotFixed_keeps _ _ _ _ _ _ _

theorem State.releaseSlots_keeps (s : State) (p : Nat) : Keeps s (State.releaseSlots s p) := by
  unfold State.releaseSlots
  extract_lets x1
  clear_value x1
  exact Keeps.foldl _ _ (fun _ _ => State.slotFlit_keeps _ _ _ _ _) (State.modSkw_keeps _ _ _)

theorem State.kniLook_keeps (s : State) (p : Nat) (d : NodeId) (h : BitVec 128) (opc : BitVec 8) (isReq : Bool) :
    Keeps s (State.kniLook s p d h opc isReq).1 := by
  rw [State.kniLook.eq_def]
  extract_lets x1 x2 x3 x4
  clear_value x1 x2
  have hx3 : Keeps s x3 := State.lookCount_keeps _ _ _
  clear_value x3 x4
  split
  · dsimp only
    exact (hx3.trans (State.rtFail_keeps _ _ _ _)).trans (State.countN_keeps _ _ _ _ _)
  · dsimp only
    exact hx3

theorem State.kniEnd_keeps (s : State) (p : Nat) (h sc : BitVec 128) (code : Code) :
    Keeps s (State.kniEnd s p h sc code) := by
  unfold State.kniEnd
  extract_lets x1 x2
  clear_value x1
  refine Keeps.ite ?_ ?_
  · unfold x2
    exact State.journal_keeps _ _
  · split
    rename_i z7
    refine Keeps.ite ?_ ?_
    · unfold x2
      exact (Keeps.fst (State.kniLook_keeps _ _ _ _ _ _) z7).trans (State.journal_keeps _ _)
    · exact State.endReply_keeps _ _ _ _ _

theorem State.kniQueue_keeps (s : State) (p : Nat) (r : SkRx) (route : BitVec 36) :
    Keeps s (State.kniQueue s p r route) := by
  unfold State.kniQueue
  extract_lets x1 x2
  clear_value x1 x2
  exact Keeps.ite (Keeps.refl _) (State.modNi_keeps _ _ _)

theorem State.kniRoute_keeps (s : State) (p : Nat) (r : SkRx) : Keeps s (State.kniRoute s p r) := by
  unfold State.kniRoute
  extract_lets x1 x2 x3
  clear_value x1 x2 x3
  refine Keeps.ite ?_ ?_
  · exact (State.kniEnd_keeps _ _ _ _ _).trans (State.oweCredits_keeps _ _ _ _)
  · split
    rename_i z8
    exact Keeps.ite (((Keeps.fst (State.kniLook_keeps _ _ _ _ _ _) z8).trans (State.kniEnd_keeps _ _ _ _ _)).trans
        (State.oweCredits_keeps _ _ _ _)) (((Keeps.fst (State.kniLook_keeps _ _ _ _ _ _) z8).trans (State.sprayed_keeps
        _ _ _ _)).trans (State.kniQueue_keeps _ _ _ _))

theorem State.kniEnter_keeps (s : State) (p vn : Nat) : Keeps s (State.kniEnter s p vn) := by
  unfold State.kniEnter
  refine Keeps.ite ?_ ?_
  · exact Keeps.refl _
  · extract_lets x1 x2 x3
    clear_value x1 x2 x3
    split
    · extract_lets x9 x10 x11
      clear_value x9 x10
      have hx11 : Keeps s x11 := State.setSkw_keeps _ _ _
      clear_value x11
      refine Keeps.ite ?_ ?_
      · exact Keeps.ite hx11 (hx11.trans (State.kniEnd_keeps _ _ _ _ _))
      · split
        · exact hx11.trans (State.kniQueue_keeps _ _ _ _)
        · exact Keeps.ite hx11 ((hx11.trans (State.unnamed_keeps _ _ _)).trans (State.kniRoute_keeps _ _ _))
    · split
      · exact Keeps.refl _
      · exact (State.setSkw_keeps _ _ _).trans (State.kniRoute_keeps _ _ _)

theorem State.kniSchedSend_keeps (s : State) (p : Nat) (c : BitVec 256) (y : SkSched) :
    Keeps s (State.kniSchedSend s p c y) := by
  unfold State.kniSchedSend
  extract_lets x1 x2
  clear_value x1
  have hx2 : Keeps s x2 := State.modSkw_keeps _ _ _
  clear_value x2
  exact Keeps.ite hx2 (hx2.trans (State.niSend_keeps _ _ _ _))

theorem State.kniSchedInject_keeps (s : State) (p : Nat) : Keeps s (State.kniSchedInject s p) := by
  unfold State.kniSchedInject
  extract_lets x1 x2 x3
  clear_value x1
  have hx2 : Keeps s x2 := State.injMarks_keeps _ _
  clear_value x2 x3
  refine Keeps.ite ?_ ?_
  · exact Keeps.refl _
  · split
    · split
      · exact Keeps.ite hx2 ((hx2.trans (State.kniSchedSend_keeps _ _ _ _)).trans (State.modSkw_keeps _ _ _))
      · exact hx2
    · split
      · exact hx2
      · extract_lets x25
        clear_value x25
        split
        · exact (hx2.trans (State.kniSchedSend_keeps _ _ _ _)).trans (State.modSkw_keeps _ _ _)
        · exact hx2

theorem State.kniLate_keeps (s : State) (p : Nat) (h : BitVec 128) (i : Nat) : Keeps s (State.kniLate s p h i) := by
  unfold State.kniLate
  extract_lets x1 x2 x3
  clear_value x1 x2
  have hx3 : Keeps s x3 := ((State.setSkw_keeps _ _ _).trans (State.pageErr_keeps _ _ _)).trans
      (State.violation_keeps _ _ _ _)
  clear_value x3
  exact hx3.trans (State.kniQueue_keeps _ _ _ _)

theorem State.kniSchedLate_keeps (s : State) (p : Nat) : Keeps s (State.kniSchedLate s p) := by
  unfold State.kniSchedLate
  refine Keeps.ite ?_ ?_
  · exact Keeps.refl _
  · extract_lets x1
    clear_value x1
    split
    · exact Keeps.ite ((State.modSkw_keeps _ _ _).trans (State.kniLate_keeps _ _ _ _)) (Keeps.refl _)
    · split
      · exact State.kniLate_keeps _ _ _ _
      · exact Keeps.refl _

theorem State.setSkwState_keeps (s : State) (p st : Nat) : Keeps s (State.setSkwState s p st) :=
    (State.setFld_keeps _ _ _ _ _).trans (State.modSkw_keeps _ _ _)

theorem State.laneDrop_keeps (s : State) (p : Nat) : Keeps s (State.laneDrop s p) := by
  unfold State.laneDrop
  extract_lets x1 x2 x3
  clear_value x1 x2
  have hx3 : Keeps s x3 := State.setSkw_keeps _ _ _
  clear_value x3
  exact Keeps.ite ((hx3.trans (State.pageErr_keeps _ _ _)).trans (State.satFld_keeps _ _ _ _ _)) hx3

theorem State.laneAbort_keeps (s : State) (p : Nat) : Keeps s (State.laneAbort s p) :=
    (State.laneDrop_keeps _ _).trans (State.modSkw_keeps _ _ _)

theorem State.skwDrop_keeps (s : State) (p : Nat) (h sc : BitVec 128) : Keeps s (State.skwDrop s p h sc) :=
    State.skwRefuse_keeps _ _ _ _

theorem State.flushGran_keeps (s : State) (p : Nat) : Keeps s (State.flushGran s p) := by
  unfold State.flushGran
  extract_lets x1 x2 x3
  clear_value x1 x2
  have hx3 : Keeps s x3 := State.setNi_keeps _ _ _
  clear_value x3
  exact Keeps.foldl _ _ (fun _ _ => State.skwDrop_keeps _ _ _ _) hx3

theorem State.flushFlits_keeps (s : State) (p : Nat) (l : List Flit) : Keeps s (State.flushFlits s p l) :=
    Keeps.foldl _ _ (fun _ _ => State.skwDrop_keeps _ _ _ _) (Keeps.refl _)

theorem State.unpool_keeps (s : State) (p : Nat) : Keeps s (State.unpool s p) := by
  unfold State.unpool
  extract_lets x1
  clear_value x1
  exact State.modNi_keeps _ _ _

theorem State.skwDisable_keeps (s : State) (p : Nat) : Keeps s (State.skwDisable s p) := by
  unfold State.skwDisable
  refine Keeps.ite ?_ ?_
  · exact Keeps.refl _
  · extract_lets x1 x2 x3
    have hx1 : Keeps s x1 := (State.laneAbort_keeps _ _).trans (State.setFld_keeps _ _ _ _ _)
    clear_value x1 x2
    have hx3 : Keeps s x3 := ((hx1.trans (State.setSkwState_keeps _ _ _)).trans (State.modSkw_keeps _ _ _)).trans
        (State.unpool_keeps _ _)
    clear_value x3
    exact (hx3.trans (State.flushGran_keeps _ _)).trans (State.flushFlits_keeps _ _ _)

theorem State.skwFault_keeps (s : State) (p code : Nat) : Keeps s (State.skwFault s p code) := by
  unfold State.skwFault
  extract_lets x1 x2 x3 x4 x5 x6
  have hx1 : Keeps s x1 := State.laneAbort_keeps _ _
  clear_value x1 x2
  have hx3 : Keeps s x3 := (((hx1.trans (State.setSkwState_keeps _ _ _)).trans (State.setFld_keeps _ _ _ _ _)).trans
      (State.pageErr_keeps _ _ _)).trans (State.journal_keeps _ _)
  clear_value x3
  have hx4 : Keeps s x4 := hx3.trans (State.violation_keeps _ _ _ _)
  clear_value x4
  have hx5 : Keeps s x5 := (hx4.trans (State.modSkw_keeps _ _ _)).trans (State.unpool_keeps _ _)
  clear_value x5 x6
  exact (hx5.trans (State.flushGran_keeps _ _)).trans (State.flushFlits_keeps _ _ _)

theorem State.skwTrain_keeps (s : State) (p : Nat) : Keeps s (State.skwTrain s p) := by
  unfold State.skwTrain
  extract_lets x1
  clear_value x1
  exact (((State.setSkwState_keeps _ _ _).trans (State.setFld_keeps _ _ _ _ _)).trans (State.setFld_keeps _ _ _ _
      _)).trans (State.setFld_keeps _ _ _ _ _)

theorem State.skwStart_keeps (s : State) (p : Nat) : Keeps s (State.skwStart s p) := by
  unfold State.skwStart
  refine Keeps.ite ?_ ?_
  · exact Keeps.refl _
  · extract_lets x1
    have hx1 : Keeps s x1 := (State.modSkw_keeps _ _ _).trans (State.unpool_keeps _ _)
    clear_value x1
    exact ((hx1.trans (State.setFld_keeps _ _ _ _ _)).trans (State.setFld_keeps _ _ _ _ _)).trans
        (State.skwTrain_keeps _ _)

theorem State.skwRetrain_keeps (s : State) (p : Nat) : Keeps s (State.skwRetrain s p) := by
  unfold State.skwRetrain
  refine Keeps.ite ?_ ?_
  · exact Keeps.refl _
  · extract_lets x1 x2
    have hx1 : Keeps s x1 := ((State.laneAbort_keeps _ _).trans (State.satFld_keeps _ _ _ _ _)).trans
        (State.pageErr_keeps _ _ _)
    clear_value x1
    have hx2 : Keeps s x2 := hx1.trans (State.modSkw_keeps _ _ _)
    clear_value x2
    exact Keeps.ite (hx2.trans (State.skwFault_keeps _ _ _)) (hx2.trans (State.skwTrain_keeps _ _))

theorem State.skwSay_keeps (s : State) (p ty : Nat) (d : BitVec 64) : Keeps s (State.skwSay s p ty d) :=
    State.modSkw_keeps _ _ _

theorem State.saySync_keeps (s : State) (p : Nat) : Keeps s (State.saySync s p) :=
    State.modSkw_keeps _ _ _

theorem State.skwActive_keeps (s : State) (p : Nat) : Keeps s (State.skwActive s p) :=
    ((State.setSkwState_keeps _ _ _).trans (State.modSkw_keeps _ _ _)).trans (State.saySync_keeps _ _)

theorem State.paramDone_keeps (s : State) (p : Nat) : Keeps s (State.paramDone s p) := by
  unfold State.paramDone
  extract_lets x1 x2
  clear_value x1 x2
  exact Keeps.ite (Keeps.refl _) (Keeps.ite (State.skwActive_keeps _ _) ((State.setSkwState_keeps _ _ _).trans
      (State.setSkw_keeps _ _ _)))

theorem State.readyDone_keeps (s : State) (p : Nat) : Keeps s (State.readyDone s p) := by
  unfold State.readyDone
  extract_lets x1
  clear_value x1
  exact Keeps.ite (State.skwActive_keeps _ _) (Keeps.refl _)

theorem State.gotParam_keeps (s : State) (p : Nat) (d : BitVec 64) : Keeps s (State.gotParam s p d) := by
  unfold State.gotParam
  extract_lets x1 x2 x3 x4 x5
  clear_value x1 x2 x3 x4
  have hx5 : Keeps s x5 := (((State.setFld_keeps _ _ _ _ _).trans (State.setFld_keeps _ _ _ _ _)).trans
      (State.setBit_keeps _ _ _)).trans (State.setFld_keeps _ _ _ _ _)
  clear_value x5
  exact Keeps.ite (Keeps.refl _) (Keeps.ite (State.skwFault_keeps _ _ _) (Keeps.ite (State.skwFault_keeps _ _ _)
      (Keeps.ite (State.skwFault_keeps _ _ _) (Keeps.ite (State.skwFault_keeps _ _ _) ((hx5.trans (State.modSkw_keeps _
      _ _)).trans (State.paramDone_keeps _ _))))))

theorem State.gotReady_keeps (s : State) (p : Nat) : Keeps s (State.gotReady s p) :=
    Keeps.ite (Keeps.refl _) ((State.modSkw_keeps _ _ _).trans (State.readyDone_keeps _ _))

theorem State.skwViolation_keeps (s : State) (p : Nat) : Keeps s (State.skwViolation s p) :=
    State.violation_keeps _ _ _ _

theorem State.setOr_keeps (s : State) (a hi lo : Nat) (ok : Bool) (v : Int) : Keeps s (State.setOr s a hi lo ok v) :=
    Keeps.ite (State.setSfld_keeps _ _ _ _ _) ((State.setFld_keeps _ _ _ _ _).trans (State.drawn_keeps _))

theorem State.oneWay_keeps (s : State) (p : Nat) : Keeps s (State.oneWay s p) := by
  unfold State.oneWay
  extract_lets x1 x2 x3 x4 x5 x6 x7 x8 x9 x10 x11 x12
  clear_value x1 x2 x3
  have hx4 : Keeps s x4 := State.setOr_keeps _ _ _ _ _ _
  clear_value x4
  have hx5 : Keeps s x5 := Keeps.ite (hx4.trans (State.setOr_keeps _ _ _ _ _ _)) hx4
  clear_value x5
  have hx6 : Keeps s x6 := Keeps.ite (hx5.trans (State.setOr_keeps _ _ _ _ _ _)) hx5
  clear_value x6 x7
  have hx9 : Keeps s x9 := Keeps.ite (hx6.trans (State.pageErr_keeps _ _ _)) hx6
  clear_value x9
  have hx10 : Keeps s x10 := Keeps.ite (hx9.trans (State.pageErr_keeps _ _ _)) hx9
  clear_value x10
  have hx11 : Keeps s x11 := Keeps.ite (hx10.trans (State.skwViolation_keeps _ _)) hx10
  clear_value x11
  have hx12 : Keeps s x12 := Keeps.ite (hx11.trans (State.skwViolation_keeps _ _)) hx11
  clear_value x12
  exact hx12.trans (State.modSkw_keeps _ _ _)

theorem State.gotTsync_keeps (s : State) (p : Nat) (d : BitVec 64) : Keeps s (State.gotTsync s p d) := by
  unfold State.gotTsync
  extract_lets x1 x2 x3 x4 x5 x6 x7 x8 x9 x10 x11 x12
  clear_value x1 x2 x3 x4 x5 x6 x7 x8
  have hx9 : Keeps s x9 := Keeps.ite (State.pageErr_keeps _ _ _) (Keeps.refl _)
  clear_value x9
  have hx10 : Keeps s x10 := Keeps.ite (hx9.trans (State.skwViolation_keeps _ _)) hx9
  clear_value x10 x11
  have hx12 : Keeps s x12 := hx10.trans (State.setOr_keeps _ _ _ _ _ _)
  clear_value x12
  exact Keeps.ite (Keeps.refl _) ((hx12.trans (State.modSkw_keeps _ _ _)).trans (State.oneWay_keeps _ _))

theorem State.gotProp_keeps (s : State) (p : Nat) (d : BitVec 64) : Keeps s (State.gotProp s p d) :=
    Keeps.ite (Keeps.refl _) (State.skwSay_keeps _ _ _ _)

theorem State.gotAck_keeps (s : State) (p : Nat) (d : BitVec 64) : Keeps s (State.gotAck s p d) := by
  unfold State.gotAck
  extract_lets x1
  clear_value x1
  split
  · exact Keeps.ite (Keeps.refl _) (Keeps.ite ((State.modSkw_keeps _ _ _).trans (State.skwSay_keeps _ _ _ _))
        (State.laneDrop_keeps _ _))
  · exact Keeps.refl _

theorem State.gotGo_keeps (s : State) (p : Nat) (d : BitVec 64) : Keeps s (State.gotGo s p d) := by
  unfold State.gotGo
  extract_lets x1 x2
  clear_value x1 x2
  exact Keeps.ite (Keeps.refl _) (State.setSkw_keeps _ _ _)

theorem State.ackDeadline_keeps (s : State) (p : Nat) : Keeps s (State.ackDeadline s p) := by
  unfold State.ackDeadline
  extract_lets x1
  clear_value x1
  split
  · exact Keeps.ite (State.laneDrop_keeps _ _) (Keeps.refl _)
  · exact Keeps.refl _

theorem State.laneStep_keeps (s : State) (p : Nat) : Keeps s (State.laneStep s p) := by
  unfold State.laneStep
  extract_lets x1 x2
  clear_value x1 x2
  refine Keeps.ite ?_ ?_
  · exact Keeps.refl _
  · split
    exact State.skwSay_keeps _ _ _ _

theorem State.skwClose_keeps (s : State) (p : Nat) : Keeps s (State.skwClose s p) := by
  unfold State.skwClose
  extract_lets x1 x2 x3
  clear_value x1
  have hx2 : Keeps s x2 := State.laneAbort_keeps _ _
  clear_value x2
  have hx3 : Keeps s x3 := (hx2.trans (State.modSkw_keeps _ _ _)).trans (State.skwViolation_keeps _ _)
  clear_value x3
  exact Keeps.ite (Keeps.refl _) (hx3.trans (State.flushGran_keeps _ _))

theorem State.closeDone_keeps (s : State) (p : Nat) : Keeps s (State.closeDone s p) := by
  unfold State.closeDone
  extract_lets x1
  clear_value x1
  exact Keeps.ite (State.skwDisable_keeps _ _) (Keeps.refl _)

theorem State.gotClose_keeps (s : State) (p : Nat) : Keeps s (State.gotClose s p) :=
    Keeps.ite (Keeps.refl _) (((State.skwClose_keeps _ _).trans (State.modSkw_keeps _ _ _)).trans
        (State.closeDone_keeps _ _))

theorem State.gotCtl_keeps (s : State) (p ty : Nat) (d : BitVec 64) : Keeps s (State.gotCtl s p ty d) := by
  unfold State.gotCtl
  split
  · exact State.gotParam_keeps _ _ _
  · exact State.gotReady_keeps _ _
  · exact State.gotTsync_keeps _ _ _
  · exact State.gotProp_keeps _ _ _
  · exact State.gotAck_keeps _ _ _
  · exact State.gotGo_keeps _ _ _
  · exact State.gotClose_keeps _ _
  · exact Keeps.refl _

theorem State.ctlSent_keeps (s : State) (p ty : Nat) (d : BitVec 64) : Keeps s (State.ctlSent s p ty d) := by
  unfold State.ctlSent
  extract_lets x1
  have hx1 : Keeps s x1 := State.modSkw_keeps _ _ _
  clear_value x1
  split
  · exact (hx1.trans (State.modSkw_keeps _ _ _)).trans (State.paramDone_keeps _ _)
  · exact (hx1.trans (State.modSkw_keeps _ _ _)).trans (State.readyDone_keeps _ _)
  · exact hx1.trans (State.modSkw_keeps _ _ _)
  · exact hx1.trans (State.modSkw_keeps _ _ _)
  · exact hx1

theorem State.newFrame_keeps (s : State) (p : Nat) : Keeps s (State.newFrame s p).1 := by
  rw [State.newFrame.eq_def]
  extract_lets x1 x2 x3 x4 x5 x6 x7 x8 x9 x10
  clear_value x1 x2 x3 x4 x5 x6 x7 x8
  have hx9 : Keeps s x9 := (State.modNi_keeps _ _ _).trans (State.setSkw_keeps _ _ _)
  clear_value x9 x10
  split
  extract_lets x15 x16 x17
  clear_value x15
  have hx16 : Keeps s x16 := Keeps.ite hx9 (hx9.trans (State.ctlSent_keeps _ _ _ _))
  clear_value x16
  have hx17 : Keeps s x17 := Keeps.ite (hx16.trans (State.skwSay_keeps _ _ _ _)) hx16
  clear_value x17
  dsimp only
  exact hx17

theorem State.frameOut_keeps (s : State) (p : Nat) (f : Frame) : Keeps s (State.frameOut s p f) := by
  unfold State.frameOut
  extract_lets x1 x2 x3
  have hx1 : Keeps s x1 := State.modSkw_keeps _ _ _
  clear_value x1 x2
  have hx3 : Keeps s x3 := by
    unfold x3
    split
    · exact Keeps.ite (((hx1.trans (State.setFld_keeps _ _ _ _ _)).trans (State.wrapFld_keeps _ _ _ _ _)).trans
          (State.modSkw_keeps _ _ _)) hx1
    · exact hx1
  clear_value x3
  exact hx3.trans (State.modSkw_keeps _ _ _)

theorem State.frameSend_keeps (s : State) (p : Nat) : Keeps s (State.frameSend s p) := by
  unfold State.frameSend
  extract_lets x1 x2 x3 x4 x5
  clear_value x1 x2 x3
  have hx4 : Keeps s x4 := State.setSkw_keeps _ _ _
  clear_value x4 x5
  refine Keeps.ite ?_ ?_
  · exact Keeps.refl _
  · split
    · split
      · extract_lets x17 x18
        clear_value x17
        have hx18 : Keeps s x18 := hx4.trans (State.modSkw_keeps _ _ _)
        clear_value x18
        exact (hx18.trans (State.countN_keeps _ _ _ _ _)).trans (State.frameOut_keeps _ _ _)
      · refine Keeps.ite ?_ ?_
        · split
          rename_i z22
          extract_lets x23
          have hx23 : Keeps s x23 := (Keeps.fst (hx4.trans (State.newFrame_keeps _ _)) z22).trans
              (State.modSkw_keeps _ _ _)
          clear_value x23
          exact hx23.trans (State.frameOut_keeps _ _ _)
        · exact hx4.trans (State.frameOut_keeps _ _ _)
    · refine Keeps.ite ?_ ?_
      · exact hx4.trans (State.frameOut_keeps _ _ _)
      · split
        rename_i z27
        refine Keeps.ite ?_ ?_
        · extract_lets x28 x29
          have hx28 : Keeps s x28 := (Keeps.fst (hx4.trans (State.newFrame_keeps _ _)) z27).trans
              (State.modSkw_keeps _ _ _)
          clear_value x28
          have hx29 : Keeps s x29 := hx28.trans (State.frameOut_keeps _ _ _)
          clear_value x29
          exact Keeps.ite (hx29.trans (State.closeDone_keeps _ _)) hx29
        · exact (Keeps.fst (hx4.trans (State.newFrame_keeps _ _)) z27).trans (State.frameOut_keeps _ _ _)

theorem State.skwReplay_keeps (s : State) (p : Nat) : Keeps s (State.skwReplay s p) := by
  unfold State.skwReplay
  extract_lets x1 x2 x3 x4 x5
  clear_value x1 x2 x3
  have hx4 : Keeps s x4 := State.setSkw_keeps _ _ _
  clear_value x4
  have hx5 : Keeps s x5 := (hx4.trans (State.satFld_keeps _ _ _ _ _)).trans (State.pageErr_keeps _ _ _)
  clear_value x5
  exact Keeps.ite (Keeps.refl _) (Keeps.ite (State.setSkw_keeps _ _ _) (Keeps.ite (hx5.trans (State.skwRetrain_keeps
      _ _)) hx5))

theorem State.freeHeld_keeps (s : State) (p aseq : Nat) : Keeps s (State.freeHeld s p aseq) := by
  unfold State.freeHeld
  extract_lets x1 x2
  clear_value x1 x2
  exact Keeps.ite (Keeps.refl _) (State.setSkw_keeps _ _ _)

theorem State.takeFrame_keeps (s : State) (p : Nat) (f : Frame) : Keeps s (State.takeFrame s p f) := by
  unfold State.takeFrame
  extract_lets x1 x2 x3 x4
  clear_value x1 x2 x3 x4
  split
  · exact ((State.setSkw_keeps _ _ _).trans (State.pageErr_keeps _ _ _)).trans (State.skwFault_keeps _ _ _)
  · exact ((State.setSkw_keeps _ _ _).trans (State.releaseSlots_keeps _ _)).trans (State.gotCtl_keeps _ _ _ _)

theorem State.frameReceive_keeps (s : State) (p : Nat) (f : Frame) : Keeps s (State.frameReceive s p f) := by
  unfold State.frameReceive
  extract_lets x1 x2 x3 x4 x5 x6 x7 x8 x9 x10 x11 x12
  clear_value x1 x2
  have hx3 : Keeps s x3 := by
    unfold x3
    split
    · exact Keeps.ite ((State.setFld_keeps _ _ _ _ _).trans (State.modSkw_keeps _ _ _)) (Keeps.refl _)
    · exact Keeps.refl _
  clear_value x3
  have hx4 : Keeps s x4 := hx3.trans (State.modSkw_keeps _ _ _)
  clear_value x4 x5 x6
  have hx7 : Keeps s x7 := hx4.trans (State.modSkw_keeps _ _ _)
  clear_value x7
  have hx8 : Keeps s x8 := Keeps.ite (hx7.trans (State.freeHeld_keeps _ _ _)) hx7
  clear_value x8
  have hx9 : Keeps s x9 := hx8.trans (State.oneWay_keeps _ _)
  clear_value x9 x10
  have hx11 : Keeps s x11 := hx9.trans (State.modSkw_keeps _ _ _)
  clear_value x11
  have hx12 : Keeps s x12 := Keeps.ite hx9 (Keeps.ite (hx9.trans (State.takeFrame_keeps _ _ _)) (Keeps.ite
      (hx11.trans (State.gotParam_keeps _ _ _)) hx11))
  clear_value x12
  exact Keeps.ite (Keeps.refl _) (Keeps.ite (((hx4.trans (State.satFld_keeps _ _ _ _ _)).trans (State.pageErr_keeps
      _ _ _)).trans (State.modSkw_keeps _ _ _)) (Keeps.ite (((hx12.trans (State.setSkwState_keeps _ _ _)).trans
      (State.skwSay_keeps _ _ _ _)).trans (State.paramDone_keeps _ _)) hx12))

theorem State.linkUp_keeps (s : State) (p : Nat) : Keeps s (State.linkUp s p) :=
    Keeps.ite (Keeps.refl _) ((State.setSkwState_keeps _ _ _).trans (State.modSkw_keeps _ _ _))

theorem State.linkLoss_keeps (s : State) (p : Nat) : Keeps s (State.linkLoss s p) :=
    Keeps.ite (State.skwRetrain_keeps _ _) (Keeps.refl _)

theorem State.trainTimeout_keeps (s : State) (p st us code : Nat) : Keeps s (State.trainTimeout s p st us code) :=
    Keeps.ite (State.skwFault_keeps _ _ _) (Keeps.refl _)

theorem State.skwCtrl_keeps (s : State) (p : Nat) (v : Word) : Keeps s (State.skwCtrl s p v) := by
  unfold State.skwCtrl
  extract_lets x1 x2 x3
  have hx1 : Keeps s x1 := State.setFld_keeps _ _ _ _ _
  clear_value x1
  have hx2 : Keeps s x2 := hx1.trans (State.skwStart_keeps _ _)
  clear_value x2
  have hx3 : Keeps s x3 := Keeps.ite (hx2.trans (State.skwRetrain_keeps _ _)) hx2
  clear_value x3
  exact Keeps.ite (hx1.trans (State.skwDisable_keeps _ _)) (Keeps.ite (hx3.trans (State.skwClose_keeps _ _)) hx3)

theorem State.tsClr_keeps (s : State) (p : Nat) : Keeps s (State.tsClr s p) :=
    (State.setFld_keeps _ _ _ _ _).trans (State.setFld_keeps _ _ _ _ _)

theorem State.skwPps_keeps (s : State) (p sec : Nat) : Keeps s (State.skwPps s p sec) := by
  unfold State.skwPps
  refine Keeps.ite ?_ ?_
  · exact Keeps.refl _
  · extract_lets x1 x2
    have hx1 : Keeps s x1 := State.saySync_keeps _ _
    clear_value x1 x2
    exact Keeps.ite (hx1.trans (State.laneStep_keeps _ _)) hx1

theorem State.pps_keeps (s : State) : Keeps s (State.pps s) := by
  unfold State.pps
  refine Keeps.ite ?_ ?_
  · exact Keeps.refl _
  · split
    rename_i z4
    refine Keeps.ite ?_ ?_
    · exact Keeps.fst (State.ppsTime_keeps _) z4
    · extract_lets x5
      clear_value x5
      exact Keeps.forN _ _ (fun _ _ => State.skwPps_keeps _ _ _) ((Keeps.fst (State.ppsTime_keeps _) z4).trans
          (State.countG_keeps _ _ _ _))

theorem State.queueWrite_keeps (s : State) (q w : Nat) (v : Word) : Keeps s (State.queueWrite s q w v) := by
  unfold State.queueWrite
  split
  · exact State.wr_keeps _ _ _
  · extract_lets x6 x7
    clear_value x6 x7
    split
    · exact State.wr_keeps _ _ _
    · exact Keeps.foldl _ _ (fun _ _ => State.injErr_keeps _ _ _) (Keeps.refl _)
  · exact Keeps.refl _

theorem State.setPartState_keeps (s : State) (p st : Nat) : Keeps s (State.setPartState s p st) :=
    State.setFld_keeps _ _ _ _ _

theorem State.partErr_keeps (s : State) (p code : Nat) : Keeps s (State.partErr s p code) :=
    (State.setFld_keeps _ _ _ _ _).trans (State.setBit_keeps _ _ _)

theorem State.partRefuse_keeps (s : State) (p code : Nat) : Keeps s (State.partRefuse s p code) :=
    (State.partErr_keeps _ _ _).trans (State.pageErr_keeps _ _ _)

theorem State.opBegin_keeps (s : State) (p op : Nat) : Keeps s (State.opBegin s p op) :=
    ((State.setBit_keeps _ _ _).trans (State.setFld_keeps _ _ _ _ _)).trans (State.modPart_keeps _ _ _)

theorem State.opEnd_keeps (s : State) (p : Nat) : Keeps s (State.opEnd s p) :=
    (((State.clrBit_keeps _ _ _).trans (State.setBit_keeps _ _ _)).trans (State.pageIrq_keeps _ _ _)).trans
        (State.modPart_keeps _ _ _)

theorem State.opFail_keeps (s : State) (p code value pool bank : Nat) :
    Keeps s (State.opFail s p code value pool bank) :=
    ((((State.partRefuse_keeps _ _ _).trans (State.setFld_keeps _ _ _ _ _)).trans (State.setFld_keeps _ _ _ _
        _)).trans (State.setFld_keeps _ _ _ _ _)).trans (State.opEnd_keeps _ _)

theorem State.partClear_keeps (s : State) (n p : Nat) : Keeps s (State.partClear s n p) := by
  unfold State.partClear
  extract_lets x1 x2 x3
  have hx1 : Keeps s x1 := State.modNi_keeps _ _ _
  clear_value x1 x2
  have hx3 : Keeps s x3 := Keeps.foldl _ _ (fun _ _ => State.rsvClr_keeps _ _ _) hx1
  clear_value x3
  exact Keeps.ite hx1 (hx3.trans (State.modNi_keeps _ _ _))

theorem State.partClearAll_keeps (s : State) (p : Nat) : Keeps s (State.partClearAll s p) :=
    Keeps.forN _ _ (fun _ _ => State.partClear_keeps _ _ _) (Keeps.refl _)

theorem State.partLines_keeps (s : State) (p : Nat) : Keeps s (State.partLines s p) :=
    Keeps.foldl _ _ (fun _ _ => State.modNi_keeps _ _ _) (Keeps.refl _)

theorem State.drainStart_keeps (s : State) (p st : Nat) : Keeps s (State.drainStart s p st) :=
    (State.setPartState_keeps _ _ _).trans (State.partLines_keeps _ _)

theorem State.drainDone_keeps (s : State) (p : Nat) : Keeps s (State.drainDone s p) := by
  unfold State.drainDone
  extract_lets x1 x2
  clear_value x1
  have hx2 : Keeps s x2 := State.partClearAll_keeps _ _
  clear_value x2
  exact Keeps.ite (Keeps.refl _) (Keeps.ite (Keeps.refl _) (Keeps.ite (((hx2.trans (State.setPartState_keeps _ _
      _)).trans (State.modPart_keeps _ _ _)).trans (State.opEnd_keeps _ _)) ((hx2.trans (State.setPartState_keeps _ _
      _)).trans (State.opEnd_keeps _ _))))

theorem State.squashEntry_keeps (s : State) (n k p : Nat) : Keeps s (State.squashEntry s n k p) := by
  unfold State.squashEntry
  extract_lets x1 x2 x3 x4 x5 x6 x7
  clear_value x1
  have hx2 : Keeps s x2 := State.modNi_keeps _ _ _
  clear_value x2
  have hx3 : Keeps s x3 := hx2.trans (State.endUnit_keeps _ _ _ _)
  clear_value x3
  have hx4 : Keeps s x4 := hx3.trans (State.modNi_keeps _ _ _)
  clear_value x4
  have hx5 : Keeps s x5 := hx4.trans (State.countEnd_keeps _ _ _)
  clear_value x5
  have hx6 : Keeps s x6 := hx5.trans (State.ledgerJ_keeps _ _ _ _ _ _)
  clear_value x6
  have hx7 : Keeps s x7 := hx6.trans (State.satFld_keeps _ _ _ _ _)
  clear_value x7
  exact Keeps.ite (hx7.trans (State.modLed_keeps _ _ _ _)) (hx7.trans (State.modNi_keeps _ _ _))

theorem State.squashGran_keeps (s : State) (n p : Nat) : Keeps s (State.squashGran s n p) := by
  unfold State.squashGran
  extract_lets x1 x2 x3 x4 x5 x6
  clear_value x1 x2 x3 x4
  have hx5 : Keeps s x5 := State.setNi_keeps _ _ _
  clear_value x5 x6
  exact Keeps.foldl _ _ (fun _ _ => State.closedAt_keeps _ _ _ _ _ _) hx5

theorem State.squashDone_keeps (s : State) (p : Nat) : Keeps s (State.squashDone s p) :=
    Keeps.ite (Keeps.refl _) ((State.setPartState_keeps _ _ _).trans (State.opEnd_keeps _ _))

theorem State.squash_keeps (s : State) (p : Nat) : Keeps s (State.squash s p) := by
  unfold State.squash
  extract_lets x1 x2 x3
  have hx1 : Keeps s x1 := (State.setPartState_keeps _ _ _).trans (State.wr_keeps _ _ _)
  clear_value x1
  have hx2 : Keeps s x2 := by
    unfold x2
    refine Keeps.foldl _ _ (fun u4 y4 => ?_) ?_
    · refine Keeps.foldl _ _ (fun u5 y5 => ?_) ?_
      · split
        exact State.squashEntry_keeps _ _ _ _
      · exact Keeps.refl _
    · exact hx1
  clear_value x2
  have hx3 : Keeps s x3 := Keeps.forN _ _ (fun _ _ => State.squashGran_keeps _ _ _) hx2
  clear_value x3
  exact hx3.trans (State.partClearAll_keeps _ _)

theorem State.openDone_keeps (s : State) (p : Nat) : Keeps s (State.openDone s p) := by
  unfold State.openDone
  refine Keeps.ite ?_ ?_
  · exact Keeps.refl _
  · split
    · exact (State.setPartState_keeps _ _ _).trans (State.opEnd_keeps _ _)
    · exact State.opFail_keeps _ _ _ _ _ _

theorem State.imgEntry_keeps (s : State) (p : Nat) (write : Bool) : Keeps s (State.imgEntry s p write) := by
  unfold State.imgEntry
  split
  · exact Keeps.refl _
  · dsimp only
    split
    · next k t h => exact Keeps.trans (t := t) (State.memOpen_keeps _ _ _ _ _ _ _ h) (State.modPart_keeps _ _ _)
    · exact Keeps.refl _

theorem State.imgStart_keeps (s : State) (p : Nat) (write : Bool) : Keeps s (State.imgStart s p write) := by
  unfold State.imgStart
  extract_lets x1
  have hx1 : Keeps s x1 := State.modPart_keeps _ _ _
  clear_value x1
  exact Keeps.ite hx1 (hx1.trans (State.imgEntry_keeps _ _ _))

theorem State.imgOver_keeps (s : State) (p : Nat) (code : Code) : Keeps s (State.imgOver s p code) := by
  unfold State.imgOver
  extract_lets x1
  have hx1 : Keeps s x1 := by
    unfold x1
    split
    · exact State.memClose_keeps _ _ _ _ _
    · exact Keeps.refl _
  clear_value x1
  exact hx1.trans (State.modPart_keeps _ _ _)

theorem State.saveDone_keeps (s : State) (p : Nat) (xcode : Code) : Keeps s (State.saveDone s p xcode) := by
  unfold State.saveDone
  refine Keeps.ite ?_ ?_
  · exact Keeps.refl _
  · extract_lets x1 x2 x3
    clear_value x1 x2
    have hx3 : Keeps s x3 := State.imgEntry_keeps _ _ _
    clear_value x3
    refine Keeps.ite ?_ ?_
    · exact (State.imgOver_keeps _ _ _).trans (State.opFail_keeps _ _ _ _ _ _)
    · split
      · exact hx3
      · split
        rename_i z14
        extract_lets x15 x16
        clear_value x15
        have hx16 : Keeps s x16 := (Keeps.fst (hx3.trans (State.memCheck_keeps _ _ _ _ _)) z14).trans
            (State.imgOver_keeps _ _ _)
        clear_value x16
        exact Keeps.ite ((hx16.trans (State.setFld_keeps _ _ _ _ _)).trans (State.opFail_keeps _ _ _ _ _ _))
            (Keeps.ite (((hx16.trans (State.setFld_keeps _ _ _ _ _)).trans (State.opFail_keeps _ _ _ _ _ _)).trans
            (State.drawn_keeps _)) (((hx16.trans (State.setFld_keeps _ _ _ _ _)).trans (State.modPart_keeps _ _
            _)).trans (State.opEnd_keeps _ _)))

theorem State.restoreQueue_keeps (s : State) (p : Nat) (img : List (BitVec 8)) (o : Nat) :
    Keeps s (State.restoreQueue s p img o) := by
  unfold State.restoreQueue
  extract_lets x1 x2 x3 x4 x5
  clear_value x1 x2 x3 x4
  have hx5 : Keeps s x5 := State.queueWrite_keeps _ _ _ _
  clear_value x5
  exact (hx5.trans (State.queueWrite_keeps _ _ _ _)).trans (State.setFld_keeps _ _ _ _ _)

theorem State.restoreRule_keeps (s : State) (p : Nat) (img : List (BitVec 8)) (o : Nat) :
    Keeps s (State.restoreRule s p img o).1 := by
  rw [State.restoreRule.eq_def]
  extract_lets x1 x2 x3 x4
  clear_value x1 x2 x3
  have hx4 : Keeps s x4 := Keeps.same
  clear_value x4
  dsimp only
  exact hx4.trans (State.ruleCommitOp_keeps _ _ _)

theorem State.restoreRoute_keeps (s : State) (p : Nat) (img : List (BitVec 8)) (o : Nat) :
    Keeps s (State.restoreRoute s p img o).1 := by
  rw [State.restoreRoute.eq_def]
  extract_lets x1 x2 x3 x4 x5 x6 x7 x8
  clear_value x1 x2 x3 x4 x5 x7 x8
  split
  extract_lets x13 x14
  clear_value x13 x14
  dsimp only
  exact (State.setBank_keeps _ _ _).trans (State.rsCommit_keeps _ _ _ _)

theorem State.restoreCounter_keeps (s : State) (p m : Nat) (img : List (BitVec 8)) (o : Nat) :
    Keeps s (State.restoreCounter s p m img o) := by
  unfold State.restoreCounter
  refine State.hlWords_keeps _ _ _ _ _ _ _ fun u => ?_
  exact (((State.keepWas_keeps _ _).trans (State.setCnt_keeps _ _ _)).trans (State.setFld_keeps _ _ _ _ _)).trans
    (State.setFld_keeps _ _ _ _ _)

theorem putEach_keeps (f : State → Nat → State × Bool) (hf : ∀ u o, Keeps u (f u o).1) (l : List Nat) (s : State) :
    Keeps s (putEach f l s).1 := by
  induction l generalizing s with
  | nil => exact Keeps.refl _
  | cons o t ih =>
    have h := hf s o
    unfold putEach
    split
    · next u hu => rw [hu] at h; exact h.trans (ih u)
    · next u hu => rw [hu] at h; exact h

theorem State.hlCommit_keeps (s : State) (m seg a : Nat) (f : State → State × Bool) (hf : ∀ u, Keeps u (f u).1) :
    Keeps s (s.hlCommit m seg a f).1 := State.hlWords_keeps _ _ _ _ _ _ _ hf

theorem State.restoreWrites_keeps (s : State) (p m : Nat) (img : List (BitVec 8)) :
    Keeps s (State.restoreWrites s p m img) := by
  unfold State.restoreWrites
  extract_lets x1 x2
  have h2 : Keeps s x2 := Keeps.foldl _ _
    (fun _ _ => State.hlWords_keeps _ _ _ _ _ _ _ fun _ => State.restoreQueue_keeps _ _ _ _) (State.setFld_keeps _ _
        _ _ _)
  clear_value x2
  split
  · next u o hu =>
    exact (Keeps.fst (h2.trans (putEach_keeps _
      (fun _ _ => State.hlCommit_keeps _ _ _ _ _ fun _ => State.restoreRule_keeps _ _ _ _) _ _)) hu).trans
          (State.opFail_keeps _ _ _ _ _ _)
  · next u hu =>
    have h3 := Keeps.fst (h2.trans (putEach_keeps _
      (fun _ _ => State.hlCommit_keeps _ _ _ _ _ fun _ => State.restoreRule_keeps _ _ _ _) _ _)) hu
    split
    · next v o hv =>
      exact (Keeps.fst (h3.trans (putEach_keeps _
        (fun _ _ => State.hlCommit_keeps _ _ _ _ _ fun _ => State.restoreRoute_keeps _ _ _ _) _ _)) hv).trans
            (State.opFail_keeps _ _ _ _ _ _)
    · next v hv =>
      have h4 := Keeps.fst (h3.trans (putEach_keeps _
        (fun _ _ => State.hlCommit_keeps _ _ _ _ _ fun _ => State.restoreRoute_keeps _ _ _ _) _ _)) hv
      exact (Keeps.foldl _ _ (fun _ _ => State.restoreCounter_keeps _ _ _ _ _) h4).trans (State.opEnd_keeps _ _)

theorem State.restoreRead_keeps (s : State) (p n : Nat) (img : List (BitVec 8)) (xcode : Code) :
    Keeps s (State.restoreRead s p n img xcode) := by
  unfold State.restoreRead
  extract_lets x1
  have hx1 : Keeps s x1 := State.imgOver_keeps _ _ _
  clear_value x1
  split
  · exact (Keeps.ite (hx1.trans (State.setFld_keeps _ _ _ _ _)) hx1).trans (State.opFail_keeps _ _ _ _ _ _)
  · exact hx1.trans (State.restoreWrites_keeps _ _ _ _)

theorem State.restoreDone_keeps (s : State) (p : Nat) (img : List (BitVec 8)) (xcode : Code) :
    Keeps s (State.restoreDone s p img xcode) := by
  unfold State.restoreDone
  refine Keeps.ite (Keeps.refl _) ?_
  extract_lets x1
  have h1 : Keeps s x1 := State.imgEntry_keeps _ _ _
  clear_value x1
  split
  · exact h1
  · next n _ _ =>
    have h2 := h1.trans (State.memCheck_keeps x1 n false (x1.partOf p).io img.length)
    exact Keeps.ite (h2.trans (State.restoreRead_keeps _ _ _ _ _)) (h2.trans (State.restoreRead_keeps _ _ _ _ _))

theorem State.partOp_keeps (s : State) (p op : Nat) : Keeps s (State.partOp s p op) := by
  unfold State.partOp
  refine Keeps.ite ?_ ?_
  · exact Keeps.refl _
  · split
    · exact State.partRefuse_keeps _ _ _
    · extract_lets x6
      have hx6 : Keeps s x6 := State.opBegin_keeps _ _ _
      clear_value x6
      split
      · exact (hx6.trans (State.setPartState_keeps _ _ _)).trans (State.opEnd_keeps _ _)
      · exact hx6.trans (State.drainStart_keeps _ _ _)
      · exact (hx6.trans (State.setPartState_keeps _ _ _)).trans (State.opEnd_keeps _ _)
      · exact hx6.trans (State.drainStart_keeps _ _ _)
      · exact hx6.trans (State.squash_keeps _ _)
      · exact (hx6.trans (State.setPartState_keeps _ _ _)).trans (State.opEnd_keeps _ _)
      · exact hx6.trans (State.imgStart_keeps _ _ _)
      · exact hx6.trans (State.imgStart_keeps _ _ _)
      · exact hx6

theorem State.partCtrl_keeps (s : State) (p : Nat) (v : Word) : Keeps s (State.partCtrl s p v) :=
    (State.setFld_keeps _ _ _ _ _).trans (State.partOp_keeps _ _ _)

theorem State.sweepStart_keeps (s : State) : Keeps s (State.sweepStart s) :=
    Keeps.ite (Keeps.refl _) Keeps.same

theorem State.cruG_keeps (s : State) : Keeps s (State.cruG s) := by
  unfold State.cruG
  extract_lets x1 x2
  clear_value x1 x2
  split
  · exact (State.wr_keeps _ _ _).trans (State.drawn_keeps _)
  · exact State.wr_keeps _ _ _
  · exact (State.wr_keeps _ _ _).trans (State.drawn_keeps _)

theorem State.sweepDone_keeps (s : State) : Keeps s (State.sweepDone s) := by
  unfold State.sweepDone
  refine Keeps.ite ?_ ?_
  · exact Keeps.refl _
  · extract_lets x1 x2 x3 x4 x5 x6 x7 x8
    clear_value x1
    have hx2 : Keeps s x2 := Keeps.forN _ _ (fun _ _ => State.wr_keeps _ _ _) (Keeps.refl _)
    clear_value x2
    have hx3 : Keeps s x3 := Keeps.forN _ _ (fun _ _ => State.wr_keeps _ _ _) hx2
    clear_value x3
    have hx4 : Keeps s x4 := ((hx3.trans (State.cruG_keeps _)).trans (State.wrapFld_keeps _ _ _ _ _)).trans
        (State.countG_keeps _ _ _ _)
    clear_value x4
    have hx5 : Keeps s x5 := (hx4.trans (State.setFld_keeps _ _ _ _ _)).trans (State.setFld_keeps _ _ _ _ _)
    clear_value x5
    have hx6 : Keeps s x6 := Keeps.ite (hx5.trans (State.satFld_keeps _ _ _ _ _)) hx5
    clear_value x6 x7 x8
    exact Keeps.trans (t := x6) hx6 Keeps.same

theorem State.logWrite_keeps (s : State) (b : BitVec 256) : ∀ t, State.logWrite s b = some t → Keeps s t := by
  intro t ht
  unfold State.logWrite at ht
  obtain ⟨u, hu, rfl⟩ := Option.map_eq_some_iff.mp ht
  exact (State.sendVia_keeps _ _ _ _ _ _ _ _ _ _ _ _ hu).trans (State.wrapFld_keeps _ _ _ _ _)

theorem logAll_keeps (a0 : List (BitVec 256)) (a1 : State) : Keeps a1 (logAll a0 a1) := by
  induction a0 generalizing a1 with
  | nil => exact Keeps.same
  | cons b t ih =>
    unfold logAll
    split
    · next u hu => exact (State.logWrite_keeps _ _ _ hu).trans (ih u)
    · exact Keeps.same

theorem State.logFlush_keeps (s : State) : Keeps s (State.logFlush s) :=
    logAll_keeps _ _

theorem State.foremanLog_keeps (s : State) (kind : Nat) (outcome : Code) (a : Nat) (old new : Word) :
    Keeps s (State.foremanLog s kind outcome a old new) := by
  unfold State.foremanLog
  split
  extract_lets x5 x6 x7
  clear_value x5 x6 x7
  exact Keeps.trans Keeps.same (State.logFlush_keeps _)

theorem State.varAbandon_keeps (s : State) (a : Nat) : Keeps s (State.varAbandon s a) := by
  unfold State.varAbandon
  refine Keeps.ite ?_ ?_
  · exact Keeps.refl _
  · extract_lets x1 x2
    have hx1 : Keeps s x1 := (State.clrBit_keeps _ _ _).trans (State.pageErr_keeps _ _ _)
    clear_value x1 x2
    exact Keeps.trans (Keeps.trans (t := x1) hx1 Keeps.same) (State.foremanLog_keeps _ _ _ _ _ _)

theorem State.varLeave_keeps (s : State) : Keeps s (State.varLeave s) :=
    Keeps.ite (State.varAbandon_keeps _ _) (Keeps.refl _)

theorem State.managerWrote_keeps (s : State) (m a : Nat) : Keeps s (State.managerWrote s m a) := by
  unfold State.managerWrote
  extract_lets x1 x2 x3
  clear_value x1 x2 x3
  exact Keeps.ite (Keeps.refl _) Keeps.same

theorem State.glnCe_keeps (s : State) : Keeps s (State.glnCe s) :=
    ((State.satFld_keeps _ _ _ _ _).trans (State.pageErr_keeps _ _ _)).trans (State.countG_keeps _ _ _ _)

theorem State.glnUe_keeps (s : State) (t : GlnTable) (bank idx addr : Nat) (part : Option FaultItem) :
    Keeps s (State.glnUe s t bank idx addr part) := by
  unfold State.glnUe
  extract_lets x1 x2 x3
  have hx1 : Keeps s x1 := ((State.satFld_keeps _ _ _ _ _).trans (State.pageErr_keeps _ _ _)).trans
      (State.countG_keeps _ _ _ _)
  clear_value x1
  have hx2 : Keeps s x2 := Keeps.ite hx1 ((((hx1.trans (State.setFld_keeps _ _ _ _ _)).trans (State.setFld_keeps _ _
      _ _ _)).trans (State.setFld_keeps _ _ _ _ _)).trans (State.setBit_keeps _ _ _))
  clear_value x2
  have hx3 : Keeps s x3 := hx2.trans (State.journal_keeps _ _)
  clear_value x3
  split
  · exact hx3.trans (State.ladder_keeps _ _ _ _)
  · exact hx3

theorem State.glnPut_keeps (s : State) (t : GlnTable) (c i : Nat) (x : BitVec 144) :
    Keeps s (State.glnPut s t c i x) := by
  unfold State.glnPut
  split
  · exact State.setBank_keeps _ _ _
  · exact State.putRule_keeps _ _ _
  · exact (State.wr_keeps _ _ _).trans (State.wr_keeps _ _ _)
  · exact (State.wr_keeps _ _ _).trans (State.wr_keeps _ _ _)

theorem State.glnBegin_keeps (s : State) (t : GlnTable) (c i : Nat) (x : BitVec 144) :
    Keeps s (State.glnBegin s t c i x) :=
    Keeps.same

theorem State.glnBack_keeps (s : State) (w : GlnBack) : Keeps s (State.glnBack s w) := by
  unfold State.glnBack
  extract_lets put
  have hp : ∀ u, Keeps u (put u) := fun u => Keeps.ite (State.glnPut_keeps _ _ _ _ _) (State.satFld_keeps _ _ _ _ _)
  clear_value put
  split <;> exact State.hlWords_keeps _ _ _ _ _ _ _ hp

theorem State.glnFlush_keeps (s : State) : Keeps s (State.glnFlush s) :=
    Keeps.foldl _ _ (fun _ _ => State.glnBack_keeps _ _) Keeps.same

theorem State.glnEntry_keeps (s : State) (c i : Nat) : Keeps s (State.glnEntry s c i) := by
  unfold State.glnEntry
  split
  · exact Keeps.refl _
  · exact Keeps.ite ((State.glnBegin_keeps _ _ _ _ _).trans (State.glnCe_keeps _)) (Keeps.refl _)
  · exact (State.glnBegin_keeps _ _ _ _ _).trans (State.glnUe_keeps _ _ _ _ _ _)

theorem State.glnRule_keeps (s : State) (i : Nat) : Keeps s (State.glnRule s i) := by
  unfold State.glnRule
  split
  · exact Keeps.refl _
  · exact Keeps.ite ((State.glnBegin_keeps _ _ _ _ _).trans (State.glnCe_keeps _)) (Keeps.refl _)
  · exact (State.glnBegin_keeps _ _ _ _ _).trans (State.glnUe_keeps _ _ _ _ _ _)

theorem State.glnWord_keeps (s : State) (t : GlnTable) (idx : Nat) : Keeps s (State.glnWord s t idx) := by
  unfold State.glnWord
  refine State.hlWords_keeps _ _ _ _ _ _ _ fun u => ?_
  dsimp only
  split
  · exact Keeps.refl _
  · exact Keeps.ite ((State.glnBegin_keeps _ _ _ _ _).trans (State.glnCe_keeps _)) (Keeps.refl _)
  · exact (State.glnBegin_keeps _ _ _ _ _).trans (State.glnUe_keeps _ _ _ _ _ _)

theorem State.glnStep_keeps (s : State) (t : GlnTable) (idx : Nat) : Keeps s (State.glnStep s t idx) := by
  unfold State.glnStep
  refine Keeps.ite (Keeps.refl _) ?_
  extract_lets x1 n start fin e x2
  have h1 : Keeps s x1 := by
    dsimp only [x1]
    split
    · exact Keeps.forN _ _ (fun _ _ => State.hlWords_keeps _ _ _ _ _ _ _ fun _ => State.glnEntry_keeps _ _ _)
          (Keeps.refl _)
    · exact State.hlWords_keeps _ _ _ _ _ _ _ fun _ => State.glnRule_keeps _ _
    · exact State.glnWord_keeps _ _ _
    · exact State.glnWord_keeps _ _ _
  have h2 : Keeps s x2 := h1.trans Keeps.same
  clear_value x2
  exact Keeps.ite (h2.trans (State.wrapFld_keeps _ _ _ _ _)) h2

theorem State.glnOverrun_keeps (s : State) (t : GlnTable) : Keeps s (State.glnOverrun s t) :=
    Keeps.ite ((State.setBit_keeps _ _ _).trans (State.pageErr_keeps _ _ _)) (Keeps.refl _)

theorem State.glnReport_keeps (s : State) (c : Nat) : Keeps s (State.glnReport s c) := by
  unfold State.glnReport
  refine Keeps.ite (Keeps.refl _) ?_
  split
  · exact Keeps.refl _
  · exact Keeps.trans Keeps.same (State.hlWords_keeps _ _ _ _ _ _ _ fun _ => State.glnEntry_keeps _ _ _)

theorem State.audMeasure_keeps (s : State) (n : Nat) (dir : Bool) (cycles : Nat) :
    Keeps s (State.audMeasure s n dir cycles) := by
  unfold State.audMeasure
  refine Keeps.ite ?_ ?_
  · exact Keeps.refl _
  · extract_lets x1 x2 x3 x4 x5 x6 x7 x8
    clear_value x1
    have hx2 : Keeps s x2 := Keeps.same
    clear_value x2 x3
    have hx4 : Keeps s x4 := Keeps.ite ((hx2.trans (State.setFld_keeps _ _ _ _ _)).trans (State.setFld_keeps _ _ _ _
        _)) hx2
    clear_value x4 x5
    have hx7 : Keeps s x7 := hx4.trans (State.setBit_keeps _ _ _)
    clear_value x7
    have hx8 : Keeps s x8 := Keeps.ite hx7 ((hx7.trans (State.wr_keeps _ _ _)).trans (State.setBit_keeps _ _ _))
    clear_value x8
    refine Keeps.ite ?_ ?_
    · unfold x6
      exact Keeps.trans (t := x4) hx4 Keeps.same
    · refine Keeps.ite ?_ ?_
      · exact hx8
      · refine Keeps.trans ?_ (State.violation_keeps _ _ _ _)
        unfold x6
        exact Keeps.trans (t := x8.pageErr Page.foreman 2) (hx8.trans (State.pageErr_keeps _ _ _)) Keeps.same

end Sys2Proof.Machine
end

