-- ==== Sys2Proof/Laws/Keeps4.lean ====
section
/-! SUPPORT. What every operation of Machine/Boom, Machine/Modes, Machine/Reset, Machine/Ladder, Machine/Tally, Machine/Pages, Machine/Hayloft, Machine/Foreman, Machine/Tick keeps: one lemma for each operation. -/

namespace Sys2Proof.Machine
set_option Elab.async false

theorem State.boomEvent_keeps (s : State) : Keeps s (State.boomEvent s) := by
  unfold State.boomEvent
  split
  · exact Keeps.refl _
  · extract_lets x7
    clear_value x7
    split
    · rename_i z10
      exact Keeps.trans Keeps.same (State.sendVia_keeps _ _ _ _ _ _ _ _ _ _ _ _ z10)
    · exact Keeps.refl _

theorem State.boomTo_keeps (s : State) (d : Nat) (b : Boom) : Keeps s (State.boomTo s d b) := by
  unfold State.boomTo
  extract_lets x1
  have hx1 : Keeps s x1 := State.setBoom_keeps _ _ _
  clear_value x1
  exact Keeps.ite (Keeps.trans (Keeps.trans (t := x1) hx1 Keeps.same) (State.boomEvent_keeps _)) hx1

theorem State.quiesceTile_keeps (s : State) (k : Nat) (up : Bool) : Keeps s (State.quiesceTile s k up) :=
    Keeps.same

theorem State.kniClear_keeps (s : State) (p : Nat) : Keeps s (State.kniClear s p) := by
  unfold State.kniClear
  extract_lets x1
  have hx1 : Keeps s x1 := Keeps.ite (State.skwDisable_keeps _ _) (Keeps.refl _)
  clear_value x1
  exact hx1.trans (State.modSkw_keeps _ _ _)

theorem State.tileClear_keeps (s : State) (k : Nat) : Keeps s (State.tileClear s k) := by
  unfold State.tileClear
  extract_lets x1 x2 x3 x4 x5
  have hx1 : Keeps s x1 := by
    unfold x1
    exact ⟨rfl, ⟨rfl, rfl, rfl, rfl, rfl, rfl, rfl⟩, fun h => { h with regs := Tbl.wf_keep _ _ _ h.regs }⟩
  clear_value x1
  have hx2 : Keeps s x2 := by
    unfold x2
    refine Keeps.trans ?_ (State.setBit_keeps _ _ _)
    refine Keeps.trans ?_ (State.setRtr_keeps _ _ _)
    exact hx1
  clear_value x2
  have hx3 : Keeps s x3 := by
    unfold x3
    refine Keeps.forN _ _ (fun y6 u6 => ?_) ?_
    · refine Keeps.trans ?_ (State.setLink_keeps _ _ _)
      exact Keeps.refl _
    · exact hx2
  clear_value x3
  have hx4 : Keeps s x4 := by
    unfold x4
    refine Keeps.foldl _ _ (fun u7 y7 => ?_) ?_
    · refine Keeps.trans ?_ (State.setLink_keeps _ _ _)
      refine Keeps.trans ?_ (State.setNi_keeps _ _ _)
      exact Keeps.refl _
    · exact hx3
  clear_value x4
  have hx5 : Keeps s x5 := by
    unfold x5
    refine Keeps.ite ?_ ?_
    · refine Keeps.trans ?_ (State.kniClear_keeps _ _)
      exact hx4
    · exact hx4
  clear_value x5
  refine Keeps.ite ?_ ?_
  · refine Keeps.trans (t := x5) ?_ ?_
    · exact hx5
    · exact Keeps.same rfl ⟨rfl, rfl, rfl, rfl, rfl, rfl, rfl⟩ rfl rfl rfl rfl rfl rfl rfl rfl rfl rfl rfl rfl rfl rfl
  · exact hx5

theorem State.freshLinks_keeps (s : State) (k : Nat) : Keeps s (State.freshLinks s k) := by
  unfold State.freshLinks
  refine Keeps.forN _ _ (fun y1 u1 => ?_) ?_
  · split
    · extract_lets x7 x8 x9
      clear_value x7 x8 x9
      exact ((((State.modRtr_keeps _ _ _).trans (State.modRtr_keeps _ _ _)).trans (State.setCred_keeps _ _ _)).trans
          (State.setCred_keeps _ _ _)).trans (State.setLink_keeps _ _ _)
    · exact Keeps.refl _
  · exact Keeps.refl _

theorem State.skwClear_keeps (s : State) (p : Nat) : Keeps s (State.skwClear s p) := by
  unfold State.skwClear
  extract_lets x1
  clear_value x1
  refine Keeps.trans ?_ (State.setSkw_keeps _ _ _)
  exact ⟨rfl, ⟨rfl, rfl, rfl, rfl, rfl, rfl, rfl⟩, fun h => { h with regs := Tbl.wf_keep _ _ _ h.regs }⟩

theorem State.domClear_keeps (s : State) (d : Nat) : Keeps s (State.domClear s d) :=
    Keeps.ite (State.tileClear_keeps _ _) (State.skwClear_keeps _ _)

theorem State.boomErr_keeps (s : State) (d code : Nat) : Keeps s (State.boomErr s d code) := by
  unfold State.boomErr
  extract_lets x1
  have hx1 : Keeps s x1 := Keeps.ite (Keeps.refl _) (((State.setFld_keeps _ _ _ _ _).trans (State.setFld_keeps _ _ _
      _ _)).trans (State.setBit_keeps _ _ _))
  clear_value x1
  exact hx1.trans (State.pageErr_keeps _ _ _)

theorem State.boomFence_keeps (s : State) (d : Nat) (off : Bool) : Keeps s (State.boomFence s d off) := by
  unfold State.boomFence
  extract_lets x1 x2
  have hx1 : Keeps s x1 := State.boomTo_keeps _ _ _
  clear_value x1 x2
  exact Keeps.ite (Keeps.foldl _ _ (fun _ _ => State.modNi_keeps _ _ _) hx1) (Keeps.ite (hx1.trans
      (State.skwClose_keeps _ _)) (Keeps.ite hx1 (hx1.trans (State.skwDisable_keeps _ _))))

theorem State.boomIsolate_keeps (s : State) (d : Nat) : Keeps s (State.boomIsolate s d) := by
  unfold State.boomIsolate
  extract_lets x1
  have hx1 : Keeps s x1 := State.boomTo_keeps _ _ _
  clear_value x1
  exact (hx1.trans (State.domClear_keeps _ _)).trans (State.boomTo_keeps _ _ _)

theorem State.boomReopen_keeps (s : State) (d : Nat) : Keeps s (State.boomReopen s d) := by
  unfold State.boomReopen
  extract_lets x1
  have hx1 : Keeps s x1 := State.boomTo_keeps _ _ _
  clear_value x1
  exact Keeps.ite (Keeps.foldl _ _ (fun _ _ => State.reloadShadow_keeps _ _) ((hx1.trans (State.quiesceTile_keeps _
      _ _)).trans (State.filterLoad_keeps _ _))) hx1

theorem State.boomDo_keeps (s : State) (d op : Nat) : Keeps s (State.boomDo s d op) := by
  unfold State.boomDo
  extract_lets x1
  clear_value x1
  split
  · exact State.boomFence_keeps _ _ _
  · exact State.boomFence_keeps _ _ _
  · exact State.setBoom_keeps _ _ _
  · exact (State.domClear_keeps _ _).trans (State.boomTo_keeps _ _ _)
  · exact State.setBoom_keeps _ _ _
  · exact State.boomTo_keeps _ _ _
  · exact State.boomTo_keeps _ _ _
  · exact State.boomReopen_keeps _ _
  · exact State.boomIsolate_keeps _ _
  · exact Keeps.refl _

theorem State.boomAsk_keeps (s : State) (d op : Nat) : Keeps s (State.boomAsk s d op).1 := by
  rw [State.boomAsk.eq_def]
  split
  · dsimp only
    exact State.boomErr_keeps _ _ _
  · dsimp only
    exact State.boomDo_keeps _ _ _

theorem State.fenceDone_keeps (s : State) (d : Nat) : Keeps s (State.fenceDone s d) := by
  unfold State.fenceDone
  extract_lets x1 x2
  clear_value x1
  have hx2 : Keeps s x2 := State.boomTo_keeps _ _ _
  clear_value x2
  exact Keeps.ite (Keeps.refl _) (Keeps.ite (Keeps.foldl _ _ (fun _ _ => State.modNi_keeps _ _ _) hx2) hx2)

theorem State.drainEnd_keeps (s : State) (d : Nat) : Keeps s (State.drainEnd s d) := by
  unfold State.drainEnd
  extract_lets x1 x2
  clear_value x1
  have hx2 : Keeps s x2 := State.boomTo_keeps _ _ _
  clear_value x2
  exact Keeps.ite (Keeps.refl _) (Keeps.ite (hx2.trans (State.quiesceTile_keeps _ _ _)) hx2)

theorem State.quiesceEnd_keeps (s : State) (d : Nat) : Keeps s (State.quiesceEnd s d) := by
  unfold State.quiesceEnd
  extract_lets x1
  clear_value x1
  exact Keeps.ite (State.boomIsolate_keeps _ _) (Keeps.refl _)

theorem State.qackTimeout_keeps (s : State) (d : Nat) : Keeps s (State.qackTimeout s d) := by
  unfold State.qackTimeout
  extract_lets x1
  clear_value x1
  exact Keeps.ite (((State.setBoom_keeps _ _ _).trans (State.boomErr_keeps _ _ _)).trans (State.pageErr_keeps _ _
      _)) (Keeps.refl _)

theorem State.wakeEnd_keeps (s : State) (d : Nat) : Keeps s (State.wakeEnd s d) := by
  unfold State.wakeEnd
  extract_lets x1 x2 x3
  clear_value x1
  have hx2 : Keeps s x2 := Keeps.ite (State.domClear_keeps _ _) (Keeps.refl _)
  clear_value x2
  have hx3 : Keeps s x3 := (hx2.trans (State.boomTo_keeps _ _ _)).trans (State.filterLoad_keeps _ _)
  clear_value x3
  exact Keeps.ite (Keeps.refl _) (Keeps.ite (Keeps.foldl _ _ (fun _ _ => State.modNi_keeps _ _ _) ((hx3.trans
      (State.freshLinks_keeps _ _)).trans (State.quiesceTile_keeps _ _ _))) hx3)

theorem State.tileReset_keeps (s : State) (k : Nat) : Keeps s (State.tileReset s k) := by
  unfold State.tileReset
  extract_lets x1
  clear_value x1
  exact Keeps.ite (State.pageErr_keeps _ _ _) ((State.tileClear_keeps _ _).trans (State.setBoom_keeps _ _ _))

theorem State.ackRise_keeps (s : State) (n : Nat) : Keeps s (State.ackRise s n) :=
    Keeps.ite Keeps.same (Keeps.refl _)

theorem State.modeDone_keeps (s : State) (prev : Mode) : Keeps s (State.modeDone s prev) :=
    (State.setFld_keeps _ _ _ _ _).trans (State.pageIrq_keeps _ _ _)

theorem State.toMode_keeps (s : State) (m : Mode) : Keeps s (State.toMode s m) := by
  unfold State.toMode
  extract_lets x1
  have hx1 : Keeps s x1 := by
    unfold x1
    refine Keeps.trans ?_ (State.varLeave_keeps _)
    exact Keeps.refl _
  clear_value x1
  refine Keeps.trans hx1 ?_
  exact ⟨rfl, ⟨rfl, rfl, rfl, rfl, rfl, rfl, rfl⟩, fun h => { h with ni := Tbl.wf_mapWith _ _ _ h.ni }⟩

theorem State.enterDrain_keeps (s : State) (c : Change) : Keeps s (State.enterDrain s c) := by
  unfold State.enterDrain
  extract_lets x1 x2 x3
  have hx1 : Keeps s x1 := by
    unfold x1
    refine Keeps.ite ?_ ?_
    · refine Keeps.trans ?_ (State.setFld_keeps _ _ _ _ _)
      exact Keeps.refl _
    · exact Keeps.refl _
  clear_value x1
  have hx2 : Keeps s x2 := by
    unfold x2
    refine Keeps.trans ?_ (State.varLeave_keeps _)
    exact hx1
  clear_value x2
  clear_value x3
  refine Keeps.trans hx2 ?_
  exact ⟨rfl, ⟨rfl, rfl, rfl, rfl, rfl, rfl, rfl⟩, fun h => { h with ni := Tbl.wf_mapWith _ _ _ h.ni }⟩

theorem State.startDrain_keeps (s : State) (target : Mode) : Keeps s (State.startDrain s target) := by
  unfold State.startDrain
  extract_lets x1
  clear_value x1
  exact Keeps.ite Keeps.same (State.enterDrain_keeps _ _)

theorem State.deferredDrain_keeps (s : State) : Keeps s (State.deferredDrain s) := by
  unfold State.deferredDrain
  split
  · exact Keeps.ite (State.enterDrain_keeps _ _) (Keeps.refl _)
  · exact Keeps.refl _

theorem State.modeRefused_keeps (s : State) (a1 : Nat) : Keeps s (State.modeRefused s a1) :=
    ((State.setFld_keeps _ _ _ _ _).trans (State.setBit_keeps _ _ _)).trans (State.pageErr_keeps _ _ _)

theorem State.modeRequest_keeps (s : State) (target : Nat) : Keeps s (State.modeRequest s target) := by
  unfold State.modeRequest
  split
  · exact Keeps.trans Keeps.same (State.modeRefused_keeps _ _)
  · extract_lets x6 x7
    clear_value x6
    have hx7 : Keeps s x7 := Keeps.same
    clear_value x7
    split
    · exact hx7
    · split
      · exact Keeps.trans (t := x7) hx7 Keeps.same
      · exact hx7.trans (State.startDrain_keeps _ _)
      · exact Keeps.trans (t := x7) hx7 Keeps.same
      · exact hx7

theorem State.toRecovery_keeps (s : State) : Keeps s (State.toRecovery s) := by
  unfold State.toRecovery
  split
  · exact State.startDrain_keeps _ _
  · exact Keeps.ite ((Keeps.trans Keeps.same (State.modeDone_keeps _ _)).trans (State.startDrain_keeps _ _)) Keeps.same

theorem State.recover_keeps (s : State) : Keeps s (State.recover s).1 := by
  rw [State.recover.eq_def]
  extract_lets x1 x2 x3 x4 x5
  clear_value x1
  have hx2 : Keeps s x2 := Keeps.ite Keeps.same (Keeps.refl _)
  clear_value x2
  have hx3 : Keeps s x3 := hx2.trans (State.toRecovery_keeps _)
  clear_value x3 x4
  have hx5 : Keeps s x5 := Keeps.trans (t := x3) hx3 Keeps.same
  clear_value x5
  split
  · dsimp only
    exact Keeps.refl _
  · dsimp only
    exact Keeps.ite (hx5.trans (State.modeRefused_keeps _ _)) hx5

theorem State.changeDone_keeps (s : State) : Keeps s (State.changeDone s) := by
  unfold State.changeDone
  split
  · exact Keeps.refl _
  · exact Keeps.ite (Keeps.refl _) (Keeps.ite (Keeps.ite (Keeps.trans Keeps.same (State.modeDone_keeps _ _))
        (Keeps.refl _)) ((Keeps.trans Keeps.same (State.toMode_keeps _ _)).trans (State.modeDone_keeps _ _)))

theorem State.leaveDrain_keeps (s : State) (c : Change) : Keeps s (State.leaveDrain s c) := by
  unfold State.leaveDrain
  extract_lets x1
  have hx1 : Keeps s x1 := State.toMode_keeps _ _
  clear_value x1
  exact Keeps.trans (t := x1) hx1 Keeps.same

theorem State.drainComplete_keeps (s : State) : Keeps s (State.drainComplete s) := by
  unfold State.drainComplete
  split
  · exact Keeps.ite (State.leaveDrain_keeps _ _) (Keeps.refl _)
  · exact Keeps.refl _

theorem State.abortPkt_keeps (s : State) (w : BitVec 16) (h sc : BitVec 128) : Keeps s (State.abortPkt s w h sc) :=
    State.journal_keeps _ _

theorem State.abortAll_keeps (s : State) : Keeps s (State.abortAll s) := by
  unfold State.abortAll
  extract_lets x1 x2 x3 x4 x5
  clear_value x1
  clear_value x2
  have hx3 : Keeps s x3 := by
    unfold x3
    refine Keeps.foldl _ _ (fun u6 y6 => ?_) ?_
    · split
      rename_i z7 z8 z9
      refine Keeps.trans ?_ (State.abortPkt_keeps _ _ _ _)
      exact Keeps.refl _
    · exact Keeps.refl _
  clear_value x3
  clear_value x4
  have hx5 : Keeps s x5 := by
    unfold x5
    refine Keeps.foldl _ _ (fun u10 y10 => ?_) ?_
    · split
      rename_i z11 z12 z13
      refine Keeps.foldl _ _ (fun u14 y14 => ?_) ?_
      · split
        rename_i z15 z16 z17
        refine Keeps.ite ?_ ?_
        · refine Keeps.trans ?_ (State.oweCredits_keeps _ _ _ _)
          exact Keeps.refl _
        · exact Keeps.refl _
      · exact Keeps.refl _
    · exact hx3
  clear_value x5
  refine Keeps.trans hx5 ?_
  exact ⟨rfl, ⟨rfl, rfl, rfl, rfl, rfl, rfl, rfl⟩, fun h => { h with rtr := Tbl.wf_mapWith _ _ _ h.rtr, links := rfl, creds := rfl, ni := Tbl.wf_mapWith _ _ _ h.ni, skw := Tbl.wf_mapWith _ _ _ h.skw }⟩

theorem State.drainLimit_keeps (s : State) : Keeps s (State.drainLimit s) := by
  unfold State.drainLimit
  split
  · exact Keeps.ite ((State.abortAll_keeps _).trans (State.leaveDrain_keeps _ _)) (Keeps.refl _)
  · exact Keeps.refl _

theorem State.frozenApply_keeps (s : State) : Keeps s (State.frozenApply s) :=
    Keeps.ite (Keeps.refl _) ((Keeps.trans Keeps.same (State.toMode_keeps _ _)).trans (State.modeDone_keeps _ _))

theorem State.swSwitch_keeps (s : State) : Keeps s (State.swSwitch s) := by
  unfold State.swSwitch
  refine Keeps.ite ?_ ?_
  · exact Keeps.refl _
  · extract_lets x1
    have hx1 : Keeps s x1 := State.setFld_keeps _ _ _ _ _
    clear_value x1
    exact Keeps.ite ((hx1.trans (State.toMode_keeps _ _)).trans (State.modeDone_keeps _ _)) (Keeps.ite ((hx1.trans
        (State.toMode_keeps _ _)).trans (State.modeDone_keeps _ _)) hx1)

theorem State.featCommit_keeps (s : State) : Keeps s (State.featCommit s) := by
  unfold State.featCommit
  split
  · exact ((State.setFld_keeps _ _ _ _ _).trans (State.setBit_keeps _ _ _)).trans (State.pageErr_keeps _ _ _)
  · exact ((State.wr_keeps _ _ _).trans (State.wr_keeps _ _ _)).trans (State.setBit_keeps _ _ _)

theorem State.heldUnits_wf (s : State) : Tbl.wf (fun _ => ({} : Ni)) s.heldUnits = true := by
  unfold State.heldUnits
  generalize bit s.niAlive = f
  have key : ∀ (l : List Nat) (b : Option Nat), l.Pairwise (· < ·) → (∀ x ∈ l, Tbl.above b x) →
      Tbl.wfFrom (fun _ => ({} : Ni)) b ((l.filter f).map fun n => (n, { mustFall := true })) = true := by
    intro l
    induction l with
    | nil => intro b _ _; rfl
    | cons x l ih =>
      intro b hp hb
      rw [List.pairwise_cons] at hp
      rw [List.filter_cons]
      split
      · rw [List.map_cons, Tbl.wfFrom_cons]
        exact ⟨hb x (by simp), by decide, ih _ hp.2 fun y hy z hz => by cases hz; exact hp.1 y hy⟩
      · exact ih b hp.2 fun y hy => hb y (by simp [hy])
  exact key _ none List.pairwise_lt_range fun _ _ _ h => by cases h
theorem State.coldState_keeps (s : State) : Keeps s (State.coldState s) :=
  ⟨rfl, ⟨rfl, rfl, rfl, rfl, rfl, rfl, rfl⟩,
    fun _ => ⟨rfl, rfl, rfl, rfl, rfl, s.heldUnits_wf, rfl, rfl, rfl, rfl, rfl, rfl, rfl, Nat.zero_le _⟩⟩

theorem State.warmState_keeps (s : State) : Keeps s (State.warmState s) := by
  unfold State.warmState
  refine Keeps.trans (Keeps.trans (Keeps.trans ?_ (State.clrBit_keeps _ _ _)) (State.clrBit_keeps _ _ _))
    (State.satFld_keeps _ _ _ _ _)
  exact ⟨rfl, ⟨rfl, rfl, rfl, rfl, rfl, rfl, rfl⟩, fun h => ⟨Tbl.wf_keep _ _ _ h.regs, rfl, rfl,
    Tbl.wf_mapWith _ _ _ h.banks, rfl, s.heldUnits_wf, rfl, rfl, rfl, rfl, rfl, Tbl.wf_filter _ _ _ h.boom, h.jring,
    Nat.zero_le _⟩⟩

theorem State.warmReset_keeps (s : State) (cause : Nat) : Keeps s (State.warmReset s cause) :=
    (Keeps.ite (State.coldState_keeps _) (State.warmState_keeps _)).trans (State.setFld_keeps _ _ _ _ _)

theorem State.leaveCold_keeps (s : State) : Keeps s (State.leaveCold s) := by
  unfold State.leaveCold
  split
  · exact Keeps.trans Keeps.same (State.modeDone_keeps _ _)
  · exact Keeps.trans Keeps.same (State.modeDone_keeps _ _)
  · exact Keeps.refl _

theorem State.tryLeave_keeps (s : State) : Keeps s (State.tryLeave s) :=
    Keeps.ite (Keeps.refl _) (Keeps.trans Keeps.same (State.leaveCold_keeps _))

theorem State.warmCommand_keeps (s : State) : Keeps s (State.warmCommand s) := by
  unfold State.warmCommand
  refine Keeps.ite ?_ ?_
  · exact Keeps.refl _
  · extract_lets x1
    have hx1 : Keeps s x1 := State.warmReset_keeps _ _
    clear_value x1
    exact Keeps.trans (t := x1) hx1 Keeps.same

theorem State.rstCtrl_keeps (s : State) (v : Word) : Keeps s (State.rstCtrl s v) :=
    Keeps.ite (State.warmCommand_keeps _) (Keeps.ite (State.tileReset_keeps _ _) (Keeps.refl _))

theorem State.fuseDone_keeps (s : State) (bad : Bool) : Keeps s (State.fuseDone s bad) := by
  unfold State.fuseDone
  refine Keeps.ite ?_ ?_
  · exact Keeps.refl _
  · refine Keeps.ite ?_ ?_
    · exact (State.setBit_keeps _ _ _).trans (State.pageErr_keeps _ _ _)
    · extract_lets x1 x2
      clear_value x1
      have hx2 : Keeps s x2 := ((State.setFld_keeps _ _ _ _ _).trans (State.setFld_keeps _ _ _ _ _)).trans
          (State.setBit_keeps _ _ _)
      clear_value x2
      exact Keeps.trans (Keeps.trans (t := x2) hx2 Keeps.same) (State.modeDone_keeps _ _)

theorem State.testRead_keeps (s : State) (t : TestRead) : Keeps s (State.testRead s t) := by
  unfold State.testRead
  refine Keeps.ite ?_ ?_
  · exact Keeps.refl _
  · split
    · exact Keeps.same
    · exact Keeps.same
    · exact Keeps.trans Keeps.same (State.drawn_keeps _)

theorem State.testDrive_keeps (s : State) (l : List (Nat × Word)) : Keeps s (State.testDrive s l) := by
  unfold State.testDrive
  refine Keeps.ite ?_ ?_
  · extract_lets x1
    have hx1 : Keeps s x1 := State.wrAll_keeps _ _
    clear_value x1
    exact Keeps.trans (t := x1) hx1 Keeps.same
  · exact Keeps.refl _

theorem State.squashQuiet_keeps (s : State) (n k : Nat) : Keeps s (State.squashQuiet s n k) := by
  unfold State.squashQuiet
  extract_lets x1 x2
  clear_value x1
  have hx2 : Keeps s x2 := State.modNi_keeps _ _ _
  clear_value x2
  exact (hx2.trans (State.countEnd_keeps _ _ _)).trans (State.modNi_keeps _ _ _)

theorem State.squashPart_keeps (s : State) (n : Nat) (it : QItem) : Keeps s (State.squashPart s n it) := by
  unfold State.squashPart
  extract_lets x1 x2
  clear_value x1 x2
  exact Keeps.ite (Keeps.refl _) (Keeps.ite (State.squashQuiet_keeps _ _ _) (State.failLines_keeps _ _ _ _ _))

theorem State.squashQueues_keeps (s : State) (n : Nat) : Keeps s (State.squashQueues s n) := by
  unfold State.squashQueues
  extract_lets x1 x2 x3
  clear_value x1
  have hx2 : Keeps s x2 := State.modNi_keeps _ _ _
  clear_value x2
  have hx3 : Keeps s x3 := Keeps.foldl _ _ (fun _ _ => State.squashPart_keeps _ _ _) hx2
  clear_value x3
  exact Keeps.foldl _ _ (fun _ _ => State.failLines_keeps _ _ _ _ _) hx3

theorem State.clkBit_keeps (s : State) (a i : Nat) : Keeps s (State.clkBit s a i) :=
    (State.setBit_keeps _ _ _).trans (State.pageErr_keeps _ _ _)

theorem State.clockStop_keeps (s : State) (c : ClockId) : Keeps s (State.clockStop s c) := by
  unfold State.clockStop
  refine Keeps.ite ?_ ?_
  · exact Keeps.refl _
  · split
    · exact State.clkBit_keeps _ _ _
    · extract_lets x9
      have hx9 : Keeps s x9 := State.clkBit_keeps _ _ _
      clear_value x9
      exact Keeps.trans (t := x9) hx9 Keeps.same
    · extract_lets x10
      have hx10 : Keeps s x10 := (State.clkBit_keeps _ _ _).trans (State.enterHoldover_keeps _)
      clear_value x10
      exact Keeps.ite hx10 (hx10.trans (State.ladder_keeps _ _ _ _))
    · exact State.clkBit_keeps _ _ _
    · exact (State.clkBit_keeps _ _ _).trans (State.linkLoss_keeps _ _)
    · extract_lets x11 x12
      clear_value x11
      have hx12 : Keeps s x12 := State.clkBit_keeps _ _ _
      clear_value x12
      exact Keeps.ite hx12 (hx12.trans (State.tileFault_keeps _ _ _ _))

theorem State.faultJ_keeps (s : State) (f : DueFault) : Keeps s (State.faultJ s f) :=
    Keeps.ite (Keeps.refl _) (State.journal_keeps _ _)

theorem State.escalated_keeps (s : State) (it : FaultItem) (took : Bool) : Keeps s (State.escalated s it took) := by
  unfold State.escalated
  extract_lets x1 x2 x3 x4
  clear_value x1 x2
  have hx3 : Keeps s x3 := State.satFld_keeps _ _ _ _ _
  clear_value x3
  have hx4 : Keeps s x4 := (((hx3.trans (State.setFld_keeps _ _ _ _ _)).trans (State.setFld_keeps _ _ _ _ _)).trans
      (State.setBit_keeps _ _ _)).trans (State.pageErr_keeps _ _ _)
  clear_value x4
  exact hx4.trans (State.journal_keeps _ _)

theorem State.escPartition_keeps (s : State) (p : BitVec 9) : Keeps s (State.escPartition s p) := by
  unfold State.escPartition
  extract_lets x1 x2 x3 x4
  clear_value x1 x2
  have hx3 : Keeps s x3 := Keeps.ite (Keeps.refl _) (State.partOp_keeps _ _ _)
  clear_value x3
  have hx4 : Keeps s x4 := hx3.trans (State.escalated_keeps _ _ _)
  clear_value x4
  exact Keeps.ite (hx4.trans (State.partEvent_keeps _ _ _ _)) hx4

theorem State.escFabric_keeps (s : State) (it : FaultItem) : Keeps s (State.escFabric s it) := by
  unfold State.escFabric
  split
  rename_i z4
  exact (Keeps.fst (State.recover_keeps _) z4).trans (State.escalated_keeps _ _ _)

theorem State.escQuiesce_keeps (s : State) (k : Nat) : Keeps s (State.escQuiesce s k).1 := by
  rw [State.escQuiesce.eq_def]
  exact State.boomAsk_keeps _ _ _

theorem State.escCheck_keeps (s : State) (d : Nat) : Keeps s (State.escCheck s d) := by
  unfold State.escCheck
  extract_lets x1 x2 x3
  clear_value x1 x2
  refine Keeps.ite ?_ ?_
  · exact Keeps.refl _
  · refine Keeps.ite ?_ ?_
    · split
      · rename_i z6
        refine Keeps.trans ?_ (State.escFabric_keeps _ _)
        refine Keeps.fst ?_ z6
        refine Keeps.trans ?_ (State.escQuiesce_keeps _ _)
        unfold x3
        exact Keeps.same
      · rename_i z11
        refine Keeps.fst ?_ z11
        refine Keeps.trans ?_ (State.escQuiesce_keeps _ _)
        unfold x3
        exact Keeps.same
    · refine Keeps.ite ?_ ?_
      · exact Keeps.refl _
      · unfold x3
        exact Keeps.same

theorem State.escBoom_keeps (s : State) (k : Fin 56) : Keeps s (State.escBoom s k) := by
  unfold State.escBoom
  split
  · rename_i z3
    exact (Keeps.fst (State.escQuiesce_keeps _ _) z3).trans (State.escalated_keeps _ _ _)
  · rename_i z6
    exact (Keeps.fst (State.escQuiesce_keeps _ _) z6).trans (State.escFabric_keeps _ _)
  · rename_i z11
    exact (Keeps.fst (State.escQuiesce_keeps _ _) z11).trans (State.escalated_keeps _ _ _)

theorem State.escTile_keeps (s : State) (k : Fin 56) : Keeps s (State.escTile s k) := by
  unfold State.escTile
  refine Keeps.ite ?_ ?_
  · exact State.escalated_keeps _ _ _
  · split
    · refine Keeps.ite ?_ ?_
      · exact State.escBoom_keeps _ _
      · split
        · rename_i z7 z8
          exact (Keeps.trans (Keeps.trans (t := z7) (Keeps.fst (State.boomAsk_keeps _ _ _) z8) Keeps.same)
              (State.escalated_keeps _ _ _)).trans (State.escCheck_keeps _ _)
        · rename_i z12
          exact (Keeps.fst (State.boomAsk_keeps _ _ _) z12).trans (State.escalated_keeps _ _ _)
    · exact State.escBoom_keeps _ _

theorem State.escalate_keeps (s : State) (it : FaultItem) : Keeps s (State.escalate s it) := by
  unfold State.escalate
  split
  · exact State.escPartition_keeps _ _
  · exact State.escTile_keeps _ _
  · exact State.escFabric_keeps _ _

theorem State.winClose_keeps (s : State) (it : FaultItem) : Keeps s (State.winClose s it) :=
    Keeps.same

theorem State.ladderFault_keeps (s : State) (it : FaultItem) : Keeps s (State.ladderFault s it) := by
  unfold State.ladderFault
  split
  · exact Keeps.refl _
  · extract_lets x6 x7 x8
    have hx6 : Keeps s x6 := Keeps.trans Keeps.same (State.faultJ_keeps _ _)
    clear_value x6 x7
    have hx8 : Keeps s x8 := hx6.trans (State.winClose_keeps _ _)
    clear_value x8
    exact Keeps.ite ((hx6.trans (State.winClose_keeps _ _)).trans (State.escalate_keeps _ _)) (Keeps.trans (t := x8)
        hx8 Keeps.same)

theorem State.winExpire_keeps (s : State) (it : FaultItem) : Keeps s (State.winExpire s it) :=
    Keeps.ite (Keeps.refl _) (State.winClose_keeps _ _)

theorem State.cntStage_keeps (s : State) (m i : Nat) (v : Word) : Keeps s (State.cntStage s m i v) :=
    Keeps.same

theorem State.cntCommit_keeps (s : State) (m i : Nat) (v : Word) : Keeps s (State.cntCommit s m i v) := by
  unfold State.cntCommit
  extract_lets x1 x2 x3
  clear_value x1
  have hx2 : Keeps s x2 := ((State.cntLose_keeps _ _).trans (State.keepWas_keeps _ _)).trans (State.setCnt_keeps _ _ _)
  clear_value x2 x3
  exact Keeps.trans (t := x2) hx2 Keeps.same

theorem State.cntConfig_keeps (s : State) (i : Nat) (v : Word) : Keeps s (State.cntConfig s i v) := by
  unfold State.cntConfig
  extract_lets x1
  have hx1 : Keeps s x1 := (State.keepWas_keeps _ _).trans (State.wr_keeps _ _ _)
  clear_value x1
  exact Keeps.ite hx1 ((hx1.trans (State.setBit_keeps _ _ _)).trans (State.pageErr_keeps _ _ _))

theorem State.cntRead_keeps (s : State) (m i : Nat) : Keeps s (State.cntRead s m i).2 := by
  rw [State.cntRead.eq_def]
  split
  · dsimp only
    exact Keeps.refl _
  · extract_lets x6 x7
    have hx6 : Keeps s x6 := State.setLatch_keeps _ _ _ _
    clear_value x6
    have hx7 : Keeps s x7 := Keeps.ite ((hx6.trans (State.setLatch_keeps _ _ _ _)).trans (State.setLatch_keeps _ _ _
        _)) (Keeps.ite ((hx6.trans (State.setLatch_keeps _ _ _ _)).trans (State.setLatch_keeps _ _ _ _)) hx6)
    clear_value x7
    dsimp only
    exact hx7

theorem State.tlyClear_keeps (s : State) : Keeps s (State.tlyClear s) := by
  unfold State.tlyClear
  extract_lets x1
  clear_value x1
  exact ⟨rfl, ⟨rfl, rfl, rfl, rfl, rfl, rfl, rfl⟩, fun h => { h with regs := Tbl.wf_keep _ _ _ h.regs }⟩

theorem State.cntOverflow_keeps (s : State) (i add : Nat) : Keeps s (State.cntOverflow s i add) := by
  unfold State.cntOverflow
  extract_lets x1 x2
  clear_value x1 x2
  exact Keeps.ite (State.addCnt_keeps _ _ _) (Keeps.refl _)

theorem State.tlySend_keeps (s : State) (c : TlyCmd) : Keeps s (State.tlySend s c) :=
    Keeps.same

theorem State.tlyZero_keeps (s : State) : Keeps s (State.tlyZero s) :=
    Keeps.same

theorem State.tlyCtrl_keeps (s : State) (v : Word) : Keeps s (State.tlyCtrl s v) := by
  unfold State.tlyCtrl
  extract_lets x1 x2
  have hx1 : Keeps s x1 := State.setFld_keeps _ _ _ _ _
  clear_value x1
  have hx2 : Keeps s x2 := Keeps.ite ((hx1.trans (State.tlyClear_keeps _)).trans (State.tlyZero_keeps _)) hx1
  clear_value x2
  exact hx2.trans (State.tlySend_keeps _ _)

theorem State.tlySnap_keeps (s : State) (v : Word) : Keeps s (State.tlySnap s v) := by
  unfold State.tlySnap
  extract_lets x1
  have hx1 : Keeps s x1 := State.w1c_keeps _ _ _
  clear_value x1
  exact Keeps.ite ((hx1.trans (State.setBit_keeps _ _ _)).trans (State.tlySend_keeps _ _)) hx1

theorem State.snapOne_keeps (s : State) (z : Bool) (i : Nat) : Keeps s (State.snapOne s z i) := by
  rw [State.snapOne.eq_def]
  split
  · exact (State.wr_keeps _ _ _).trans (State.wr_keeps _ _ _)
  · split <;> exact (State.wr_keeps _ _ _).trans (State.wr_keeps _ _ _)

theorem State.snapTiles_keeps (s : State) (z : Bool) : Keeps s (State.snapTiles s z) :=
    Keeps.forN _ _ (fun _ _ => State.snapOne_keeps _ _ _) (Keeps.refl _)

theorem State.snapGlobal_keeps (s : State) (z : Bool) : Keeps s (State.snapGlobal s z) :=
    Keeps.forN _ _ (fun _ _ => State.snapOne_keeps _ _ _) (Keeps.refl _)

theorem State.snapBegun_keeps (s : State) : Keeps s (State.snapBegun s) :=
    Keeps.same

theorem State.snapTime_keeps (s : State) (t : Nat) : Keeps s (State.snapTime s t) :=
    (State.setFld_keeps _ _ _ _ _).trans (State.setFld_keeps _ _ _ _ _)

theorem State.tlyAct_keeps (s : State) (c : TlyCmd) : Keeps s (State.tlyAct s c) := by
  unfold State.tlyAct
  split
  · exact Keeps.same
  · exact Keeps.trans Keeps.same (State.clrBit_keeps _ _ _)
  · exact ((State.snapTiles_keeps _ _).trans (State.snapTime_keeps _ _)).trans (State.snapBegun_keeps _)
  · exact ((State.snapTiles_keeps _ _).trans (State.snapTime_keeps _ _)).trans (State.snapBegun_keeps _)

theorem State.tlyActG_keeps (s : State) (c : TlyCmd) : Keeps s (State.tlyActG s c) := by
  unfold State.tlyActG
  split
  · exact Keeps.trans Keeps.same (State.setBit_keeps _ _ _)
  · exact Keeps.same
  · exact State.snapGlobal_keeps _ _
  · exact State.snapGlobal_keeps _ _

theorem State.tlyFc_keeps (s : State) : Keeps s (State.tlyFc s) :=
    Keeps.foldl _ _ (fun _ _ => State.tlyAct_keeps _ _) Keeps.same

theorem State.tlyApply_keeps (s : State) : Keeps s (State.tlyApply s) := by
  unfold State.tlyApply
  split
  · exact Keeps.refl _
  · exact Keeps.same

theorem State.snapLost_keeps (s : State) : Keeps s (State.snapLost s) := by
  unfold State.snapLost
  extract_lets x1
  clear_value x1
  exact Keeps.forN _ _ (fun _ _ => Keeps.ite ((State.wr_keeps _ _ _).trans (State.wr_keeps _ _ _)) (Keeps.refl _))
      (Keeps.refl _)

theorem State.tlyDone_keeps (s : State) : Keeps s (State.tlyDone s) := by
  unfold State.tlyDone
  split
  · exact Keeps.refl _
  · refine Keeps.ite ?_ ?_
    · exact Keeps.refl _
    · extract_lets x6 x7 x8
      have hx6 : Keeps s x6 := State.snapLost_keeps _
      clear_value x6 x7
      have hx8 : Keeps s x8 := Keeps.trans (t := x6) hx6 Keeps.same
      clear_value x8
      exact (hx8.trans (State.setBit_keeps _ _ _)).trans (State.setFld_keeps _ _ _ _ _)

theorem State.tlyMc_keeps (s : State) : Keeps s (State.tlyMc s) := by
  unfold State.tlyMc
  extract_lets x1 x2 x3
  clear_value x1
  have hx2 : Keeps s x2 := Keeps.foldl _ _ (fun _ _ => State.tlyActG_keeps _ _) Keeps.same
  clear_value x2
  have hx3 : Keeps s x3 := by
    unfold x3
    split
    · exact Keeps.ite (hx2.trans (State.tlyApply_keeps _)) hx2
    · exact hx2
  clear_value x3
  split
  · exact Keeps.ite (hx3.trans (State.tlyDone_keeps _)) hx3
  · exact hx3

theorem State.probeWrite_keeps (s : State) (j : Nat) : Keeps s (State.probeWrite s j) := by
  unfold State.probeWrite
  split
  · exact Keeps.refl _
  · extract_lets x7 x8 x9 x10 x11 x12 x13 x14 x15 x16 x17
    clear_value x7
    have hx8 : Keeps s x8 := Keeps.same
    clear_value x8 x9 x10 x11 x12 x13 x14 x15 x16 x17
    refine Keeps.ite ?_ ?_
    · exact hx8
    · refine Keeps.ite ?_ ?_
      · exact hx8.trans (State.probeDrop_keeps _ _)
      · split
        · exact Keeps.refl _
        · rename_i z21 z22
          extract_lets x23 x24 x25
          clear_value x23
          have hx24 : Keeps s x24 := Keeps.trans (t := z21) (hx8.trans (State.sendVia_keeps _ _ _ _ _ _ _ _ _ _ _ _
              z22)) Keeps.same
          clear_value x24
          have hx25 : Keeps s x25 := hx24.trans (State.wrapFld_keeps _ _ _ _ _)
          clear_value x25
          exact Keeps.ite (hx25.trans (State.setBit_keeps _ _ _)) hx25

theorem State.prbCtrl_keeps (s : State) (j : Nat) (v : Word) : Keeps s (State.prbCtrl s j v) := by
  unfold State.prbCtrl
  extract_lets x1 x2 x3 x4 x5 x6 x7
  clear_value x1 x2
  have hx3 : Keeps s x3 := (State.wr_keeps _ _ _).trans (State.clrBit_keeps _ _ _)
  clear_value x3 x4
  have hx5 : Keeps s x5 := Keeps.trans (t := x3) hx3 Keeps.same
  clear_value x5 x6
  have hx7 : Keeps s x7 := Keeps.trans (t := x5) hx5 Keeps.same
  clear_value x7
  exact Keeps.ite hx5 (Keeps.ite (hx7.trans (State.wr_keeps _ _ _)) hx7)

theorem State.pageRead_keeps (s : State) (m : Nat) (p : Page) (o : Nat) : Keeps s (State.pageRead s m p o).2 := by
  rw [State.pageRead.eq_def]
  extract_lets x1
  clear_value x1
  split
  · dsimp only
    exact Keeps.refl _
  · dsimp only
    exact Keeps.foldl _ _ (fun _ _ => State.setLatch_keeps _ _ _ _) (Keeps.refl _)

theorem State.lockPage_keeps (s : State) (p : Page) : Keeps s (State.lockPage s p) := by
  unfold State.lockPage
  refine Keeps.ite ?_ ?_
  · exact Keeps.refl _
  · refine Keeps.ite ?_ ?_
    · split
      · exact (State.setBit_keeps _ _ _).trans (State.niErr_keeps _ _ _)
      · exact Keeps.refl _
    · exact State.setBit_keeps _ _ _

theorem State.softRst_keeps (s : State) (a : Nat) : Keeps s (State.softRst s a) := by
  unfold State.softRst
  extract_lets x1 x2
  clear_value x1
  have hx2 : Keeps s x2 := (State.w1c_keeps _ _ _).trans (State.wr_keeps _ _ _)
  clear_value x2
  split
  · exact hx2.trans (State.wr_keeps _ _ _)
  · exact ((hx2.trans (State.wr_keeps _ _ _)).trans (State.firstErr_keeps _ _ _)).trans (State.setFld_keeps _ _ _ _ _)

theorem State.pageCtrl_keeps (s : State) (p : Page) (v : Word) : Keeps s (State.pageCtrl s p v) := by
  unfold State.pageCtrl
  extract_lets x1 x2 x3
  clear_value x1
  have hx2 : Keeps s x2 := (State.setFld_keeps _ _ _ _ _).trans (State.seq_keeps _ _)
  clear_value x2
  have hx3 : Keeps s x3 := Keeps.ite (hx2.trans (State.softRst_keeps _ _)) hx2
  clear_value x3
  exact Keeps.ite (hx3.trans (State.lockPage_keeps _ _)) hx3

theorem State.commonWrite_keeps (s : State) (p : Page) (o : Nat) (v : Word) : Keeps s (State.commonWrite s p o v) := by
  unfold State.commonWrite
  extract_lets x1 x2
  clear_value x1
  split
  · exact State.pageCtrl_keeps _ _ _
  · unfold x2
    exact State.w1c_keeps _ _ _
  · exact (State.keepWas_keeps _ _).trans (State.w1c_keeps _ _ _)
  · exact State.wr_keeps _ _ _
  · unfold x2
    exact State.w1c_keeps _ _ _
  · exact State.wr_keeps _ _ _
  · exact State.wr_keeps _ _ _
  · exact Keeps.refl _

theorem State.globalWrite_keeps (s : State) (o : Nat) (v w : Word) : Keeps s (State.globalWrite s o v w) := by
  unfold State.globalWrite
  split
  · exact State.modeRequest_keeps _ _
  · exact State.rstCtrl_keeps _ _
  · exact Keeps.ite (State.featCommit_keeps _) (Keeps.refl _)
  · exact Keeps.same
  · exact (State.keepWas_keeps _ _).trans (State.wr_keeps _ _ _)
  · exact State.wr_keeps _ _ _

theorem State.timeWrite_keeps (s : State) (o : Nat) (v w : Word) : Keeps s (State.timeWrite s o v w) := by
  unfold State.timeWrite
  extract_lets x1 x2 x3
  have hx1 : Keeps s x1 := State.wr_keeps _ _ _
  clear_value x1
  have hx2 : Keeps s x2 := hx1.trans (State.servoWritten_keeps _)
  clear_value x2
  have hx3 : Keeps s x3 := Keeps.ite (hx2.trans (State.rotAcq_keeps _)) hx2
  clear_value x3
  split
  · exact Keeps.ite (hx3.trans (State.setNow_keeps _)) hx3
  · exact hx1.trans (State.incWritten_keeps _ _)
  · exact hx1.trans (State.incWritten_keeps _ _)
  · exact hx1.trans (State.newRate_keeps _)
  · exact hx1

theorem State.tallyWrite_keeps (s : State) (o : Nat) (v w : Word) : Keeps s (State.tallyWrite s o v w) := by
  unfold State.tallyWrite
  extract_lets x1 x2
  clear_value x1
  have hx2 : Keeps s x2 := Keeps.ite (State.filterHold_keeps _ _) (Keeps.refl _)
  clear_value x2
  refine Keeps.ite ?_ ?_
  · exact State.tlyCtrl_keeps _ _
  · refine Keeps.ite ?_ ?_
    · exact State.tlySnap_keeps _ _
    · refine Keeps.ite ?_ ?_
      · split
        · exact State.prbCtrl_keeps _ _ _
        · exact ((State.wr_keeps _ _ _).trans (State.wr_keeps _ _ _)).trans (State.wr_keeps _ _ _)
        · exact (State.wr_keeps _ _ _).trans (State.wr_keeps _ _ _)
        · exact (State.wr_keeps _ _ _).trans (State.wr_keeps _ _ _)
        · exact (State.wr_keeps _ _ _).trans (State.wr_keeps _ _ _)
        · exact State.wr_keeps _ _ _
      · exact (hx2.trans (State.keepWas_keeps _ _)).trans (State.wr_keeps _ _ _)

theorem State.powerWrite_keeps (s : State) (o : Nat) (v w : Word) : Keeps s (State.powerWrite s o v w) := by
  unfold State.powerWrite
  refine Keeps.ite ?_ ?_
  · extract_lets x1
    clear_value x1
    exact (State.boomAsk_keeps _ _ _).trans (State.escCheck_keeps _ _)
  · exact State.wr_keeps _ _ _

theorem State.schedWrite_keeps (s : State) (m o : Nat) (v w : Word) : Keeps s (State.schedWrite s m o v w) := by
  unfold State.schedWrite
  refine Keeps.ite ?_ ?_
  · exact State.offWrite_keeps _ _ _
  · extract_lets x1 x2
    have hx1 : Keeps s x1 := State.wr_keeps _ _ _
    clear_value x1 x2
    split
    · exact hx1.trans (State.swCtrl_keeps _ _ _)
    · exact hx1.trans (State.setTime_keeps _ _)
    · exact Keeps.ite (hx1.trans (State.loadStart_keeps _ _)) hx1
    · exact hx1

theorem State.ldgSelect_keeps (s : State) (n : Nat) (v : Word) : Keeps s (State.ldgSelect s n v) := by
  unfold State.ldgSelect
  extract_lets x1
  clear_value x1
  exact Keeps.forN _ _ (fun _ _ => State.wr_keeps _ _ _) (Keeps.refl _)

theorem State.niWrite_keeps (s : State) (n o : Nat) (v w : Word) : Keeps s (State.niWrite s n o v w) := by
  unfold State.niWrite
  extract_lets x1
  clear_value x1
  split
  · exact ((State.keepWas_keeps _ _).trans (State.wr_keeps _ _ _)).trans (State.arbYield_keeps _ _)
  · exact (State.wr_keeps _ _ _).trans (State.modNi_keeps _ _ _)
  · exact State.modNi_keeps _ _ _
  · exact (State.wr_keeps _ _ _).trans (State.modNi_keeps _ _ _)
  · exact ((State.keepWas_keeps _ _).trans (State.wr_keeps _ _ _)).trans (State.reloadShadow_keeps _ _)
  · exact ((State.keepWas_keeps _ _).trans (State.wr_keeps _ _ _)).trans (State.reloadShadow_keeps _ _)
  · exact State.ldgSelect_keeps _ _ _
  · split
    · exact State.releaseEntry_keeps _ _ _
    · exact Keeps.refl _
  · exact (Keeps.ite (State.keepWas_keeps _ _) (Keeps.refl _)).trans (State.wr_keeps _ _ _)

theorem State.routerWrite_keeps (s : State) (k o : Nat) (v w : Word) : Keeps s (State.routerWrite s k o v w) := by
  unfold State.routerWrite
  extract_lets x1
  clear_value x1
  exact Keeps.ite (Keeps.ite (Keeps.refl _) ((State.keepWas_keeps _ _).trans (State.wr_keeps _ _ _)))
      (State.wr_keeps _ _ _)

theorem State.skidwayWrite_keeps (s : State) (p o : Nat) (v w : Word) : Keeps s (State.skidwayWrite s p o v w) := by
  unfold State.skidwayWrite
  extract_lets x1 x2
  clear_value x1
  have hx2 : Keeps s x2 := State.wr_keeps _ _ _
  clear_value x2
  split
  · exact State.skwCtrl_keeps _ _ _
  · exact Keeps.ite (State.tsClr_keeps _ _) (Keeps.refl _)
  · exact Keeps.ite (hx2.trans (State.laneStep_keeps _ _)) hx2
  · exact State.wr_keeps _ _ _

theorem State.clusterWrite_keeps (s : State) (c o : Nat) (v w : Word) : Keeps s (State.clusterWrite s c o v w) :=
    Keeps.ite (State.setBank_keeps _ _ _) (State.wr_keeps _ _ _)

theorem State.partitionWrite_keeps (s : State) (p o : Nat) (v w : Word) : Keeps s (State.partitionWrite s p o v w) := by
  unfold State.partitionWrite
  refine Keeps.ite ?_ ?_
  · exact State.partCtrl_keeps _ _ _
  · extract_lets x1 x2
    have hx1 : Keeps s x1 := Keeps.ite (State.modPart_keeps _ _ _) (Keeps.refl _)
    clear_value x1 x2
    exact (Keeps.ite (hx1.trans (State.keepWas_keeps _ _)) hx1).trans (State.wr_keeps _ _ _)

theorem State.writeEffect_keeps (s : State) (m : Nat) (p : Page) (o : Nat) (v w : Word) :
    Keeps s (State.writeEffect s m p o v w) := by
  unfold State.writeEffect
  split
  · exact State.globalWrite_keeps _ _ _ _
  · exact State.timeWrite_keeps _ _ _ _
  · extract_lets x19
    have hx19 : Keeps s x19 := State.wr_keeps _ _ _
    clear_value x19
    exact Keeps.ite (hx19.trans (State.wr_keeps _ _ _)) hx19
  · exact State.wr_keeps _ _ _
  · exact Keeps.ite (State.jrnSelect_keeps _ _) (State.wr_keeps _ _ _)
  · exact State.tallyWrite_keeps _ _ _ _
  · exact State.powerWrite_keeps _ _ _ _
  · exact State.schedWrite_keeps _ _ _ _ _
  · exact State.niWrite_keeps _ _ _ _ _
  · exact State.routerWrite_keeps _ _ _ _ _
  · exact State.skidwayWrite_keeps _ _ _ _ _
  · exact State.clusterWrite_keeps _ _ _ _ _
  · exact State.partitionWrite_keeps _ _ _ _ _

theorem State.stateRefused_keeps (s : State) (p : Page) (o : Nat) (v : Word) :
    ∀ t, State.stateRefused s p o v = some t → Keeps s t := by
  intro t h
  unfold State.stateRefused at h
  split at h
  · split at h
    · obtain ⟨k, -, rfl⟩ := Option.map_eq_some_iff.mp h
      exact State.swErr_keeps _ _
    · split at h <;> cases h
      exact State.pageErr_keeps _ _ _
  · split at h <;> cases h
    exact State.pageErr_keeps _ _ _
  · cases h

theorem State.clearBits_keeps (s : State) (p : Page) (o : Nat) (c : Word) : Keeps s (State.clearBits s p o c) := by
  unfold State.clearBits
  extract_lets x1 x2 x3
  clear_value x1 x2
  have hx3 : Keeps s x3 := State.wr_keeps _ _ _
  clear_value x3
  split
  · exact Keeps.ite (hx3.trans (State.setFld_keeps _ _ _ _ _)) hx3
  · exact hx3

theorem State.rowWrite_keeps (s : State) (m : Nat) (p : Page) (o : Nat) (r : RegRow) (v : Word) :
    Keeps s (State.rowWrite s m p o r v).2 := by
  rw [State.rowWrite.eq_def]
  extract_lets x1 x2 x3 x4 x5 x6 x7 x8
  clear_value x1 x2 x3 x4
  have hx5 : Keeps s x5 := Keeps.ite (Keeps.refl _) (State.clearBits_keeps _ _ _ _)
  clear_value x5 x6
  have hx7 : Keeps s x7 := Keeps.ite (hx5.trans (State.varAbandon_keeps _ _)) hx5
  clear_value x7 x8
  split
  · dsimp only
    exact hx5
  · split
    · dsimp only
      exact hx5.trans (State.setBit_keeps _ _ _)
    · split
      · dsimp only
        exact hx5
      · split
        · rename_i z17
          dsimp only
          exact hx5.trans (State.stateRefused_keeps _ _ _ _ _ z17)
        · dsimp only
          exact ((hx7.trans (State.seq_keeps _ _)).trans (State.writeEffect_keeps _ _ _ _ _ _)).trans
              (State.managerWrote_keeps _ _ _)

theorem State.pageWrite_keeps (s : State) (m : Nat) (p : Page) (o : Nat) (v : Word) :
    Keeps s (State.pageWrite s m p o v).2 := by
  rw [State.pageWrite.eq_def]
  split
  · dsimp only
    exact State.commonWrite_keeps _ _ _ _
  · split
    · exact State.rowWrite_keeps _ _ _ _ _ _
    · dsimp only
      exact Keeps.refl _

theorem State.rsCommitBy_keeps (s : State) (m c i : Nat) (v : Word) : Keeps s (State.rsCommitBy s m c i v) := by
  unfold State.rsCommitBy
  extract_lets x1
  clear_value x1
  refine Keeps.ite ?_ ?_
  · split
    extract_lets x6 x7
    have hx6 : Keeps s x6 := Keeps.ite ((State.setBit_keeps _ _ _).trans (State.pageErr_keeps _ _ _)) (Keeps.refl _)
    clear_value x6 x7
    exact hx6.trans (State.setBank_keeps _ _ _)
  · exact State.rsCommit_keeps _ _ _ _

theorem State.ruleCommitBy_keeps (s : State) (m i : Nat) (v : Word) : Keeps s (State.ruleCommitBy s m i v) := by
  unfold State.ruleCommitBy
  refine Keeps.ite ?_ ?_
  · split
    extract_lets x5 x6 x7
    have hx5 : Keeps s x5 := Keeps.ite ((State.setBit_keeps _ _ _).trans (State.pageErr_keeps _ _ _)) (Keeps.refl _)
    clear_value x5
    have hx6 : Keeps s x6 := hx5.trans (State.putRule_keeps _ _ _)
    clear_value x6 x7
    exact Keeps.trans (t := x6) hx6 Keeps.same
  · exact State.ruleCommitOp_keeps _ _ _

theorem State.slotWrite_keeps (s : State) (m a : Nat) (v : Word) : Keeps s (State.slotWrite s m a v) := by
  unfold State.slotWrite
  refine Keeps.ite ?_ ?_
  · refine Keeps.ite ?_ ?_
    · exact Keeps.refl _
    · extract_lets x1 x2
      clear_value x2
      exact (State.wr_keeps _ _ _).trans (State.wr_keeps _ _ _)
  · exact State.tableWrite_keeps _ _ _

theorem State.windowWrite_keeps (s : State) (m : Nat) (w : Window) (a : Nat) (v : Word) :
    Keeps s (State.windowWrite s m w a v) := by
  unfold State.windowWrite
  split
  · extract_lets x16 x17
    clear_value x16 x17
    exact Keeps.ite (State.setBank_keeps _ _ _) (Keeps.ite (State.rsCommitBy_keeps _ _ _ _ _) (Keeps.refl _))
  · extract_lets x18 x19
    clear_value x18 x19
    exact Keeps.ite Keeps.same (Keeps.ite (State.ruleCommitBy_keeps _ _ _ _) (Keeps.refl _))
  · exact Keeps.ite (Keeps.refl _) (State.slotWrite_keeps _ _ _ _)
  · exact Keeps.ite (Keeps.refl _) (State.slotWrite_keeps _ _ _ _)
  · exact State.queueWrite_keeps _ _ _ _
  · split
    · exact State.cntStage_keeps _ _ _ _
    · exact State.cntCommit_keeps _ _ _ _
    · exact State.cntConfig_keeps _ _ _
    · exact State.w1c_keeps _ _ _
  · exact Keeps.refl _

theorem State.windowRead_keeps (s : State) (m : Nat) (w : Window) (a : Nat) : Keeps s (State.windowRead s m w a).2 := by
  rw [State.windowRead.eq_def]
  split
  · split
    dsimp only
    exact State.setBank_keeps _ _ _
  · split
    dsimp only
    exact Keeps.same
  · dsimp only
    exact Keeps.refl _
  · dsimp only
    exact Keeps.refl _
  · dsimp only
    exact Keeps.refl _
  · split
    · exact State.cntRead_keeps _ _ _
    · dsimp only
      exact Keeps.refl _
    · dsimp only
      exact Keeps.refl _
  · dsimp only
    exact Keeps.refl _

theorem State.hlNote_keeps (s : State) (m : Nat) (wr : Bool) (a : Nat) (c : Code) :
    Keeps s (State.hlNote s m wr a c) :=
    Keeps.ite ((State.satFld_keeps _ _ _ _ _).trans (State.hlFirst_keeps _ _ _ _ _ _)) (Keeps.ite
        (State.hlFenced_keeps _ _) (Keeps.ite ((State.satFld_keeps _ _ _ _ _).trans (State.hlFirst_keeps _ _ _ _ _ _))
        (Keeps.refl _)))

theorem State.hlStop_keeps (s : State) (m : Nat) (wr : Bool) (a : Nat) (c : Code) :
    Keeps s (State.hlStop s m wr a c).2 := by
  rw [State.hlStop.eq_def]
  extract_lets x1
  have hx1 : Keeps s x1 := State.hlNote_keeps _ _ _ _ _
  clear_value x1
  dsimp only
  exact Keeps.ite (hx1.trans (State.setFld_keeps _ _ _ _ _)) hx1

theorem State.hlPerform_keeps (s : State) (m : Nat) (wr : Bool) (a : Nat) (v : Word) (a5 : HlSlave) :
    Keeps s (State.hlPerform s m wr a v a5).2 := by
  rw [State.hlPerform.eq_def]
  split
  · split
    · split
      · dsimp only
        exact Keeps.refl _
      · split
        rename_i z13
        dsimp only
        exact Keeps.snd (State.pageWrite_keeps _ _ _ _ _) z13
    · split
      rename_i z17
      dsimp only
      exact Keeps.snd (State.pageRead_keeps _ _ _ _) z17
  · split
    · dsimp only
      exact State.windowWrite_keeps _ _ _ _ _
    · split
      rename_i z23
      dsimp only
      exact Keeps.snd (State.windowRead_keeps _ _ _ _) z23

theorem State.asked_keeps (s : State) (m a : Nat) : Keeps s (State.asked s m a) :=
    Keeps.ite (State.setMarks_keeps _ _) (Keeps.refl _)

theorem State.hlDo_keeps (s : State) (m : Nat) (wr : Bool) (a : Nat) (v : Word) :
    Keeps s (State.hlDo s m wr a v).2 := by
  rw [State.hlDo.eq_def]
  extract_lets x1
  have hx1 : Keeps s x1 := State.asked_keeps _ _ _
  clear_value x1
  split
  · exact hx1.trans (State.hlStop_keeps _ _ _ _ _)
  · split
    · split
      · dsimp only
        exact hx1
      · exact hx1.trans (State.hlStop_keeps _ _ _ _ _)
    · extract_lets x11
      have hx11 : Keeps s x11 := hx1.trans (State.hlPark_keeps _ _ _)
      clear_value x11
      split
      · exact hx11.trans (State.hlStop_keeps _ _ _ _ _)
      · exact hx11.trans (State.hlPerform_keeps _ _ _ _ _ _)

theorem State.fmDo_keeps (s : State) (wr : Bool) (a : Nat) (v : Word) : Keeps s (State.fmDo s wr a v).2 := by
  rw [State.fmDo.eq_def]
  split
  · dsimp only
    exact Keeps.refl _
  · exact State.hlDo_keeps _ _ _ _ _

theorem State.fmWrite_keeps (s : State) (log : Bool) (a : Nat) (v : Word) : Keeps s (State.fmWrite s log a v).2 := by
  rw [State.fmWrite.eq_def]
  extract_lets x1 x2
  clear_value x1 x2
  split
  rename_i z6
  extract_lets x7
  have hx7 : Keeps s x7 := Keeps.ite (((Keeps.snd (State.fmDo_keeps _ _ _ _) z6).trans (State.drawn_keeps _)).trans
      (State.foremanLog_keeps _ _ _ _ _ _)) (Keeps.snd (State.fmDo_keeps _ _ _ _) z6)
  clear_value x7
  dsimp only
  exact Keeps.ite ((hx7.trans (State.satFld_keeps _ _ _ _ _)).trans (State.countG_keeps _ _ _ _)) ((hx7.trans
      (State.satFld_keeps _ _ _ _ _)).trans (State.countG_keeps _ _ _ _))

theorem State.fmRead_keeps (s : State) (a : Nat) : Keeps s (State.fmRead s a).2 := by
  rw [State.fmRead.eq_def]
  extract_lets x1
  clear_value x1
  split
  rename_i z5
  dsimp only
  exact Keeps.ite (Keeps.snd (State.fmDo_keeps _ _ _ _) z5) (((Keeps.snd (State.fmDo_keeps _ _ _ _) z5).trans
      (State.drawn_keeps _)).trans (State.foremanLog_keeps _ _ _ _ _ _))

theorem State.hlForeman_keeps (s : State) (wr : Bool) (a : Nat) (v : Word) : Keeps s (State.hlForeman s wr a v).2 := by
  rw [State.hlForeman.eq_def]
  split
  · split
    rename_i z6
    dsimp only
    exact Keeps.snd (State.fmWrite_keeps _ _ _ _) z6
  · exact State.fmRead_keeps _ _

theorem State.hlIssue_keeps (s : State) (m : Nat) (wr : Bool) (a : Nat) (v : Word) :
    Keeps s (State.hlIssue s m wr a v).2 := by
  rw [State.hlIssue.eq_def]
  split
  · exact State.hlForeman_keeps _ _ _ _
  · exact State.hlDo_keeps _ _ _ _ _

theorem State.hlTaken_keeps (s : State) (m : Nat) : Keeps s (State.hlTaken s m) := by
  unfold State.hlTaken
  exact ⟨rfl, ⟨rfl, rfl, rfl, rfl, rfl, rfl, rfl⟩, fun h => { h with hlAns := Tbl.wf_set _ m [] s.hlAns h.hlAns }⟩

theorem State.hlTry_keeps (s : State) (i : Nat) : Keeps s (State.hlTry s i) := by
  unfold State.hlTry
  split
  · exact Keeps.refl _
  · refine Keeps.ite ?_ ?_
    · exact Keeps.refl _
    · refine Keeps.ite ?_ ?_
      · exact Keeps.same
      · split
        rename_i z8 z9
        exact Keeps.trans (t := z8) (Keeps.snd (State.hlIssue_keeps _ _ _ _ _) z9) Keeps.same

theorem hlDeliver_keeps (a0 : List HlPend) (a1 : State) (a2 : List HlPend) : Keeps a1 (hlDeliver a0 a1 a2) := by
  induction a0 generalizing a1 a2 with
  | nil => exact Keeps.same
  | cons e t ih =>
    unfold hlDeliver
    split
    · split
      · exact ih _ _
      · exact (State.hlReturn_keeps _ _ _).trans (ih _ _)
    · exact ih _ _

theorem State.hlRun_keeps (s : State) : Keeps s (State.hlRun s) := by
  unfold State.hlRun
  extract_lets x1
  have hx1 : Keeps s x1 := Keeps.foldl _ _ (fun _ _ => State.hlTry_keeps _ _) (Keeps.refl _)
  clear_value x1
  exact hx1.trans (hlDeliver_keeps _ _ _)

theorem State.hlAccess_keeps (s : State) (m : Nat) (wr : Bool) (a : Nat) (v : Word) :
    Keeps s (State.hlAccess s m wr a v) := by
  unfold State.hlAccess
  refine Keeps.ite ?_ ?_
  · exact Keeps.refl _
  · refine Keeps.ite ?_ ?_
    · split
      rename_i z4
      exact ((Keeps.snd (State.hlIssue_keeps _ _ _ _ _) z4).trans (State.hlTaken_keeps _ _)).trans
          (State.hlReturn_keeps _ _ _)
    · refine Keeps.ite ?_ ?_
      · exact Keeps.refl _
      · extract_lets x5 x6
        clear_value x5
        have hx6 : Keeps s x6 := State.hlTaken_keeps _ _
        clear_value x6
        exact Keeps.trans (Keeps.trans (t := x6) hx6 Keeps.same) (State.hlRun_keeps _)

theorem State.hlHang_keeps (s : State) (m : Nat) : Keeps s (State.hlHang s m) := by
  unfold State.hlHang
  refine Keeps.ite ?_ ?_
  · exact Keeps.refl _
  · split
    · exact Keeps.refl _
    · split
      · exact Keeps.refl _
      · split
        rename_i z13 z14
        exact Keeps.trans (Keeps.trans (t := z13) (Keeps.snd (State.hlStop_keeps _ _ _ _ _) z14) Keeps.same)
            (State.hlRun_keeps _)

theorem State.aperture_keeps (s : State) (m : Nat) (wr : Bool) (a size : Nat) (v : Word) :
    Keeps s (State.aperture s m wr a size v) := by
  unfold State.aperture
  refine Keeps.ite ?_ ?_
  · exact State.hlAccess_keeps _ _ _ _ _
  · extract_lets x1 x2
    clear_value x1
    have hx2 : Keeps s x2 := State.hlTaken_keeps _ _
    clear_value x2
    exact Keeps.ite (Keeps.refl _) (Keeps.ite ((State.hlTaken_keeps _ _).trans (State.hlReturn_keeps _ _ _))
        (Keeps.ite (Keeps.refl _) (Keeps.trans (Keeps.trans (t := x2) hx2 Keeps.same) (State.hlRun_keeps _))))

theorem State.regWrite_keeps (s : State) (m : Master) (a : Nat) (v : Word) : Keeps s (State.regWrite s m a v) :=
    State.aperture_keeps _ _ _ _ _ _

theorem State.regGet_keeps (s : State) (m : Master) (a : Nat) : Keeps s (State.regGet s m a) :=
    State.aperture_keeps _ _ _ _ _ _

theorem State.variantStep_keeps (s : State) : Keeps s (State.variantStep s) := by
  unfold State.variantStep
  split
  · exact Keeps.refl _
  · refine Keeps.ite ?_ ?_
    · exact Keeps.refl _
    · extract_lets x6
      clear_value x6
      refine Keeps.ite ?_ ?_
      · exact State.foremanLog_keeps _ _ _ _ _ _
      · split
        rename_i z9 z10
        exact Keeps.ite (Keeps.trans (Keeps.trans (t := z9) (Keeps.snd (State.fmWrite_keeps _ _ _ _) z10)
            Keeps.same) (State.setBit_keeps _ _ _)) (Keeps.ite (Keeps.trans (t := z9) (Keeps.snd (State.fmWrite_keeps _
            _ _ _) z10) Keeps.same) (Keeps.snd (State.fmWrite_keeps _ _ _ _) z10))

theorem Eval.ite_keeps {s : State} {c : Prop} [Decidable c] {x y : Eval} (hx : Keeps s x.s) (hy : Keeps s y.s) :
    Keeps s (if c then x else y).s := by
  split <;> assumption

theorem Eval.act_keeps (e : Eval) (a hi : Nat) (w : Word) (new : Nat) (raise : Bool) :
    Keeps e.s (e.act a hi w new raise).s :=
  Eval.ite_keeps (Keeps.refl _) (Keeps.ite (State.foremanLog_keeps _ _ _ _ _ _) (State.fmWrite_keeps _ _ _ _))

theorem Eval.with_keeps (e : Eval) (a : Nat) (f : Eval → Word → Eval) (hf : ∀ e w, Keeps e.s (f e w).s) :
    Keeps e.s (e.with_ a f).s := by
  have h := State.fmRead_keeps e.s a
  exact Eval.ite_keeps (Keeps.refl _) (Eval.ite_keeps (h.trans (hf { e with s := _ } _)) h)

theorem Eval.tickets_keeps (e : Eval) (t i : Nat) : Keeps e.s (e.tickets t i).s :=
  Eval.with_keeps _ _ _ fun _ _ => Eval.ite_keeps (Keeps.refl _) (Eval.with_keeps _ _ _ fun _ _ =>
    Eval.ite_keeps (Eval.act_keeps _ _ _ _ _ _) (Eval.ite_keeps (Eval.act_keeps _ _ _ _ _ _) (Keeps.refl _)))

theorem Eval.foldl_keeps {α : Type} (f : Eval → α → Eval) (hf : ∀ e x, Keeps e.s (f e x).s) (l : List α) (e : Eval) :
    Keeps e.s (l.foldl f e).s := by
  induction l generalizing e with
  | nil => exact Keeps.refl _
  | cons x l ih => exact (hf e x).trans (ih _)

theorem Eval.ticketsAt_keeps (e : Eval) (t : Nat) : Keeps e.s (e.ticketsAt t).s :=
  Eval.with_keeps _ _ _ fun _ _ =>
    Eval.ite_keeps (Eval.foldl_keeps _ (fun e i => Eval.tickets_keeps e t i) _ _) (Keeps.refl _)

theorem Eval.throttle_keeps (e : Eval) (n : Nat) : Keeps e.s (e.throttle n).s :=
  Eval.with_keeps _ _ _ fun _ _ =>
    Eval.ite_keeps (Eval.act_keeps _ _ _ _ _ _) (Eval.ite_keeps (Eval.act_keeps _ _ _ _ _ _) (Keeps.refl _))

theorem Eval.raise_keeps (e : Eval) (n : Nat) : Keeps e.s (e.raise n).s :=
  Eval.with_keeps _ _ _ fun _ _ => Eval.with_keeps _ _ _ fun _ _ =>
    Eval.ite_keeps (Eval.act_keeps _ _ _ _ _ _) (Eval.ite_keeps (Eval.act_keeps _ _ _ _ _ _) (Keeps.refl _))

theorem State.evalActs_keeps (u : State) (nis : List Nat) : Keeps u (u.evalActs nis) := by
  let e0 : Eval := { s := u, stop := u.fld FM_CTRL 15 8 = 0 }
  have h1 := Eval.foldl_keeps (fun e n => e.ticketsAt n) (fun e n => Eval.ticketsAt_keeps e n) nis e0
  have h2 := Eval.foldl_keeps (fun e n => e.throttle n) (fun e n => Eval.throttle_keeps e n)
    (nis.filter fun n => Config.niKind n ≠ .kni) (nis.foldl (fun e n => e.ticketsAt n) e0)
  unfold State.evalActs
  refine h1.trans (h2.trans ?_)
  dsimp only
  generalize List.foldl (fun (e : Eval) n => e.throttle n) _ _ = e
  have h3 := Eval.ite_keeps (c := e.s.feat fDEVLOAD = true)
    (Eval.foldl_keeps (fun e n => e.raise n) (fun e n => Eval.raise_keeps e n)
    (nis.filter fun n => Config.niKind n = .pni) e) (Keeps.refl e.s)
  exact Keeps.ite h3 (h3.trans (State.variantStep_keeps _))

theorem State.evaluate_keeps (s : State) : Keeps s (State.evaluate s) := by
  unfold State.evaluate
  refine Keeps.ite ?_ ?_
  · exact Keeps.refl _
  · extract_lets x1 x2
    clear_value x1
    have hx2 : Keeps s x2 := Keeps.same
    clear_value x2
    exact Keeps.ite hx2 ((hx2.trans (State.setFld_keeps _ _ _ _ _)).trans (State.evalActs_keeps _ _))

theorem State.loadEnded_keeps (s : State) (image : List (BitVec 8)) (xcode : Code) :
    Keeps s (State.loadEnded s image xcode) := by
  unfold State.loadEnded
  refine Keeps.ite ?_ ?_
  · exact Keeps.refl _
  · extract_lets x1 x2 x3 x4 x5 x6 x7
    clear_value x1 x2
    have hx3 : Keeps s x3 := State.loadDone_keeps _ _ _
    clear_value x3
    have hx4 : Keeps s x4 := hx3.trans (State.foremanLog_keeps _ _ _ _ _ _)
    clear_value x4 x5
    have hx6 : Keeps s x6 := hx4.trans (State.varAbandon_keeps _ _)
    clear_value x6 x7
    exact Keeps.ite hx3 (Keeps.ite (Keeps.trans (t := x4) hx4 Keeps.same) (Keeps.trans (t := x6) hx6 Keeps.same))

theorem State.variantArm_keeps (s : State) : Keeps s (State.variantArm s) := by
  unfold State.variantArm
  refine Keeps.ite ?_ ?_
  · exact Keeps.refl _
  · extract_lets x1
    clear_value x1
    split
    rename_i z5
    split
    rename_i z9
    split
    rename_i z13
    refine Keeps.ite ?_ ?_
    · exact (Keeps.snd ((Keeps.snd ((Keeps.snd (State.fmWrite_keeps _ _ _ _) z5).trans (State.fmWrite_keeps _ _ _
          _)) z9).trans (State.fmWrite_keeps _ _ _ _)) z13).trans (State.varAbandon_keeps _ _)
    · split
      rename_i z16 z17
      exact Keeps.ite (Keeps.trans (Keeps.trans (t := z16) (Keeps.snd ((Keeps.snd ((Keeps.snd ((Keeps.snd
          (State.fmWrite_keeps _ _ _ _) z5).trans (State.fmWrite_keeps _ _ _ _)) z9).trans (State.fmWrite_keeps _ _ _
          _)) z13).trans (State.fmWrite_keeps _ _ _ _)) z17) Keeps.same) (State.clrBit_keeps _ _ _)) ((Keeps.snd
          ((Keeps.snd ((Keeps.snd ((Keeps.snd (State.fmWrite_keeps _ _ _ _) z5).trans (State.fmWrite_keeps _ _ _ _))
          z9).trans (State.fmWrite_keeps _ _ _ _)) z13).trans (State.fmWrite_keeps _ _ _ _)) z17).trans
          (State.varAbandon_keeps _ _))

theorem State.countCycles_keeps (s : State) : Keeps s (State.countCycles s) := by
  unfold State.countCycles
  extract_lets x1
  have hx1 : Keeps s x1 := Keeps.forN _ _ (fun _ _ => Keeps.ite (State.countR_keeps _ _ _ _ _) (Keeps.refl _))
      (Keeps.refl _)
  clear_value x1
  exact Keeps.forN _ _ (fun _ _ => Keeps.ite (State.countN_keeps _ _ _ _ _) (Keeps.refl _)) hx1

theorem State.returnCredits_keeps (s : State) :
    Keeps s { s with fc := s.fc + 1, ni := Tbl.mapWith (fun _ => {}) (fun _ x => x.returnCredit) s.ni } :=
  ⟨rfl, ⟨rfl, rfl, rfl, rfl, rfl, rfl, rfl⟩, fun h => { h with ni := Tbl.wf_mapWith _ _ _ h.ni }⟩

theorem State.fclkEdge_keeps (s : State) : Keeps s (State.fclkEdge s) := by
  unfold State.fclkEdge
  have h := ((State.returnCredits_keeps s).trans (State.rotStep_keeps _)).trans (State.tlyFc_keeps _)
  exact Keeps.ite (Keeps.refl _) (Keeps.ite (Keeps.forN _ _ (fun p u => State.releaseSlots_keeps u p)
    (h.trans (State.countCycles_keeps _))) h)

theorem State.mclkEdge_keeps (s : State) : Keeps s (State.mclkEdge s) := by
  unfold State.mclkEdge
  extract_lets x1 x2
  have hx1 : Keeps s x1 := Keeps.same
  clear_value x1
  have hx2 : Keeps s x2 := hx1.trans (State.tlyMc_keeps _)
  clear_value x2
  exact Keeps.ite hx2 ((((hx2.trans (State.countG_keeps _ _ _ _)).trans (State.boomEvent_keeps _)).trans
      (State.logFlush_keeps _)).trans (State.glnFlush_keeps _))

theorem State.mclkBack_keeps (s : State) : Keeps s (State.mclkBack s) :=
    Keeps.ite (Keeps.trans Keeps.same (State.drawn_keeps _)) (Keeps.refl _)

theorem State.mclkRun_keeps (s : State) : Keeps s (State.mclkRun s) := by
  unfold State.mclkRun
  extract_lets x1 x2
  have hx1 : Keeps s x1 := State.mclkBack_keeps _
  clear_value x1 x2
  exact Keeps.ite hx1 (Keeps.ite (Keeps.trans (Keeps.trans (t := x1) hx1 Keeps.same) (State.mclkEdge_keeps _))
      (Keeps.trans (t := x1) hx1 Keeps.same))

theorem State.tclkRun_keeps (s : State) : Keeps s (State.tclkRun s) := by
  unfold State.tclkRun
  extract_lets x1 x2
  clear_value x1
  have hx2 : Keeps s x2 := Keeps.same
  clear_value x2
  exact Keeps.ite (Keeps.ite hx2 (hx2.trans (State.tclkEdge_keeps _))) Keeps.same

theorem State.warmTimer_keeps (s : State) : Keeps s (State.warmTimer s) := by
  unfold State.warmTimer
  split
  · exact Keeps.ite (State.tryLeave_keeps _) (Keeps.refl _)
  · exact Keeps.refl _

theorem tick_keeps (s : State) : Keeps s (tick s) :=
    Keeps.ite (Keeps.refl _) (Keeps.ite (Keeps.ite ((State.mclkRun_keeps _).trans (State.warmTimer_keeps _))
        (Keeps.refl _)) ((((State.fclkEdge_keeps _).trans (State.mclkRun_keeps _)).trans (State.tclkRun_keeps _)).trans
        (State.warmTimer_keeps _)))

end Sys2Proof.Machine
end

