-- ==== Sys2Proof/Laws/Pins.lean ====
section
/-! SUPPORT. What the operations that move a pin keep: the queue, and a sound state. -/

namespace Sys2Proof.Machine
set_option Elab.async false

/-- The queue of `s` is unchanged in `t`, and `t` is sound where `s` is. -/
structure Holds (s t : State) : Prop where
  pending : t.pending = s.pending
  sound   : s.Sound → t.Sound

theorem Keeps.holds {s t : State} (h : Keeps s t) : Holds s t := ⟨h.pending, h.sound⟩

theorem Holds.refl (s : State) : Holds s s := ⟨rfl, id⟩

theorem Holds.trans {s t u : State} (h : Holds s t) (k : Holds t u) : Holds s u :=
  ⟨k.pending.trans h.pending, fun x => k.sound (h.sound x)⟩

theorem Holds.ite {s t u : State} {c : Prop} [Decidable c] (h : Holds s t) (k : Holds s u) :
    Holds s (if c then t else u) := by
  split <;> assumption

theorem State.offState_holds (s : State) : Holds s s.offState :=
  s.coldState_keeps.holds.trans
    ⟨rfl, fun h => by cases h; constructor <;> assumption⟩

theorem State.powerUp_holds (s : State) : Holds s s.powerUp :=
  Holds.ite (Holds.refl _) (s.offState_holds.trans
    ⟨rfl, fun h => by cases h; constructor <;> assumption⟩)

/-- A change of the cold reset pin. -/
theorem State.coldPin_holds (s : State) (b : Bool) : Holds s { s with coldPin := b } :=
  ⟨rfl, fun h => by cases h; constructor <;> assumption⟩

/-- A change of the warm reset pin. -/
theorem State.warmPin_holds (s : State) (b : Bool) : Holds s { s with warmPin := b } :=
  ⟨rfl, fun h => by cases h; constructor <;> assumption⟩

/-- A change of the NI_ALIVE pins. -/
theorem State.niAlive_holds (s : State) (v : BitVec 80) : Holds s { s with niAlive := v } :=
  ⟨rfl, fun h => by cases h; constructor <;> assumption⟩

/-- A change of the QUIESCE_REQ pins. -/
theorem State.quiesceReq_holds (s : State) (v : BitVec 80) : Holds s { s with quiesceReq := v } :=
  ⟨rfl, fun h => by cases h; constructor <;> assumption⟩

theorem State.coldAssert_holds (s : State) : Holds s s.coldAssert :=
  (s.coldPin_holds true).trans (Holds.ite (Holds.refl _)
    ((State.coldState_keeps _).trans (State.setFld_keeps _ _ _ _ _)).holds)

theorem State.coldRelease_holds (s : State) : Holds s s.coldRelease :=
  (s.coldPin_holds false).trans (State.tryLeave_keeps _).holds

theorem State.warmAssert_holds (s : State) : Holds s s.warmAssert :=
  (s.warmPin_holds true).trans (Holds.ite (Holds.refl _) (State.warmReset_keeps _ _).holds)

theorem State.warmRelease_holds (s : State) : Holds s s.warmRelease :=
  (s.warmPin_holds false).trans (State.tryLeave_keeps _).holds

theorem State.efuseProgram_holds (s : State) (pgm : Bool) (img : FuseImage) : Holds s (s.efuseProgram pgm img) :=
  Holds.ite ⟨rfl, fun h => by cases h; constructor <;> assumption⟩ (Holds.refl _)

theorem State.aliveRise_holds (s : State) (n : Nat) : Holds s (s.aliveRise n) :=
  Holds.ite (Holds.refl _) ((s.niAlive_holds _).trans
    (Holds.ite (State.modNi_keeps _ _ _).holds ((State.modNi_keeps _ _ _).holds.trans
      (Holds.ite (State.quiesceReq_holds _ _) (Holds.refl _)))))

theorem State.aliveFall_holds (s : State) (n : Nat) : Holds s (s.aliveFall n) := by
  refine Holds.ite (Holds.refl _) ((s.niAlive_holds (putBit s.niAlive n false)).trans ?_)
  refine (State.modNi_keeps _ _ _).holds.trans (Holds.ite (State.modNi_keeps _ _ _).holds ?_)
  refine Keeps.holds ?_
  refine Keeps.trans ?_ (State.releases_keeps _ _)
  refine Keeps.forN _ _ (fun _ u => State.arbYield_keeps u _) ?_
  refine Keeps.forN _ _ (fun _ u => State.modNi_keeps u _ _) ?_
  refine Keeps.trans ?_ (State.modNi_keeps _ _ _)
  refine Keeps.foldl _ _ (fun u _ => State.rsvClr_keeps u _ _) ?_
  exact ((State.modNi_keeps _ _ _).trans (State.squashQueues_keeps _ _)).trans (State.dropUnitWork_keeps _ _)

end Sys2Proof.Machine
end

