-- ==== Sys2Proof/Tests/Slice0.lean ====
section
/-! SUPPORT. Tests of the model: an ill-formed operand for each check of WellFormed, for each obligation states and operands
that meet the hypotheses of each of its clauses, and single steps whose results come from the worked examples and tables of
spec/. -/

namespace Sys2Proof.Tests
set_option Elab.async false
open Sys2Proof Sys2Proof.Machine

/-! Helpers -/

/-- A state of a powered instance in DYNAMIC, out of reset, with the registers `r`. -/
def up (r : List (Nat × Word) := []) : State := { pwrOk := true, mode := .dynamic, fc := 100000, mc := 40000, regs := r }

/-- What `State.Serves` asks for, as a check. -/
def okServes (s : State) (m : Master) (wr : Bool) (a : Nat) (t : HlSlave) : Bool :=
  s.pwrOk && decide (s.held = none) && decide (s.mode ≠ .off) && !s.fclkDead && !s.mclkOff && decide (s.hlPend = []) &&
  !s.hung.contains (a / 0x1000) && hlPath m.val wr t && !(s.dom t.domain).cut && decide (m ≠ 5)

theorem serves_of {s : State} {m : Master} {wr : Bool} {a : Nat} {t : HlSlave} (h : okServes s m wr a t = true) :
    s.Serves m wr a t := by
  simp only [okServes, Bool.and_eq_true, decide_eq_true_eq, Bool.not_eq_true'] at h
  constructor <;> tauto

theorem takes_of {s : State} {m : Master} {p : Page} {o : Nat}
    (h : (okServes s m true (pageBase p + o) (.page p o) && s.rbit (pageBase p + 0x10) 0) = true) : s.Takes m p o := by
  rw [Bool.and_eq_true] at h
  exact ⟨serves_of h.1, h.2⟩

/-- What `State.Sound` asks for, as a check. -/
def okSound (s : State) : Bool :=
  Tbl.wf resetWord s.regs && Tbl.wf (fun _ => none) s.latches && Tbl.wf (fun _ => []) s.hlAns && Tbl.wf (fun _ => {}) s.banks &&
  Tbl.wf (fun _ => 0) s.flows && Tbl.wf (fun _ => {}) s.ni && Tbl.wf (fun _ => {}) s.rtr && Tbl.wf (fun _ => []) s.links &&
  Tbl.wf (fun _ => []) s.creds && Tbl.wf (fun _ => {}) s.skw && Tbl.wf (fun _ => {}) s.parts && Tbl.wf (fun _ => {}) s.boom &&
  Tbl.wf (fun _ => {}) s.jring && decide (s.jq.length ≤ 64)

theorem sound_of {s : State} (h : okSound s = true) : s.Sound := by
  simp only [okSound, Bool.and_eq_true, decide_eq_true_eq] at h
  constructor <;> tauto

/-- What holds of an option's value, as a check. -/
theorem of_all {α : Type} {o : Option α} {p : α → Prop} [DecidablePred p] (h : o.all (fun a => decide (p a)) = true) :
    ∀ a, o = some a → p a := by
  rintro a rfl
  simpa using h

/-- A state in FUSE. -/
def fusing : State := { pwrOk := true, mode := .fuse }
/-- A state in TEST. -/
def testing : State := { pwrOk := true, mode := .test }
/-- A state with the slot schedules active, in LOADED. -/
def loaded : State := { up [(FEAT_ACTIVE_LO, 1), (TIME_STAT, 8), (SW_TGT_LO, 10000000), (SW_STAT, 1)] with mode := .scheduled }
/-- The same with SW_STAT at `st`. -/
def switching (st : Word) : State := { up [(FEAT_ACTIVE_LO, 1), (SW_STAT, st)] with mode := .scheduled }
/-- Eight credits of every class. -/
def eight : Tbl Nat := (List.range 16).map fun c => (c, 8)
/-- `up` with the unit of NI `n` attached, the state `x` of that NI and the registers `r`. -/
def atNi (n : Nat) (x : Ni := {}) (r : List (Nat × Word) := []) : State :=
  { up r with niAlive := BitVec.ofNat 80 (2 ^ n), ni := [(n, { x with started := true, inStart := eight, inCred := eight })] }
/-- A packet of one flit with the sidecar `sc`. -/
def pkt1 (cls : BitVec 4) (sc : BitVec 128) (src : NodeId := 5) (tag : BitVec 12 := 0) (dst : NodeId := 3) : HPkt :=
  { hdr := mkHdr cls false 0 0 src dst 0 tag 0, body := [(sc, 0)] }
/-- Queue 0 of MNI 0 is descriptor 0. -/
def q76 : List (Nat × Word) := [(INJ_QBASE 76, 0x00010000), (QD 0 0, 0x8000004C), (QD 0 1, 0x00400001)]
/-- A MemRd for node 0. -/
def rd76 : Msg := { cls := 0, hdr := setOpc 0 1, node := 0x400 }
/-- The combined store of the witness of CombinedStores, and its state. -/
def stM : Msg := { cls := 1, hdr := setOpc 0 1, comb := true, bmask := 1, node := 0x400 }
def stS : State := atNi 76 {} ([(MODE_CFG, 1), (FEAT_ACTIVE_LO, 0x180), (WCB_CTRL 76, 0x101)] ++ q76)
/-- What `State.MaySend` asks for, as a check. -/
def okMaySend (s : State) (n : Nat) : Bool :=
  okSound s && s.runs (niTile n) && decide ((s.niOf n).sentFc ≠ s.fc + 1) && decide ((s.niOf n).credFly = []) &&
  (s.niOf n).holds.all (fun r => !r.granted) && decide ((s.niOf n).schRest = []) && (s.niBank n).isNone &&
  (decide (n < 81) || decide ((s.skwOf (n - 81)).schCur = none))

theorem maySend_of {s : State} {n : Nat} (h : okMaySend s n = true) : s.MaySend n := by
  simp only [okMaySend, Bool.and_eq_true, Bool.or_eq_true, decide_eq_true_eq, Option.isNone_iff_eq_none, List.all_eq_true, Bool.not_eq_true'] at h
  obtain ⟨h, sk⟩ := h
  refine ⟨sound_of ?_, ?_, ?_, ?_, ?_, ?_, ?_, fun k => sk.resolve_left (by omega)⟩ <;> tauto

/-- Queue 0 of MNI 0, in RESERVED. -/
def ring76 (x : Ni) : State := { atNi 76 x q76 with mode := .reserved }
/-- A waiting MemRd for node 5. -/
def it76 : QItem := { opc := 1, key := .node 5 }
/-- The same, held since fc 7 with an older fence mask. -/
def it76h : QItem := { it76 with held := some 7, mask := 1 }
theorem it76_builds : ∀ x ∈ [it76, it76h], (ring76 { queues := [(0, [x])] }).Builds 76 0 0 x ((ring76 { queues := [(0, [x])] }).resolve 76 x) := by
  simp only [List.forall_mem_cons, List.not_mem_nil, false_imp_iff, implies_true, and_true]
  constructor <;> constructor <;> first | rfl | decide +kernel

/-- A MemRd packet for node 5. -/
def pk : Pkt := { hdr := mkHdr cREQ false 0 0 76 5 0 0 0, body := [(setOpc 0 1, 0)] }
/-- It, waiting in the queue of the fabric's own requests at MNI 0. -/
def inj76 : State := atNi 76 { queues := [(256, [{ opc := 1, owner := .sideband, pkt := some pk }])], ledger := [(0, { st := .notStarted })] }
theorem inj76_heads (j i : Nat) (it : QItem) (p : Pkt) (h : inj76.headOf 76 j = some (i, it, p)) :
    (inj76.niOf 76).routeHeld it p = false ∧ (inj76.ready 76 j it p = true → inj76.eligible 76 j = true) := by
  by_cases hj : j = 256
  · subst hj
    have e : inj76.headOf 76 256 = some (0, { opc := 1, owner := .sideband, pkt := some pk }, pk) := by decide +kernel
    rw [e] at h
    cases h
    exact ⟨by decide +kernel, by decide +kernel⟩
  · have e : (inj76.niOf 76).queue j = [] := by
      show Tbl.get (fun _ => []) [(256, _)] j = []
      simp [Tbl.get, Ne.symm hj]
    simp [State.headOf, e] at h
/-- The slot schedules active and flow 5 due at MNI 0, with a packet of the flow waiting. -/
def sch76 : State :=
  let s := atNi 76 { queues := [(0, [{ opc := 1, flow := some 5, pkt := some pk }])], ledger := [(0, { st := .notStarted })] }
    [(FEAT_ACTIVE_LO, 1), (INJE 76 0 0, 0x8005), (INJE 76 0 0 + 0x2000, BitVec.ofNat 32 (injCheck 0x8005))]
  { s with mode := .scheduled }
/-- A flit of a packet from MNI 0 to NI 5, and it due at a link's far end. -/
def fl : Flit := mkFlit pk.hdr (setOpc 0 1) 0
def onLink (l : Nat) : State := { up with links := [(l, [{ flit := fl, due := 7 }])] }
/-- Input 0, VC 0 of router `k` with `fl` as its only flit, routed to output 1. -/
def inVc (k : Nat) : State := { up with rtr := [(k, { vcs := [(0, { flits := [{ flit := fl, la := 1 }] })] })] }
/-- The Ehrup bridge enabled, with the entries `l` and the packets `g` in its Granary. -/
def eh (l : Lni) (g : List HPkt) : State := { up [(EH_CTRL 80, 1)] with lni := l, ni := [(80, { gran := g })] }
/-- A register access of four bytes at Ehrup address 0x100. -/
def ehPkt (opc : BitVec 8) (size : BitVec 68) : HPkt := pkt1 cMGT (mkMgt opc 0x100 0 0 size) 76 5 80
/-- The read entry of `ehPkt 1 4`. -/
def ehE : EhRead := { hdr := (ehPkt 1 4).hdr, addr := 0x100, sent := true }
theorem eh_read0 {e : EhRead} {g : List HPkt} (j : Nat) (x : EhRead) (hj : j ≠ 0)
    (h : (eh { reads := [(0, some e)] } g).lni.read j = some x) : False := by
  have e0 : (eh { reads := [(0, some e)] } g).lni.read j = none := by
    show Tbl.get (fun _ => none) [(0, some e)] j = none
    simp [Tbl.get, Ne.symm hj]
  rw [e0] at h
  cases h
/-- Skidway port 0 with SKW_STAT at `st` and the state `x`. -/
def sk (st : Word) (x : Skw := {}) : State := { up [(FEAT_ACTIVE_LO, 0x1010), (SKW_STAT 0, st)] with skw := [(0, x)] }
/-- A scheduled flit of flow 5 that entered in this fc, with its position. -/
def skY (pb : Option Nat) : SkSched := { flit := mkFlit (mkHdr cREQ true 5 0 200 5 0 0 0) (setOpc 0 1) 0, fc := 100000, pb := pb }
/-- A port in ACTIVE with a scheduled flit of flow 5, which enters there, and the flow's injection entry at position `q`. -/
def skSch (q : Nat) : State :=
  { up [(FEAT_ACTIVE_LO, 0x11), (INJE 81 0 q, 0x8005), (INJE 81 0 q + 0x2000, BitVec.ofNat 32 (injCheck 0x8005)), (SKW_STAT 0, 5)] with
    mode := .scheduled, flows := [(5, BitVec.ofNat 256 (2 ^ 24 + 2 ^ 26 + 81 * 2 ^ 16))],
    skw := [(0, { sched := [skY (some (if q = 0 then 100000 else 99990))] })] }
/-- A packet from the peer for NI 5. -/
def skRx : SkRx := { hdr := mkHdr cREQ false 0 0 200 5 0 0 0, body := [(setOpc 0 1, 0)] }
/-- A loaded frame with one flit in slot 0. -/
def skF : Frame := Frame.sealed { slots := some fl :: List.replicate 11 none, fcw := 1 }
theorem crcByte_lt (c : Nat) (b : BitVec 8) (h : c < 2 ^ 32) : crcByte c b < 2 ^ 32 := by
  have hf : ∀ x, x < 2 ^ 32 → (if x % 2 = 1 then (x / 2) ^^^ 0x82F63B78 else x / 2) < 2 ^ 32 := by
    intro x hx
    split
    · exact Nat.xor_lt_two_pow (by omega) (by decide)
    · omega
  exact hf _ (hf _ (hf _ (hf _ (hf _ (hf _ (hf _ (hf _ (Nat.xor_lt_two_pow h (by have := b.isLt; omega)))))))))
theorem crc32c_lt (l : List (BitVec 8)) : crc32c l < 2 ^ 32 := by
  have h : ∀ (l : List (BitVec 8)) c, c < 2 ^ 32 → l.foldl crcByte c < 2 ^ 32 := by
    intro l
    induction l with
    | nil => exact fun _ h => h
    | cons b l ih => exact fun c h => ih _ (crcByte_lt c b h)
  exact Nat.xor_lt_two_pow (h l _ (by decide)) (by decide)
/-- A sealed frame is good. -/
theorem sealed_good (f : Frame) : f.sealed.good = true := by
  have e : f.sealed.fcw.toNat % 2 ^ 224 = f.fcw.toNat % 2 ^ 224 :=
    getBits_putBits_ne f.fcw 255 224 (frameCrc f) 223 0 (.inl (by decide))
  have c : frameCrc f.sealed = frameCrc f := by
    unfold frameCrc frameBits
    rw [e]
    rfl
  unfold Frame.good
  rw [c]
  have g := getBits_putBits_self f.fcw 255 224 (frameCrc f) (by decide) (by decide)
  exact decide_eq_true (g.trans (Nat.mod_eq_of_lt (crc32c_lt _)))
/-- A field of the frame control word below its CRC is not changed by sealing. -/
theorem sealed_field (f : Frame) (hi lo : Nat) (h : hi < 224) : getBits f.sealed.fcw hi lo = getBits f.fcw hi lo :=
  getBits_putBits_ne f.fcw 255 224 (frameCrc f) hi lo (.inl h)
theorem skF_cred (i : Nat) (h : i < 9) : skF.credit i = 0 := by
  refine (sealed_field _ _ _ (by omega)).trans ?_
  have : ∀ i : Fin 9, getBits (1 : BitVec 256) (4 * i.val + 43) (4 * i.val + 40) = 0 := by decide
  exact this ⟨i, h⟩
/-- Partition 5 in state `st`, with operation `op` under way. -/
def part5 (st : Word) (op : Nat := 0) (r : List (Nat × Word) := []) : State :=
  { up ([(FEAT_ACTIVE_LO, 0xFFF), (PART_STAT 5, st)] ++ r) with parts := [(5, { op := op })] }
/-- Power domain 3 in a Boom state. -/
def dom3 (b : Boom) : State := { up with boom := [(3, b)] }
/-- A fault of `it` due, with a window of the item open or not. -/
def faulty (it : FaultItem) (win : Bool) (r : List (Nat × Word) := []) : State :=
  { up r with due := [{ item := it }], wins := if win then [{ item := it, until_ := 50000 }] else [] }
/-- One record buffered at probe 0. -/
def probed (r : List (Nat × Word) := []) : State := { up r with tally := { buf := [(0, [{}])] } }
/-- Foreman with authority `a` and the registers `r`. -/
def foreman (a : Nat) (r : List (Nat × Word)) : State := { up r with eng := { auth := a, evalDue := true } }
/-- NI 3 as the only one in Foreman's care, with thresholds that every level reaches. -/
def fmThr : State := foreman 2 [(FEAT_ACTIVE_LO, 2 ^ fFOREMAN), (FM_CTRL, 0x100), (FM_NI_EN0, 8), (FM_NI_EN0 + 4, 0), (FM_NI_EN0 + 8, 0),
  (FM_VAR, 0x100), (FM_POL0, 0), (FM_POL1, 0x100000), (FM_THR_LIM, 0), (ARB_CTRL 3, 0)]
/-- Foreman about to arm its variant. -/
def fmVar : State :=
  let s := up [(FEAT_ACTIVE_LO, 2 ^ fFOREMAN + 1), (SW_STAT, 1), (TIME_STAT, 8), (FM_VAR, 0x100)]
  { s with mode := .scheduled, eng := { auth := 3, varStep := 2 } }
/-- A state in which a FULL load of variant 0 by MNI 0 is in progress, with every router page locked. -/
def loading : State :=
  { up ((FEAT_ACTIVE_LO, 1) :: (List.range 56).map fun k => (pageBase (rtrPage k) + 0x10, (5 : Word))) with
    loader := { busy := some (0, 0, 0, 0), entry := some 3 } }
/-- A directory entry. -/
def dirEnt (ty var off len count : Nat) : List (BitVec 8) := leBytes 2 ty ++ leBytes 1 var ++ leBytes 1 0 ++ leBytes 4 off ++ leBytes 4 len ++ leBytes 4 count
/-- The smallest image: bounds and one variant, with no flow, carve, reservation or table (R166 to R172). -/
def imageBody : List (BitVec 8) :=
  let s := loading
  leBytes 4 0x4953424F ++ leBytes 2 1 ++ leBytes 2 64 ++ leBytes 4 0x00020400 ++ leBytes 1 s.die ++ leBytes 1 1 ++ leBytes 2 5 ++ leBytes 8 1 ++
  leBytes 4 428 ++ leBytes 4 (s.fld ROT_PER_SEC 21 0) ++ leBytes 4 64 ++ leBytes 28 0 ++
  dirEnt 1 0xFF 144 128 1 ++ dirEnt 2 0xFF 272 0 0 ++ dirEnt 3 0xFF 272 0 0 ++ dirEnt 4 0xFF 272 0 0 ++ dirEnt 5 0 272 152 1 ++
  leBytes 4 (s.rd BOUND_SKW).toNat ++ leBytes 4 (s.rd BOUND_STG).toNat ++ leBytes 2 0x0101 ++ leBytes 6 0 ++
  ((List.range 56).map fun k => leBytes 2 (s.fld (LINK_DEPTH k) 15 0)).flatten ++ leBytes 152 0
def image : List (BitVec 8) := imageBody ++ leBytes 4 1470101168
theorem crc_split (l : List (BitVec 8)) (n c : Nat) : l.foldl crcByte c = (l.drop n).foldl crcByte ((l.take n).foldl crcByte c) := by
  rw [← List.foldl_append, List.take_append_drop]
theorem image_crc : crc32c (image.take 424) = 1470101168 := by
  have c1 : ((image.take 424).take 80).foldl crcByte 0xFFFFFFFF = 2144932605 := by decide +kernel
  have c2 : (((image.take 424).drop 80).take 80).foldl crcByte 2144932605 = 1896026860 := by decide +kernel
  have c3 : ((((image.take 424).drop 80).drop 80).take 80).foldl crcByte 1896026860 = 2606846358 := by decide +kernel
  have c4 : (((((image.take 424).drop 80).drop 80).drop 80).take 80).foldl crcByte 2606846358 = 2093473634 := by decide +kernel
  have c5 : ((((((image.take 424).drop 80).drop 80).drop 80).drop 80).take 80).foldl crcByte 2093473634 = 1903465570 := by decide +kernel
  have c6 : ((((((image.take 424).drop 80).drop 80).drop 80).drop 80).drop 80).foldl crcByte 1903465570 = 2824866127 := by decide +kernel
  rw [crc32c, crc_split _ 80, c1, crc_split _ 80, c2, crc_split _ 80, c3, crc_split _ 80, c4, crc_split _ 80, c5, c6]
  decide
theorem image_accepted : (loading.loadOver 0 OK).imageBad (image.take (imgNat image 0x18 4)) (decide ((0 : Nat) = 0)) 0 = none := by
  have e : image.take (imgNat image 0x18 4) = image := by decide +kernel
  have l : imgNat image 0x18 4 - 4 = 424 := by decide +kernel
  rw [e]
  unfold State.imageBad
  rw [List.findSome?_eq_none_iff]
  simp only [List.forall_mem_cons, List.not_mem_nil, false_imp_iff, implies_true, and_true]
  exact ⟨by decide +kernel, by decide +kernel, by rw [l, image_crc]; decide +kernel, by decide +kernel⟩

/-- The hypotheses of `Obligations.StepRunsFront`, met clause by clause. -/
theorem witness_StepRunsFront :
    (∃ s : State, ∃ c : Instr, ∃ rest : List Instr, s.pending = c :: rest) :=
  ⟨{ pending := [.pwrOkFall] }, .pwrOkFall, [], by decide +kernel⟩

/-- The hypotheses of `Obligations.SoundKept`, met clause by clause. -/
theorem witness_SoundKept :
    (∃ s : State, ∃ t : State, s.Sound ∧ step s = .next t) :=
  ⟨State.reset, _, sound_of (by decide), (rfl)⟩

/-- The hypotheses of `Obligations.PinsKept`, met clause by clause. -/
theorem witness_PinsKept :
    (∃ c : Instr, ∃ s : State, ∃ t : State, exec c s = .next t ∧ c ≠ .pwrOkRise ∧ c ≠ .pwrOkFall ∧ c ≠ .coldResetAssert ∧ c ≠ .coldResetRelease ∧ c ≠ .warmResetAssert ∧ c ≠ .warmResetRelease ∧ (∀ n, c ≠ .niAliveRise n) ∧ (∀ n, c ≠ .niAliveFall n) ∧ (∀ b i, c ≠ .efuseProgram b i)) :=
  by
    refine ⟨.ppsEdge, up, _, (rfl), ?h1, ?h2, ?h3, ?h4, ?h5, ?h6, (by intro n h; cases h), (by intro n h; cases h), (by intro b i h; cases h)⟩ <;> decide +kernel

/-- The hypotheses of `Obligations.EfuseProgram`, met clause by clause. -/
theorem witness_EfuseProgram :
    (∃ s : State, s.mode = .test ∧ s.held = none) ∧
    (∃ s : State, s.mode ≠ .test) ∧
    (∃ c, ∃ s : State, ∃ t : State, exec c s = .next t ∧ (∀ img, c ≠ .efuseProgram true img)) ∧
    (∃ s : State, ∃ t : State, s.mode = .fuse ∧ s.held = none ∧ s.rbit FUSE_STAT 4 = false ∧ exec (.fuseDone false) s = .next t) :=
  ⟨⟨testing, by decide +kernel⟩,
   ⟨up, by decide +kernel⟩,
   ⟨.ppsEdge, up, _, (rfl), (by intro i h; cases h)⟩,
   by
    refine ⟨fusing, _, ?h7, ?h8, ?h9, (rfl)⟩ <;> decide +kernel⟩

/-- The hypotheses of `Obligations.SupplyAndColdReset`, met clause by clause. -/
theorem witness_SupplyAndColdReset :
    (∃ s : State, s.pwrOk = false) ∧
    (∃ s : State, s.pwrOk = true) ∧
    (∃ s : State, s.pwrOk = true ∧ s.coldPin = false) ∧
    (∃ s : State, s.pwrOk = true ∧ s.held = some .cold ∧ s.warmPin = false ∧ s.warmUntil = none) ∧
    (∃ s : State, s.warmPin = true) :=
  ⟨⟨{}, by decide +kernel⟩,
   ⟨up, by decide +kernel⟩,
   ⟨up, by decide +kernel⟩,
   ⟨State.reset, by decide +kernel⟩,
   ⟨{ up with warmPin := true }, by decide +kernel⟩⟩

/-- The hypotheses of `Obligations.WarmResetPins`, met clause by clause. -/
theorem witness_WarmResetPins :
    (∃ s : State, s.Sound ∧ s.pwrOk = true ∧ s.warmPin = false ∧ s.held ≠ some .cold ∧ (s.mode = .fuse → s.rbit FUSE_STAT 4 = false) ∧ s.testLock = false) ∧
    (∃ s : State, s.pwrOk = true ∧ s.warmPin = false ∧ s.held ≠ some .cold ∧ (s.mode = .fuse → s.rbit FUSE_STAT 4 = false) ∧ s.testLock = true) ∧
    (∃ s : State, s.pwrOk = true ∧ s.held = some .warm ∧ s.coldPin = false ∧ s.warmUntil = none) ∧
    (∃ s : State, (s.pwrOk = false ∨ s.held = some .cold ∨ (s.mode = .fuse ∧ s.rbit FUSE_STAT 4 = true))) :=
  ⟨⟨up, sound_of (by decide), by decide +kernel⟩,
   ⟨{ up with testLock := true }, by decide +kernel⟩,
   ⟨{ up with held := some .warm }, by decide +kernel⟩,
   ⟨State.reset, by decide +kernel⟩⟩

/-- The hypotheses of `Obligations.FusesAndTest`, met clause by clause. -/
theorem witness_FusesAndTest :
    (∃ s : State, s.mode = .fuse ∧ s.held = none ∧ s.rbit FUSE_STAT 4 = false) ∧
    (∃ s : State, s.mode = .fuse ∧ s.held = none ∧ s.rbit FUSE_STAT 4 = false) ∧
    (∃ s : State, s.pwrOk = true) ∧
    (∃ s : State, s.mode = .test ∧ s.held = none) ∧
    (∃ s : State, s.mode ≠ .test) :=
  ⟨⟨fusing, by decide +kernel⟩,
   ⟨fusing, by decide +kernel⟩,
   ⟨up, by decide +kernel⟩,
   ⟨testing, by decide +kernel⟩,
   ⟨up, by decide +kernel⟩⟩

/-- The hypotheses of `Obligations.ResetCommand`, met clause by clause. -/
theorem witness_ResetCommand :
    (∃ s : State, ∃ m : Master, s.Sound ∧ s.Takes m .global 0x110 ∧ (s.mode = .fuse → s.rbit FUSE_STAT 4 = false) ∧ s.testLock = false) ∧
    (∃ s : State, ∃ m : Master, s.Takes m .global 0x110 ∧ (s.mode = .fuse → s.rbit FUSE_STAT 4 = false) ∧ s.testLock = true) ∧
    (∃ s : State, ∃ m : Master, s.Takes m .global 0x110 ∧ s.mode = .fuse ∧ s.rbit FUSE_STAT 4 = true) :=
  ⟨⟨up, 0, sound_of (by decide), takes_of (by decide), by decide +kernel⟩,
   ⟨{ up with testLock := true }, 0, takes_of (by decide), by decide +kernel⟩,
   ⟨{ up [(FUSE_STAT, 0x10)] with mode := .fuse }, 0, takes_of (by decide), by decide +kernel⟩⟩

/-- The hypotheses of `Obligations.TileReset`, met clause by clause. -/
theorem witness_TileReset :
    (∃ s : State, ∃ m : Master, ∃ v : Word, s.Takes m .global 0x110 ∧ bit v 0 = false ∧ getBits v 13 8 < 56 ∧ (s.boomOf (getBits v 13 8)).st = .isolated ∧ (getBits v 13 8 < 42 → getBits v 13 8 % 7 = 6 → s.skwState (getBits v 13 8 / 7) ≠ 7)) ∧
    (∃ s : State, ∃ m : Master, ∃ v : Word, s.Takes m .global 0x110 ∧ bit v 0 = false ∧ getBits v 13 8 < 42 ∧ getBits v 13 8 % 7 = 6 ∧ (s.boomOf (getBits v 13 8)).st = .isolated ∧ s.skwState (getBits v 13 8 / 7) = 7) ∧
    (∃ s : State, ∃ m : Master, ∃ v : Word, s.Takes m .global 0x110 ∧ bit v 0 = false ∧ (56 ≤ getBits v 13 8 ∨ (s.boomOf (getBits v 13 8)).st ≠ .isolated)) :=
  ⟨⟨{ up with boom := [(3, { st := .isolated })] }, 0, 0x302, takes_of (by decide), by decide +kernel⟩,
   ⟨{ up [(SKW_STAT 0, 7)] with boom := [(6, { st := .isolated })] }, 0, 0x602, takes_of (by decide), by decide +kernel⟩,
   ⟨up, 0, 0x3F02, takes_of (by decide), by decide +kernel⟩⟩

/-- The hypotheses of `Obligations.ModeRequests`, met clause by clause. -/
theorem witness_ModeRequests :
    (∃ s : State, ∃ m : Master, ∃ v : Word, ∃ e, s.Takes m .global 0x104 ∧ s.modeRefusal (getBits v 3 0) = some e) ∧
    (∃ s : State, ∃ m : Master, ∃ v : Word, s.Takes m .global 0x104 ∧ s.modeRefusal (getBits v 3 0) = none ∧ getBits v 3 0 = 11) ∧
    (∃ s : State, ∃ m : Master, ∃ v : Word, ∃ g, s.Takes m .global 0x104 ∧ s.modeRefusal (getBits v 3 0) = none ∧ Mode.ofCode (getBits v 3 0) = some g ∧ modeRoute s.mode g = some .direct) ∧
    (∃ s : State, ∃ m : Master, ∃ v : Word, ∃ g, s.Takes m .global 0x104 ∧ s.modeRefusal (getBits v 3 0) = none ∧ Mode.ofCode (getBits v 3 0) = some g ∧ modeRoute s.mode g = some .drain ∧ s.swState < 3 ∧ s.Sound) ∧
    (∃ s : State, ∃ m : Master, ∃ v : Word, ∃ g, s.Takes m .global 0x104 ∧ s.modeRefusal (getBits v 3 0) = none ∧ Mode.ofCode (getBits v 3 0) = some g ∧ modeRoute s.mode g = some .drain ∧ 3 ≤ s.swState) ∧
    (∃ s : State, ∃ c, s.modeBusy = true ∧ (s.mode = .drain → c ≠ 11 ∨ s.frozenAt.isSome)) ∧
    (∃ s : State, s.notes.escalated = s.mc + 1) ∧
    (∃ s : State, s.notes.escalated ≠ s.mc + 1 ∧ s.modeBusy = false ∧ s.mode = .frozen) :=
  ⟨⟨up, 0, 15, _, takes_of (by decide), (rfl)⟩,
   ⟨up, 0, 11, takes_of (by decide), by decide +kernel⟩,
   ⟨{ up with mode := .calibrate }, 0, 4, _, takes_of (by decide), by decide +kernel, (rfl), by decide +kernel⟩,
   by
    refine ⟨up, 0, 9, _, takes_of (by decide), ?h10, (rfl), ?h11, ?h12, sound_of (by decide)⟩ <;> decide +kernel,
   ⟨switching 3, 0, 9, _, takes_of (by decide), by decide +kernel, (rfl), by decide +kernel⟩,
   ⟨{ up with change := some {} }, 3, by decide +kernel⟩,
   ⟨{ up with notes := { escalated := 40001 } }, by decide +kernel⟩,
   ⟨{ up with mode := .frozen }, by decide +kernel⟩⟩

/-- The hypotheses of `Obligations.FeatureCommit`, met clause by clause. -/
theorem witness_FeatureCommit :
    (∃ s : State, ∃ m : Master, s.Takes m .global 0x130 ∧ s.featRefusal = none) ∧
    (∃ s : State, ∃ m : Master, ∃ e, s.Takes m .global 0x130 ∧ s.featRefusal = some e) :=
  ⟨⟨{ up with mode := .reserved }, 0, takes_of (by decide), by decide +kernel⟩,
   ⟨up, 0, _, takes_of (by decide), (rfl)⟩⟩

/-- The hypotheses of `Obligations.ServoRegisters`, met clause by clause. -/
theorem witness_ServoRegisters :
    (∃ s : State, ∃ m : Master, ∃ v : Word, s.Takes m .time 0x100 ∧ bit v 1 = false ∧ bit v 2 = false) ∧
    (∃ s : State, ∃ m : Master, ∃ v : Word, s.Takes m .time 0x100 ∧ bit v 2 = false) ∧
    (∃ s : State, ∃ m : Master, ∃ v : Word, s.Takes m .time 0x100 ∧ bit v 1 = false) ∧
    (∃ s : State, ∃ m : Master, s.Takes m .time 0x134) :=
  ⟨⟨up, 0, 1, takes_of (by decide), by decide +kernel⟩,
   ⟨up, 0, 3, takes_of (by decide), by decide +kernel⟩,
   ⟨up, 0, 5, takes_of (by decide), by decide +kernel⟩,
   ⟨up, 0, takes_of (by decide)⟩⟩

/-- The hypotheses of `Obligations.FabricTimeEvents`, met clause by clause. -/
theorem witness_FabricTimeEvents :
    (∃ s : State, s.held ≠ some .cold ∧ s.mode ≠ .off ∧ s.mode ≠ .fuse ∧ s.rbit CLK_STAT 2 = false ∧ s.edgeOk s.capture = false) ∧
    (∃ s : State, s.held ≠ some .cold ∧ s.mode ≠ .off ∧ s.mode ≠ .fuse ∧ s.rbit CLK_STAT 2 = false ∧ s.edgeOk s.capture = true) ∧
    (∃ s : State, ∃ e, s.time.pEnd = some e ∧ e.toNat ≤ s.time.now.toNat) ∧
    (∃ s : State, (∀ e, s.time.pEnd = some e → s.time.now.toNat < e.toNat)) ∧
    (∃ s : State, ∃ c, s.time.lastC = some c ∧ s.fld TIME_STAT 1 0 = 2 ∧ (nearSec c + s.fld PPS_CFG 27 24) * secSub + s.fld PPS_CFG 23 16 * 1000 * 2 ^ 32 ≤ s.time.now.toNat) ∧
    (∃ s : State, s.fld TIME_STAT 1 0 ≠ 2) :=
  ⟨⟨up [(TIME_STAT, 2)], by decide +kernel⟩,
   ⟨up, by decide +kernel⟩,
   ⟨{ up with time := { now := 5, pEnd := some 3 } }, 3, by decide +kernel⟩,
   ⟨up, (by intro e h; cases h)⟩,
   ⟨{ up [(TIME_STAT, 2)] with time := { now := 0x100000000000000000000, lastC := some 0 } }, 0, by decide +kernel, by decide +kernel, (by decide +kernel)⟩,
   ⟨up, by decide +kernel⟩⟩

/-- The hypotheses of `Obligations.ModeChangeEnds`, met clause by clause. -/
theorem witness_ModeChangeEnds :
    (∃ s : State, ∃ c, s.Sound ∧ s.change = some c ∧ s.held = none ∧ c.drains = false ∧ (s.mode = .scheduled → s.eng.varStep = 0)) ∧
    (∃ s : State, ∃ c, s.change = some c ∧ s.held = none ∧ c.drains = true ∧ c.left = true) ∧
    (∃ s : State, s.change = none) ∧
    (∃ s : State, ∃ c, s.Sound ∧ s.frozenAt = some c ∧ s.held = none ∧ (s.mode = .scheduled → s.eng.varStep = 0)) ∧
    (∃ s : State, s.frozenAt = none) :=
  ⟨⟨{ up with change := some { target := .reserved } }, _, sound_of (by decide), (rfl), by decide +kernel, (rfl), by decide +kernel⟩,
   ⟨{ up with change := some { drains := true, left := true } }, _, (rfl), by decide +kernel, (rfl), (rfl)⟩,
   ⟨up, by decide +kernel⟩,
   ⟨{ up with frozenAt := some 5 }, 5, sound_of (by decide), by decide +kernel⟩,
   ⟨up, by decide +kernel⟩⟩

/-- The hypotheses of `Obligations.DrainEnds`, met clause by clause. -/
theorem witness_DrainEnds :
    (∃ s : State, ∃ c, s.Sound ∧ s.mode = .drain ∧ s.change = some c ∧ s.held = none ∧ s.drainOver c = true) ∧
    (∃ s : State, ∃ c, s.change = some c ∧ s.drainOver c = false) ∧
    (∃ s : State, ∃ c, s.Sound ∧ s.mode = .drain ∧ s.change = some c ∧ s.held = none ∧ c.recov = true ∧ c.fc + s.fld RCV_CTRL 23 0 ≤ s.fc) ∧
    (∃ s : State, ∃ c, s.change = some c ∧ s.fc < c.fc + s.fld RCV_CTRL 23 0) :=
  ⟨⟨{ up with mode := .drain, change := some { target := .reconfigure, drains := true } }, _, sound_of (by decide), by decide +kernel, (rfl), by decide +kernel, (by rfl)⟩,
   ⟨{ up with change := some { target := .reconfigure }, ni := [(0, { queues := [(0, [{}])] })] }, _, (rfl), (by rfl)⟩,
   ⟨{ up [(RCV_CTRL, 1)] with mode := .drain, change := some { target := .recovery, drains := true, recov := true } }, _, sound_of (by decide), by decide +kernel, (rfl), by decide +kernel, (rfl), (by decide)⟩,
   ⟨{ up with change := some { fc := 100000 } }, _, (rfl), by decide +kernel⟩⟩

/-- The hypotheses of `Obligations.SwitchoverCommands`, met clause by clause. -/
theorem witness_SwitchoverCommands :
    (∃ s : State, ∃ m : Master, ∃ v : Word, ∃ sec, ∃ r, ∃ d, s.Takes m .sched 0x100 ∧ s.feat fSCHEDULED = true ∧ s.eng.varStep = 0 ∧ bit v 1 = false ∧ bit v 4 = false ∧ s.swState < 2 ∧ (s.swState = 1 ∧ getBits v 3 2 = 0 ∧ s.mode = .scheduled ∨ s.swState = 1 ∧ getBits v 3 2 = 1 ∧ s.mode = .dynamic ∨ getBits v 3 2 = 2 ∧ s.mode = .scheduled) ∧ s.fld TIME_STAT 3 2 = 2 ∧ s.swStamp = (sec, r) ∧ s.fcUntil sec r = some d ∧ 2048 ≤ d ∧ ((s.rd SW_TGT_HI).toNat * 2 ^ 32 + (s.rd SW_TGT_LO).toNat) * 65536 + s.fld SW_TGT_SUB 15 0 ≤ s.time.now.toNat / 65536 + 3600 * 1000000000 * 65536) ∧
    (∃ s : State, ∃ m : Master, ∃ v : Word, ∃ e, s.Takes m .sched 0x100 ∧ s.feat fSCHEDULED = true ∧ s.armRefusal (getBits v 3 2) = some e) ∧
    (∃ s : State, 2 ≤ s.swState) ∧
    (∃ s : State, ∃ k, s.swState = 0 ∧ k < 2) ∧
    (∃ s : State, ∃ k, s.swState < 2 ∧ (s.swState = 0 → 2 ≤ k) ∧ s.fld TIME_STAT 3 2 ≠ 2) ∧
    (∃ s : State, ∃ m : Master, ∃ v : Word, s.Takes m .sched 0x100 ∧ s.feat fSCHEDULED = true ∧ s.eng.varStep = 0 ∧ bit v 0 = false ∧ bit v 4 = false ∧ s.swState = 2) ∧
    (∃ s : State, ∃ m : Master, ∃ v : Word, s.Takes m .sched 0x100 ∧ s.feat fSCHEDULED = true ∧ bit v 0 = false ∧ 3 ≤ s.swState) ∧
    (∃ s : State, ∃ m : Master, ∃ v : Word, s.Takes m .sched 0x100 ∧ s.feat fSCHEDULED = true ∧ s.eng.varStep = 0 ∧ bit v 0 = false ∧ bit v 4 = false ∧ s.swState < 2) ∧
    (∃ s : State, ∃ m : Master, ∃ v : Word, s.Takes m .sched 0x100 ∧ s.feat fSCHEDULED = true ∧ s.eng.varStep = 0 ∧ bit v 0 = false ∧ bit v 1 = false) :=
  ⟨by
    refine ⟨loaded, 0, 1, 0, 23438, 24000512, takes_of (by decide), ?h13, ?h14, ?h15, ?h16, ?h17, (by decide), ?h18, (by decide +kernel), (by decide +kernel), (by decide +kernel), (by decide +kernel)⟩ <;> decide +kernel,
   ⟨switching 3, 0, 1, _, takes_of (by decide), by decide +kernel, (rfl)⟩,
   ⟨switching 2, by decide +kernel⟩,
   ⟨switching 0, 0, by decide +kernel⟩,
   ⟨{ switching 1 with mode := .dynamic }, 1, by decide +kernel⟩,
   ⟨switching 2, 0, 2, takes_of (by decide), by decide +kernel⟩,
   ⟨switching 3, 0, 2, takes_of (by decide), by decide +kernel⟩,
   ⟨switching 0, 0, 2, takes_of (by decide), by decide +kernel⟩,
   ⟨switching 0, 0, 16, takes_of (by decide), by decide +kernel⟩⟩

/-- The hypotheses of `Obligations.SwitchoverEvents`, met clause by clause. -/
theorem witness_SwitchoverEvents :
    (∃ s : State, ∃ d, s.swState = 2 ∧ s.fcUntil ((s.rd SW_SEC_HI).toNat * 2 ^ 32 + (s.rd SW_SEC_LO).toNat) (s.fld SW_IDX 21 0) = some d ∧ d ≤ 1024) ∧
    (∃ s : State, s.swState ≠ 2) ∧
    (∃ s : State, s.swState = 3 ∧ s.sw.b ≤ s.fc ∧ s.sw.kind = 0) ∧
    (∃ s : State, s.swState = 3 ∧ s.sw.b ≤ s.fc ∧ s.sw.kind = 1 ∧ s.mode = .dynamic) ∧
    (∃ s : State, s.swState = 3 ∧ s.sw.b ≤ s.fc ∧ s.sw.kind = 2 ∧ s.mode = .scheduled ∧ s.eng.varStep = 0) ∧
    (∃ s : State, s.swState ≠ 3) ∧
    (∃ s : State, s.swState = 4 ∧ s.sw.b + 256 ≤ s.fc ∧ s.sw.kind ≠ 2 ∧ s.change = none) ∧
    (∃ s : State, s.swState ≠ 4 ∧ s.change = none) :=
  ⟨⟨switching 2, 0, by decide +kernel⟩,
   ⟨switching 1, by decide +kernel⟩,
   ⟨{ switching 3 with sw := { b := 5 } }, by decide +kernel⟩,
   ⟨{ switching 3 with sw := { kind := 1 }, mode := .dynamic }, by decide +kernel⟩,
   ⟨{ switching 3 with sw := { kind := 2 } }, by decide +kernel⟩,
   ⟨switching 4, by decide +kernel⟩,
   ⟨switching 4, by decide +kernel⟩,
   ⟨switching 3, by decide +kernel⟩⟩

/-- The hypotheses of `Obligations.ScheduleLoad`, met clause by clause. -/
theorem witness_ScheduleLoad :
    (∃ s : State, ∃ m : Master, s.Takes m .sched 0x148 ∧ s.feat fSCHEDULED = true ∧ s.eng.varStep = 0 ∧ s.loader.busy = none ∧ s.loader.entry = none ∧ (s.mode = .reserved ∨ s.mode = .dynamic ∨ s.mode = .scheduled) ∧ s.swState < 2) ∧
    (∃ s : State, ∃ m : Master, s.Takes m .sched 0x148 ∧ s.feat fSCHEDULED = true ∧ s.eng.varStep = 0 ∧ (s.loader.busy ≠ none ∨ (s.mode ≠ .reserved ∧ s.mode ≠ .dynamic ∧ s.mode ≠ .scheduled) ∨ 2 ≤ s.swState)) ∧
    (∃ s : State, s.loader.busy = none) ∧
    (∃ s : State, ∃ k, s.loader.busy = some k ∧ k.2.2.2 ≠ 5 ∧ s.loader.entry = none ∧ (s.niOf (76 + k.2.2.1)).freeKey false = none) ∧
    (∃ s : State, ∃ img : List (BitVec 8), ∃ xcode : Code, ∃ k, s.loader.busy = some k ∧ k.2.2.2 ≠ 5 ∧ s.loader.entry ≠ none ∧ s.mclkOff = false ∧ s.loadMay = true ∧ codeOk xcode = true ∧ s.memCheck (76 + k.2.2.1) false s.loader.addr img.length = (s, img.length, OK) ∧ xcode ≠ OK ∧ img.length < 64) ∧
    (∃ s : State, ∃ img : List (BitVec 8), ∃ k, s.loader.busy = some k ∧ k.2.2.2 ≠ 5 ∧ s.loader.entry ≠ none ∧ s.mclkOff = false ∧ s.loadMay = false ∧ s.memCheck (76 + k.2.2.1) false s.loader.addr img.length = (s, img.length, OK)) ∧
    (∃ s : State, ∃ img : List (BitVec 8), ∃ k, ∃ code, ∃ w, s.loader.busy = some k ∧ k.2.2.2 ≠ 5 ∧ s.loader.entry ≠ none ∧ s.mclkOff = false ∧ s.loadMay = true ∧ s.memCheck (76 + k.2.2.1) false s.loader.addr img.length = (s, img.length, OK) ∧ (s.loadOver k.2.2.1 OK).imageBad (img.take (imgNat img 0x18 4)) (decide (k.1 = 0)) k.2.1 = some (code, w)) ∧
    (∃ s : State, ∃ img : List (BitVec 8), ∃ k, s.loader.busy = some k ∧ k.2.2.2 ≠ 5 ∧ s.loader.entry ≠ none ∧ s.mclkOff = false ∧ s.loadMay = true ∧ s.memCheck (76 + k.2.2.1) false s.loader.addr img.length = (s, img.length, OK) ∧ (s.loadOver k.2.2.1 OK).imageBad (img.take (imgNat img 0x18 4)) (decide (k.1 = 0)) k.2.1 = none) :=
  ⟨⟨switching 0, 0, takes_of (by decide), by decide +kernel⟩,
   ⟨switching 3, 0, takes_of (by decide), by decide +kernel⟩,
   ⟨up, by decide +kernel⟩,
   ⟨{ up with loader := { busy := some (0, 0, 0, 0) }, ni := [(76, { ledger := (List.range 256).map fun k => (k, { st := .issued }) })] }, (0, 0, 0, 0), by decide +kernel⟩,
   ⟨{ up [(FEAT_ACTIVE_LO, 1)] with mode := .scheduled, loader := { busy := some (0, 0, 0, 0), entry := some 3 } }, [], 1, (0, 0, 0, 0), by decide +kernel⟩,
   ⟨{ up [(SW_STAT, 2)] with loader := { busy := some (0, 0, 0, 0), entry := some 3 } }, [], (0, 0, 0, 0), by decide +kernel⟩,
   by
    refine ⟨{ up [(FEAT_ACTIVE_LO, 1)] with mode := .scheduled, loader := { busy := some (0, 0, 0, 0), entry := some 3 } }, [], (0, 0, 0, 0), _, _, ?h19, ?h20, ?h21, ?h22, ?h23, ?h24, (rfl)⟩ <;> decide +kernel,
   by
    refine ⟨loading, image, (0, 0, 0, 0), ?h25, ?h26, ?h27, ?h28, ?h29, ?h30, (image_accepted)⟩ <;> decide +kernel⟩

/-- The hypotheses of `Obligations.SlotTablesAndDemotions`, met clause by clause. -/
theorem witness_SlotTablesAndDemotions :
    (∃ s : State, ∃ m : Master, ∃ k, ∃ b, ∃ o, ∃ w, ∃ a : BitVec 26, m ≠ 6 ∧ k < 56 ∧ b < 2 ∧ o < 8 ∧ w < 128 ∧ a.toNat = SLOT k b o w ∧ s.Serves m true a.toNat (.window (.slot k)) ∧ s.feat fSCHEDULED = true ∧ b ≠ s.activeBank ∧ s.swState < 2) ∧
    (∃ s : State, ∃ m : Master, ∃ n, ∃ b, ∃ p, ∃ a : BitVec 26, m ≠ 6 ∧ n < 87 ∧ b < 2 ∧ p < 1024 ∧ a.toNat = INJE n b p ∧ s.Serves m true a.toNat (.window (.inject n)) ∧ s.feat fSCHEDULED = true ∧ b ≠ s.activeBank ∧ s.swState < 2) ∧
    (∃ s : State, ∃ m : Master, ∃ k, ∃ b, ∃ o, ∃ w, ∃ a : BitVec 26, m ≠ 6 ∧ k < 56 ∧ b < 2 ∧ o < 8 ∧ w < 128 ∧ a.toNat = SLOT k b o w ∧ s.Serves m true a.toNat (.window (.slot k)) ∧ s.feat fSCHEDULED = true ∧ (b = s.activeBank ∨ 2 ≤ s.swState)) ∧
    (∃ s : State, ∃ m : Master, ∃ n, ∃ b, ∃ p, ∃ a : BitVec 26, m ≠ 6 ∧ n < 87 ∧ b < 2 ∧ p < 1024 ∧ a.toNat = INJE n b p ∧ s.Serves m true a.toNat (.window (.inject n)) ∧ s.feat fSCHEDULED = true ∧ (b = s.activeBank ∨ 2 ≤ s.swState)) ∧
    (∃ s : State, ∃ k, ∃ b, ∃ o, ∃ w, ∃ a : BitVec 26, k < 56 ∧ b < 2 ∧ o < 8 ∧ w < 128 ∧ a.toNat = SLOT k b o w ∧ s.Serves 6 true a.toNat (.window (.slot k)) ∧ s.feat fSCHEDULED = true) ∧
    (∃ s : State, ∃ m : Master, ∃ x, ∃ a : BitVec 26, a.toNat % 4 = 0 ∧ slaveOf a.toNat = some (.window x) ∧ ((∃ k, x = .slot k) ∨ ∃ n, x = .inject n) ∧ s.Serves m true a.toNat (.window x) ∧ (a.toNat / 0x2000 % 2 = 1 ∨ s.feat fSCHEDULED = false)) ∧
    (∃ s : State, ∃ m : Master, ∃ w : Fin 128, s.Serves m true (FLOW_DEM w.val) (.page .sched (0x800 + 4 * w.val)) ∧ s.feat fSCHEDULED = true) :=
  ⟨by
    refine ⟨switching 0, 0, 3, 1, 2, 7, BitVec.ofNat 26 (SLOT 3 1 2 7), ?h31, ?h32, ?h33, ?h34, ?h35, ?h36, serves_of (by decide), ?h37⟩ <;> decide +kernel,
   by
    refine ⟨switching 0, 0, 3, 1, 7, BitVec.ofNat 26 (INJE 3 1 7), ?h38, ?h39, ?h40, ?h41, ?h42, serves_of (by decide), ?h43⟩ <;> decide +kernel,
   by
    refine ⟨switching 0, 0, 3, 0, 2, 7, BitVec.ofNat 26 (SLOT 3 0 2 7), ?h44, ?h45, ?h46, ?h47, ?h48, ?h49, serves_of (by decide), ?h50⟩ <;> decide +kernel,
   by
    refine ⟨switching 3, 0, 3, 1, 7, BitVec.ofNat 26 (INJE 3 1 7), ?h51, ?h52, ?h53, ?h54, ?h55, serves_of (by decide), ?h56⟩ <;> decide +kernel,
   by
    refine ⟨switching 0, 3, 1, 2, 7, BitVec.ofNat 26 (SLOT 3 1 2 7), ?h57, ?h58, ?h59, ?h60, ?h61, serves_of (by decide), ?h62⟩ <;> decide +kernel,
   by
    refine ⟨switching 0, 0, .slot 3, BitVec.ofNat 26 (SLOT 3 1 2 7 + 0x2000), ?h63, ?h64, (.inl ⟨3, rfl⟩), serves_of (by decide), ?h65⟩ <;> decide +kernel,
   ⟨switching 0, 0, 3, serves_of (by decide), by decide +kernel⟩⟩

/-- The hypotheses of `Obligations.AccessOutcomes`, met clause by clause. -/
theorem witness_AccessOutcomes :
    (∃ s : State, ∃ m : Master, ∃ a : BitVec 26, s.pwrOk = true ∧ s.held = none ∧ s.mode ≠ .off ∧ s.mclkOff = false ∧ s.fclkDead = false ∧ s.hlPend = [] ∧ m ≠ 5 ∧ m ≠ 7 ∧ a.toNat % 4 = 0 ∧ s.hung.contains (a.toNat / 0x1000) = false ∧ (slaveOf a.toNat).filter (hlPath m.val true) = none ∧ s.rbit HL_MISS 31 = false) ∧
    (∃ s : State, ∃ m : Master, ∃ a : BitVec 26, ∃ x, s.pwrOk = true ∧ s.held = none ∧ s.mode ≠ .off ∧ s.mclkOff = false ∧ s.fclkDead = false ∧ s.hlPend = [] ∧ m ≠ 5 ∧ m ≠ 7 ∧ a.toNat % 4 = 0 ∧ s.hung.contains (a.toNat / 0x1000) = false ∧ slaveOf a.toNat = some x ∧ hlPath m.val true x = true ∧ (s.dom x.domain).cut = true) ∧
    (∃ s : State, ∃ m : Master, ∃ a : BitVec 26, s.pwrOk = true ∧ s.held = none ∧ s.mode ≠ .off ∧ s.mclkOff = false ∧ s.hlPend = [] ∧ m ≠ 5 ∧ a.toNat % 4 = 0 ∧ s.hung.contains (a.toNat / 0x1000) = true) ∧
    (∃ s : State, ∃ a : BitVec 26, ∃ size, s.pwrOk = true ∧ s.held = none ∧ s.mode ≠ .off ∧ s.mclkOff = false ∧ s.hlPend = [] ∧ (size ≠ 2 ∨ a.toNat % 4 ≠ 0)) ∧
    (∃ s : State, ∃ mni : Fin 4, ∃ m : Master, ∃ a : BitVec 26, ∃ p, ∃ o, ∃ r, m.val = mni.val ∧ s.Takes m p o ∧ a.toNat = pageBase p + o ∧ rowAt p o = some r ∧ plainReg p o = true ∧ s.shut p o = 0 ∧ r.mask .w1c = 0 ∧ s.storeMask p o r ≠ 0) ∧
    (∃ s : State, ∃ mni : Fin 4, ∃ m : Master, ∃ a : BitVec 26, ∃ p, ∃ o, m.val = mni.val ∧ s.Serves m false a.toNat (.page p o) ∧ o < 0x1000 ∧ o % 4 = 0 ∧ a.toNat = pageBase p + o ∧ s.latch m.val a.toNat = none ∧ latchedBy p o = []) ∧
    (∃ s : State, (s.pwrOk = false ∨ s.held ≠ none ∨ s.mode = .off ∨ s.mclkOff = true)) :=
  ⟨⟨up, 0, 0x1800000, by decide +kernel⟩,
   ⟨{ up with boom := [(3, { st := .off })] }, 0, 0x0203104, .page (.router 3) 0x104, by decide +kernel⟩,
   ⟨{ up with hung := [3] }, 0, 0x3000, by decide +kernel⟩,
   ⟨up, 0x3001, 2, by decide +kernel⟩,
   by
    refine ⟨up, 0, 0, 0x3104, .gleaner, 0x104, _, ?h66, takes_of (by decide), ?h67, (rfl), ?h68⟩ <;> decide +kernel,
   ⟨up, 0, 0, 0x3100, .gleaner, 0x100, by decide +kernel, serves_of (by decide), by decide +kernel⟩,
   ⟨{}, by decide +kernel⟩⟩

/-- The hypotheses of `Obligations.HangTimeout`, met clause by clause. -/
theorem witness_HangTimeout :
    (∃ s : State, ∃ m : Master, ∃ e, s.pwrOk = true ∧ s.held = none ∧ s.mode ≠ .off ∧ s.mclkOff = false ∧ s.hlPend = [e] ∧ e.m = m.val ∧ e.ans = none ∧ e.held = false ∧ e.mc + max (s.fld HL_CTRL 19 0) 256 ≤ s.mc ∧ s.hung.contains (e.addr / 0x1000) = false) ∧
    (∃ s : State, s.hlPend = []) :=
  ⟨by
    refine ⟨{ up with mc := 70000, hlPend := [{ m := 2, addr := 0x3100 }] }, 2, _, ?h69, ?h70, ?h71, ?h72, (rfl), ?h73⟩ <;> decide +kernel,
   ⟨up, by decide +kernel⟩⟩

/-- The hypotheses of `Obligations.RegisterWrites`, met clause by clause. -/
theorem witness_RegisterWrites :
    (∃ s : State, ∃ m : Master, ∃ a : BitVec 26, ∃ p, ∃ o, s.Takes m p o ∧ o < 0x1000 ∧ o % 4 = 0 ∧ a.toNat = pageBase p + o) ∧
    (∃ s : State, ∃ m : Master, ∃ a : BitVec 26, ∃ w, s.Serves m true a.toNat (.window w) ∧ slaveOf a.toNat = some (.window w) ∧ a.toNat % 4 = 0) ∧
    (∃ s : State, ∃ m : Master, ∃ a : BitVec 26, ∃ p, ∃ o, ∃ r, s.Takes m p o ∧ a.toNat = pageBase p + o ∧ rowAt p o = some r ∧ plainReg p o = true ∧ s.shut p o = 0 ∧ r.mask .w1c = 0 ∧ s.storeMask p o r ≠ 0) ∧
    (∃ s : State, ∃ m : Master, ∃ a : BitVec 26, ∃ p, ∃ o, ∃ r, s.Serves m true a.toNat (.page p o) ∧ 0x100 ≤ o ∧ a.toNat = pageBase p + o ∧ rowAt p o = some r ∧ r.writable = 0 ∧ r.mask .w1c ≠ 0 ∧ (∀ k, p = .router k → o ≠ 0x118)) ∧
    (∃ s : State, ∃ m : Master, ∃ n : Fin 87, ∃ a : BitVec 26, s.Takes m (.ni n) 0x28C ∧ m.val ≤ 4 ∧ a.toNat = INJ_THR n.val ∧ s.fld FM_CTRL 23 16 ≠ 0) ∧
    (∃ s : State, ∃ m : Master, s.Serves m true 0x3100 (.page .gleaner 0x100) ∧ m.val ≤ 3 ∧ s.rbit 0x3010 0 = false) ∧
    (∃ s : State, s.pwrOk = true ∧ s.held = none ∧ s.mode ≠ .off ∧ s.mclkOff = false ∧ s.fclkDead = false ∧ s.hlPend = [] ∧ s.hung.contains 3 = false ∧ s.marksNow.req.contains 0x3100 = false) :=
  ⟨⟨up, 0, 0x3104, .gleaner, 0x104, takes_of (by decide), by decide +kernel⟩,
   ⟨up, 0, 0x3000008, .counter 0, serves_of (by decide), by decide +kernel⟩,
   ⟨up, 0, 0x3104, .gleaner, 0x104, _, takes_of (by decide), by decide +kernel, (rfl), by decide +kernel⟩,
   by
    refine ⟨up [(MODE_STAT, 0x10000)], 0, 0x100, .global, 0x100, _, serves_of (by decide), ?h74, ?h75, (rfl), ?h76⟩ <;> decide +kernel,
   ⟨up, 1, 40, 0x012828C, takes_of (by decide), by decide +kernel⟩,
   ⟨up [(0x3010, 0)], 3, serves_of (by decide), by decide +kernel⟩,
   ⟨up, by decide +kernel⟩⟩

/-- The hypotheses of `Obligations.RegisterReads`, met clause by clause. -/
theorem witness_RegisterReads :
    (∃ s : State, ∃ m : Master, ∃ p, ∃ o, ∃ a : BitVec 26, s.Serves m false a.toNat (.page p o) ∧ o < 0x1000 ∧ o % 4 = 0 ∧ a.toNat = pageBase p + o ∧ s.latch m.val a.toNat = none ∧ latchedBy p o = []) ∧
    (∃ s : State, ∃ m : Master, s.Serves m false 0x110C (.page .time 0x10C) ∧ s.latch m.val 0x110C = none) ∧
    (∃ s : State, ∃ m : Master, ∃ p, ∃ o, ∃ w, ∃ a : BitVec 26, s.Serves m false a.toNat (.page p o) ∧ o < 0x1000 ∧ o % 4 = 0 ∧ a.toNat = pageBase p + o ∧ s.latch m.val a.toNat = some w) :=
  ⟨⟨up, 0, .gleaner, 0x100, 0x3100, serves_of (by decide), by decide +kernel⟩,
   ⟨up, 0, serves_of (by decide), by decide +kernel⟩,
   ⟨{ up with latches := [(0x1110, some 7)] }, 0, .time, 0x110, 7, 0x1110, serves_of (by decide), by decide +kernel⟩⟩

/-- The hypotheses of `Obligations.CommonRegisters`, met clause by clause. -/
theorem witness_CommonRegisters :
    (∃ s : State, ∃ m : Master, ∃ p, ∃ v : Word, s.Serves m true (pageBase p + 0x10) (.page p 0x10) ∧ bit v 1 = false ∧ s.lockRefused p = false) ∧
    (∃ s : State, ∃ m : Master, ∃ n : Fin 87, ∃ v : Word, s.Serves m true (pageBase (.ni n) + 0x10) (.page (.ni n) 0x10) ∧ bit v 1 = false ∧ s.lockRefused (.ni n) = true ∧ s.rbit (pageBase (.ni n) + 0x10) 2 = false) ∧
    (∃ s : State, ∃ m : Master, ∃ p, ∃ v : Word, s.Serves m true (pageBase p + 0x10) (.page p 0x10) ∧ bit v 2 = false ∧ s.hwBits (pageBase p + 0x18) = 0 ∧ s.hwBits (pageBase p + 0x24) = 0) ∧
    (∃ s : State, ∃ m : Master, ∃ p, ∃ v : Word, s.Serves m true (pageBase p + 0x10) (.page p 0x10) ∧ bit v 2 = false) ∧
    (∃ s : State, ∃ m : Master, ∃ p, s.Serves m true (pageBase p + 0x2C) (.page p 0x2C)) :=
  ⟨⟨up, 0, .router 55, 1, serves_of (by decide), by decide +kernel⟩,
   ⟨up [(GRAN_LIM0 86, 0)], 0, 86, 1, serves_of (by decide), by decide +kernel⟩,
   ⟨up, 0, .time, 1, serves_of (by decide), by decide +kernel⟩,
   ⟨up, 0, .ni 0, 3, serves_of (by decide), by decide +kernel⟩,
   ⟨up, 0, .time, serves_of (by decide)⟩⟩

/-- The hypotheses of `Obligations.RouteStoreWindow`, met clause by clause. -/
theorem witness_RouteStoreWindow :
    (∃ s : State, ∃ m : Master, ∃ c : Fin 8, ∃ e : BitVec 14, ∃ w : Fin 3, s.Serves m true (RSE c.val e.toNat w.val) (.window (.routeStore c.val e.toNat))) ∧
    (∃ s : State, ∃ m : Master, ∃ c : Fin 8, ∃ e : BitVec 14, ∃ v : Word, ∃ x, s.Serves m true (RSE c.val e.toNat 3) (.window (.routeStore c.val e.toNat)) ∧ (s.bankOf c.val).staged e.toNat v = (x, false) ∧ (commitRefusal c.val x = 0 ∨ m = 6 ∧ getBits v 31 30 = 3)) ∧
    (∃ s : State, ∃ m : Master, ∃ c : Fin 8, ∃ e : BitVec 14, ∃ v : Word, ∃ x, s.Serves m true (RSE c.val e.toNat 3) (.window (.routeStore c.val e.toNat)) ∧ (m = 6 → getBits v 31 30 ≠ 3) ∧ (s.bankOf c.val).staged e.toNat v = (x, false) ∧ commitRefusal c.val x ≠ 0 ∧ s.rbit (RS_STAT c.val) 24 = false) ∧
    (∃ s : State, ∃ m : Master, ∃ c : Fin 8, ∃ e : BitVec 14, s.Serves m false (RSE c.val e.toNat 0) (.window (.routeStore c.val e.toNat))) ∧
    (∃ s : State, ∃ m : Master, ∃ c : Fin 8, s.Serves m false (RS_STAT c.val) (.page (.cluster c) 0x100) ∧ s.latch m.val (RS_STAT c.val) = none) ∧
    (∃ s : State, ∃ m : Master, ∃ c : Fin 8, s.Takes m (.cluster c) 0x104) :=
  ⟨⟨up, 0, 7, 0x3FFF, 2, serves_of (by decide)⟩,
   ⟨{ up with banks := [(7, { stage := ⟨[(0, some (0x3FFF, 0)), (1, some (0x3FFF, 0)), (2, some (0x3FFF, 0))]⟩ })] }, 0, 7, 0x3FFF, 0, 0, serves_of (by decide), by decide +kernel, (by decide)⟩,
   ⟨{ up with banks := [(7, { stage := ⟨[(0, some (0x3FFF, 0)), (1, some (0x3FFF, 0)), (2, some (0x3FFF, 0))]⟩ })] }, 0, 7, 0x3FFF, 0xC0000000, _, serves_of (by decide), by decide +kernel, (rfl), by decide +kernel⟩,
   ⟨up, 0, 0, 0, serves_of (by decide)⟩,
   ⟨up, 0, 7, serves_of (by decide), by decide +kernel⟩,
   ⟨up, 0, 7, takes_of (by decide)⟩⟩

/-- The hypotheses of `Obligations.StoredEntryReadsBack`, met clause by clause. -/
theorem witness_StoredEntryReadsBack :
    (∃ i : Nat, i < 4) :=
  ⟨2, by decide +kernel⟩

/-- The hypotheses of `Obligations.RulePool`, met clause by clause. -/
theorem witness_RulePool :
    (∃ s : State, ∃ m : Master, ∃ i : BitVec 13, ∃ w : Fin 3, s.Serves m true (RULEW i.toNat w.val) (.window (.rule i.toNat))) ∧
    (∃ s : State, ∃ m : Master, ∃ i : BitVec 13, ∃ v : Word, ∃ x, s.Serves m true (RULEW i.toNat 3) (.window (.rule i.toNat)) ∧ s.rules.staged i.toNat v = (x, false) ∧ (ruleRefusal x = 0 ∨ m = 6 ∧ getBits v 31 30 = 3)) ∧
    (∃ s : State, ∃ m : Master, ∃ i : BitVec 13, ∃ v : Word, ∃ x, s.Serves m true (RULEW i.toNat 3) (.window (.rule i.toNat)) ∧ (m = 6 → getBits v 31 30 ≠ 3) ∧ s.rules.staged i.toNat v = (x, false) ∧ ruleRefusal x ≠ 0 ∧ s.rbit RULE_CSTAT 24 = false) ∧
    (∃ s : State, ∃ m : Master, ∃ i : BitVec 13, s.Serves m false (RULEW i.toNat 0) (.window (.rule i.toNat))) ∧
    (∃ s : State, ∃ m : Master, s.Takes m .global 0x328) ∧
    (∃ s : State, ∃ m : Master, ∃ n : Fin 87, s.Takes m (.ni n) 0x344) ∧
    (∃ s : State, ∃ m : Master, ∃ n : Fin 87, s.Takes m (.ni n) 0x340 ∧ Config.hasLedger n.val = true) ∧
    (∃ s : State, ∃ m : Master, ∃ n : Fin 87, ∃ tgt, ∃ v : Word, ∃ t : State, s.Takes m (.ni n) (if tgt then 0x344 else 0x340) ∧ (tgt = false → Config.hasLedger n.val = true) ∧ exec (.ruleRangeWrite m n tgt v) s = .next t) :=
  ⟨⟨up, 0, 0x1FFF, 2, serves_of (by decide)⟩,
   ⟨{ up with rules := { stage := ⟨[(0, some (0x1FFF, 0)), (1, some (0x1FFF, 0)), (2, some (0x1FFF, 0))]⟩ } }, 0, 0x1FFF, 0, 0, serves_of (by decide), by decide +kernel⟩,
   ⟨{ up with rules := { stage := ⟨[(0, some (0x1FFF, 0)), (1, some (0x1FFF, 0)), (2, some (0x1FFF, 0))]⟩ } }, 0, 0x1FFF, 0xC0000000, _, serves_of (by decide), by decide +kernel, (rfl), by decide +kernel⟩,
   ⟨up, 0, 0, serves_of (by decide)⟩,
   ⟨up, 0, takes_of (by decide)⟩,
   ⟨up, 0, 86, takes_of (by decide)⟩,
   ⟨up, 0, 0, takes_of (by decide), by decide +kernel⟩,
   ⟨up, 0, 3, true, 5, _, takes_of (by decide), by decide +kernel, (rfl)⟩⟩

/-- The hypotheses of `Obligations.QueueDescriptors`, met clause by clause. -/
theorem witness_QueueDescriptors :
    (∃ s : State, ∃ m : Master, ∃ q : BitVec 14, s.Serves m true (QD q.toNat 0) (.window (.queue q.toNat))) ∧
    (∃ s : State, ∃ m : Master, ∃ q : BitVec 14, ∃ v : Word, s.Serves m true (QD q.toNat 1) (.window (.queue q.toNat)) ∧ (∀ n, n < 81 → s.groupSum n q.toNat (getBits v 8 0) ≤ s.groupSum n q.toNat (s.fld (QD q.toNat 1) 8 0) ∨ s.groupSum n q.toNat (getBits v 8 0) ≤ 256)) ∧
    (∃ w : Nat, ∃ w' : Nat, w ≤ w') ∧
    (∃ s : State, ∃ m : Master, ∃ q : BitVec 14, ∃ v : Word, ∃ n, s.Serves m true (QD q.toNat 1) (.window (.queue q.toNat)) ∧ n < 81 ∧ s.groupSum n q.toNat (s.fld (QD q.toNat 1) 8 0) < s.groupSum n q.toNat (getBits v 8 0) ∧ 256 < s.groupSum n q.toNat (getBits v 8 0)) ∧
    (∃ s : State, ∃ m : Master, ∃ q : BitVec 14, ∃ w : Fin 4, s.Serves m true (QD q.toNat w.val) (.window (.queue q.toNat)) ∧ 2 ≤ w.val) :=
  ⟨⟨up, 0, 0x3FFF, serves_of (by decide)⟩,
   ⟨up, 0, 0x3FFF, 0, serves_of (by decide), by decide +kernel⟩,
   ⟨1, 2, by decide +kernel⟩,
   ⟨up [(INJ_QBASE 3, 0x00020000), (QD 0 0, 0x80000003), (QD 1 0, 0x80000003), (QD 1 1, 200)], 0, 0, 100, 3, serves_of (by decide), by decide +kernel⟩,
   ⟨up, 0, 0, 3, serves_of (by decide), by decide +kernel⟩⟩

/-- The hypotheses of `Obligations.ArbiterRegisters`, met clause by clause. -/
theorem witness_ArbiterRegisters :
    (∃ s : State, ∃ m : Master, ∃ n : Fin 87, s.Takes m (.ni n) 0x2C0) ∧
    (∃ s : State, ∃ m : Master, ∃ n : Fin 87, s.Takes m (.ni n) 0x2C8) ∧
    (∃ s : State, ∃ m : Master, ∃ n : Fin 87, s.Takes m (.ni n) 0x2C4) ∧
    (∃ s : State, ∃ m : Master, ∃ n : Fin 87, s.Takes m (.ni n) 0x310 ∧ Config.hasLedger n.val = true ∧ s.feat fRESERVED_RW = true) :=
  ⟨⟨up, 0, 86, takes_of (by decide)⟩,
   ⟨up, 0, 86, takes_of (by decide)⟩,
   ⟨up, 0, 0, takes_of (by decide)⟩,
   ⟨up [(FEAT_ACTIVE_LO, 64)], 0, 0, takes_of (by decide), by decide +kernel⟩⟩

/-- The hypotheses of `Obligations.ArbiterDraw`, met clause by clause. -/
theorem witness_ArbiterDraw :
    (∃ s : State, ∃ n : Fin 80, ∃ w, s.runs (niTile n.val) = true ∧ s.arbOn n.val = true ∧ (s.niOf n.val).arb.st = .window ∧ (s.niOf n.val).arb.openFc + s.arbFld (ARB_CTRL n.val) 15 8 ≤ s.fc ∧ s.fc < (s.niOf n.val).arb.winStart + max (s.fld (ARB_WIN n.val) 23 0) 256 ∧ s.frozenNi n.val = false ∧ (∀ r ∈ (s.niOf n.val).arb.conts, s.masked r = false ∧ s.hiEntry n.val r = none) ∧ drawWinner (s.tickets n.val) (s.drawState n.val) (sortReq (s.niOf n.val).arb.conts) = some w ∧ (∀ h ∈ (s.niOf n.val).waiting, h.req = w)) ∧
    (∃ s : State, ∃ n : Fin 80, ((s.niOf n.val).arb.st ≠ .window ∨ s.arbOn n.val = false ∨ s.fc < (s.niOf n.val).arb.openFc + s.arbFld (ARB_CTRL n.val) 15 8)) ∧
    (∃ s : State, ∃ n : Fin 80, s.runs (niTile n.val) = true ∧ (s.niOf n.val).arb.winStart + max (s.fld (ARB_WIN n.val) 23 0) 256 ≤ s.fc) ∧
    (∃ s : State, ∃ n : Fin 80, s.fc < (s.niOf n.val).arb.winStart + max (s.fld (ARB_WIN n.val) 23 0) 256) :=
  ⟨by
    refine ⟨{ up [(ARB_CTRL 4, 1)] with niAlive := 32, ni := [(4, { arb := { st := .window, winStart := 90000, conts := [{ src := 5 }] } })] }, 4, { src := 5 }, ?h77, ?h78, ?h79, ?h80, ?h81, ?h82, ?h83, (by show drawWinner _ _ (sortReq [{ src := 5 }]) = _; rw [sortReq, List.mergeSort_singleton]; decide), ?h84⟩ <;> decide +kernel,
   ⟨up, 0, by decide +kernel⟩,
   ⟨up, 79, by decide +kernel⟩,
   ⟨{ up with fc := 0 }, 79, by decide +kernel⟩⟩

/-- The hypotheses of `Obligations.TenureEnds`, met clause by clause. -/
theorem witness_TenureEnds :
    (∃ s : State, ∃ n : Fin 80, ∃ p, ∃ x, s.runs (niTile n.val) = true ∧ (s.niOf n.val).takeIn (fun h sc => hCls h = cNDR && sOpc sc = opARB_REL) = some (p, x) ∧ (x.arb.st = .held ∨ x.arb.st = .yielding) ∧ p.req = x.arb.holder ∧ x.arb.htagSet = true ∧ hTag p.hdr = x.arb.htag) ∧
    (∃ s : State, ∃ n : Fin 80, ∃ p, ∃ x, s.runs (niTile n.val) = true ∧ (s.niOf n.val).takeIn (fun h sc => hCls h = cNDR && sOpc sc = opARB_REL) = some (p, x) ∧ (p.req ≠ x.arb.holder ∨ x.arb.htagSet = false ∨ hTag p.hdr ≠ x.arb.htag ∨ x.arb.st = .idle ∨ x.arb.st = .window)) ∧
    (∃ s : State, ∃ n : Fin 80, (s.niOf n.val).answersIn = []) ∧
    (∃ s : State, ∃ n : Fin 80, s.runs (niTile n.val) = true ∧ (s.niOf n.val).arb.st = .yielding ∧ (s.niOf n.val).holds_ (s.niOf n.val).arb.holder = false) ∧
    (∃ s : State, ∃ n : Fin 80, ((s.niOf n.val).arb.st = .idle ∨ (s.niOf n.val).arb.st = .window)) :=
  ⟨⟨atNi 3 { arb := { st := .held, holder := { src := 5 }, htag := 7, htagSet := true }, answersIn := [pkt1 cNDR (setOpc 0 opARB_REL) 5 7] }, 3, _, _, by decide +kernel, (rfl), (by decide), by decide +kernel⟩,
   ⟨atNi 3 { arb := { st := .held, holder := { src := 5 }, htag := 7, htagSet := true }, answersIn := [pkt1 cNDR (setOpc 0 opARB_REL) 5 8] }, 3, _, _, by decide +kernel, (rfl), (by decide)⟩,
   ⟨up, 3, by decide +kernel⟩,
   ⟨atNi 3 { arb := { st := .yielding } }, 3, by decide +kernel⟩,
   ⟨up, 3, by decide +kernel⟩⟩

/-- The hypotheses of `Obligations.RingReservations`, met clause by clause. -/
theorem witness_RingReservations :
    (∃ s : State, ∃ n : Fin 87, ∃ p, ∃ x, s.runs (niTile n.val) = true ∧ (s.niOf n.val).takeIn isRsvReq = some (p, x) ∧ s.partCode p.hdr = OK ∧ sPsn p.sc = false ∧ s.fenced (niTile n.val) = false ∧ getBits (mArg p.sc) 2 0 + 1 ≤ s.granLimit n.val (getBits (mArg p.sc) 5 3)) ∧
    (∃ s : State, ∃ n : Fin 87, ∃ p, ∃ x, s.runs (niTile n.val) = true ∧ (s.niOf n.val).takeIn isRsvReq = some (p, x) ∧ (s.partCode p.hdr ≠ OK ∨ sPsn p.sc = true ∨ s.fenced (niTile n.val) = true ∨ s.granLimit n.val (getBits (mArg p.sc) 5 3) < getBits (mArg p.sc) 2 0 + 1)) ∧
    (∃ s : State, ∃ n : Fin 87, ∃ q, ∃ rest, s.runs (niTile n.val) = true ∧ (s.niOf n.val).slots = q :: rest ∧ (s.niOf n.val).granUsed q.vn + (s.niOf n.val).reserved q.vn + q.flits ≤ s.granLimit n.val q.vn) ∧
    (∃ s : State, ∃ n : Fin 87, ∃ q, ∃ rest, (s.niOf n.val).slots = q :: rest ∧ s.granLimit n.val q.vn < (s.niOf n.val).granUsed q.vn + (s.niOf n.val).reserved q.vn + q.flits) ∧
    (∃ s : State, ∃ n : Fin 87, ∃ src : Fin 87, ∃ g, ∃ rest, s.runs (niTile n.val) = true ∧ (s.niOf n.val).grants = g :: rest ∧ g.src = s.node src.val ∧ g.due ≤ s.fc) ∧
    (∃ s : State, ∃ n : Fin 87, (∀ g ∈ (s.niOf n.val).grants, s.fc < g.due)) ∧
    (∃ s : State, ∃ n : Fin 80, ∃ p, ∃ x, s.runs (niTile n.val) = true ∧ (s.niOf n.val).takeIn (fun h sc => hCls h = cNDR && sOpc sc = opRSV_CLR) = some (p, x)) :=
  ⟨⟨atNi 3 { answersIn := [pkt1 cMGT (mkMgt opRSV_REQ 0 0 0 0) 76] }, 3, _, _, by decide +kernel, (rfl), by decide +kernel⟩,
   ⟨atNi 3 { answersIn := [pkt1 cMGT (mkMgt opRSV_REQ 0 0 0 0) 76] } [(GRAN_LIM0 3, 0)], 3, _, _, by decide +kernel, (rfl), by decide +kernel⟩,
   ⟨atNi 3 { slots := [{ flits := 2 }] }, 3, { flits := 2 }, [], by decide +kernel⟩,
   ⟨atNi 3 { slots := [{ flits := 1 }] } [(GRAN_LIM0 3, 0)], 3, { flits := 1 }, [], by decide +kernel⟩,
   ⟨atNi 3 { grants := [{ src := 5, flits := 1 }] }, 3, 5, { src := 5, flits := 1 }, [], by decide +kernel⟩,
   ⟨up, 3, by decide +kernel⟩,
   ⟨atNi 3 { answersIn := [pkt1 cNDR (setOpc 0 opRSV_CLR)] }, 3, _, _, by decide +kernel, (rfl)⟩⟩

/-- The hypotheses of `Obligations.OffersToUnits`, met clause by clause. -/
theorem witness_OffersToUnits :
    (∃ s : State, ∃ n : Fin 80, ∃ h, ∃ p, s.runs (niTile n.val) = true ∧ s.nextOffer n.val = some h ∧ (h.offered = 0 → s.offerCode n.val h = OK) ∧ (s.niOf n.val).pktOf h.pid = some h ∧ (s.niOf n.val).nextPtag = some p ∧ s.offerable n.val h = true ∧ isResvOp (hCls h.hdr) (sOpc h.sc) = false) ∧
    (∃ s : State, ∃ n : Fin 80, ∃ h, ∃ p, s.runs (niTile n.val) = true ∧ s.nextOffer n.val = some h ∧ (h.offered = 0 → s.offerCode n.val h = OK) ∧ (s.niOf n.val).pktOf h.pid = some h ∧ (s.niOf n.val).nextPtag = some p ∧ s.offerable n.val h = true ∧ isResvOp (hCls h.hdr) (sOpc h.sc) = true ∧ hCls h.hdr = cRWD ∧ s.hasMonitor n.val h.req (sAddr h.sc).toNat = false) ∧
    (∃ s : State, ∃ n : Fin 80, s.nextOffer n.val = none) ∧
    (∃ s : State, ∃ n : Fin 80, ∃ c : BitVec 4, ∃ m : _, s.runs (niTile n.val) = true ∧ s.unitUp n.val = true ∧ 0 < Tbl.get (fun _ => 0) (s.niOf n.val).outCred c.toNat ∧ (s.niOf n.val).outq.find? (fun o => o.msg.cls = c) = some m ∧ (s.niOf n.val).pktOf m.pid = none) ∧
    (∃ s : State, ∃ n : Fin 80, ∃ c : BitVec 4, ∃ m : _, ∃ h, s.runs (niTile n.val) = true ∧ s.unitUp n.val = true ∧ 0 < Tbl.get (fun _ => 0) (s.niOf n.val).outCred c.toNat ∧ (s.niOf n.val).outq.find? (fun o => o.msg.cls = c) = some m ∧ (s.niOf n.val).pktOf m.pid = some h ∧ h.silent = false ∧ h.ans.length < h.needed) ∧
    (∃ s : State, ∃ n : Fin 80, ∃ c : BitVec 4, ∃ m : _, ∃ h, s.runs (niTile n.val) = true ∧ s.unitUp n.val = true ∧ 0 < Tbl.get (fun _ => 0) (s.niOf n.val).outCred c.toNat ∧ (s.niOf n.val).outq.find? (fun o => o.msg.cls = c) = some m ∧ (s.niOf n.val).pktOf m.pid = some h ∧ h.endsTaken = true ∧ h.lines ≤ h.offered ∧ h.lines ≤ h.ans.length + 1) ∧
    (∃ s : State, ∃ n : Fin 80, ∃ c : BitVec 4, (Tbl.get (fun _ => 0) (s.niOf n.val).outCred c.toNat = 0 ∨ ∀ o ∈ (s.niOf n.val).outq, o.msg.cls ≠ c)) :=
  ⟨by
    refine ⟨atNi 3 { gran := [pkt1 cREQ (setOpc 0 1)], outCred := [(0, 8)] }, 3, pkt1 cREQ (setOpc 0 1), 0, ?h85, (by decide +kernel), ?h86, ?h87, ?h88, ?h89, (by decide +kernel)⟩ <;> decide +kernel,
   by
    refine ⟨atNi 3 { gran := [pkt1 cRWD (setOpc 0 0x0F)], outCred := eight }, 3, pkt1 cRWD (setOpc 0 0x0F), 0, ?h90, (by decide +kernel), ?h91, ?h92, ?h93, ?h94, (by decide +kernel), ?h95⟩ <;> decide +kernel,
   ⟨up, 3, by decide +kernel⟩,
   ⟨atNi 3 { outq := [{ msg := { cls := 6 }, pid := 9 }], outCred := [(6, 8)] }, 3, 6, { msg := { cls := 6 }, pid := 9 }, by decide +kernel⟩,
   by
    refine ⟨atNi 3 { outq := [{ msg := { cls := 6 }, pid := 9 }], outCred := [(6, 8)], work := [{ pkt1 cREQ (setOpc 0 1) with pid := 9 }] }, 3, 6, { msg := { cls := 6 }, pid := 9 }, _, ?h96, ?h97, ?h98, ?h99, (rfl), ?h100⟩ <;> decide +kernel,
   by
    refine ⟨atNi 3 { outq := [{ msg := { cls := 6 }, pid := 9 }], outCred := eight, work := [{ pkt1 cIOP (setOpc 0 1) with pid := 9, offered := 1 }] }, 3, 6, { msg := { cls := 6 }, pid := 9 }, _, ?h101, ?h102, ?h103, ?h104, (rfl), ?h105⟩ <;> decide +kernel,
   ⟨up, 3, 6, by decide +kernel⟩⟩

/-- The hypotheses of `Obligations.LedgerRegisters`, met clause by clause. -/
theorem witness_LedgerRegisters :
    (∃ s : State, ∃ m : Master, ∃ n : Fin 87, s.Takes m (.ni n) 0x404 ∧ Config.hasLedger n.val = true) ∧
    (∃ s : State, ∃ m : Master, ∃ n : Fin 87, ∃ v : Word, ∃ k, s.Takes m (.ni n) 0x40C ∧ Config.hasLedger n.val = true ∧ ldgKey v = some k ∧ ((s.niOf n.val).led k).st = .stuck) ∧
    (∃ s : State, ∃ m : Master, ∃ n : Fin 87, ∃ v : Word, s.Takes m (.ni n) 0x40C ∧ Config.hasLedger n.val = true ∧ (∀ k, ldgKey v = some k → ((s.niOf n.val).led k).st ≠ .stuck)) :=
  ⟨⟨up, 0, 5, takes_of (by decide), by decide +kernel⟩,
   ⟨{ up with ni := [(5, { ledger := [(3, { st := .stuck, retained := true })] })] }, 0, 5, 3, 3, takes_of (by decide), by decide +kernel⟩,
   ⟨up, 0, 5, 3, takes_of (by decide), by decide +kernel, (by intro k h; cases h; decide)⟩⟩

/-- The hypotheses of `Obligations.TransactionTimers`, met clause by clause. -/
theorem witness_TransactionTimers :
    (∃ s : State, ∃ n : Fin 80, ∃ posted : Bool, ∃ i : Fin 512, ∃ d, (posted = true ∨ i.val < 256) ∧ ((s.niOf n.val).led (if posted then 256 + i.val else i.val)).timer = some d ∧ d ≤ s.fc ∧ s.mode ≠ .frozen ∧ ((s.niOf n.val).led (if posted then 256 + i.val else i.val)).retained = false ∧ ((s.niOf n.val).led (if posted then 256 + i.val else i.val)).isOpen = true) ∧
    (∃ s : State, ∃ n : Fin 80, ∃ posted : Bool, ∃ i : Fin 512, (∀ d, ((s.niOf n.val).led (if posted then 256 + i.val else i.val)).timer = some d → s.fc < d)) ∧
    (∃ s : State, ∃ n : Fin 80, ∃ i : Fin 32, ∃ b, s.runs (niTile n.val) = true ∧ ((s.niOf n.val).backoff.drop i.val).head? = some b ∧ b.waiting = true ∧ b.until_ ≤ s.fc) ∧
    (∃ s : State, ∃ n : Fin 80, ∃ i : Fin 32, ∃ b, ((s.niOf n.val).backoff.drop i.val).head? = some b ∧ s.fc < b.until_) ∧
    (∃ s : State, ∃ n : Fin 80, ∃ k : Fin 256, ∃ d, s.runs (niTile n.val) = true ∧ ((s.niOf n.val).led k.val).retryAt = some d ∧ d ≤ s.fc ∧ ((s.niOf n.val).led k.val).isOpen = true ∧ ((s.niOf n.val).led k.val).mute = false) ∧
    (∃ s : State, ∃ n : Fin 80, ∃ k : Fin 256, ((s.niOf n.val).led k.val).retryAt = none) :=
  ⟨⟨atNi 3 { ledger := [(3, { st := .issued, timer := some 50 })] }, 3, false, 3, 50, by decide +kernel⟩,
   ⟨up, 3, true, 3, (by intro d h; cases h)⟩,
   ⟨atNi 3 { backoff := [{ waiting := true, until_ := 7 }] }, 3, 0, { waiting := true, until_ := 7 }, by decide +kernel⟩,
   ⟨atNi 3 { backoff := [{ waiting := true, until_ := 200000 }] }, 3, 0, { waiting := true, until_ := 200000 }, by decide +kernel⟩,
   ⟨atNi 76 { ledger := [(3, { st := .issued, retryAt := some 50 })] }, 76, 3, 50, by decide +kernel⟩,
   ⟨up, 76, 3, by decide +kernel⟩⟩

/-- The hypotheses of `Obligations.AnswersArrive`, met clause by clause. -/
theorem witness_AnswersArrive :
    (∃ s : State, ∃ n : Fin 80, ∃ p, ∃ x, ∃ i, ∃ q, s.runs (niTile n.val) = true ∧ (s.niOf n.val).takeIn isAnswer = some (p, x) ∧ hCls p.hdr = cNDR ∧ sOpc p.sc ≠ opFERR ∧ sStatus p.sc = OK ∧ (x.led (tagKey (hTag p.hdr))).partFor p.hdr p.sc = some i ∧ (x.led (tagKey (hTag p.hdr))).parts.drop i = [q] ∧ q.lidx = 0 ∧ q.lines = 1 ∧ (x.led (tagKey (hTag p.hdr))).st = .issued ∧ (x.led (tagKey (hTag p.hdr))).lines = 1 ∧ (x.led (tagKey (hTag p.hdr))).codes = [] ∧ (x.led (tagKey (hTag p.hdr))).inl = none ∧ (x.led (tagKey (hTag p.hdr))).sheaf = 0 ∧ (x.led (tagKey (hTag p.hdr))).heldIoc = [] ∧ bit (x.led (tagKey (hTag p.hdr))).opc 7 = false) ∧
    (∃ s : State, ∃ n : Fin 80, ∃ p, ∃ x, ∃ i, ∃ q, s.runs (niTile n.val) = true ∧ (s.niOf n.val).takeIn isAnswer = some (p, x) ∧ hCls p.hdr = cMGT ∧ sOpc p.sc = opEH_RSP ∧ mStatus p.sc = RETRY ∧ (x.led (tagKey (hTag p.hdr))).partFor p.hdr p.sc = some i ∧ ((x.led (tagKey (hTag p.hdr))).parts.drop i).head? = some q ∧ (x.led (tagKey (hTag p.hdr))).st = .issued) ∧
    (∃ s : State, ∃ n : Fin 80, ∃ p, ∃ x, s.runs (niTile n.val) = true ∧ (s.niOf n.val).takeIn isAnswer = some (p, x) ∧ hCls p.hdr ≠ cMGT ∧ (x.led (tagKey (hTag p.hdr))).partFor p.hdr p.sc = none ∧ s.jq.length < 64) ∧
    (∃ s : State, ∃ n : Fin 80, (s.niOf n.val).answersIn = []) :=
  ⟨⟨atNi 3 { ledger := [(2, { st := .issued, parts := [{ dst := 5 }] })], answersIn := [pkt1 cNDR (setOpc 0 0) 5 2] }, 3, _, _, 0, { dst := 5 }, by decide +kernel, (rfl), by decide +kernel⟩,
   ⟨atNi 76 { ledger := [(2, { st := .issued, parts := [{ dst := 80 }] })], answersIn := [pkt1 cMGT (mkMgt opEH_RSP 0 RETRY 0 0) 80 2] }, 76, _, _, 0, { dst := 80 }, by decide +kernel, (rfl), by decide +kernel⟩,
   ⟨atNi 3 { answersIn := [pkt1 cNDR (setOpc 0 0) 5 2] }, 3, _, _, by decide +kernel, (rfl), by decide +kernel⟩,
   ⟨up, 3, by decide +kernel⟩⟩

/-- The hypotheses of `Obligations.RequestsFromUnits`, met clause by clause. -/
theorem witness_RequestsFromUnits :
    (∃ s : State, ∃ n : Fin 80, ∃ m : Msg, ∃ j, ∃ f, ∃ part : BitVec 9, s.unitUp n.val = true ∧ s.runs (niTile n.val) = true ∧ s.takesNow n.val m = true ∧ s.handshake n.val m = [] ∧ (chanRequest m.cls = true ∨ (m.cls = 0xF ∧ m.sub = 3)) ∧ (s.niOf n.val).continues m = false ∧ j = m.qsel.toNat ∧ s.qValid n.val j = true ∧ s.step2 n.val m = OK ∧ m.flowOf = none ∧ m.group = none ∧ m.comb = false ∧ (privileged (s.node n.val) = true ∨ s.qAny n.val j = true ∨ (s.partState (s.qPart n.val j).toNat = 2 ∧ s.member n.val (s.qPart n.val j).toNat = true)) ∧ s.fenced (niTile n.val) = false ∧ f = s.look { n := n.val, key := (m.key n.val).getD (.node 0), vn := vnOf (chanCls m.cls), cls := chanCls m.cls, resv := isResvOp (chanCls m.cls) m.opc, mask := s.fenceMask } ∧ part = (if s.qAny n.val j then f.part.getD (s.qPart n.val j) else s.qPart n.val j) ∧ (∀ a, (msgItem m n.val s.fc j 0 part (s.qAny n.val j) 0 0 []).accessAt 0 m.sidecar = some a → (s.check n.val false (s.qAny n.val j) part (s.node n.val) a).code = OK)) :=
  by
    refine ⟨atNi 76 {} q76, 76, rd76, 0, _, _, ?h106, ?h107, ?h108, ?h109, ?h110, ?h111, ?h112, ?h113, ?h114, ?h115, ?h116, ?h117, ?h118, ?h119, (rfl), (rfl), (of_all (by decide +kernel))⟩ <;> decide +kernel

/-- The hypotheses of `Obligations.RequestsRefused`, met clause by clause. -/
theorem witness_RequestsRefused :
    (∃ s : State, ∃ n : Fin 80, ∃ m : Msg, s.unitUp n.val = true ∧ s.runs (niTile n.val) = true ∧ s.takesNow n.val m = true ∧ s.handshake n.val m = [] ∧ (chanRequest m.cls = true ∨ (m.cls = 0xF ∧ m.sub = 3)) ∧ (s.niOf n.val).continues m = false ∧ (s.qValid n.val m.qsel.toNat = false ∨ s.step2 n.val m ≠ OK) ∧ (s.qValid n.val m.qsel.toNat = true → s.heldBack n.val m.qsel.toNat m = false)) ∧
    (∃ s : State, ∃ n : Fin 80, ∃ m : Msg, s.handshake n.val m = [] ∧ (chanRequest m.cls = true ∨ (m.cls = 0xF ∧ m.sub = 3)) ∧ (s.niOf n.val).continues m = false ∧ s.qValid n.val m.qsel.toNat = true ∧ s.heldBack n.val m.qsel.toNat m = true) ∧
    (∃ s : State, ∃ n : Fin 80, ∃ m : Msg, ∃ tag, ∃ j, ∃ left, ∃ i, ∃ it, s.unitUp n.val = true ∧ s.runs (niTile n.val) = true ∧ s.takesNow n.val m = true ∧ s.handshake n.val m = [] ∧ (s.niOf n.val).continues m = true ∧ (s.niOf n.val).burstOf m.cls = (some (tag, j), left) ∧ ((s.niOf n.val).queue j).findIdx? (fun it => it.tag = tag && it.pkt.isNone) = some i ∧ ((s.niOf n.val).queue j)[i]? = some it ∧ it.flow = none ∧ it.owner = .unit ∧ s.roomFor n.val j 1 = true ∧ (∀ a, it.accessAt (it.lidx + it.body.length) m.sidecar = some a → (s.check n.val false it.anyPart it.part (s.node n.val) a).code = OK)) ∧
    (∃ s : State, ∃ n : Fin 80, ∃ m : Msg, ∃ tag, ∃ j, ∃ left, ∃ i, s.handshake n.val m = [] ∧ (m.cls = 1 ∨ m.cls = 0xC) ∧ (s.niOf n.val).continues m = true ∧ (s.niOf n.val).burstOf m.cls = (some (tag, j), left) ∧ ((s.niOf n.val).queue j).findIdx? (fun it => it.tag = tag && it.pkt.isNone) = some i ∧ s.roomFor n.val j 1 = false) ∧
    (∃ s : State, ∃ n : Fin 80, ∃ m : Msg, s.unitUp n.val = true ∧ s.runs (niTile n.val) = true ∧ s.takesNow n.val m = true ∧ s.handshake n.val m = [] ∧ m.cls ≠ 0xF ∧ chanRequest m.cls = false ∧ s.answerRefused m = true) :=
  ⟨⟨atNi 76, 76, rd76, by decide +kernel⟩,
   ⟨atNi 76 {} [(INJ_QBASE 76, 0x00010000), (QD 0 0, 0x8000004C), (QD 0 1, 1)], 76, rd76, by decide +kernel⟩,
   by
    refine ⟨atNi 76 { burst := [(1, (some (3, 0), 1))], queues := [(0, [{ tag := 3, cls := 1, opc := 1, lines := 2, body := [(0, 0)] }])] } q76, 76, { cls := 1, hdr := setOpc 0 1, lidx := 1, blen := 1 }, 3, 0, 1, 0, { tag := 3, cls := 1, opc := 1, lines := 2, body := [(0, 0)] }, ?h120, ?h121, ?h122, ?h123, ?h124, ?h125, ?h126, ?h127, ?h128, ?h129, ?h130, (of_all (by decide +kernel))⟩ <;> decide +kernel,
   ⟨atNi 76 { burst := [(1, (some (3, 0), 1))], queues := [(0, [{ tag := 3, cls := 1, opc := 1, lines := 2, body := [(0, 0)] }])] } [(INJ_QBASE 76, 0x00010000), (QD 0 0, 0x8000004C), (QD 0 1, 1)], 76, { cls := 1, hdr := setOpc 0 1, lidx := 1, blen := 1 }, 3, 0, 1, 0, by decide +kernel⟩,
   ⟨atNi 3, 3, { cls := 0xA }, by decide +kernel⟩⟩

/-- The hypotheses of `Obligations.CombinedStores`, met clause by clause. -/
theorem witness_CombinedStores :
    (∃ s : State, ∃ n : Fin 80, ∃ m : Msg, ∃ j : Nat, ∃ f, ∃ k : Nat, s.unitUp n.val = true ∧ s.runs (niTile n.val) = true ∧ s.takesNow n.val m = true ∧ s.handshake n.val m = [] ∧ (s.niOf n.val).continues m = false ∧ j = m.qsel.toNat ∧ s.qValid n.val j = true ∧ s.step2 n.val m = OK ∧ (privileged (s.node n.val) = true ∨ s.qAny n.val j = true ∨ (s.partState (s.qPart n.val j).toNat = 2 ∧ s.member n.val (s.qPart n.val j).toNat = true)) ∧ s.fenced (niTile n.val) = false ∧ f = s.look { n := n.val, key := (m.key n.val).getD (.node 0), vn := vnOf (chanCls m.cls), cls := chanCls m.cls, resv := isResvOp (chanCls m.cls) m.opc, mask := s.fenceMask } ∧ s.combines n.val m f = true ∧ (s.qAny n.val j = true ∨ f.part.getD (s.qPart n.val j) = s.qPart n.val j) ∧ (∀ a, (msgItem m n.val s.fc j 0 (s.qPart n.val j) (s.qAny n.val j) 0 0 []).accessAt 0 m.sidecar = some a → (s.check n.val false (s.qAny n.val j) (s.qPart n.val j) (s.node n.val) a).code = OK) ∧ (s.niOf n.val).wcb = [] ∧ (s.niOf n.val).freeKey true = some k ∧ m.bmask ≠ BitVec.allOnes 64 ∧ s.fld (WCB_CTRL n.val) 15 4 ≠ 0) ∧
    (∃ s : State, ∃ n : Fin 80, ∃ i : Fin 32, ∃ l, s.runs (niTile n.val) = true ∧ (s.niOf n.val).wcb[i.val]? = some l ∧ l.closed = false ∧ l.alloc + s.fld (WCB_CTRL n.val) 15 4 ≤ s.fc) ∧
    (∃ s : State, ∃ n : Fin 80, ∃ i : Fin 32, (∀ l, (s.niOf n.val).wcb[i.val]? = some l → l.closed = true ∨ s.fc < l.alloc + s.fld (WCB_CTRL n.val) 15 4)) :=
  ⟨by
    refine ⟨stS, 76, stM, 0, _, 256, ?h131, ?h132, ?h133, ?h134, ?h135, ?h136, ?h137, ?h138, ?h139, ?h140, (rfl), ?h141, ?h142, (of_all (by decide +kernel)), ?h143⟩ <;> decide +kernel,
   ⟨atNi 3 { wcb := [{ bmask := 1 }] }, 3, 0, { bmask := 1 }, by decide +kernel⟩,
   ⟨up, 3, 0, (by intro l h; cases h)⟩⟩

/-- The hypotheses of `Obligations.Barriers`, met clause by clause. -/
theorem witness_Barriers :
    (∃ s : State, ∃ n : Fin 80, ∃ m : Msg, s.unitUp n.val = true ∧ s.runs (niTile n.val) = true ∧ (s.carries = true ∨ s.mode = .drain) ∧ s.handshake n.val { m with cls := 0xF, ctrl := 0 } = [] ∧ (s.niOf n.val).wcb = [] ∧ (s.niOf n.val).bars.length < 8) ∧
    (∃ s : State, ∃ n : Fin 80, ∃ m : Msg, 8 ≤ (s.niOf n.val).bars.length ∧ s.handshake n.val { m with cls := 0xF, ctrl := 0 } = []) ∧
    (∃ s : State, ∃ n : Fin 80, ∃ b, s.runs (niTile n.val) = true ∧ s.unitUp n.val = true ∧ ((s.niOf n.val).outq.filter fun o => o.msg.cls = 15).length < Tbl.get (fun _ => 0) (s.niOf n.val).outCred 15 ∧ (s.niOf n.val).bars.find? (s.barrierDone n.val) = some b) ∧
    (∃ s : State, ∃ n : Fin 80, (s.niOf n.val).bars.find? (s.barrierDone n.val) = none) :=
  ⟨⟨atNi 3, 3, { cls := 0xF }, by decide +kernel⟩,
   ⟨atNi 3 { bars := List.replicate 8 {} }, 3, { cls := 0xF }, by decide +kernel⟩,
   ⟨atNi 3 { bars := [{}], outCred := [(15, 8)] }, 3, {}, by decide +kernel⟩,
   ⟨up, 3, by decide +kernel⟩⟩

/-- The hypotheses of `Obligations.ChannelMessages`, met clause by clause. -/
theorem witness_ChannelMessages :
    (∃ s : State, ∃ n : Fin 80, ∃ m : Msg, s.unitUp n.val = true ∧ s.runs (niTile n.val) = true ∧ s.takesNow n.val m = true ∧ s.handshake n.val m ≠ [] ∧ s.jq.length < 64) ∧
    (∃ s : State, ∃ n : Fin 80, ∃ m : Msg, s.unitUp n.val = true ∧ s.runs (niTile n.val) = true ∧ s.takesNow n.val m = true ∧ s.handshake n.val m = [] ∧ m.cls = 0xF ∧ m.sub = 2) ∧
    (∃ s : State, ∃ n : Fin 80, s.unitUp n.val = true) ∧
    (∃ s : State, ∃ n : Fin 80, s.unitUp n.val = false) :=
  ⟨⟨atNi 76, 76, { rd76 with unstable := true }, by decide +kernel⟩,
   ⟨atNi 76, 76, { cls := 0xF, ctrl := 2 }, by decide +kernel⟩,
   ⟨atNi 3, 3, by decide +kernel⟩,
   ⟨up, 3, by decide +kernel⟩⟩

/-- The hypotheses of `Obligations.AnswersOfUnits`, met clause by clause. -/
theorem witness_AnswersOfUnits :
    (∃ s : State, ∃ n : Fin 80, ∃ m : Msg, ∃ p, ∃ h, s.unitUp n.val = true ∧ s.runs (niTile n.val) = true ∧ s.takesNow n.val m = true ∧ s.handshake n.val m = [] ∧ chanRequest m.cls = false ∧ m.cls ≠ 0xF ∧ s.answerRefused m = false ∧ (s.niOf n.val).ptag m.ptag.toNat = some p ∧ p.left = 1 ∧ (s.niOf n.val).pktOf p.pid = some h ∧ (m.status = OK ∨ m.status = POISON ∨ m.status = FAR) ∧ hCls h.hdr = cRWD) ∧
    (∃ s : State, ∃ n : Fin 80, ∃ m : Msg, s.unitUp n.val = true ∧ s.runs (niTile n.val) = true ∧ s.takesNow n.val m = true ∧ s.handshake n.val m = [] ∧ chanRequest m.cls = false ∧ m.cls ≠ 0xF ∧ s.answerRefused m = false ∧ (s.niOf n.val).ptag m.ptag.toNat = none) :=
  ⟨by
    refine ⟨atNi 3 { ptags := [(7, some { pid := 9 })], work := [{ pid := 9, hdr := mkHdr cRWD false 0 0 5 3 0 0 0, body := [(setOpc 0 1, 0)], offered := 1 }] }, 3, { cls := 3, ptag := 7 }, { pid := 9 }, _, ?h144, ?h145, ?h146, ?h147, ?h148, ?h149, ?h150, ?h151, ?h152, (rfl), ?h153⟩ <;> decide +kernel,
   ⟨atNi 3, 3, { cls := 3, ptag := 7 }, by decide +kernel⟩⟩

/-- The hypotheses of `Obligations.LookupsBuildPackets`, met clause by clause. -/
theorem witness_LookupsBuildPackets :
    (∃ s : State, ∃ n : Fin 81, ∃ j : BitVec 8, ∃ i, ∃ it, ∃ f, s.runs (niTile n.val) = true ∧ (s.niOf n.val).unbuilt j.toNat = some i ∧ it.held = none ∧ s.Builds n.val j.toNat i it f) ∧
    (∃ s : State, ∃ n : Fin 81, ∃ j : BitVec 8, (s.niOf n.val).unbuilt j.toNat = none) ∧
    (∃ s : State, ∃ n : Fin 81, ∃ a, ∃ f, s.runs (niTile n.val) = true ∧ (s.niOf n.val).answers.find? (fun a => !a.routed) = some a ∧ f = s.look { n := n.val, key := .node (hDst a.pkt.hdr), vn := hVn a.pkt.hdr, cls := hCls a.pkt.hdr, isReq := false, mask := s.fenceMask } ∧ f.code = OK ∧ f.fenced = false) ∧
    (∃ s : State, ∃ n : Fin 80, ∃ j : Fin 257, ∃ it, ∃ f, s.runs (niTile n.val) = true ∧ it.held.isSome = true ∧ it.mask ≠ s.fenceMask ∧ s.Builds n.val j.val 0 it f) ∧
    (∃ s : State, ∃ n : Fin 80, ∃ j : Fin 257, (∀ it, ((s.niOf n.val).queue j.val).head? = some it → it.held = none ∨ it.mask = s.fenceMask)) ∧
    (∃ s : State, ∃ n : Fin 80, ∃ j : Fin 257, ∃ it, ∃ rest, ∃ h, s.runs (niTile n.val) = true ∧ (s.niOf n.val).queue j.val = it :: rest ∧ it.held = some h ∧ it.pkt = none ∧ it.mask = s.fenceMask ∧ h + s.fld PWR_HOLD 23 0 ≤ s.fc ∧ it.lidx = 0 ∧ ((s.niOf n.val).led (tagKey it.tag)).isOpen = true ∧ ((s.niOf n.val).led (tagKey it.tag)).codes = [] ∧ 0 < ((s.niOf n.val).led (tagKey it.tag)).lines) ∧
    (∃ s : State, ∃ n : Fin 80, ∃ j : Fin 257, (∀ it h, ((s.niOf n.val).queue j.val).head? = some it → it.held = some h → it.mask = s.fenceMask ∧ s.fc < h + s.fld PWR_HOLD 23 0)) :=
  ⟨by
    refine ⟨ring76 { queues := [(0, [it76])] }, 76, 0, 0, it76, (ring76 { queues := [(0, [it76])] }).resolve 76 it76, ?h154, ?h155, ?h156, (it76_builds it76 (by simp))⟩ <;> decide +kernel,
   ⟨up, 76, 0, by decide +kernel⟩,
   by
    refine ⟨ring76 { answers := [{ pkt := pk }] }, 76, { pkt := pk }, _, ?h157, ?h158, (rfl), ?h159⟩ <;> decide +kernel,
   by
    refine ⟨ring76 { queues := [(0, [it76h])] }, 76, 0, it76h, (ring76 { queues := [(0, [it76h])] }).resolve 76 it76h, ?h160, ?h161, ?h162, (it76_builds it76h (by simp))⟩ <;> decide +kernel,
   ⟨up, 76, 0, (by intro it h; cases h)⟩,
   ⟨ring76 { queues := [(0, [{ it76 with held := some 7 }])], ledger := [(0, { st := .notStarted })] }, 76, 0, { it76 with held := some 7 }, [], 7, by decide +kernel⟩,
   ⟨up, 76, 0, (by intro it h e; cases e)⟩⟩

/-- The hypotheses of `Obligations.Injection`, met clause by clause. -/
theorem witness_Injection :
    (∃ s : State, ∃ n : Fin 87, (s.runs (niTile n.val) = false ∨ (s.niOf n.val).sentFc = s.fc + 1)) ∧
    (∃ s : State, ∃ n : Fin 87, ∃ c : CurPkt, ∃ f : Flit, ∃ rest : List Flit, s.MaySend n.val ∧ (s.niOf n.val).cur.find? (fun c => 0 < (s.niOf n.val).attCredits c.vc) = some c ∧ c.flits = f :: rest) ∧
    (∃ s : State, ∃ n : Fin 87, ∃ a : AItem, ∃ vc : Nat, ∃ f : Flit, ∃ rest : List Flit, s.MaySend n.val ∧ (s.niOf n.val).cur.find? (fun c => 0 < (s.niOf n.val).attCredits c.vc) = none ∧ s.nextAnswer n.val = some (a, vc) ∧ ({ (s.ehFill a).2 with hdr := setSeq a.pkt.hdr ((s.niOf n.val).nextSeq a.pkt.hdr) } : Pkt).flits = f :: rest) ∧
    (∃ s : State, ∃ n : Fin 87, ∃ j : Nat, ∃ i : Nat, ∃ it : QItem, ∃ p : Pkt, ∃ vc : Nat, ∃ f : Flit, ∃ rest : List Flit, n.val < 81 ∧ s.MaySend n.val ∧ s.ring = false ∧ (s.niOf n.val).cur.find? (fun c => 0 < (s.niOf n.val).attCredits c.vc) = none ∧ s.nextAnswer n.val = none ∧ (∀ j i it p, s.headOf n.val j = some (i, it, p) → (s.niOf n.val).routeHeld it p = false ∧ (s.ready n.val j it p = true → s.eligible n.val j = true)) ∧ ((j = ownQueue ∧ s.eligible n.val j = true) ∨ (s.eligible n.val ownQueue = false ∧ (List.range (min (s.fld (INJ_CTRL n.val) 2 0) 4)).find? (fun j => s.qValid n.val j && s.eligible n.val j) = some j) ∨ (s.eligible n.val ownQueue = false ∧ (List.range (min (s.fld (INJ_CTRL n.val) 2 0) 4)).find? (fun j => s.qValid n.val j && s.eligible n.val j) = none ∧ (s.weighted n.val (min (s.fld (INJ_CTRL n.val) 2 0) 4)).2 = some j)) ∧ s.headOf n.val j = some (i, it, p) ∧ s.attVc n.val p.hdr (sOpc (p.body.headD (0, 0)).1) = some vc ∧ isResvOp it.cls (sOpc (p.body.headD (0, 0)).1) = false ∧ (s.niOf n.val).tagUsed p = false ∧ ((s.niOf n.val).led (tagKey it.tag)).st = .notStarted ∧ ((s.niOf n.val).led (tagKey it.tag)).injected = false ∧ ({ p with hdr := setSeq (setTag p.hdr it.tag) ((s.niOf n.val).nextSeq p.hdr) } : Pkt).flits = f :: rest) ∧
    (∃ s : State, ∃ n : Fin 87, ∃ j : Nat, ∃ it : QItem, ∃ q, ∃ p : Pkt, ∃ vc : Nat, ∃ f : Flit, ∃ rest : List Flit, 81 ≤ n.val ∧ s.MaySend n.val ∧ (s.niOf n.val).cur.find? (fun c => 0 < (s.niOf n.val).attCredits c.vc) = none ∧ s.nextAnswer n.val = none ∧ (s.niOf n.val).queues = [(j, it :: q)] ∧ j < 8 ∧ it.pkt = some p ∧ s.attVc n.val p.hdr (sOpc (p.body.headD (0, 0)).1) = some vc ∧ s.fits n.val p.body.length = true ∧ (s.ring = false ∨ isResponse (hCls p.hdr) (sOpc (p.body.headD (0, 0)).1) = true) ∧ p.flits = f :: rest) ∧
    (∃ s : State, ∃ n : Fin 87, s.MaySend n.val ∧ (s.niOf n.val).cur = [] ∧ (s.niOf n.val).answers = [] ∧ (s.niOf n.val).queues = []) :=
  ⟨⟨{}, 76, by decide +kernel⟩,
   ⟨atNi 76 { cur := [{ flits := pk.flits }] }, 76, { flits := pk.flits }, _, _, (maySend_of (by decide +kernel)), by decide +kernel, (rfl)⟩,
   ⟨atNi 76 { answers := [{ pkt := pk, routed := true }] }, 76, { pkt := pk, routed := true }, 0, _, _, (maySend_of (by decide +kernel)), by decide +kernel, by decide +kernel, (rfl)⟩,
   by
    refine ⟨inj76, 76, 256, 0, { opc := 1, owner := .sideband, pkt := some pk }, pk, 0, _, _, ?h163, (maySend_of (by decide +kernel)), ?h164, ?h165, ?h166, (inj76_heads), ?h167, ?h168, ?h169, ?h170, ?h171, ?h172, ?h173, (rfl)⟩ <;> decide +kernel,
   by
    refine ⟨atNi 82 { queues := [(0, [{ opc := 1, pkt := some pk }])] }, 82, 0, { opc := 1, pkt := some pk }, [], pk, 0, _, _, ?h174, (maySend_of (by decide +kernel)), ?h175, ?h176, ?h177, ?h178, ?h179, ?h180, ?h181, ?h182, (rfl)⟩ <;> decide +kernel,
   ⟨atNi 76, 76, (maySend_of (by decide +kernel)), by decide +kernel⟩⟩

/-- The hypotheses of `Obligations.ScheduledInjection`, met clause by clause. -/
theorem witness_ScheduledInjection :
    (∃ s : State, ∃ n : Fin 81, ∃ f, ∃ rest, s.runs (niTile n.val) = true ∧ (s.niOf n.val).sentFc ≠ s.fc + 1 ∧ (s.niOf n.val).schRest = f :: rest) ∧
    (∃ s : State, ∃ n : Fin 81, ∃ b, ∃ fl, ∃ j, ∃ q, ∃ i, ∃ it, ∃ p, ∃ f, ∃ rest, s.runs (niTile n.val) = true ∧ (s.niOf n.val).sentFc ≠ s.fc + 1 ∧ (s.niOf n.val).schRest = [] ∧ s.niBank n.val = some b ∧ s.injFlow n.val b s.rotPos = some fl ∧ (s.niOf n.val).queues = [(j, q)] ∧ q.findIdx? (fun it => it.flow = some (BitVec.ofNat 12 fl)) = some i ∧ q[i]? = some it ∧ it.pkt = some p ∧ s.schedWaits n.val it = true ∧ it.taken + 4 ≤ s.fc ∧ s.canReserve n.val (answerSpace p 0).1 (answerSpace p 0).2 = true ∧ (s.niOf n.val).unansTo (hDst p.hdr) < 128 ∧ (s.niOf n.val).flowBusy (BitVec.ofNat 12 fl) false = false ∧ (s.niOf n.val).barred j it.ord = false ∧ (s.niOf n.val).hazardHeld it p = false ∧ (∀ h ∈ it.hazard, ∀ l ∈ (s.niOf n.val).wcb, l.ord ≠ h) ∧ ((s.niOf n.val).led (tagKey (hTag p.hdr))).st = .notStarted ∧ ({ p with hdr := setSeq (setSch p.hdr true) ((s.niOf n.val).nextSeq p.hdr) } : Pkt).flits = f :: rest) ∧
    (∃ s : State, ∃ n : Fin 81, ∃ b, ∃ fl, (s.niOf n.val).schRest = [] ∧ s.niBank n.val = some b ∧ s.injFlow n.val b s.rotPos = some fl ∧ (∀ e ∈ (s.niOf n.val).queues, ∀ it ∈ e.2, it.flow ≠ some (BitVec.ofNat 12 fl))) ∧
    (∃ s : State, ∃ n : Fin 81, (s.niOf n.val).schRest = [] ∧ s.niBank n.val = none) ∧
    (∃ s : State, s.fc % 256 = 0 ∧ s.mode ≠ .frozen ∧ s.fclkDead = false) ∧
    (∃ s : State, (s.fc % 256 ≠ 0 ∨ s.mode = .frozen)) :=
  ⟨⟨atNi 76 { schRest := pk.flits }, 76, _, _, by decide +kernel, by decide +kernel, (rfl)⟩,
   by
    refine ⟨sch76, 76, 0, 5, 0, [{ opc := 1, flow := some 5, pkt := some pk }], 0, { opc := 1, flow := some 5, pkt := some pk }, pk, _, _, ?h183, ?h184, ?h185, ?h186, ?h187, ?h188, ?h189, ?h190, ?h191, ?h192, ?h193, ?h194, ?h195, ?h196, ?h197, ?h198, ?h199, ?h200, (rfl)⟩ <;> decide +kernel,
   by
    refine ⟨{ sch76 with ni := [] }, 76, 0, 5, ?h201, ?h202, ?h203, (by intro e h; cases h)⟩ <;> decide +kernel,
   ⟨up, 76, by decide +kernel⟩,
   ⟨{ up with fc := 256 }, by decide +kernel⟩,
   ⟨{ up with fc := 5 }, by decide +kernel⟩⟩

/-- The hypotheses of `Obligations.Routers`, met clause by clause. -/
theorem witness_Routers :
    (∃ s : State, ∃ k : Fin 56, ∃ i : Fin 8, ∃ err, ∃ y : Fly, ∃ rest, ∃ g : Flit, ∃ f : Flit, ∃ c1, ∃ u1, ∃ c2, ∃ u2, s.linkOf (linkIn k.val i.val) = y :: rest ∧ y.due ≤ s.fc ∧ s.runs k.val = true ∧ s.ring = false ∧ fixGroup (strike y.flit err) 0 = (g, c1, u1) ∧ fixGroup g 1 = (f, c2, u2)) ∧
    (∃ s : State, ∃ k : Fin 56, ∃ i : Fin 8, (∀ y, (s.linkOf (linkIn k.val i.val)).head? = some y → s.fc < y.due)) ∧
    (∃ s : State, ∃ k : Fin 56, ∃ i : Fin 8, ∃ vc : Fin 16, ∃ pre, ∃ y : VFlit, ∃ rest, ((s.rtrOf k.val).vc i.val vc.val).flits = pre ++ y :: rest ∧ (∀ z ∈ pre, z.aged s.fc = false) ∧ sFidx y.flit.sc = 0 ∧ y.fc + 64 * (y.add + 1) ≤ s.fc ∧ s.runs k.val = true) ∧
    (∃ s : State, ∃ k : Fin 56, ∃ i : Fin 8, ∃ vc : Fin 16, (∀ y ∈ ((s.rtrOf k.val).vc i.val vc.val).flits, sFidx y.flit.sc = 0 → s.fc < y.fc + 64 * (y.add + 1))) ∧
    (∃ s : State, ∃ k : Fin 56, ∃ o : Fin 8, ∃ c, (s.credOf (8 * k.val + o.val)).find? (fun c => c.2 ≤ s.fc) = some c) ∧
    (∃ s : State, ∃ k : Fin 56, ∃ o : Fin 8, (∀ c ∈ s.credOf (8 * k.val + o.val), s.fc < c.2)) ∧
    (∃ s : State, ∃ k : Fin 56, ∃ i : Fin 8, ∃ vc : Fin 16, ∃ v : Vc, ∃ y : VFlit, ∃ d, ∃ h, ∃ la, s.runs k.val = true ∧ (s.rtrOf k.val).ranFc ≠ s.fc + 1 ∧ s.ring = false ∧ s.rtrBank k.val = none ∧ (s.rtrOf k.val).relay = [] ∧ (s.rtrOf k.val).byp = [] ∧ (s.rtrOf k.val).vcs = [(16 * i.val + vc.val, v)] ∧ v.flits = [y] ∧ v.out = none ∧ y.fc ≤ s.fc ∧ y.sheaf = none ∧ sFidx y.flit.sc = 0 ∧ hLen y.flit.hdr = 0 ∧ hSch y.flit.hdr = false ∧ isSheaf s.die y.flit.hdr = false ∧ y.ue = false ∧ y.la < 8 ∧ (∀ o, o < 8 → Config.port k.val o ≠ .none → s.cutOff k.val o = false) ∧ Config.port k.val y.la ≠ .none ∧ s.pickVc k.val y.la vc.val y.flit.hdr (sOpc y.flit.sc) = some d ∧ s.depth k.val y.la ≠ 2 ∧ s.leave y.flit.hdr (v.ageNow y) = (h, la)) ∧
    (∃ s : State, ∃ k : Fin 56, s.runs k.val = true ∧ (s.rtrOf k.val).ranFc ≠ s.fc + 1 ∧ s.rtrBank k.val = none ∧ (s.rtrOf k.val).relay = [] ∧ (s.rtrOf k.val).byp = [] ∧ (s.rtrOf k.val).vcs = []) ∧
    (∃ s : State, ∃ k : Fin 56, (s.runs k.val = false ∨ (s.rtrOf k.val).ranFc = s.fc + 1)) :=
  ⟨⟨onLink 24, 3, 0, {}, { flit := fl, due := 7 }, [], fl, fl, false, false, false, false, by decide +kernel⟩,
   ⟨up, 3, 0, (by intro y h; cases h)⟩,
   ⟨inVc 3, 3, 0, 0, [], { flit := fl, la := 1 }, [], (rfl), by decide +kernel⟩,
   ⟨up, 3, 0, 0, (by intro y h; cases h)⟩,
   ⟨{ up with creds := [(24, [(0, 7)])] }, 3, 0, (0, 7), by decide +kernel⟩,
   ⟨up, 3, 0, (by intro c h; cases h)⟩,
   by
    refine ⟨inVc 3, 3, 0, 0, { flits := [{ flit := fl, la := 1 }] }, { flit := fl, la := 1 }, 0, _, _, ?h204, ?h205, ?h206, ?h207, ?h208, ?h209, ?h210, ?h211, ?h212, ?h213, ?h214, ?h215, ?h216, ?h217, ?h218, ?h219, ?h220, ?h221, ?h222, ?h223, ?h224, (rfl)⟩ <;> decide +kernel,
   ⟨up, 3, by decide +kernel⟩,
   ⟨{}, 3, (Or.inl rfl)⟩⟩

/-- The hypotheses of `Obligations.FlitsReachTheirNi`, met clause by clause. -/
theorem witness_FlitsReachTheirNi :
    (∃ s : State, ∃ n : Fin 87, ∃ err : FlitErr, ∃ y, ∃ rest, ∃ f, s.linkOf (linkNi n.val) = y :: rest ∧ y.due ≤ s.fc ∧ s.runs (niTile n.val) = true ∧ y.vc < 16 ∧ fixFlit (strike y.flit err) = (f, [], []) ∧ (s.niOf n.val).vcAsm y.vc = [] ∧ sFidx f.sc = 0 ∧ hLen f.hdr = 0 ∧ s.badArrival n.val f.hdr f.sc = false ∧ s.ring = false) ∧
    (∃ s : State, ∃ n : Fin 87, (∀ y, (s.linkOf (linkNi n.val)).head? = some y → s.fc < y.due)) ∧
    (∃ s : State, ∃ n : Fin 87, ∃ vc : Fin 16, ∃ a : Asm, ∃ rest, ∃ room, s.runs (niTile n.val) = true ∧ (s.niOf n.val).admFc ≠ s.fc + 1 ∧ (s.niOf n.val).vcAsm vc.val = a :: rest ∧ room = (!roomless n.val a.hdr (a.body.headD (0, 0)).1 && (decide (a.code = OK) || decide (n.val = 80)) && !a.discard) ∧ (room = false ∨ a.admitted = true ∨ (s.niOf n.val).granUsed (granKey a.hdr (sOpc (a.body.headD (0, 0)).1)) + (s.niOf n.val).reserved (granKey a.hdr (sOpc (a.body.headD (0, 0)).1)) + hLen a.hdr + 1 ≤ s.granLimit n.val (granKey a.hdr (sOpc (a.body.headD (0, 0)).1))) ∧ a.moved < a.body.length ∧ (0 < a.moved ∨ passes a.hdr (((s.niOf n.val).asm.flatMap fun l => l.2.filter fun b => b.vc ≠ vc.val && b.ord < a.ord).map (·.hdr)) = false)) ∧
    (∃ s : State, ∃ n : Fin 87, ∃ vc : Fin 16, ∃ a : Asm, ∃ rest, (s.niOf n.val).vcAsm vc.val = a :: rest ∧ a.admitted = false ∧ roomless n.val a.hdr (a.body.headD (0, 0)).1 = false ∧ a.code = OK ∧ a.discard = false ∧ s.granLimit n.val (granKey a.hdr (sOpc (a.body.headD (0, 0)).1)) < (s.niOf n.val).granUsed (granKey a.hdr (sOpc (a.body.headD (0, 0)).1)) + (s.niOf n.val).reserved (granKey a.hdr (sOpc (a.body.headD (0, 0)).1)) + hLen a.hdr + 1) ∧
    (∃ s : State, ∃ n : Fin 87, ∃ vc : Fin 16, (s.niOf n.val).vcAsm vc.val = []) :=
  ⟨⟨onLink (linkNi 5), 5, {}, { flit := fl, due := 7 }, [], fl, by decide +kernel⟩,
   ⟨up, 5, (by intro y h; cases h)⟩,
   by
    refine ⟨atNi 5 { asm := [(0, [{ hdr := pk.hdr, body := [(setOpc 0 1, 0)], admitted := true }])] }, 5, 0, { hdr := pk.hdr, body := [(setOpc 0 1, 0)], admitted := true }, ([] : List Asm), _, ?h225, ?h226, ?h227, (rfl), ?h228⟩ <;> decide +kernel,
   ⟨atNi 5 { asm := [(0, [{ hdr := pk.hdr, body := [(setOpc 0 1, 0)] }])] } [(GRAN_LIM0 5, 0)], 5, 0, { hdr := pk.hdr, body := [(setOpc 0 1, 0)] }, ([] : List Asm), by decide +kernel⟩,
   ⟨up, 5, 0, by decide +kernel⟩⟩

/-- The hypotheses of `Obligations.AlivePinsAndClocks`, met clause by clause. -/
theorem witness_AlivePinsAndClocks :
    (∃ s : State, ∃ n : Fin 80, bit s.niAlive n.val = false ∧ s.held = none ∧ s.tileOn (niTile n.val) = true ∧ s.mode ≠ .off ∧ s.mode ≠ .fuse) ∧
    (∃ s : State, ∃ n : Fin 80, bit s.niAlive n.val = true) ∧
    (∃ s : State, ∃ n : Fin 80, bit s.niAlive n.val = true ∧ (s.niOf n.val).started = true ∧ s.held = none ∧ s.tileOn (niTile n.val) = true) ∧
    (∃ s : State, ∃ n : Fin 80, bit s.niAlive n.val = false) ∧
    (∃ s : State, s.pwrOk = true ∧ s.held ≠ some .cold) :=
  ⟨⟨up, 3, by decide +kernel⟩,
   ⟨atNi 3, 3, by decide +kernel⟩,
   ⟨atNi 3, 3, by decide +kernel⟩,
   ⟨up, 3, by decide +kernel⟩,
   ⟨up, by decide +kernel⟩⟩

/-- The hypotheses of `Obligations.EhrupBridge`, met clause by clause. -/
theorem witness_EhrupBridge :
    (∃ s : State, ∃ h : HPkt, s.runs 55 = true ∧ s.ehHead = some h ∧ s.ehRoom = true ∧ isEh h = true ∧ sOpc h.sc = 0x00 ∧ s.ehCode h = OK ∧ s.lni.writes.length < 32) ∧
    (∃ s : State, ∃ h : HPkt, s.ehHead = some h ∧ isEh h = true ∧ s.ehCode h = OK ∧ sOpc h.sc = 0x00 ∧ 32 ≤ s.lni.writes.length) ∧
    (∃ s : State, ∃ h : HPkt, s.runs 55 = true ∧ s.ehHead = some h ∧ s.ehRoom = true ∧ isEh h = true ∧ s.ehCode h ≠ OK) ∧
    (∃ s : State, ∃ h : HPkt, ∃ i, s.runs 55 = true ∧ s.ehHead = some h ∧ s.ehRoom = true ∧ isEh h = true ∧ sOpc h.sc = 0x01 ∧ s.ehCode h = OK ∧ mMid h.sc = 0 ∧ (∀ j e, j < 16 → s.lni.read j = some e → e.matches_ h = false) ∧ (List.range 16).find? s.lni.readFree = some i) ∧
    (∃ s : State, ∃ h : HPkt, ∃ i, ∃ e : EhRead, ∃ d, s.runs 55 = true ∧ s.ehHead = some h ∧ s.ehRoom = true ∧ isEh h = true ∧ sOpc h.sc = 0x01 ∧ s.ehCode h = OK ∧ i < 16 ∧ s.lni.read i = some e ∧ e.matches_ h = true ∧ (∀ j e, j < 16 → j ≠ i → s.lni.read j = some e → e.matches_ h = false) ∧ e.done = some d ∧ d < s.fc ∧ s.fc < d + 4096) ∧
    (∃ s : State, s.ehHead = none) ∧
    (∃ s : State, ∃ i, ∃ rest, ∃ e : EhRead, s.held = none ∧ s.tileOn 55 = true ∧ s.lni.order = (false, i) :: rest ∧ s.lni.read i = some e) ∧
    (∃ s : State, ∃ id, ∃ rest, ∃ w : EhWrite, ∃ p, s.held = none ∧ s.tileOn 55 = true ∧ s.lni.order = (true, id) :: rest ∧ s.lni.writes.find? (fun w => w.id = id) = some w ∧ w.slot = some p ∧ p < 32) ∧
    (∃ s : State, s.lni.order = []) ∧
    (∃ s : State, ∃ slot : BitVec 5, s.ehTimeout slot.toNat = s) ∧
    (∃ s : State, ∃ slot : BitVec 5, ∃ e : EhRead, slot.toNat < 16 ∧ s.lni.zombie.any (fun z => z.1 = slot.toNat) = false ∧ s.lni.read slot.toNat = some e ∧ e.sent = true ∧ e.done = none ∧ e.hang = false ∧ e.gone = false) ∧
    (∃ s : State, ∃ slot : BitVec 5, ∃ w : EhWrite, s.lni.zombie.any (fun z => z.1 = slot.toNat) = false ∧ s.lni.writes.find? (fun w => w.slot = some slot.toNat && w.sent = ehWords w.two) = some w ∧ w.hang = false ∧ s.lni.faulted slot.toNat 0 = false) ∧
    (∃ s : State, ∃ i : Fin 16, ∃ e : EhRead, ∃ d, s.runs 55 = true ∧ s.lni.read i.val = some e ∧ e.done = some d ∧ e.gone = false ∧ e.answered = false ∧ d + 4096 ≤ s.fc) ∧
    (∃ s : State, ∃ i : Fin 16, (∀ e d, s.lni.read i.val = some e → e.done = some d → s.fc < d + 4096)) ∧
    (∃ s : State, ∃ slot : Fin 32, ∃ e : EhRead, s.mode ≠ .frozen ∧ slot.val < 16 ∧ s.lni.read slot.val = some e ∧ e.sent = true ∧ e.done = none ∧ e.sentFc + s.ehTmo ≤ s.fc) ∧
    (∃ s : State, ∃ slot : Fin 32, ∃ w : EhWrite, s.mode ≠ .frozen ∧ 16 ≤ slot.val ∧ s.lni.writes.find? (fun w => w.slot = some slot.val && w.sent = ehWords w.two && !w.hang) = some w ∧ w.sentFc + s.ehTmo ≤ s.fc) ∧
    (∃ s : State, ∃ slot : Fin 32, slot.val < 16 ∧ s.lni.read slot.val = none) :=
  ⟨⟨eh {} [ehPkt 0 4], ehPkt 0 4, by decide +kernel⟩,
   ⟨eh { writes := List.replicate 32 {} } [ehPkt 0 4], ehPkt 0 4, by decide +kernel⟩,
   ⟨eh {} [ehPkt 0 5], ehPkt 0 5, by decide +kernel⟩,
   by
    refine ⟨eh {} [ehPkt 1 4], ehPkt 1 4, 0, ?h229, ?h230, ?h231, ?h232, ?h233, ?h234, ?h235, (by intro j e _ h; cases h), ?h236⟩ <;> decide +kernel,
   by
    refine ⟨eh { reads := [(0, some { ehE with done := some 99000, words := [7] })] } [ehPkt 1 4], ehPkt 1 4, 0, { ehE with done := some 99000, words := [7] }, 99000, ?h237, ?h238, ?h239, ?h240, ?h241, ?h242, ?h243, ?h244, ?h245, (fun j e _ hj h => (eh_read0 j e hj h).elim), ?h246⟩ <;> decide +kernel,
   ⟨up, by decide +kernel⟩,
   ⟨eh { reads := [(0, some { ehE with sent := false })], order := [(false, 0)] } [], 0, [], { ehE with sent := false }, by decide +kernel⟩,
   ⟨eh { writes := [{ slot := some 16 }], order := [(true, 0)] } [], 0, [], { slot := some 16 }, 16, by decide +kernel⟩,
   ⟨up, by decide +kernel⟩,
   ⟨up, 3, by decide +kernel⟩,
   ⟨eh { reads := [(0, some ehE)] } [], 0, ehE, by decide +kernel⟩,
   ⟨eh { writes := [{ slot := some 16, sent := 1 }] } [], 16, { slot := some 16, sent := 1 }, by decide +kernel⟩,
   ⟨eh { reads := [(0, some { ehE with done := some 5 })] } [], 0, { ehE with done := some 5 }, 5, by decide +kernel⟩,
   ⟨up, 3, (by intro e d h; cases h)⟩,
   ⟨eh { reads := [(0, some ehE)] } [], 0, ehE, by decide +kernel⟩,
   ⟨eh { writes := [{ slot := some 16, sent := 1 }] } [], 16, { slot := some 16, sent := 1 }, by decide +kernel⟩,
   ⟨up, 3, by decide +kernel⟩⟩

/-- The hypotheses of `Obligations.SkidwayRegisters`, met clause by clause. -/
theorem witness_SkidwayRegisters :
    (∃ s : State, ∃ m : Master, ∃ p : Fin 6, ∃ v : Word, s.Takes m (.skidway p) 0x100 ∧ s.feat fSKIDWAY = true ∧ s.mode ≠ .fuse ∧ bit v 0 = true ∧ s.skwState p.val = 0 ∧ s.dom (56 + p.val) = .open_) ∧
    (∃ s : State, ∃ m : Master, ∃ p : Fin 6, ∃ v : Word, s.Takes m (.skidway p) 0x100 ∧ s.feat fSKIDWAY = true ∧ bit v 0 = false) ∧
    (∃ s : State, ∃ m : Master, ∃ p : Fin 6, ∃ v : Word, s.Takes m (.skidway p) 0x100 ∧ s.feat fSKIDWAY = true ∧ s.mode ≠ .fuse ∧ bit v 0 = true ∧ bit v 2 = false ∧ s.skwState p.val = 5) ∧
    (∃ s : State, ∃ m : Master, ∃ p : Fin 6, ∃ v : Word, s.Takes m (.skidway p) 0x100 ∧ s.feat fSKIDWAY = true ∧ s.mode ≠ .fuse ∧ bit v 0 = true ∧ bit v 1 = false ∧ s.skwState p.val = 5 ∧ (s.skwOf p.val).closing = false) ∧
    (∃ s : State, ∃ m : Master, ∃ p : Fin 6, s.Takes m (.skidway p) 0x114 ∧ s.feat fSKIDWAY = true) ∧
    (∃ s : State, ∃ m : Master, ∃ p : Fin 6, s.Takes m (.skidway p) 0x11C ∧ s.feat fSKIDWAY = true ∧ s.feat fLANE = true ∧ s.skwState p.val = 5 ∧ (s.skwOf p.val).closing = false ∧ s.rbit (SKW_STAT p.val) 15 = true ∧ (s.skwOf p.val).step = none ∧ (s.skwOf p.val).ctl.any (fun c => c.1 = 4) = false) :=
  ⟨⟨sk 0, 0, 0, 1, takes_of (by decide), by decide +kernel⟩,
   ⟨sk 5, 0, 0, 0, takes_of (by decide), by decide +kernel⟩,
   ⟨sk 5, 0, 0, 1, takes_of (by decide), by decide +kernel⟩,
   ⟨sk 5, 0, 0, 1, takes_of (by decide), by decide +kernel⟩,
   ⟨sk 5, 0, 0, takes_of (by decide), by decide +kernel⟩,
   ⟨sk 0x8005, 0, 0, takes_of (by decide), by decide +kernel⟩⟩

/-- The hypotheses of `Obligations.SkidwayLinks`, met clause by clause. -/
theorem witness_SkidwayLinks :
    (∃ s : State, ∃ p : Fin 6, s.skwRuns p.val = true ∧ s.skwState p.val = 1) ∧
    (∃ s : State, ∃ p : Fin 6, s.skwState p.val ≠ 1) ∧
    (∃ s : State, ∃ p : Fin 6, s.skwRuns p.val = true ∧ s.skwState p.val = 5 ∧ (s.skwOf p.val).trains + 1 ≤ s.fld (SKW_CFG p.val) 19 16) ∧
    (∃ s : State, ∃ p : Fin 6, s.skwState p.val ≠ 5) ∧
    (∃ s : State, ∃ p : Fin 6, s.skwRuns p.val = true ∧ s.mode ≠ .frozen) ∧
    (∃ s : State, ∃ p : Fin 6, ∃ d : BitVec 64, s.skwState p.val = 3 ∧ (s.skwOf p.val).retr = false ∧ getBits d 2 0 ≠ s.die ∧ getBits d 23 16 = 1 ∧ getBits d 9 6 = s.fld (SKW_CFG p.val) 3 0) ∧
    (∃ s : State, ∃ p : Fin 6, (s.skwState p.val = 3 ∨ s.skwState p.val = 2)) ∧
    (∃ s : State, ∃ p : Fin 6, s.skwState p.val = 4) ∧
    (∃ s : State, ∃ p : Fin 6, s.skwState p.val ≠ 3 ∧ s.skwState p.val ≠ 4) ∧
    (∃ s : State, ∃ p : Fin 6, 2 ≤ s.skwState p.val ∧ s.skwState p.val ≤ 5) ∧
    (∃ s : State, ∃ p : Fin 6, (s.skwState p.val < 2 ∨ 5 < s.skwState p.val)) ∧
    (∃ s : State, ∃ p : Fin 6, s.skwState p.val = 5 ∧ (s.skwOf p.val).closing = false) ∧
    (∃ s : State, ∃ p : Fin 6, (s.skwState p.val ≠ 5 ∨ (s.skwOf p.val).closing = true)) ∧
    (∃ s : State, ∃ p : Fin 6, ∃ d : BitVec 64, ∃ n, ∃ b, s.skwState p.val = 5 ∧ (s.skwOf p.val).step = some (n, b) ∧ (s.skwOf p.val).stepGo = false ∧ getBits d 6 0 = b ∧ getBits d 31 16 = n % 65536) ∧
    (∃ s : State, ∃ p : Fin 6, (s.skwOf p.val).step = none) ∧
    (∃ s : State, ∃ p : Fin 6, ∃ d : BitVec 64, ∃ k, k = (getBits d 31 16 + 65536 - (s.skwOf p.val).rxN % 65536) % 65536) ∧
    (∃ s : State, ∃ p : Fin 6, ∃ n, ∃ b, (s.skwOf p.val).step = some (n, b) ∧ (s.skwOf p.val).stepGo = false ∧ n < (s.skwOf p.val).txN + 32) ∧
    (∃ s : State, ∃ p : Fin 6, (s.skwOf p.val).step = none) ∧
    (∃ s : State, ∃ p : Fin 6, s.skwState p.val = 5) ∧
    (∃ s : State, ∃ p : Fin 6, s.skwState p.val ≠ 5) ∧
    (∃ s : State, ∃ p : Fin 6, s.skwRuns p.val = true ∧ s.mode ≠ .frozen ∧ s.skwState p.val = 1 ∧ (s.skwOf p.val).since + 10000 * s.fclkMHz ≤ s.fc) ∧
    (∃ s : State, ∃ p : Fin 6, ∃ d : BitVec 64, ∃ k : Nat, s.skwState p.val = 5 ∧ k = (getBits d 31 16 + 65536 - (s.skwOf p.val).rxN % 65536) % 65536 ∧ 4 ≤ k ∧ k < 32768) :=
  ⟨⟨sk 1, 0, by decide +kernel⟩,
   ⟨sk 2, 0, by decide +kernel⟩,
   ⟨sk 5, 0, by decide +kernel⟩,
   ⟨sk 4, 0, by decide +kernel⟩,
   ⟨sk 1, 0, by decide +kernel⟩,
   ⟨sk 3, 0, 0x10301, by decide +kernel⟩,
   ⟨sk 3, 0, by decide +kernel⟩,
   ⟨sk 4, 0, by decide +kernel⟩,
   ⟨sk 5, 0, by decide +kernel⟩,
   ⟨sk 5, 0, by decide +kernel⟩,
   ⟨sk 7, 0, by decide +kernel⟩,
   ⟨sk 5, 0, by decide +kernel⟩,
   ⟨sk 4, 0, by decide +kernel⟩,
   ⟨sk 5 { step := some (40, 3) }, 0, 0x280003, 40, 3, by decide +kernel⟩,
   ⟨sk 5, 0, by decide +kernel⟩,
   ⟨sk 5, 0, 0x100000, _, (rfl)⟩,
   ⟨sk 5 { step := some (20, 3) }, 0, 20, 3, by decide +kernel⟩,
   ⟨sk 5, 0, by decide +kernel⟩,
   ⟨sk 5, 0, by decide +kernel⟩,
   ⟨sk 4, 0, by decide +kernel⟩,
   ⟨{ sk 1 with fc := 30000000 }, 0, by decide +kernel⟩,
   ⟨sk 5, 0, 0x100000, 16, by decide +kernel⟩⟩

/-- The hypotheses of `Obligations.SkidwayFrames`, met clause by clause. -/
theorem witness_SkidwayFrames :
    (∃ s : State, ∃ p : Fin 6, s.skwRuns p.val = true ∧ s.skwState p.val = 2 ∧ (s.skwOf p.val).frameFc + s.fpf p.val ≤ s.fc) ∧
    (∃ s : State, ∃ p : Fin 6, ∃ ty, ∃ d, ∃ rest, s.skwRuns p.val = true ∧ s.mode ≠ .frozen ∧ s.skwState p.val = 5 ∧ (s.skwOf p.val).frameFc + s.fpf p.val ≤ s.fc ∧ (s.skwOf p.val).again = [] ∧ (s.skwOf p.val).held.length < 32 ∧ (s.skwOf p.val).ctl = (ty, d) :: rest ∧ (ty = 5 ∨ ty = 6) ∧ (s.skwOf p.val).txCur = [] ∧ (s.skwOf p.val).schOut = [] ∧ (s.niOf (81 + p.val)).gran = [] ∧ (s.skwOf p.val).owed = [] ∧ (s.skwOf p.val).fseq < 4096) ∧
    (∃ s : State, ∃ p : Fin 6, (s.skwState p.val < 2 ∨ 5 < s.skwState p.val ∨ s.fc < (s.skwOf p.val).frameFc + s.fpf p.val)) ∧
    (∃ s : State, ∃ p : Fin 6, s.skwRuns p.val = true ∧ 2 ≤ s.skwState p.val ∧ s.skwState p.val ≤ 5) ∧
    (∃ s : State, ∃ p : Fin 6, ∃ f : Frame, ∃ y, ∃ rest, ∃ g : Flit, s.skwRuns p.val = true ∧ s.skwState p.val = 5 ∧ f.good = true ∧ f.aval = false ∧ f.fseq = (match (s.skwOf p.val).acc with | some a => (a + 1) % 4096 | none => 0) ∧ f.svalid = 1 ∧ f.ctype = 0 ∧ f.slots = some y :: rest ∧ (∀ i, i < 9 → f.credit i = 0) ∧ fixFlit y = (g, [], []) ∧ hSch g.hdr = false ∧ sFidx g.sc = 0 ∧ hLen g.hdr = 0 ∧ badEnter g.hdr g.sc = false ∧ (s.skwOf p.val).rxCur = none ∧ (s.skwOf p.val).rxq = []) ∧
    (∃ s : State, ∃ p : Fin 6, (s.skwState p.val < 2 ∨ 5 < s.skwState p.val)) ∧
    (∃ s : State, ∃ p : Fin 6, s.skwRuns p.val = true ∧ s.skwState p.val = 5 ∧ s.mode ≠ .frozen ∧ (s.skwOf p.val).nakGot = true ∧ (s.skwOf p.val).held ≠ [] ∧ (s.skwOf p.val).replays + 1 < s.fld (SKW_CFG p.val) 15 12) ∧
    (∃ s : State, ∃ p : Fin 6, (s.skwOf p.val).nakGot = false ∧ (s.skwOf p.val).held = []) ∧
    (∃ s : State, ∃ p : Fin 6, ∃ vn : Fin 8, ∃ r : SkRx, ∃ f : Found, s.runs (niTile (81 + p.val)) = true ∧ s.carries = true ∧ (s.skwOf p.val).sched = [] ∧ (s.skwOf p.val).rx.find? (fun r => hVn r.hdr = vn.val && isResponse (hCls r.hdr) (sOpc (r.body.headD (0, 0)).1)) = none ∧ (s.skwOf p.val).rx.find? (fun r => hVn r.hdr = vn.val) = some r ∧ f = s.look { n := 81 + p.val, key := .node (hDst r.hdr), vn := hVn r.hdr, cls := hCls r.hdr, isReq := true, resv := isResvOp (hCls r.hdr) (sOpc (r.body.headD (0, 0)).1), mask := s.fenceMask }) ∧
    (∃ s : State, ∃ p : Fin 6, ∃ vn : Fin 8, (s.skwOf p.val).sched = [] ∧ (∀ r ∈ (s.skwOf p.val).rx, hVn r.hdr ≠ vn.val)) ∧
    (∃ s : State, ∃ p : Fin 6, ∃ y : SkSched, ∃ c, s.runs (niTile (81 + p.val)) = true ∧ (s.niOf (81 + p.val)).sentFc ≠ s.fc + 1 ∧ (s.skwOf p.val).schCur = none ∧ (s.skwOf p.val).sched.find? (fun y => sFidx y.flit.sc = 0 && s.skWay p.val y = .at s.fc && s.injHere (81 + p.val) (hFlow y.flit.hdr).toNat) = some y ∧ s.enterCtx (hFlow y.flit.hdr) = some c) ∧
    (∃ s : State, ∃ p : Fin 6, (s.skwOf p.val).sched = [] ∧ (s.skwOf p.val).schCur = none) ∧
    (∃ s : State, ∃ p : Fin 6, ∃ y : SkSched, ∃ d, s.runs (niTile (81 + p.val)) = true ∧ (s.skwOf p.val).schCur = none ∧ (s.skwOf p.val).sched = [y] ∧ sFidx y.flit.sc = 0 ∧ hLen y.flit.hdr = 0 ∧ y.lost = false ∧ s.skWay p.val y = .at d ∧ d < s.fc) :=
  ⟨⟨sk 2, 0, by decide +kernel⟩,
   ⟨sk 5 { ctl := [(5, 7)] }, 0, 5, 7, [], by decide +kernel⟩,
   ⟨sk 1, 0, by decide +kernel⟩,
   ⟨sk 4, 0, by decide +kernel⟩,
   by
    refine ⟨sk 5, 0, skF, fl, List.replicate 11 none, fl, ?h247, ?h248, (sealed_good _), ((bit_putBits_ne _ _ _ _ 36 (.inl (by decide))).trans (by decide)), ((sealed_field _ _ _ (by decide)).trans (by decide)), ((sealed_field _ _ _ (by decide)).trans (by decide)), ((sealed_field _ _ _ (by decide)).trans (by decide)), (rfl), (skF_cred), ?h249⟩ <;> decide +kernel,
   ⟨sk 1, 0, by decide +kernel⟩,
   ⟨sk 5 { nakGot := true, held := [{}] }, 0, by decide +kernel⟩,
   ⟨sk 5, 0, by decide +kernel⟩,
   by
    refine ⟨{ sk 5 { rx := [skRx] } with mode := .reserved }, 0, 0, skRx, _, ?h250, ?h251, ?h252, ?h253, ?h254, (rfl)⟩ <;> decide +kernel,
   ⟨sk 5, 0, 0, by decide +kernel, (by intro r h; cases h)⟩,
   by
    refine ⟨skSch 0, 0, skY (some 100000), _, ?h255, ?h256, ?h257, ?h258, (rfl)⟩ <;> decide +kernel,
   ⟨sk 5, 0, by decide +kernel⟩,
   ⟨skSch 20, 0, skY (some 99990), 99990, by decide +kernel⟩⟩

/-- The hypotheses of `Obligations.Partitions`, met clause by clause. -/
theorem witness_Partitions :
    (∃ s : State, ∃ m : Master, ∃ p : Fin 512, ∃ v : Word, ∃ op : Nat, ∃ c : Instr, s.Takes m (.partition p) 0x100 ∧ (op, c) ∈ [(1, Instr.partCreate m p v), (2, .partOpen m p v), (3, .partFreeze m p v), (4, .partThaw m p v), (5, .partResetDrain m p v), (6, .partResetSquash m p v), (7, .partDestroy m p v), (8, .partSave m p v), (9, .partRestore m p v)]) ∧
    (∃ s : State, ∃ p : Fin 512, (s.partOf p.val).op = 2 ∧ s.openBad p.val = none) ∧
    (∃ s : State, ∃ p : Fin 512, ∃ code, ∃ i, ∃ pool, ∃ bank, (s.partOf p.val).op = 2 ∧ s.openBad p.val = some (code, i, pool, bank)) ∧
    (∃ s : State, ∃ p : Fin 512, (s.partOf p.val).op ≠ 2) ∧
    (∃ s : State, ∃ p : Fin 512, (s.partState p.val = 3 ∨ s.partState p.val = 5) ∧ s.anyEntry p.val LEntry.isOpen = false ∧ s.granClear p.val = true) ∧
    (∃ s : State, ∃ p : Fin 512, (s.partState p.val ≠ 3 ∧ s.partState p.val ≠ 5) ∨ s.anyEntry p.val LEntry.isOpen = true ∨ s.granClear p.val = false) ∧
    (∃ s : State, ∃ p : Fin 512, s.partState p.val = 6 ∧ s.anyEntry p.val (fun e => e.retained) = false ∧ s.granClear p.val = true) ∧
    (∃ s : State, ∃ p : Fin 512, (s.partState p.val ≠ 6 ∨ s.anyEntry p.val (fun e => e.retained) = true ∨ s.granClear p.val = false)) ∧
    (∃ s : State, ∃ p : Fin 512, ∃ u, ∃ n, ∃ k, (s.partOf p.val).op = 8 ∧ (s.saveImage p.val).length ≤ s.fld (PART_IO_MAX p.val) 23 0 ∧ u = s.imgEntry p.val true ∧ (u.partOf p.val).entry = some (n, k) ∧ (u.check n false true 0 (u.node n) { kind := 1, units := (List.range (s.saveImage p.val).length).map fun i => ((s.partOf p.val).io + i, 1) }).code = OK) ∧
    (∃ s : State, ∃ p : Fin 512, (s.partOf p.val).op = 8 ∧ (s.saveImage p.val).length ≤ s.fld (PART_IO_MAX p.val) 23 0 ∧ (s.partOf p.val).entry = none ∧ (s.niOf (76 + s.fld (PART_IO_CFG p.val) 1 0)).freeKey false = none) ∧
    (∃ s : State, ∃ p : Fin 512, ∃ x : Code, (s.partOf p.val).op = 8 ∧ codeOk x = true ∧ s.fld (PART_IO_MAX p.val) 23 0 < (s.saveImage p.val).length) ∧
    (∃ s : State, ∃ p : Fin 512, ∃ x : Code, (s.partOf p.val).op ≠ 8 ∨ codeOk x = false) ∧
    (∃ s : State, ∃ p : Fin 512, ∃ img : List (BitVec 8), ∃ x : Code, ∃ u, ∃ n, ∃ k, ∃ img', ∃ x', ∃ code, ∃ o, (s.partOf p.val).op = 9 ∧ codeOk x = true ∧ u = s.imgEntry p.val false ∧ (u.partOf p.val).entry = some (n, k) ∧ img' = (if (u.memCheck n false (s.partOf p.val).io img.length).2.2 = OK then img else img.take (u.memCheck n false (s.partOf p.val).io img.length).2.1) ∧ x' = (if (u.memCheck n false (s.partOf p.val).io img.length).2.2 = OK then x else (u.memCheck n false (s.partOf p.val).io img.length).2.2) ∧ s.restoreBad p.val img' x' = some (code, o)) ∧
    (∃ s : State, ∃ p : Fin 512, ∃ img : List (BitVec 8), ∃ u, ∃ n, ∃ k, (s.partOf p.val).op = 9 ∧ u = s.imgEntry p.val false ∧ (u.partOf p.val).entry = some (n, k) ∧ (u.memCheck n false (s.partOf p.val).io img.length).2.2 = OK ∧ s.restoreBad p.val img OK = none ∧ saveRecs img 4 = [] ∧ (s.rbit (PART_CTRL p.val) 5 = true → saveRecs img 5 = [])) ∧
    (∃ s : State, ∃ p : Fin 512, (s.partOf p.val).op = 9 ∧ (s.partOf p.val).entry = none ∧ (s.niOf (76 + s.fld (PART_IO_CFG p.val) 1 0)).freeKey false = none) ∧
    (∃ s : State, ∃ p : Fin 512, ∃ x : Code, (s.partOf p.val).op ≠ 9 ∨ codeOk x = false) :=
  ⟨⟨part5 0, 0, 5, 1, 1, .partCreate 0 5 1, takes_of (by decide), (List.mem_cons_self)⟩,
   ⟨part5 1 2, 5, by decide +kernel⟩,
   ⟨part5 1 2 [(PART_Q 5, 0x23FFF)], 5, 4, 16384, 0, 0, by decide +kernel⟩,
   ⟨part5 1, 5, by decide +kernel⟩,
   ⟨part5 3, 5, by decide +kernel⟩,
   ⟨part5 2, 5, by decide +kernel⟩,
   ⟨part5 6, 5, by decide +kernel⟩,
   ⟨part5 2, 5, by decide +kernel⟩,
   by
    refine ⟨part5 4 8 [(PART_IO_MAX 5, 0xFFFFFF)], 5, _, _, _, ?h259, ?h260, (rfl), (rfl), ?h261⟩ <;> decide +kernel,
   ⟨{ part5 4 8 [(PART_IO_MAX 5, 0xFFFFFF), (PART_IO_CFG 5, 0)] with ni := [(76, { ledger := (List.range 256).map fun k => (k, { st := .issued }) })] }, 5, by decide +kernel⟩,
   ⟨part5 4 8 [(PART_IO_MAX 5, 0)], 5, 0, by decide +kernel⟩,
   ⟨part5 4, 5, 0, by decide +kernel⟩,
   ⟨part5 1 9, 5, [], FAR, _, _, _, _, _, _, _, by decide +kernel, by decide +kernel, (rfl), (rfl), (rfl), (rfl), (rfl)⟩,
   ⟨part5 1 9, 5, (part5 1 9).saveImage 5, _, _, _, by decide +kernel, (rfl), (rfl), by decide +kernel⟩,
   ⟨{ part5 1 9 [(PART_IO_CFG 5, 0)] with ni := [(76, { ledger := (List.range 256).map fun k => (k, { st := .issued }) })] }, 5, by decide +kernel⟩,
   ⟨part5 1, 5, 0, by decide +kernel⟩⟩

/-- The hypotheses of `Obligations.BoomHandshake`, met clause by clause. -/
theorem witness_BoomHandshake :
    (∃ s : State, ∃ m : Master, ∃ d : Fin 64, ∃ op : Nat, ∃ c : Instr, s.Takes m .power 0x100 ∧ s.escWait = [] ∧ (op, c) ∈ [(1, Instr.boomQuiesce m d), (2, .boomOff m d), (3, .boomOpen m d), (4, .boomForce m d)]) ∧
    (∃ s : State, ∃ d : Fin 64, (s.boomOf d.val).st = .fencing ∧ s.held = none ∧ (d.val < 56 → s.fenceHeld d.val = false)) ∧
    (∃ s : State, ∃ d : Fin 64, (s.boomOf d.val).st = .draining ∧ s.held = none ∧ s.mode ≠ .frozen ∧ s.drained d.val = true) ∧
    (∃ s : State, ∃ d : Fin 64, (s.boomOf d.val).st = .quiesced ∧ (s.boomOf d.val).tgtOff = true ∧ s.held = none ∧ s.quiesced d.val = true ∧ s.escWait = []) ∧
    (∃ s : State, ∃ d : Fin 64, (s.boomOf d.val).st = .quiesced ∧ (s.boomOf d.val).tmoSeen = false ∧ (s.boomOf d.val).qMc + s.fld PWR_QTMO 23 0 ≤ s.mc ∧ s.quiesced d.val = false) ∧
    (∃ s : State, ∃ d : Fin 64, (s.boomOf d.val).st = .waking ∧ s.held = none) :=
  ⟨⟨up, 0, 3, 1, .boomQuiesce 0 3, takes_of (by decide), by decide +kernel, (List.mem_cons_self)⟩,
   ⟨dom3 { st := .fencing }, 3, by decide +kernel⟩,
   ⟨dom3 { st := .draining, drainFc := 5 }, 3, by decide +kernel⟩,
   ⟨dom3 { st := .quiesced, tgtOff := true }, 3, by decide +kernel⟩,
   ⟨{ dom3 { st := .quiesced } with mc := 40000000, niAlive := 0xFFFFFFFFFFFFFFFFFFFF }, 3, by decide +kernel⟩,
   ⟨dom3 { st := .waking }, 3, by decide +kernel⟩⟩

/-- The hypotheses of `Obligations.JournalAndLadder`, met clause by clause. -/
theorem witness_JournalAndLadder :
    (∃ s : State, ∃ e, ∃ rest, s.jq = e :: rest ∧ s.mclkOff = false ∧ s.jmc ≠ s.mc + 1 ∧ (s.rbit JRN_CTRL 0 = true ∨ (s.rd JRN_WIDX - s.rd JRN_RIDX).toNat < 4096) ∧ (e.part = none ∨ ∃ q, e.part = some q ∧ s.rbit (PJ_CFG q.toNat) 0 = false)) ∧
    (∃ s : State, ∃ e, ∃ rest, ∃ q, s.jq = e :: rest ∧ s.mclkOff = false ∧ s.jmc ≠ s.mc + 1 ∧ (s.rbit JRN_CTRL 0 = true ∨ (s.rd JRN_WIDX - s.rd JRN_RIDX).toNat < 4096) ∧ e.part = some q ∧ s.rbit (PJ_CFG q.toNat) 0 = true ∧ (s.rd (PJ_WIDX q.toNat) - s.rd (PJ_RIDX q.toNat)).toNat < 2 ^ s.fld (PJ_CFG q.toNat) 20 16 ∧ s.qValid (76 + s.fld (PJ_CFG q.toNat) 2 1) (s.fld (PJ_CFG q.toNat) 15 8) = true) ∧
    (∃ s : State, ∃ e, ∃ rest, s.jq = e :: rest ∧ s.mclkOff = false ∧ s.jmc ≠ s.mc + 1 ∧ s.rbit JRN_CTRL 0 = false ∧ 4096 ≤ (s.rd JRN_WIDX - s.rd JRN_RIDX).toNat) ∧
    (∃ s : State, (s.jq = [] ∨ s.mclkOff = true ∨ s.jmc = s.mc + 1)) ∧
    (∃ s : State, ∃ m : Master, s.Takes m .journal 0x110) ∧
    (∃ s : State, ∃ p : Fin 512, ∃ e, ∃ rest, (s.partOf p.val).events = e :: rest ∧ (e.opc = 0x20 → ∀ c, (s.partOf p.val).lastEvt = some c → c + s.fld (PEV_CFG p.val) 31 16 ≤ s.mc) ∧ s.qValid (76 + s.fld (PEV_CFG p.val) 2 1) (s.fld (PEV_CFG p.val) 15 8) = true) ∧
    (∃ s : State, ∃ p : Fin 512, (s.partOf p.val).events = []) ∧
    (∃ s : State, ∃ it : FaultItem, s.due.find? (fun f => f.item = it) = none) ∧
    (∃ s : State, ∃ it : FaultItem, ∃ f, s.due.find? (fun f => f.item = it) = some f ∧ s.winOpen it = false) ∧
    (∃ s : State, ∃ p : BitVec 9, ∃ f, s.due.find? (fun f => f.item = .partition p) = some f ∧ s.winOpen (.partition p) = true ∧ 2 ≤ s.partState p.toNat ∧ s.partState p.toNat < 6 ∧ s.opRefusal p.toNat 6 = none) ∧
    (∃ s : State, ∃ k : Fin 56, ∃ f, s.due.find? (fun f => f.item = .tile k) = some f ∧ s.winOpen (.tile k) = true ∧ tilePort k.val = none ∧ s.boomOf k.val = {} ∧ s.boomRefusal k.val 1 = none) ∧
    (∃ s : State, ∃ k : Fin 56, ∃ f, s.due.find? (fun f => f.item = .tile k) = some f ∧ s.winOpen (.tile k) = true ∧ s.dom k.val ≠ .open_) ∧
    (∃ s : State, ∃ f, s.due.find? (fun f => f.item = .time) = some f ∧ s.winOpen .time = true ∧ (s.mode = .dynamic ∨ s.mode = .scheduled) ∧ s.modeBusy = false) :=
  ⟨⟨{ up with jq := [{}] }, {}, [], by decide +kernel⟩,
   ⟨{ up ([(PJ_CFG 5, 1)] ++ q76) with jq := [{ part := some 5 }] }, { part := some 5 }, [], 5, by decide +kernel⟩,
   ⟨{ up [(JRN_CTRL, 0), (JRN_WIDX, 4096), (JRN_RIDX, 0)] with jq := [{}] }, {}, [], by decide +kernel⟩,
   ⟨{ up with mclkOff := true }, by decide +kernel⟩,
   ⟨up, 0, takes_of (by decide)⟩,
   ⟨{ up q76 with parts := [(5, { events := [{ opc := 0x21 }] })] }, 5, { opc := 0x21 }, [], by decide +kernel, (fun h => absurd h (by decide)), by decide +kernel⟩,
   ⟨up, 5, by decide +kernel⟩,
   ⟨up, .time, by decide +kernel⟩,
   ⟨faulty .time false, .time, { item := .time }, by decide +kernel⟩,
   ⟨faulty (.partition 5) true [(PART_STAT 5, 2)], 5, { item := .partition 5 }, by decide +kernel⟩,
   ⟨faulty (.tile 3) true, 3, { item := .tile 3 }, by decide +kernel⟩,
   ⟨{ faulty (.tile 3) true with boom := [(3, { st := .draining })] }, 3, { item := .tile 3 }, by decide +kernel⟩,
   ⟨faulty .time true, { item := .time }, by decide +kernel⟩⟩

/-- The hypotheses of `Obligations.TallyAndProbes`, met clause by clause. -/
theorem witness_TallyAndProbes :
    (∃ s : State, ∃ m : Master, ∃ i : Fin 1272, s.Serves m true (CNT i.val 0) (.window (.counter i.val))) ∧
    (∃ s : State, ∃ m : Master, ∃ i : Fin 1272, ∃ w, ∃ j, s.Serves m true (CNT i.val 1) (.window (.counter i.val)) ∧ Tbl.get (fun _ => none) s.tally.stage m.val = some (j, w)) ∧
    (∃ s : State, ∃ m : Master, ∃ i : Fin 1272, s.Serves m false (CNT i.val 0) (.window (.counter i.val)) ∧ (i.val % 2 = 1 → s.latch m.val (CNT i.val 0) = none)) ∧
    (∃ s : State, ∃ m : Master, ∃ i : Fin 1272, ∃ w, s.Serves m false (CNT i.val 0) (.window (.counter i.val)) ∧ i.val % 2 = 1 ∧ s.latch m.val (CNT i.val 0) = some w) ∧
    (∃ s : State, ∃ i : Fin 1272, ∃ add, s.chained i.val = false ∧ (i.val % 2 = 1 → s.chained (i.val - 1) = false) ∧ s.cntSet i.val = false ∧ (if i.val < 1144 then s.tally.frozen = false ∨ s.tally.frozenFc = s.fc else s.tally.frozenG = false) ∧ (cntTile i.val).all s.tileOn = true ∧ 2 ^ 48 ≤ s.cntVal i.val + add) ∧
    (∃ s : State, ∃ i : Fin 1272, ∃ add, s.chained i.val = true ∧ s.cntSet i.val = false ∧ s.cntSet (i.val + 1) = false ∧ (if i.val < 1144 then s.tally.frozen = false ∨ s.tally.frozenFc = s.fc else s.tally.frozenG = false) ∧ (cntTile i.val).all s.tileOn = true ∧ 2 ^ 96 ≤ s.cntVal i.val + s.cntVal (i.val + 1) * 2 ^ 48 + add) ∧
    (∃ s : State, ∃ i : Fin 1272, ∃ add, ((if i.val < 1144 then s.tally.frozen = true ∧ s.tally.frozenFc ≠ s.fc else s.tally.frozenG = true) ∨ s.cntSet i.val = true ∨ i.val % 2 = 1 ∧ s.chained (i.val - 1) = true ∨ s.chained i.val = false ∧ s.cntVal i.val + add < 2 ^ 48)) ∧
    (∃ s : State, ∃ m : Master, ∃ v : Word, s.Takes m .tally 0x100 ∧ bit v 1 = false) ∧
    (∃ s : State, ∃ m : Master, s.Takes m .tally 0x100) ∧
    (∃ s : State, ∃ m : Master, s.Takes m .tally 0x104) ∧
    (∃ s : State, ∃ c : _, ∃ b, ∃ rest, s.tally.cmds = (c, b) :: rest) ∧
    (∃ s : State, s.tally.acting = [.freeze]) ∧
    (∃ s : State, s.tally.acting = [.unfreeze]) ∧
    (∃ s : State, ∃ c : _, s.tally.acting = [c] ∧ (c = .snapshot ∨ c = .snapZero)) ∧
    (∃ s : State, s.tally.actingG = [.freeze] ∧ s.tally.cmds = [] ∧ s.tally.snapAt = none) ∧
    (∃ s : State, ∃ b, s.tally.actingG = [.snapshot] ∧ s.tally.cmds = [] ∧ s.tally.snapAt = some b ∧ s.mc < b + 64) ∧
    (∃ s : State, s.tally.cmds = []) ∧
    (∃ s : State, ∃ c : _, s.tally.snapAt = some c ∧ s.tally.actingG.any (·.snaps) = false) ∧
    (∃ s : State, (s.tally.snapAt = none ∨ s.tally.actingG.any (·.snaps) = true)) ∧
    (∃ s : State, ∃ m : Master, ∃ j : Fin 16, s.Takes m .tally (0x800 + 0x40 * j.val)) ∧
    (∃ s : State, ∃ j : Fin 16, ∃ r, ∃ rest, Tbl.get (fun _ => []) s.tally.buf j.val = r :: rest ∧ s.rbit (PRB_STAT j.val) 16 = false ∧ (s.rbit (PRB_CTRL j.val) 2 = true ∨ (s.rd (PRB_WIDX j.val) - s.rd (PRB_RIDX j.val)).toNat < 2 ^ s.fld (PRB_RING_CFG j.val) 20 16) ∧ s.qValid (76 + s.fld (PRB_RING_CFG j.val) 1 0) (s.fld (PRB_RING_CFG j.val) 15 8) = true) ∧
    (∃ s : State, ∃ j : Fin 16, ∃ r, ∃ rest, Tbl.get (fun _ => []) s.tally.buf j.val = r :: rest ∧ s.rbit (PRB_STAT j.val) 16 = false ∧ s.rbit (PRB_CTRL j.val) 2 = false ∧ 2 ^ s.fld (PRB_RING_CFG j.val) 20 16 ≤ (s.rd (PRB_WIDX j.val) - s.rd (PRB_RIDX j.val)).toNat) ∧
    (∃ s : State, ∃ j : Fin 16, ∃ r, ∃ rest, Tbl.get (fun _ => []) s.tally.buf j.val = r :: rest ∧ s.rbit (PRB_STAT j.val) 16 = true) ∧
    (∃ s : State, ∃ j : Fin 16, Tbl.get (fun _ => []) s.tally.buf j.val = []) :=
  ⟨⟨up, 0, 5, serves_of (by decide)⟩,
   ⟨{ up with tally := { stage := [(0, some (5, 7))] } }, 0, 5, 7, 5, serves_of (by decide), by decide +kernel⟩,
   ⟨up, 0, 5, serves_of (by decide), by decide +kernel⟩,
   ⟨{ up with latches := [(CNT 5 0 + 0 * 0, some 7)] }, 0, 5, 7, serves_of (by decide), by decide +kernel⟩,
   ⟨up [(CNT 1 0, 0xFFFFFFFF), (CNT 1 1, 0xFFFF)], 1, 1, by decide +kernel⟩,
   ⟨up [(CNT 0 0, 0xFFFFFFFF), (CNT 0 1, 0xFFFF), (CNT 0 2, 0x4000), (CNT 1 0, 0xFFFFFFFF), (CNT 1 1, 0xFFFF)], 0, 1, by decide +kernel⟩,
   ⟨up, 5, 1, by decide +kernel⟩,
   ⟨up, 0, 1, takes_of (by decide), by decide +kernel⟩,
   ⟨up, 0, takes_of (by decide)⟩,
   ⟨up, 0, takes_of (by decide)⟩,
   ⟨{ up with tally := { cmds := [(.freeze, 7)] } }, .freeze, 7, [], by decide +kernel⟩,
   ⟨{ up with tally := { acting := [.freeze] } }, by decide +kernel⟩,
   ⟨{ up with tally := { acting := [.unfreeze] } }, by decide +kernel⟩,
   ⟨{ up with tally := { acting := [.snapZero] } }, .snapZero, by decide +kernel⟩,
   ⟨{ up with tally := { actingG := [.freeze] } }, by decide +kernel⟩,
   ⟨{ up with tally := { actingG := [.snapshot], snapAt := some 39990 } }, 39990, by decide +kernel⟩,
   ⟨up, by decide +kernel⟩,
   ⟨{ up with tally := { snapAt := some 7 } }, 7, by decide +kernel⟩,
   ⟨up, by decide +kernel⟩,
   ⟨up, 0, 3, takes_of (by decide)⟩,
   ⟨probed q76, 0, {}, [], by decide +kernel⟩,
   ⟨probed [(PRB_CTRL 0, 0), (PRB_RING_CFG 0, 0), (PRB_WIDX 0, 1)], 0, {}, [], by decide +kernel⟩,
   ⟨probed [(PRB_STAT 0, 0x10000)], 0, {}, [], by decide +kernel⟩,
   ⟨up, 0, by decide +kernel⟩⟩

/-- The hypotheses of `Obligations.BackgroundEngines`, met clause by clause. -/
theorem witness_BackgroundEngines :
    (∃ s : State, s.engRuns = true ∧ s.eng.sweepFrom = none ∧ s.rbit CLK_STAT 2 = false ∧ s.sweepPeriod ≤ (s.time.now - s.eng.lastSweep).toNat) ∧
    (∃ s : State, (s.eng.sweepFrom.isSome = true ∨ (s.time.now - s.eng.lastSweep).toNat < s.sweepPeriod)) ∧
    (∃ s : State, ∃ c, s.engRuns = true ∧ s.eng.sweepFrom = some c) ∧
    (∃ s : State, s.eng.sweepFrom = none) ∧
    (∃ s : State, s.engRuns = true ∧ s.eng.evalDue = true ∧ s.fclkDead = false ∧ s.fmOn = true ∧ s.fmNis = [] ∧ s.varWanted = none) ∧
    (∃ s : State, ∃ n : Fin 81, ∃ r, s.engRuns = true ∧ s.eng.evalDue = true ∧ s.fclkDead = false ∧ s.fmOn = true ∧ 2 ≤ s.eng.auth ∧ s.fmNis = [n.val] ∧ s.feat fDEVLOAD = false ∧ s.varWanted = none ∧ s.rbit (ARB_CTRL n.val) 0 = false ∧ s.marksNow.req = [] ∧ s.hung = [] ∧ s.tileOn (niTile n.val) = true ∧ s.rbit (pageBase (niPage n.val) + 0x10) 0 = true ∧ s.fmBlocked (INJ_THR n.val) = false ∧ 0 < s.fld FM_CTRL 15 8 ∧ s.fld FM_POL0 7 0 ≤ s.fld CRU_G 7 0 ∧ s.fld FM_POL1 7 0 ≤ s.fld (CRU_NI n.val) 15 8 ∧ r = max (s.fld (INJ_THR n.val) 8 0 - s.fld FM_POL1 24 16) (s.fld FM_THR_LIM 8 0) ∧ r < s.fld (INJ_THR n.val) 8 0) ∧
    (∃ s : State, s.eng.evalDue = false) ∧
    (∃ s : State, ∃ u, ∃ sec, ∃ r, ∃ d, s.engRuns = true ∧ s.eng.varStep = 2 ∧ s.fmOn = true ∧ s.eng.auth = 3 ∧ s.feat fSCHEDULED = true ∧ s.hung = [] ∧ s.marksNow.req = [] ∧ s.rbit 0x7010 0 = true ∧ s.swState = 1 ∧ s.mode = .scheduled ∧ s.fld TIME_STAT 3 2 = 2 ∧ u = ((s.wr SW_TGT_SUB (BitVec.ofNat 32 (s.varTarget % 65536))).wr SW_TGT_LO (BitVec.ofNat 32 (s.varTarget / 65536))).wr SW_TGT_HI (BitVec.ofNat 32 (s.varTarget / 2 ^ 48)) ∧ s.varTarget < 2 ^ 80 ∧ u.swStamp = (sec, r) ∧ u.fcUntil sec r = some d ∧ 2048 ≤ d) ∧
    (∃ s : State, s.eng.varStep ≠ 2) ∧
    (∃ s : State, ∃ i, s.glnRuns = true ∧ i < 16384 ∧ s.hung = [] ∧ (s.dom 63).cut = false) ∧
    (∃ s : State, ∃ i, s.glnRuns = true ∧ i < 8192 ∧ s.hung = [] ∧ (s.dom 63).cut = false) ∧
    (∃ s : State, ∃ w : GlnBack, s.eng.glnWb = [w] ∧ w.table = .routeStore ∧ w.bank < 8 ∧ w.idx < 16384 ∧ s.hung = [] ∧ (s.dom 63).cut = false) ∧
    (∃ s : State, s.glnRuns = false) ∧
    (∃ s : State, ∃ tb, s.glnRuns = true ∧ Tbl.get (fun _ => 0) s.eng.glnRead (glnNum tb) ≠ 0 ∧ Tbl.get (fun _ => 0) s.eng.glnStart (glnNum tb) + s.glnPeriod tb ≤ s.mc) ∧
    (∃ s : State, ∃ tb, Tbl.get (fun _ => 0) s.eng.glnRead (glnNum tb) = 0) ∧
    (∃ s : State, ∃ c : Fin 8, ∃ i, ∃ rest, s.glnRuns = true ∧ Tbl.get (fun _ => []) s.eng.glnQueue c.val = i :: rest ∧ s.hung = [] ∧ (s.dom 63).cut = false) ∧
    (∃ s : State, ∃ c : Fin 8, Tbl.get (fun _ => []) s.eng.glnQueue c.val = []) ∧
    (∃ s : State, ∃ n : Fin 81, ∃ dir, ∃ c, s.audRuns n.val = true ∧ s.audDue (2 * n.val + flag dir) = true ∧ 3 ≤ c ∧ c ≤ 6) ∧
    (∃ s : State, ∃ n : Fin 81, ∃ dir, ∃ c, s.audRuns n.val = true ∧ s.audDue (2 * n.val + flag dir) = true ∧ (c < 3 ∨ 6 < c)) ∧
    (∃ s : State, ∃ n : Fin 81, ∃ dir, (s.audRuns n.val = false ∨ s.audDue (2 * n.val + flag dir) = false)) :=
  ⟨⟨{ up with time := { now := 0x1000000000000000 } }, by decide +kernel⟩,
   ⟨up, by decide +kernel⟩,
   ⟨{ up with eng := { sweepFrom := some 5 } }, 5, by decide +kernel⟩,
   ⟨up, by decide +kernel⟩,
   ⟨foreman 1 [(FEAT_ACTIVE_LO, 2 ^ fFOREMAN), (FM_NI_EN0, 0), (FM_NI_EN0 + 4, 0), (FM_NI_EN0 + 8, 0), (FM_VAR, 0x100)], by decide +kernel⟩,
   ⟨fmThr, 3, 240, by decide +kernel⟩,
   ⟨up, by decide +kernel⟩,
   by
    refine ⟨fmVar, _, 0, 5, 5120, ?h262, ?h263, ?h264, ?h265, ?h266, ?h267, ?h268, ?h269, ?h270, ?h271, ?h272, (rfl), ?h273⟩ <;> decide +kernel,
   ⟨up, by decide +kernel⟩,
   ⟨up [(GLN_CTRL, 1)], 5, by decide +kernel⟩,
   ⟨up [(GLN_CTRL, 1)], 5, by decide +kernel⟩,
   ⟨{ up with eng := { glnWb := [{ table := .routeStore, bank := 7, idx := 5, old := 0, new := 3 }] } }, { table := .routeStore, bank := 7, idx := 5, old := 0, new := 3 }, by decide +kernel⟩,
   ⟨up [(GLN_CTRL, 0)], by decide +kernel⟩,
   ⟨{ up [(GLN_CTRL, 1)] with mc := 4000000000, eng := { glnRead := [(glnNum .rule, 5)] } }, .rule, by decide +kernel⟩,
   ⟨up, .rule, by decide +kernel⟩,
   ⟨{ up [(GLN_CTRL, 1)] with eng := { glnQueue := [(2, [7])] } }, 2, 7, [], by decide +kernel⟩,
   ⟨up, 2, by decide +kernel⟩,
   ⟨{ atNi 3 {} [(CAL_CTRL, 1)] with fc := 5 }, 3, true, 4, by decide +kernel⟩,
   ⟨{ atNi 3 {} [(CAL_CTRL, 1)] with fc := 5 }, 3, true, 9, by decide +kernel⟩,
   ⟨up, 3, true, by decide +kernel⟩⟩

/-- The hypotheses of `Obligations.OfferedFeatures`, met clause by clause. -/
theorem witness_OfferedFeatures :
    (∃ i, i < 64) ∧
    (∃ s : State, ∃ m : Master, s.Serves m false 0x120 (.page .global 0x120) ∧ s.latch m.val 0x120 = none ∧ s.rd FEAT_OFFER_LO = State.reset.rd FEAT_OFFER_LO) ∧
    (∃ s : State, ∃ m : Master, s.Serves m false 0x124 (.page .global 0x124) ∧ s.latch m.val 0x124 = none ∧ s.rd FEAT_OFFER_HI = State.reset.rd FEAT_OFFER_HI) ∧
    (∃ s : State, ∃ m : Master, ∃ a : BitVec 26, (a = 0x120 ∨ a = 0x124) ∧ s.Serves m true a.toNat (.page .global a.toNat)) :=
  ⟨⟨5, by decide +kernel⟩,
   ⟨up, 0, serves_of (by decide), by decide +kernel⟩,
   ⟨up, 0, serves_of (by decide), by decide +kernel⟩,
   ⟨up, 0, 0x120, by decide +kernel, serves_of (by decide)⟩⟩

/-! Ill-formed operands, one for each check of `Instr.wf` -/

theorem test_wf_frame_of_eleven_slots : (Instr.skwFrameReceive 0 { slots := List.replicate 11 none }).wf = false := by decide
theorem test_wf_line_beyond_burst : (Instr.inboundRequestMessage 3 { cls := 1, lidx := 2, blen := 1 }).wf = false := by decide
theorem test_wf_gleaner_beyond_rules : (Instr.gleanerRead .rule 8192).wf = false := by decide
theorem test_wf_no_events_counted : (Instr.counterOverflow 5 0).wf = false := by decide
theorem test_wf_maps_beyond_count : (Instr.efuseProgram true { maps := List.replicate 256 0 }).wf = false := by decide +kernel
theorem test_wf_schedule_too_long : (Instr.schedLoadDone (List.replicate (2 ^ 24 + 1) 0) 0).wf = false := by
  simp only [Instr.wf, imageWf, List.length_replicate]; decide
theorem test_wf_partition_too_long : (Instr.partRestoreDone 5 (List.replicate (2 ^ 24 + 1) 0) 0).wf = false := by
  simp only [Instr.wf, imageWf, List.length_replicate]; decide
theorem test_wf_frame : (Instr.skwFrameReceive 0 skF).wf = true := by decide
/-- No row of the table has bits. -/
theorem test_no_row_has_bits : decodeTableWord 32 7 = none ∧ State.reset.withFetchWord 32 7 = State.reset := ⟨rfl, rfl⟩

/-! Worked examples of spec/ -/

/-- 01_fabric_overview: SNI 69 on die 3 has node ID 0x1C5. -/
theorem test_node_id : mkNode 3 69 = 0x1C5 ∧ nodeDie 0x1C5 = 3 ∧ nodeNi 0x1C5 = 69 := by decide
/-- 02, R48: a group whose only 1 bit is d5 has check bits 1, 3 and 7. -/
theorem test_check_byte : checkByte 7 (2 ^ 5) = 2 ^ 1 + 2 ^ 3 + 2 ^ 7 := by decide
/-- 02: the REQ sidecar of PNI 5's read, and the DRS sidecar of its answer. -/
theorem test_sidecars :
    setAddr (setOpc 3 1) 0x00042A173F40 = 0x0010000000000000000000042A173F43 ∧
    setRaddr (setLoad (setOpc 0 0) 0x40) ((0x00042A173F40 : BitVec 52).extractLsb' 6 46) = 0x00010A85CFD04000 := by decide +kernel
/-- 02: the header of that read. -/
def reqH : BitVec 128 := setSeq (mkHdr cREQ false 0 17 5 0x2A 0x133 0x13 0) 0x0A41
theorem test_header : (hCls reqH, hVn reqH, hPart reqH, hSrc reqH, hDst reqH) = (0, 0, 17, 5, 0x2A) ∧
    (hTag reqH, hLen reqH, hSeq reqH, hHop reqH, hSel reqH 0, hSel reqH 1) = (0x13, 0, 0x0A41, 0, 3, 6) := by decide +kernel

/-- The registers and entries of the first worked lookup of 03. -/
def looked (path : BitVec 128) : State :=
  { up [(RT_CARVE 5, 0x04FF0400), (RT_ADDR_BASE 5, 0x00400400), (RT_ADDR_SHIFT 5, 30), (RT_ADDR_WIN_LO 5, 0), (RT_ADDR_WIN_HI 5, 4)] with
    banks := [(0, { ent := [(1024, storeEntry 0x4011802A0881C8000000000000000000 0), (1120, storeEntry path 0)] })] }
def lookA (mask : BitVec 56) : Found :=
  (looked 0x944000800000000000000000000EA133).look { n := 5, key := .addr 0x00042A173F40, vn := 0, cls := cREQ, mask := mask }
/-- 03: the lookup names node 42 and partition 17, and takes route 0. -/
theorem test_lookup : (let f := lookA 0; (f.code, f.dst, f.part, f.pf, f.route, f.fenced)) = (OK, 0x2A, some 17, true, 0x133, false) := by decide +kernel
/-- 03: with tile 5 fenced it takes route 1, selects 2, 5, 3, 0. -/
theorem test_lookup_failover : (let f := lookA (2 ^ 5); (f.code, f.route)) = (OK, 2 + 5 * 8 + 3 * 64) := by decide +kernel
/-- 04: output 6 of router 5 leads to router 38. -/
theorem test_cross_link : Config.port 5 6 = .router 38 := by decide
/-- 04: PNI 5 reaches PNI 42 by ring 0, and PNI 42 reaches PNI 5 by ring 1. -/
theorem test_rings : pickRing 0 5 42 = some 0 ∧ pickRing 0 42 5 = some 1 := by decide +kernel
/-- 05: the edge at +1,200 ns makes F −300 ppb and P −12,000 ppb. -/
theorem test_servo : (let s := (up [(TIME_CTRL, 0x6421)]).servo 1200; (s.sfld FREQ 18 0, s.time.p)) = (-300, -12000) := by decide +kernel
/-- 05: an edge at −5,300 ns steps the counter forward by 5,300 ns. -/
theorem test_step : ((up [(TIME_CTRL, 0x6421)]).servo (-5300)).time.stepBy = 5300 * 2 ^ 32 := by decide +kernel
/-- 05: t = 7,200 s + 500,000 ns gives the stamp (7,200, 1,172). -/
theorem test_stamp : (up [(SW_TGT_LO, BitVec.ofNat 32 7200000500000), (SW_TGT_HI, BitVec.ofNat 32 (7200000500000 / 2 ^ 32))]).swStamp = (7200, 1172) := by
  decide +kernel
/-- 05: the window words of the switchover example. -/
theorem test_slot_words : SLOT 2 0 3 (1022 / 8) = 0x024087FC ∧ SLOT 5 0 6 0 = 0x02414C00 := by decide
/-- 07: tickets 40, 60 and 100 with S = 0x6000_0000 let PNI 9 win. -/
theorem test_draw : drawWinner (fun r => if r.src = 5 then 40 else if r.src = 9 then 60 else 100) 0x60000000
    [{ src := 5, part := 17 }, { src := 9, part := 17 }, { src := 0x48, part := 3 }] = some { src := 9, part := 17 } := by decide +kernel
/-- 09: eight lines from 0x0004_2A18_0E80 with max_pkt 4 are cut 4, 2, 2. -/
theorem test_cut : cutAt 4 none 0x42A180E80 8 = 4 ∧ cutAt 4 none 0x42A180F80 4 = 2 ∧ cutAt 4 none 0x42A181000 2 = 2 := by decide
/-- 09: LOAD 0xA0 is DevLoad 2, and 1 once raise is 0x30. -/
theorem test_devload : (up [(FEAT_ACTIVE_LO, 2 ^ fDEVLOAD)]).devload 5 0xA0 = 2 ∧
    (up [(FEAT_ACTIVE_LO, 2 ^ fDEVLOAD), (DL_THR 5, 0x40C08040), (DL_RAISE 5, 0x30)]).devload 5 0xA0 = 1 := by decide +kernel
/-- 11: raw 21 here and 19 at the peer give δ = +1. -/
theorem test_tsync : ((sk 5 { raw := 21 }).gotTsync 0 19 |>.skwOf 0).delta = 1 := by decide +kernel
/-- 15: counter 488 is chained with 489: 0xFFFF_FFFF_FFFE and 7 become 3 and 8 after five events, with no overflow. -/
theorem test_chained : (let s := (up [(CNT 488 0, 0xFFFFFFFE), (CNT 488 1, 0xFFFF), (CNT 488 2, 0x4000), (CNT 489 0, 7)]).addCnt 488 5
    (s.cntVal 488, s.cntVal 489, s.rbit (CNT 488 3) 0)) = (3, 8, false) := by decide +kernel
/-- 17: accepting all but CXL_CACHE and SPRAY is committed. -/
theorem test_commit : (match exec (.featCommit 0 1) { up [(FEAT_ACCEPT_LO, 0x13FF)] with mode := .reserved } with
    | .next t => t.rd FEAT_ACTIVE_LO | _ => 0) = 0x13FF := by decide +kernel
/-- 17: VARIANTS without SCHEDULED is refused, and FEAT_ACTIVE keeps its provisional value (R431). -/
theorem test_commit_depend : (match exec (.featCommit 0 1) { up [(FEAT_ACCEPT_LO, 0x1002)] with mode := .reserved } with
    | .next t => t.rd FEAT_ACTIVE_LO | _ => 1) = 0x10 := by decide +kernel
/-- R166: the CRC-32C of the nine digits, the check value of the code. -/
theorem test_crc : crc32c [0x31, 0x32, 0x33, 0x34, 0x35, 0x36, 0x37, 0x38, 0x39] = 0xE3069283 := by decide +kernel

/-- 06: the two contexts of flow 300: their latencies, and the slots that the flit claims on die 0 and die 2. -/
def ctxA : BitVec 256 := BitVec.ofNat 256 (imgNat [0x2C, 0x01, 0x05, 0x03, 0x01, 0x01, 0x11, 0x00, 0x14, 0x01, 0x00, 0x02, 0x05] 0 13)
def ctxB : BitVec 256 := BitVec.ofNat 256 (imgNat [0x2C, 0x01, 0x54, 0x05, 0x01, 0x01, 0x11, 0x00, 0x14, 0x01, 0x00, 0x03, 0x22] 0 13)
/-- Link depths of the example: one link cycle, but two from router 27 to router 19. -/
def flow300 : State := up [(LINK_DEPTH 2, 0x5555), (LINK_DEPTH 6, 0x5555), (LINK_DEPTH 16, 0x5555), (LINK_DEPTH 19, 0x5555), (LINK_DEPTH 27, 0x5565)]
theorem test_flow_latency : flow300.segLat ctxA = 9 ∧ flow300.segLat ctxB = 17 := by decide +kernel
theorem test_flow_slots : (flow300.flitUses ctxA 100).map (fun u => (u.1, u.2.1, u.2.2.1, u.2.2.2.1)) = [(2, 5, 1, 101), (6, 0, 4, 103)] ∧
    (flow300.flitUses ctxB 134).map (fun u => (u.1, u.2.1, u.2.2.1, u.2.2.2.1)) = [(27, 2, 0, 135), (19, 4, 1, 138), (16, 0, 3, 140)] := by
  decide +kernel

/-- 14: Foreman with the reset policies after sweep 1,000 of the example. -/
def sweep1000 : State :=
  foreman 2 [(FEAT_ACTIVE_LO, 2 ^ fFOREMAN), (FM_NI_EN0, 0x220), (FM_NI_EN1, 0x400), (FM_NI_EN2, 0x100), (CRU_G, 0xD2), (CRU_NI 42, 0xE0), (CRU_NI 5, 0x9000),
    (CRU_NI 9, 0x4000), (CRU_NI 72, 0xA000), (ARB_CTRL 42, 0x100001), (ARB_REQ_W0 42 0, 0x80000005), (ARB_REQ_W1 42 0, 0x40101028),
    (ARB_REQ_W0 42 1, 0x80000009), (ARB_REQ_W1 42 1, 0x4010003C), (ARB_REQ_W0 42 2, 0x80000048), (ARB_REQ_W1 42 2, 0x64640064)]
def evaluated : State := match exec .foremanEvaluate sweep1000 with | .next t => t | _ => sweep1000
/-- 14: PNI 5's entry falls to 32, the others stand, and the rates of PNI 5 and SNI 72 fall to 224. -/
theorem test_foreman : evaluated.rd (ARB_REQ_W1 42 0) = 0x40101020 ∧ evaluated.rd (ARB_REQ_W1 42 1) = 0x4010003C ∧
    evaluated.rd (ARB_REQ_W1 42 2) = 0x64640064 ∧ evaluated.rd (INJ_THR 5) = 0xE0 ∧ evaluated.rd (INJ_THR 72) = 0xE0 ∧
    evaluated.rd (INJ_THR 9) = 0x100 := by decide +kernel

/-- 03: entry 1028 has four ways of 4 KiB from 1104 on, and the leaf at 1105 names PNI 41. -/
def woven : State :=
  { looked 0 with banks := [(0, { ent := [(1028, storeEntry (BitVec.ofNat 128 (2 ^ 126 + 2 * 2 ^ 123 + 4 * 2 ^ 120 + 1104 * 2 ^ 106)) 0),
      (1105, storeEntry (BitVec.ofNat 128 (2 ^ 126 + 1120 * 2 ^ 106 + 41 * 2 ^ 96 + 17 * 2 ^ 87 + 3 * 2 ^ 79)) 0)] })] }
theorem test_lookup_ways : ((woven.lookLeaf { n := 5, key := .addr 0x000500009A40, vn := 0, cls := cREQ }).2.map fun e => getBits e 105 96) = some 41 := by
  decide +kernel

/-- R318: a rule stored with one check bit inverted is corrected by a check that reads it, which RULE_CE counts. -/
def flawed : State :=
  { up [(RULE_INIT 3, 0x10000), (CNT 472 2, 0x2B)] with rules := { ent := [(0, storeEntry (2 ^ 126) 1)] } }
theorem test_rule_ce : (flawed.readShadow 3 false).cntVal 472 = 1 := by decide +kernel

end Sys2Proof.Tests
end

section
/-! What the operation of a served access finds (its registers, latches and marks of the mc), and how the answer to the
access follows from what the page or the window does. -/

namespace Sys2Proof.Machine

/-! The state that a served access acts on -/

theorem State.marksNow_mc (s : State) : s.marksNow.mc = s.mc := by
  unfold State.marksNow
  split
  · assumption
  · rfl

/-- A request is noted among the marks of the mc (R280). -/
theorem State.asked_eq_setMarks (s : State) (m a : Nat) : ∃ k, s.asked m a = s.setMarks k := by
  unfold State.asked
  split
  · exact ⟨_, rfl⟩
  · exact ⟨s.notes.marks, rfl⟩

theorem State.hwBits_setMarks (s : State) {k : McMarks} (hmc : k.mc = s.mc) (a : Nat) :
    (s.setMarks k).hwBits a = Tbl.get (fun _ => 0) k.hw a := by
  have h : (s.setMarks k).marksNow = k := if_pos hmc
  rw [State.hwBits, h]

@[simp] theorem State.hwBits_asked (s : State) (m a b : Nat) : (s.asked m a).hwBits b = s.hwBits b := by
  unfold State.asked
  split
  · exact s.hwBits_setMarks (k := { s.marksNow with req := a :: s.marksNow.req }) s.marksNow_mc b
  · rfl

@[simp] theorem State.hwBits_served (s : State) (m : Master) (a : Nat) (t : HlSlave) (b : Nat) :
    (s.served m a t).hwBits b = s.hwBits b := s.hwBits_asked m.val a b

@[simp] theorem State.latch_served (s : State) (m : Master) (a : Nat) (t : HlSlave) (i b : Nat) :
    (s.served m a t).latch i b = s.latch i b := by
  obtain ⟨k, hk⟩ := s.asked_eq_setMarks m.val a
  rw [State.served, hk]; rfl

@[simp] theorem State.time_served (s : State) (m : Master) (a : Nat) (t : HlSlave) : (s.served m a t).time = s.time := by
  obtain ⟨k, hk⟩ := s.asked_eq_setMarks m.val a
  rw [State.served, hk]; rfl

@[simp] theorem State.feat_served (s : State) (m : Master) (a : Nat) (t : HlSlave) (i : Nat) :
    (s.served m a t).feat i = s.feat i := State.rbit_congr (s.rd_served m a t (by decide)) i

@[simp] theorem State.activeBank_served (s : State) (m : Master) (a : Nat) (t : HlSlave) :
    (s.served m a t).activeBank = s.activeBank := State.fld_congr (s.rd_served m a t (by decide)) 3 3

@[simp] theorem State.swState_served (s : State) (m : Master) (a : Nat) (t : HlSlave) :
    (s.served m a t).swState = s.swState := State.fld_congr (s.rd_served m a t (by decide)) 2 0

/-- A read sees nothing of the request's own mark. -/
theorem State.regRead_served (s : State) (m : Master) (a : Nat) (t : HlSlave) (p : Page) (o : Nat) :
    (s.served m a t).regRead p o = (s.hlPark m.val t.segment).regRead p o := by
  obtain ⟨k, hk⟩ := s.asked_eq_setMarks m.val a
  rw [State.served, hk]; rfl

/-! The answer -/

/-- Effects that agree on the state the access acts on leave the same state. -/
theorem State.answered_congr {s : State} {m : Master} {a : Nat} {t : HlSlave} {d : Word} {f g : State → State}
    (h : f (s.served m a t) = g (s.served m a t)) : s.answered m a t d f = s.answered m a t d g :=
  congrArg (fun u : State => (u.hlTaken m.val).hlReturn m.val { data := d }) h

@[simp] theorem State.rd_answered (s : State) (m : Master) (a : Nat) (t : HlSlave) (d : Word) (f : State → State) (b : Nat) :
    (s.answered m a t d f).rd b = (f (s.served m a t)).rd b := rfl

/-- HL_PARK, which every served access writes (R280), is no common register. -/
theorem pageBase_add_ne_hlPark (p : Page) {o : Nat} (h : o < 0x100) : pageBase p + o ≠ HL_PARK := by
  cases p <;> simp only [pageBase, HL_PARK] <;> omega

/-- A write of a page that ends OK. -/
theorem State.regWrite_page_ok {s : State} {m : Master} {p : Page} {o : Nat}
    (h : s.Serves m true (pageBase p + o) (.page p o)) (ho : o < 0x1000) (ha : o % 4 = 0) {v : Word} {f : State → State}
    (hf : (s.served m (pageBase p + o) (.page p o)).pageWrite m.val p o v =
      (OK, f (s.served m (pageBase p + o) (.page p o)))) :
    s.regWrite m (pageBase p + o) v = s.answered m (pageBase p + o) (.page p o) 0 f := by
  rw [State.regWrite_page h ho ha, hf]; rfl

/-- A write of a common register. -/
theorem State.regWrite_common {s : State} {m : Master} {p : Page} {o : Nat}
    (h : s.Serves m true (pageBase p + o) (.page p o)) (ho : o < 0x100) (ha : o % 4 = 0) (v : Word) :
    s.regWrite m (pageBase p + o) v =
      s.answered m (pageBase p + o) (.page p o) 0 fun u => u.commonWrite p o v :=
  State.regWrite_page_ok h (by omega) ha (if_pos ho)

/-- A write of a register that has no field a write reaches. -/
theorem State.pageWrite_readOnly {s : State} {m : Nat} {p : Page} {o : Nat} {r : RegRow} (ho : 0x100 ≤ o)
    (hr : rowAt p o = some r) (hc : r.mask .w1c = 0) (hw : r.writable = 0) (v : Word) :
    s.pageWrite m p o v = (OK, s) := by
  simp only [State.pageWrite, if_neg (Nat.not_lt.mpr ho), hr, State.rowWrite, hc, hw, if_true]

/-- A write of a register that has W1C fields alone. -/
theorem State.pageWrite_w1cOnly {s : State} {m : Nat} {p : Page} {o : Nat} {r : RegRow} (ho : 0x100 ≤ o)
    (hr : rowAt p o = some r) (hc : r.mask .w1c ≠ 0) (hw : r.writable = 0) (v : Word) :
    s.pageWrite m p o v = (OK, s.clearBits p o (r.mask .w1c &&& v &&& ~~~ s.inert p o)) := by
  simp only [State.pageWrite, if_neg (Nat.not_lt.mpr ho), hr, State.rowWrite, if_neg hc, hw, if_true]

/-! Reads -/

/-- A read of a latched register answers what was latched (R9). -/
theorem State.pageRead_latched {s : State} {m : Nat} {p : Page} {o : Nat} {w : Word}
    (h : s.latch m (pageBase p + o) = some w) : s.pageRead m p o = (w, s) := by
  simp only [State.pageRead, h]

/-- A read of a register that is not latched answers its value, and latches the parts above it (R9). -/
theorem State.pageRead_unlatched {s : State} {m : Nat} {p : Page} {o : Nat} (h : s.latch m (pageBase p + o) = none) :
    s.pageRead m p o = (s.regRead p o,
      (latchedBy p o).foldl (fun t b => t.setLatch m (pageBase p + b) (some (s.regRead p b))) s) := by
  simp only [State.pageRead, h]

/-- The value of a register none of whose bits is inert. -/
theorem State.regRead_active {s : State} {p : Page} {o : Nat} {r : RegRow} (ho : 0x100 ≤ o) (hr : rowAt p o = some r)
    (hi : s.inert p o = 0) : s.regRead p o = s.live p o := by
  simp only [State.regRead, if_neg (Nat.not_lt.mpr ho), hr, hi, BitVec.ofNat_eq_ofNat, BitVec.and_zero, BitVec.or_zero,
    BitVec.not_zero, BitVec.and_allOnes]

/-- A served read of a register that is not latched. -/
theorem State.regGet_unlatched {s : State} {m : Master} {p : Page} {o : Nat}
    (h : s.Serves m false (pageBase p + o) (.page p o)) (ho : o < 0x1000) (ha : o % 4 = 0)
    (hl : s.latch m.val (pageBase p + o) = none) {u : State} (hu : u = s.served m (pageBase p + o) (.page p o)) :
    s.regGet m (pageBase p + o) = s.answered m (pageBase p + o) (.page p o) (u.regRead p o) fun t =>
      (latchedBy p o).foldl (fun t b => t.setLatch m.val (pageBase p + b) (some (u.regRead p b))) t := by
  subst hu
  have e := State.pageRead_unlatched (s := s.served m (pageBase p + o) (.page p o)) (p := p) (o := o) (m := m.val)
    (by rwa [State.latch_served])
  rw [State.regGet_page h ho ha]
  exact (State.answered_congr (congrArg Prod.snd e)).trans (by rw [e])

end Sys2Proof.Machine
end

section
/-! Obligations.OfferedFeatures (R4) and Obligations.RegisterReads (R9, R10, R130). -/

namespace Sys2Proof.Machine

/-! FEAT_OFFER (R4) -/

theorem rd_reset_featOfferLo : State.reset.rd FEAT_OFFER_LO = 0x1FFF := by decide +kernel
theorem rd_reset_featOfferHi : State.reset.rd FEAT_OFFER_HI = 0 := by decide +kernel

/-- The words of FEAT_OFFER have no field that a write reaches. -/
theorem featOffer_row {o : Nat} (h : o = 0x120 ∨ o = 0x124) :
    ∃ r, rowAt .global o = some r ∧ r.mask .w1c = 0 ∧ r.writable = 0 := by
  obtain rfl | rfl := h
  · exact ⟨reg1 0x120 0x1FFF [⟨.ro, 31, 0⟩], by decide +kernel⟩
  · exact ⟨reg1 0x124 0x0 [⟨.ro, 31, 0⟩], by decide +kernel⟩

/-- A read of a word of FEAT_OFFER answers what is stored. -/
theorem State.regRead_featOffer (s : State) (m : Master) (a : Nat) (t : HlSlave) {o : Nat} (h : o = 0x120 ∨ o = 0x124) :
    (s.served m a t).regRead .global o = s.rd o := by
  obtain ⟨r, hr, -, -⟩ := featOffer_row h
  have hi : (s.served m a t).inert .global o = 0 := by obtain rfl | rfl := h <;> rfl
  rw [State.regRead_active (by omega) hr hi]
  have hv : (s.served m a t).live .global o = (s.served m a t).rd o := by
    obtain rfl | rfl := h <;> rfl
  rw [hv, s.rd_served m a t (by rw [HL_PARK]; omega)]

/-- A write of a word of FEAT_OFFER reaches nothing. -/
theorem State.regWrite_featOffer {s : State} {m : Master} {o : Nat} (ho : o = 0x120 ∨ o = 0x124)
    (h : s.Serves m true (pageBase .global + o) (.page .global o)) (v : Word) :
    s.regWrite m (pageBase .global + o) v = s.answered m (pageBase .global + o) (.page .global o) 0 id := by
  obtain ⟨r, hr, hc, hw⟩ := featOffer_row ho
  exact State.regWrite_page_ok h (by omega) (by omega) (State.pageWrite_readOnly (by omega) hr hc hw v)

/-- Settles O60: both words are read-only registers whose stored value is their reset value. -/
theorem offeredFeatures : Obligations.OfferedFeatures := by
  refine ⟨?bits, ?low, ?high, ?write⟩
  case bits =>
    rw [rd_reset_featOfferLo, rd_reset_featOfferHi]
    decide
  case low =>
    intro s m h hl hv
    have e := State.regGet_unlatched (p := .global) (o := 0x120) h (by decide) rfl hl rfl
    simp only [State.regRead_featOffer _ _ _ _ (.inl rfl), hv, rd_reset_featOfferLo] at e
    refine congrArg _ (e.trans (State.answered_congr ?_))
    exact congrArg (State.setLatch _ m.val 0x124) (congrArg some (s.regRead_featOffer m _ _ (.inr rfl)))
  case high =>
    intro s m h hl hv
    have e := State.regGet_unlatched (p := .global) (o := 0x124) h (by decide) rfl hl rfl
    rw [State.regRead_featOffer _ _ _ _ (.inr rfl), hv, rd_reset_featOfferHi] at e
    exact congrArg _ e
  case write =>
    intro s m a v ha h
    obtain rfl | rfl := ha
    · exact congrArg _ (State.regWrite_featOffer (.inl rfl) h v)
    · exact congrArg _ (State.regWrite_featOffer (.inr rfl) h v)

/-! The parts of fabric time (R130) -/

/-- A word of NOW reads as its part of fabric time. -/
theorem State.regRead_now (s : State) {o : Nat} (h : o = 0x10C ∨ o = 0x110 ∨ o = 0x114) {w : Word}
    (hw : s.timeLive o = some w) : s.regRead .time o = w := by
  obtain ⟨r, hr⟩ : ∃ r, rowAt .time o = some r := by obtain rfl | rfl | rfl := h <;> exact ⟨_, rfl⟩
  rw [State.regRead_active (by omega) hr rfl]
  simp only [State.live, hw, Option.getD_some]

theorem State.timeLive_nowSub (s : State) : s.timeLive 0x10C = some (BitVec.ofNat 32 (getBits s.time.now 31 16)) := by
  simp [State.timeLive, packFields]
theorem State.timeLive_nowLo (s : State) : s.timeLive 0x110 = some (s.time.now.extractLsb' 32 32) := rfl
theorem State.timeLive_nowHi (s : State) : s.timeLive 0x114 = some (s.time.now.extractLsb' 64 32) := rfl

/-- A read takes its address as a number. -/
theorem exec_latchingRead {s : State} {m : Master} {a : BitVec 26} {b : Nat} (h : a.toNat = b) :
    exec (.latchingRead m a) s = .next (s.regGet m b) := by subst h; rfl

/-- Settles O25: a read goes by the latch of its master or else by the register's value, of which the mark that the request
itself leaves (R280) is no part. -/
theorem registerReads : Obligations.RegisterReads := by
  refine ⟨?value, ?now, ?latched⟩
  case value =>
    intro s m p o a h ho ha hp hl hb
    rw [hp] at h hl ⊢
    rw [exec_latchingRead hp, State.regGet_unlatched h ho ha hl rfl, State.regRead_served, hb]
    rfl
  case now =>
    intro s m h hl
    rw [exec_latchingRead (b := pageBase .time + 0x10C) rfl, State.regGet_unlatched h (by decide) rfl hl rfl]
    simp only [State.regRead_now _ (.inl rfl) (State.timeLive_nowSub _), State.time_served]
    refine congrArg _ (State.answered_congr ?_)
    have hb : latchedBy .time 0x10C = [0x110, 0x114] := rfl
    simp only [hb, List.foldl_cons, List.foldl_nil, pageBase, State.regRead_now _ (.inr (.inl rfl)) (State.timeLive_nowLo _),
      State.regRead_now _ (.inr (.inr rfl)) (State.timeLive_nowHi _), State.time_served]
  case latched =>
    intro s m p o w a h ho ha hp hl
    rw [hp] at h hl ⊢
    have e := State.pageRead_latched (s := s.served m (pageBase p + o) (.page p o)) (p := p) (o := o) (m := m.val)
      (by rwa [State.latch_served])
    rw [exec_latchingRead hp, State.regGet_page h ho ha, e]
    exact congrArg _ (State.answered_congr (congrArg Prod.snd e))

end Sys2Proof.Machine
end

section
/-! Obligations.CommonRegisters: PAGE_CTRL and PAGE_IRQ_TEST (R113, R296, R465, R468, R470). -/

namespace Sys2Proof.Machine

/-- A command's word has the bits that it sets, and those of its operand. -/
theorem bit_withBits (v : Word) (b : Nat) {i : Nat} (hi : i < 32) : bit (withBits v b) i = (bit v i || b.testBit i) := by
  simp only [bit, withBits, BitVec.getLsbD_or, BitVec.getLsbD_ofNat, hi, decide_true, Bool.true_and]

theorem bit_withBits_set (v : Word) {b i : Nat} (hi : i < 32) (h : b.testBit i = true) : bit (withBits v b) i = true := by
  rw [bit_withBits v b hi, h, Bool.or_true]

theorem bit_withBits_other (v : Word) {b i : Nat} (hi : i < 32) (h : b.testBit i = false) :
    bit (withBits v b) i = bit v i := by
  rw [bit_withBits v b hi, h, Bool.or_false]

/-! The effect that every write of PAGE_CTRL has -/

/-- enable is written and the write counted (R468, R471). -/
def State.enableWritten (s : State) (p : Page) (v : Word) : State :=
  (s.setFld (pageBase p + 0x10) 0 0 (flag (bit v 0))).seq p

/-- A write of PAGE_CTRL without soft_rst and with lock. -/
theorem State.pageCtrl_lock (s : State) (p : Page) {v : Word} (h : bit v 1 = false) :
    s.pageCtrl p (withBits v 4) = (s.enableWritten p v).lockPage p := by
  have h0 : bit (withBits v 4) 0 = bit v 0 := bit_withBits_other v (by decide) rfl
  have h1 : bit (withBits v 4) 1 = false := (bit_withBits_other v (by decide) rfl).trans h
  have h2 : bit (withBits v 4) 2 = true := bit_withBits_set v (by decide) rfl
  simp only [State.pageCtrl, h0, h1, h2, if_true, Bool.false_eq_true, if_false]
  rfl

/-- A write of PAGE_CTRL with soft_rst and without lock. -/
theorem State.pageCtrl_softRst (s : State) (p : Page) {v : Word} (h : bit v 2 = false) :
    s.pageCtrl p (withBits v 2) = (s.enableWritten p v).softRst (pageBase p) := by
  have h0 : bit (withBits v 2) 0 = bit v 0 := bit_withBits_other v (by decide) rfl
  have h1 : bit (withBits v 2) 1 = true := bit_withBits_set v (by decide) rfl
  have h2 : bit (withBits v 2) 2 = false := (bit_withBits_other v (by decide) rfl).trans h
  simp only [State.pageCtrl, h0, h1, h2, if_true, Bool.false_eq_true, if_false]
  rfl

@[simp] theorem State.hwBits_enableWritten (s : State) (p : Page) (v : Word) (a : Nat) :
    (s.enableWritten p v).hwBits a = s.hwBits a := rfl

theorem State.rd_enableWritten (s : State) {p : Page} {a : Nat} (h : a ≠ pageBase p + 0x10) (h' : a ≠ pageBase p + 0x30)
    (v : Word) : (s.enableWritten p v).rd a = s.rd a :=
  (State.rd_seq _ h').trans (State.rd_setFld_ne s h _ _ _)

/-- The lock bit stands beside enable. -/
theorem State.rbit_enableWritten_lock (s : State) (p : Page) (v : Word) :
    (s.enableWritten p v).rbit (pageBase p + 0x10) 2 = s.rbit (pageBase p + 0x10) 2 := by
  rw [State.enableWritten, State.rbit_congr (State.rd_seq _ (by omega)), State.rbit, State.rd_setFld, if_pos rfl]
  exact bit_putBits_ne _ _ _ _ _ (by omega)

/-! lock (R113, R296) -/

/-- Whether a lock is refused depends on the page's own registers from 0x100 on. -/
theorem State.lockRefused_congr {s t : State} {p : Page}
    (h : ∀ o, 0x100 ≤ o → t.rd (pageBase p + o) = s.rd (pageBase p + o)) : t.lockRefused p = s.lockRefused p := by
  cases p with
  | ni n =>
    have hf (i hi lo : Nat) : t.fld (GRAN_LIM0 n.val + 4 * i) hi lo = s.fld (GRAN_LIM0 n.val + 4 * i) hi lo := by
      have e : GRAN_LIM0 n.val + 4 * i = pageBase (.ni n) + (0x244 + 4 * i) := by simp only [GRAN_LIM0, pageBase]; omega
      rw [e]
      exact State.fld_congr (h _ (by omega)) hi lo
    have h4 : t.fld (GRAN_LIM4 n.val) 26 16 = s.fld (GRAN_LIM4 n.val) 26 16 := by
      have e : GRAN_LIM4 n.val = GRAN_LIM0 n.val + 4 * 4 := by simp only [GRAN_LIM0, GRAN_LIM4]; omega
      rw [e]
      exact hf 4 26 16
    have hc : t.fld (GRAN_CAP n.val) 11 0 = s.fld (GRAN_CAP n.val) 11 0 := by
      have e : GRAN_CAP n.val = pageBase (.ni n) + 0x240 := by simp only [GRAN_CAP, pageBase]; omega
      rw [e]
      exact State.fld_congr (h _ (by omega)) 11 0
    simp only [State.lockRefused, State.limSum, hf, h4, hc]
    rfl
  | skidway k =>
    have hf (i : Nat) : t.fld (SKW_POOL k.val i) 8 0 = s.fld (SKW_POOL k.val i) 8 0 := by
      have e : SKW_POOL k.val i = pageBase (.skidway k) + (0x140 + 4 * i) := by simp only [SKW_POOL, pageBase]; omega
      rw [e]
      exact State.fld_congr (h _ (by omega)) 8 0
    simp only [State.lockRefused, hf]
  | _ => rfl

/-- enable has no part in the check of a lock. -/
theorem State.lockRefused_enableWritten (s : State) (p : Page) (v : Word) :
    (s.enableWritten p v).lockRefused p = s.lockRefused p :=
  State.lockRefused_congr fun _ _ => s.rd_enableWritten (by omega) (by omega) v

/-- Nor has what Hayloft does before the operation of an access. -/
theorem State.lockRefused_served (s : State) (m : Master) (a : Nat) (t : HlSlave) (p : Page) :
    (s.served m a t).lockRefused p = s.lockRefused p := by
  cases p with
  | ni n => exact State.lockRefused_congr fun o _ => s.rd_served m a t (by simp only [pageBase, HL_PARK]; omega)
  | skidway k => exact State.lockRefused_congr fun o _ => s.rd_served m a t (by simp only [pageBase, HL_PARK]; omega)
  | _ => rfl

/-- A lock that is not refused is set, or was (R468). -/
theorem State.lockPage_granted {s : State} {p : Page} (h : s.lockRefused p = false) :
    s.lockPage p = if s.rbit (pageBase p + 0x10) 2 then s else s.setBit (pageBase p + 0x10) 2 := by
  simp only [State.lockPage, h, Bool.false_eq_true, if_false]

/-- A lock that an NI page refuses is noted in GRAN_STAT and PAGE_ERR (R113). -/
theorem State.lockPage_refused {s : State} {n : Fin 87} (h : s.lockRefused (.ni n) = true)
    (hl : s.rbit (pageBase (.ni n) + 0x10) 2 = false) :
    s.lockPage (.ni n) = (s.setBit (GRAN_STAT n.val) 0).pageErr (.ni n) 5 := by
  simp only [State.lockPage, hl, h, if_true, Bool.false_eq_true, if_false, State.niErr, niPage, Fin.ofNat_val_eq_self]

/-! Bits that hardware sets -/

theorem State.rbit_setBit_self (s : State) (a : Nat) {i : Nat} (hi : i < 32) : (s.setBit a i).rbit a i = true := by
  have h : (s.setBit a i).rd a = putBits (s.rd a) i i 1 :=
    (State.rd_setFld s a a i i 1).trans (if_pos rfl)
  rw [State.rbit, h, bit_putBits_self _ _ _ _ _ (Nat.le_refl i) (Nat.le_refl i) hi]
  simp

/-- The error bit is set. -/
theorem State.rbit_pageErr_self (s : State) (p : Page) {b : Nat} (hb : b < 32) (hp : pageBase p + 0x18 ∉ pulseRegs) :
    (s.pageErr p b).rbit (pageBase p + 0x18) b = true :=
  (State.rbit_congr (State.rd_pulse _ hp p) b).trans (State.rbit_setBit_self _ _ hb)

/-- The registers in which overruns of pulses are flagged are of the POWER page. -/
theorem not_mem_pulseRegs {a : Nat} (h : 0x7000 ≤ a) : a ∉ pulseRegs := by
  simp only [pulseRegs, List.mem_cons, List.not_mem_nil, or_false, not_or, XING_OVR0, XING_OVR1]
  omega

/-! soft_rst (R468, R476) -/

/-- A write of ones to every W1C bit leaves those that hardware has set in this mc (R12). -/
theorem State.w1c_allBits (s : State) (a : Nat) : s.w1c a allBits = s.wr a (s.rd a &&& s.hwBits a) := by
  have h : ~~~ (allBits &&& ~~~ s.hwBits a) = s.hwBits a := by
    rw [show allBits = BitVec.allOnes 32 from rfl, BitVec.allOnes_and, BitVec.not_not]
  rw [State.w1c, h]

/-- A word is zero when none of its bits is set. -/
theorem eq_zero_of_filter_bit {w : Word} (h : (List.range 32).filter (bit w) = []) : w = 0 := by
  refine BitVec.eq_of_getLsbD_eq fun i hi => ?_
  have := List.filter_eq_nil_iff.mp h i (List.mem_range.mpr hi)
  simpa [bit] using this

/-- soft_rst when no error is of this mc: PAGE_ERR and PAGE_ERR_FIRST are cleared. -/
theorem State.softRst_noErr {s : State} {a : Nat} (h : s.hwBits (a + 0x18) = 0) :
    s.softRst a = ((s.wr (a + 0x24) (s.rd (a + 0x24) &&& s.hwBits (a + 0x24))).wr (a + 0x20) 0).wr (a + 0x18) 0 := by
  have e : (List.range 32).filter (bit (s.rd (a + 0x18) &&& s.hwBits (a + 0x18))) = [] := by
    rw [h]
    simp [bit]
  simp only [State.softRst, e, State.w1c_allBits]

/-- What soft_rst leaves of the registers but PAGE_ERR_FIRST. -/
theorem State.rd_softRst (s : State) {a b : Nat} (h : b ≠ a + 0x20) :
    (s.softRst a).rd b = if b = a + 0x18 then s.rd (a + 0x18) &&& s.hwBits (a + 0x18)
      else if b = a + 0x24 then s.rd (a + 0x24) &&& s.hwBits (a + 0x24) else s.rd b := by
  simp only [State.softRst, State.w1c_allBits]
  split
  · next e => rw [eq_zero_of_filter_bit e, State.rd_wr, State.rd_wr_ne _ h, State.rd_wr]
  · rw [State.rd_setFld_ne _ h, State.firstErr, State.rd_wr_ne _ h, State.rd_wr, State.rd_wr_ne _ h, State.rd_wr]

/-! The commands -/

/-- What PAGE_LOCK does when it is served. -/
theorem exec_pageLock {s : State} {m : Master} {p : Page} {v : Word}
    (h : s.Serves m true (pageBase p + 0x10) (.page p 0x10)) (hv : bit v 1 = false) :
    exec (.pageLock m p v) s = .next (s.answered m (pageBase p + 0x10) (.page p 0x10) 0 fun u =>
      (u.enableWritten p v).lockPage p) := by
  refine congrArg _ ((State.regWrite_common h (by decide) rfl _).trans (State.answered_congr ?_))
  exact State.pageCtrl_lock _ p hv

/-- What PAGE_SOFT_RESET does when it is served. -/
theorem exec_pageSoftReset {s : State} {m : Master} {p : Page} {v : Word}
    (h : s.Serves m true (pageBase p + 0x10) (.page p 0x10)) (hv : bit v 2 = false) :
    exec (.pageSoftReset m p v) s = .next (s.answered m (pageBase p + 0x10) (.page p 0x10) 0 fun u =>
      (u.enableWritten p v).softRst (pageBase p)) := by
  refine congrArg _ ((State.regWrite_common h (by decide) rfl _).trans (State.answered_congr ?_))
  exact State.pageCtrl_softRst _ p hv

/-- The operation of PAGE_LOCK finds the lock bit and the limits as they were. -/
theorem State.lock_served (s : State) (m : Master) (a : Nat) (t : HlSlave) (p : Page) (v : Word) :
    ((s.served m a t).enableWritten p v).rbit (pageBase p + 0x10) 2 = s.rbit (pageBase p + 0x10) 2 ∧
    ((s.served m a t).enableWritten p v).lockRefused p = s.lockRefused p :=
  ⟨(State.rbit_enableWritten_lock _ p v).trans
      (State.rbit_congr (s.rd_served m a t (pageBase_add_ne_hlPark p (by decide))) 2),
    (State.lockRefused_enableWritten _ p v).trans (s.lockRefused_served m a t p)⟩

/-- Settles O26: each command is a served write of a common register, whose operation acts on registers that the access
itself leaves as they are. -/
theorem commonRegisters : Obligations.CommonRegisters := by
  refine ⟨?lock, ?refused, ?reset, ?resetKeeps, ?irqTest⟩
  case lock =>
    intro s m p v h hv hr
    refine (exec_pageLock h hv).trans (congrArg _ (State.answered_congr ?_))
    obtain ⟨hb, hl⟩ := s.lock_served m (pageBase p + 0x10) (.page p 0x10) p v
    rw [State.lockPage_granted (hl.trans hr), hb]
    rfl
  case refused =>
    intro s m n v h hv hr hl
    refine ⟨_, exec_pageLock h hv, ?_⟩
    obtain ⟨hb, hr'⟩ := s.lock_served m (pageBase (.ni n) + 0x10) (.page (.ni n) 0x10) (.ni n) v
    have hp {o : Nat} : pageBase (.ni n) + o ∉ pulseRegs := not_mem_pulseRegs (by simp only [pageBase]; omega)
    have hg : GRAN_STAT n.val = pageBase (.ni n) + 0x258 := by simp only [GRAN_STAT, pageBase]; omega
    simp only [State.rbit, State.rd_answered]
    rw [State.lockPage_refused (hr'.trans hr) (hb.trans hl), hg]
    refine ⟨?_, ?_, State.rbit_pageErr_self _ _ (by decide) hp⟩
    · rw [State.rd_pageErr _ (by omega) (by omega) hp, State.rd_setBit_ne _ (by omega)]
      exact hb.trans hl
    · rw [State.rd_pageErr _ (by omega) (by omega) hp]
      exact State.rbit_setBit_self _ _ (by decide)
  case reset =>
    intro s m p v h hv he hi
    refine (exec_pageSoftReset h hv).trans (congrArg _ (State.answered_congr ?_))
    rw [State.softRst_noErr (by simpa using he), State.hwBits_enableWritten, State.hwBits_served, hi]
    simp only [BitVec.ofNat_eq_ofNat, BitVec.and_zero]
    rfl
  case resetKeeps =>
    intro s m p v h hv
    refine ⟨_, exec_pageSoftReset h hv, ?_, ?_, fun a h1 h2 h3 h4 h5 h6 => ?_⟩
    · rw [State.rd_answered, State.rd_softRst _ (by omega), if_pos rfl, State.rd_enableWritten _ (by omega) (by omega),
        s.rd_served _ _ _ (pageBase_add_ne_hlPark p (by decide)), State.hwBits_enableWritten, State.hwBits_served]
    · rw [State.rd_answered, State.rd_softRst _ (by omega), if_neg (by omega), if_pos rfl,
        State.rd_enableWritten _ (by omega) (by omega), s.rd_served _ _ _ (pageBase_add_ne_hlPark p (by decide)),
        State.hwBits_enableWritten, State.hwBits_served]
    · rw [State.rd_answered, State.rd_softRst _ h3, if_neg h2, if_neg h4, State.rd_enableWritten _ h1 h5,
        s.rd_served _ _ _ h6]
  case irqTest =>
    intro s m p v h
    refine congrArg _ ((State.regWrite_common h (by decide) rfl v).trans (State.answered_congr ?_))
    show State.wr _ _ (State.rd _ _ ||| _) = _
    rw [s.rd_served _ _ _ (pageBase_add_ne_hlPark p (by decide))]

end Sys2Proof.Machine
end

section
/-! Obligations.SlotTablesAndDemotions: the slot and injection tables (R141, R142, R159, R364) and FLOW_DEM (R181). -/

namespace Sys2Proof.Machine

/-! Where the tables are -/

/-- The addresses of the slot-table and injection-table windows (R475). -/
def InTables (a : Nat) : Prop := 0x2400000 ≤ a ∧ a < 0x24E0000 ∨ 0x2500000 ≤ a ∧ a < 0x265C000

/-- An address says the bank of its word, and that the word is no check byte. -/
theorem slot_place {k b o w a : Nat} (hb : b < 2) (ho : o < 8) (hw : w < 128) (h : a = SLOT k b o w) :
    a % 4 = 0 ∧ a % 0x4000 < 0x2000 ∧ a % 0x4000 / 0x1000 = b := by
  simp only [SLOT] at h
  omega

theorem inject_place {n b p a : Nat} (hb : b < 2) (hp : p < 1024) (h : a = INJE n b p) :
    a % 4 = 0 ∧ a % 0x4000 < 0x2000 ∧ a % 0x4000 / 0x1000 = b := by
  simp only [INJE] at h
  omega

/-- The windows lie above the pages. -/
theorem slaveOf_window {a : Nat} (h : 0x2000000 ≤ a) : slaveOf a = (windowOf a).map .window := by
  have hp : pageOf a = none := by
    unfold pageOf
    simp (disch := omega) only [if_neg, dif_neg]
  simp only [slaveOf, hp]

theorem slaveOf_slot {k b o w : Nat} (hk : k < 56) (hb : b < 2) (ho : o < 8) (hw : w < 128) :
    slaveOf (SLOT k b o w) = some (.window (.slot k)) := by
  have e : (SLOT k b o w - 0x2400000) / 0x4000 = k := by simp only [SLOT]; omega
  rw [slaveOf_window (by simp only [SLOT]; omega), windowOf, if_neg (by simp only [SLOT]; omega),
    if_neg (by simp only [SLOT]; omega), if_pos (by simp only [SLOT]; omega), e]
  rfl

theorem slaveOf_inject {n b p : Nat} (hn : n < 87) (hb : b < 2) (hp : p < 1024) :
    slaveOf (INJE n b p) = some (.window (.inject n)) := by
  have e : (INJE n b p - 0x2500000) / 0x4000 = n := by simp only [INJE]; omega
  rw [slaveOf_window (by simp only [INJE]; omega), windowOf]
  simp (disch := (simp only [INJE]; omega)) only [if_neg, if_pos, e]
  rfl

/-- Above the tables come the windows of rules, queues, counters and snapshots (R475). -/
theorem windowOf_above {a : Nat} (h : 0x265C000 ≤ a) (k : Nat) :
    windowOf a ≠ some (.slot k) ∧ windowOf a ≠ some (.inject k) := by
  rw [windowOf, if_neg (by omega), if_neg (by omega), if_neg (by omega), if_neg (by omega), if_neg (by omega)]
  split_ifs <;> simp

/-- An address whose slave is a table window lies in the tables. -/
theorem inTables_of_slaveOf {a : Nat} {x : Window} (h : slaveOf a = some (.window x))
    (hx : (∃ k, x = .slot k) ∨ ∃ n, x = .inject n) : InTables a := by
  have hw : windowOf a = some x := by
    unfold slaveOf at h
    split at h
    · cases h
    · simpa using h
  by_cases hu : 0x265C000 ≤ a
  · obtain ⟨k, rfl⟩ | ⟨n, rfl⟩ := hx
    · exact absurd hw (windowOf_above hu k).1
    · exact absurd hw (windowOf_above hu n).2
  · unfold InTables
    grind [windowOf]

/-! Writes of table words -/

/-- A table word stored with its check byte (R141, R159); of an injection entry 16 bits are kept. -/
def State.storeTable (s : State) (a : Nat) (v : Word) : State :=
  let inSlot := a < 0x24E0000
  let v : Word := if inSlot then v else BitVec.ofNat 32 (v.toNat % 2 ^ 16)
  (s.wr a v).wr (a + 0x2000) (BitVec.ofNat 32 (if inSlot then slotCheck v else injCheck v))

theorem State.storeTable_slot (s : State) {a : Nat} (h : a < 0x24E0000) (v : Word) :
    s.storeTable a v = (s.wr a v).wr (a + 0x2000) (BitVec.ofNat 32 (slotCheck v)) := by
  simp only [State.storeTable, h, if_true]

theorem State.storeTable_inject (s : State) {a : Nat} (h : ¬ a < 0x24E0000) (v : Word) :
    s.storeTable a v = (s.wr a (v &&& 0xFFFF)).wr (a + 0x2000) (BitVec.ofNat 32 (injCheck (v &&& 0xFFFF))) := by
  have e : BitVec.ofNat 32 (v.toNat % 2 ^ 16) = v &&& 0xFFFF := by
    refine BitVec.eq_of_toNat_eq ?_
    have h16 : v.toNat &&& 0xFFFF = v.toNat % 2 ^ 16 := Nat.and_two_pow_sub_one_eq_mod v.toNat 16
    rw [BitVec.toNat_ofNat, BitVec.toNat_and]
    exact (Nat.mod_eq_of_lt (by omega)).trans h16.symm
  simp only [State.storeTable, h, if_false, e]

/-- A bank is open to writes when it is not active and no switchover is past LOADED (R142). -/
theorem State.bankWrite_open {s : State} {b : Nat} (hb : b ≠ s.activeBank) (hs : s.swState < 2) :
    s.bankWrite b = some ((s.setFld SW_STAT 2 0 0).clrBit VAR_STAT 7) := by
  simp [State.bankWrite, hb, hs]

theorem State.bankWrite_closed {s : State} {b : Nat} (h : b = s.activeBank ∨ 2 ≤ s.swState) : s.bankWrite b = none := by
  simp [State.bankWrite, h]

/-- The offset of an address in its router's or NI's part of a table. -/
theorem tableOff_eq {a : Nat} (h : InTables a) :
    (if a < 0x24E0000 then (a - 0x2400000) % 0x4000 else (a - 0x2500000) % 0x4000) = a % 0x4000 := by
  unfold InTables at h
  split <;> omega

theorem State.tableWrite_check {s : State} {a : Nat} (h : InTables a) (hc : 0x2000 ≤ a % 0x4000) (v : Word) :
    s.tableWrite a v = s := by
  simp only [State.tableWrite, tableOff_eq h, if_pos hc]

theorem State.tableWrite_closed {s : State} {a : Nat} (h : InTables a) (hc : a % 0x4000 < 0x2000)
    (hb : s.bankWrite (a % 0x4000 / 0x1000) = none) (v : Word) : s.tableWrite a v = s.pageErr .sched 0 := by
  simp only [State.tableWrite, tableOff_eq h, if_neg (Nat.not_le.mpr hc), hb]

theorem State.tableWrite_open {s t : State} {a : Nat} (h : InTables a) (hc : a % 0x4000 < 0x2000)
    (hb : s.bankWrite (a % 0x4000 / 0x1000) = some t) (v : Word) : s.tableWrite a v = t.storeTable a v := by
  simp only [State.tableWrite, tableOff_eq h, if_neg (Nat.not_le.mpr hc), hb, State.storeTable]
  split <;> rfl

theorem State.slotWrite_gleaner {s : State} {a : Nat} (hc : a % 0x4000 < 0x2000) (v : Word) :
    s.slotWrite 6 a v = s.storeTable a v := by
  simp only [State.slotWrite, if_true, if_neg (Nat.not_le.mpr hc), State.storeTable]

/-- A write of a check byte is not performed. -/
theorem State.slotWrite_check {s : State} {m a : Nat} (h : InTables a) (hc : 0x2000 ≤ a % 0x4000) (v : Word) :
    s.slotWrite m a v = s := by
  by_cases hm : m = 6
  · simp only [State.slotWrite, if_pos hm, if_pos hc]
  · simp only [State.slotWrite, if_neg hm, State.tableWrite_check h hc]

/-- Without SCHEDULED active the tables ignore writes (R6). -/
theorem State.windowWrite_inert {s : State} {m a : Nat} {x : Window} (hx : (∃ k, x = .slot k) ∨ ∃ n, x = .inject n)
    (h : s.feat fSCHEDULED = false) (v : Word) : s.windowWrite m x a v = s := by
  obtain ⟨k, rfl⟩ | ⟨n, rfl⟩ := hx <;> simp [State.windowWrite, State.slotInert, h]

theorem State.windowWrite_table {s : State} {m a : Nat} {x : Window} (hx : (∃ k, x = .slot k) ∨ ∃ n, x = .inject n)
    (h : s.feat fSCHEDULED = true) (v : Word) : s.windowWrite m x a v = s.slotWrite m a v := by
  obtain ⟨k, rfl⟩ | ⟨n, rfl⟩ := hx <;> simp [State.windowWrite, State.slotInert, h]

/-- A served SLOT_TABLE_WRITE has the effect that the window gives the word. -/
theorem exec_slotTableWrite {s : State} {m : Master} {a : BitVec 26} {x : Window} {v : Word} {f : State → State}
    (h : s.Serves m true a.toNat (.window x)) (hs : slaveOf a.toNat = some (.window x)) (ha : a.toNat % 4 = 0)
    (hf : (s.served m a.toNat (.window x)).windowWrite m.val x a.toNat v = f (s.served m a.toNat (.window x))) :
    exec (.slotTableWrite m a v) s = .next (s.answered m a.toNat (.window x) 0 f) :=
  congrArg _ ((State.regWrite_window h hs ha v).trans (State.answered_congr hf))

section
variable {s : State} {m : Master} {a : BitVec 26} {x : Window} {b : Nat}
  (hx : (∃ k, x = .slot k) ∨ ∃ n, x = .inject n) (h : s.Serves m true a.toNat (.window x))
  (hs : slaveOf a.toNat = some (.window x)) (ha : a.toNat % 4 = 0) (hm : m ≠ 6) (hf : s.feat fSCHEDULED = true)
  (hc : a.toNat % 0x4000 < 0x2000) (hb : a.toNat % 0x4000 / 0x1000 = b)
include hx h hs ha hm hf hc hb

/-- A write of a word of a bank that is open to it. -/
theorem exec_slotTableWrite_open (hb' : b ≠ s.activeBank) (hw : s.swState < 2) (v : Word) :
    exec (.slotTableWrite m a v) s = .next (s.answered m a.toNat (.window x) 0 fun u =>
      ((u.setFld SW_STAT 2 0 0).clrBit VAR_STAT 7).storeTable a.toNat v) := by
  refine exec_slotTableWrite h hs ha ?_
  have hm' : m.val ≠ 6 := fun e => hm (Fin.ext e)
  have hbank := State.bankWrite_open (s := s.served m a.toNat (.window x)) (b := b) (by rwa [State.activeBank_served])
    (by rwa [State.swState_served])
  rw [State.windowWrite_table hx ((s.feat_served m _ _ _).trans hf), State.slotWrite, if_neg hm',
    State.tableWrite_open (inTables_of_slaveOf hs hx) hc (hb ▸ hbank)]

/-- A write of a word of a bank that is closed to it is refused with act_wr. -/
theorem exec_slotTableWrite_closed (hw : b = s.activeBank ∨ 2 ≤ s.swState) (v : Word) :
    exec (.slotTableWrite m a v) s =
      .next (s.answered m a.toNat (.window x) 0 fun u => u.pageErr .sched 0) := by
  refine exec_slotTableWrite h hs ha ?_
  have hm' : m.val ≠ 6 := fun e => hm (Fin.ext e)
  have hbank := State.bankWrite_closed (s := s.served m a.toNat (.window x)) (b := b)
    (by rwa [State.activeBank_served, State.swState_served])
  rw [State.windowWrite_table hx ((s.feat_served m _ _ _).trans hf), State.slotWrite, if_neg hm',
    State.tableWrite_closed (inTables_of_slaveOf hs hx) hc (hb ▸ hbank)]

end

/-! FLOW_DEM (R181) -/

/-- A word of FLOW_DEM has W1C bits alone. -/
theorem flowDem_row (w : Fin 128) : rowAt .sched (0x800 + 4 * w.val) = some ⟨0x800, 128, 0x4, 0x0, [⟨.w1c, 31, 0⟩]⟩ := by
  revert w
  decide +kernel

/-- With SCHEDULED active no bit of it is inert. -/
theorem State.inert_flowDem {s : State} (h : s.feat fSCHEDULED = true) (w : Fin 128) :
    s.inert .sched (0x800 + 4 * w.val) = 0 := by
  have hne : 0x800 + 4 * w.val ≠ 0x148 := by omega
  simp [State.inert, h, hne]

/-- A write of FLOW_DEM clears the bits written as one, but those that hardware has set in this mc. -/
theorem State.pageWrite_flowDem {s : State} (h : s.feat fSCHEDULED = true) (m : Nat) (w : Fin 128) (v : Word) :
    s.pageWrite m .sched (0x800 + 4 * w.val) v = (OK, s.w1c (FLOW_DEM w.val) v) := by
  rw [State.pageWrite_w1cOnly (by omega) (flowDem_row w) (by decide) (by decide), State.inert_flowDem h]
  have ha : pageBase .sched + (0x800 + 4 * w.val) = FLOW_DEM w.val := by simp only [pageBase, FLOW_DEM]; omega
  have hm : RegRow.mask ⟨0x800, 128, 0x4, 0x0, [⟨.w1c, 31, 0⟩]⟩ .w1c = BitVec.allOnes 32 := by decide
  simp only [State.clearBits, ha, hm, State.w1c, BitVec.allOnes_and, BitVec.ofNat_eq_ofNat, BitVec.not_zero,
    BitVec.and_allOnes]

/-- Settles O21: which bank a word is of decides the write, and the address gives the bank. -/
theorem slotTablesAndDemotions : Obligations.SlotTablesAndDemotions := by
  refine ⟨?slotOpen, ?injOpen, ?slotClosed, ?injClosed, ?gleaner, ?ignored, ?demotions⟩
  case slotOpen =>
    intro s m v k b o w a hm hk hb ho hw ha h hf hb' hs
    obtain ⟨h4, hc, hbank⟩ := slot_place hb ho hw ha
    refine (exec_slotTableWrite_open (.inl ⟨k, rfl⟩) h (ha ▸ slaveOf_slot hk hb ho hw) h4 hm hf hc hbank hb' hs v).trans ?_
    refine congrArg _ (State.answered_congr ?_)
    rw [State.storeTable_slot _ (by simp only [SLOT] at ha; omega), ha]
  case injOpen =>
    intro s m v n b p a hm hn hb hp ha h hf hb' hs
    obtain ⟨h4, hc, hbank⟩ := inject_place hb hp ha
    refine (exec_slotTableWrite_open (.inr ⟨n, rfl⟩) h (ha ▸ slaveOf_inject hn hb hp) h4 hm hf hc hbank hb' hs v).trans ?_
    refine congrArg _ (State.answered_congr ?_)
    rw [State.storeTable_inject _ (by simp only [INJE] at ha; omega), ha]
  case slotClosed =>
    intro s m v k b o w a hm hk hb ho hw ha h hf hs
    obtain ⟨h4, hc, hbank⟩ := slot_place hb ho hw ha
    exact exec_slotTableWrite_closed (.inl ⟨k, rfl⟩) h (ha ▸ slaveOf_slot hk hb ho hw) h4 hm hf hc hbank hs v
  case injClosed =>
    intro s m v n b p a hm hn hb hp ha h hf hs
    obtain ⟨h4, hc, hbank⟩ := inject_place hb hp ha
    exact exec_slotTableWrite_closed (.inr ⟨n, rfl⟩) h (ha ▸ slaveOf_inject hn hb hp) h4 hm hf hc hbank hs v
  case gleaner =>
    intro s v k b o w a hk hb ho hw ha h hf
    obtain ⟨h4, hc, hbank⟩ := slot_place hb ho hw ha
    refine exec_slotTableWrite h (ha ▸ slaveOf_slot hk hb ho hw) h4 ?_
    rw [State.windowWrite_table (.inl ⟨k, rfl⟩) ((s.feat_served 6 _ _ _).trans hf)]
    refine (State.slotWrite_gleaner hc v).trans ?_
    rw [State.storeTable_slot _ (by simp only [SLOT] at ha; omega), ha]
  case ignored =>
    intro s m v x a h4 hs hx h hf
    refine exec_slotTableWrite h hs h4 ?_
    obtain hc | hf := hf
    · cases hf : (s.served m a.toNat (.window x)).feat fSCHEDULED
      · exact State.windowWrite_inert hx hf v
      · rw [State.windowWrite_table hx hf]
        exact State.slotWrite_check (inTables_of_slaveOf hs hx) (by omega) v
    · exact State.windowWrite_inert hx ((s.feat_served m _ _ _).trans hf) v
  case demotions =>
    intro s m w v h hf
    have ha : FLOW_DEM w.val = pageBase .sched + (0x800 + 4 * w.val) := by simp only [pageBase, FLOW_DEM]; omega
    rw [ha] at h
    have e := State.regWrite_page_ok (f := fun u => u.w1c (FLOW_DEM w.val) v) h (by omega) (by omega)
      (State.pageWrite_flowDem ((s.feat_served m _ _ _).trans hf) m.val w v)
    rw [← ha] at e
    refine congrArg _ (e.trans (State.answered_congr ?_))
    have hp : FLOW_DEM w.val ≠ HL_PARK := by simp only [FLOW_DEM, HL_PARK]; omega
    simp only [State.w1c, s.rd_served m _ _ hp, State.hwBits_served]

end Sys2Proof.Machine
end

section
/-! What marks, counts and probes leave alone. A router's operations set error bits, count and show flits to probes
(R50, R106, R379, R381); none of that reaches the routers, the links, the credits, the clock or the registers that the
operations read. -/

namespace Sys2Proof.Machine

/-- A register that no mark, counter or probe writes: FUSE_STAT, and a router page's own from 0x100 on. -/
def settled (a : Nat) : Prop := 0x100 ≤ a % 0x1000 ∧ (a = FUSE_STAT ∨ 0x200000 ≤ a ∧ a < 0x240000)

/-- From `s` to `t` the routers, links and credits, the clock and the registers of `K` stay, as do the words kept of
earlier writes; faults are only added. -/
structure Spares (K : Nat → Prop) (s t : State) : Prop where
  rtr   : t.rtr = s.rtr
  links : t.links = s.links
  creds : t.creds = s.creds
  fc    : t.fc = s.fc
  was   : t.notes.was = s.notes.was
  rd    : ∀ a, K a → t.rd a = s.rd a
  due   : s.due <+: t.due

namespace Spares

variable {K : Nat → Prop} {s t u : State}

theorem refl (s : State) : Spares K s s := ⟨rfl, rfl, rfl, rfl, rfl, fun _ _ => rfl, List.prefix_rfl⟩

theorem trans (h : Spares K s t) (k : Spares K t u) : Spares K s u where
  rtr   := k.rtr.trans h.rtr
  links := k.links.trans h.links
  creds := k.creds.trans h.creds
  fc    := k.fc.trans h.fc
  was   := k.was.trans h.was
  rd a ha := (k.rd a ha).trans (h.rd a ha)
  due   := h.due.trans k.due

theorem mono {L : Nat → Prop} (h : Spares K s t) (hL : ∀ a, L a → K a) : Spares L s t :=
  { h with rd := fun a ha => h.rd a (hL a ha) }

theorem ite {a b : State} {c : Prop} [Decidable c] (ha : Spares K s a) (hb : Spares K s b) :
    Spares K s (if c then a else b) := by split <;> assumption

theorem forN {n : Nat} {f : Nat → State → State} (hf : ∀ i u, i < n → Spares K u (f i u)) (s : State) :
    Spares K s (forN n f s) := by
  induction n with
  | zero => exact refl s
  | succ n ih => exact (ih fun i u hi => hf i u (by omega)).trans (hf n _ (by omega))

theorem foldl {α : Type} {f : State → α → State} (l : List α) (hf : ∀ u, ∀ x ∈ l, Spares K u (f u x))
    (s : State) : Spares K s (l.foldl f s) := by
  induction l generalizing s with
  | nil => exact refl s
  | cons x l ih =>
    exact (hf s x (by simp)).trans (ih (fun u y hy => hf u y (by simp [hy])) _)

/-- An update of fields that routers do not work on. -/
theorem same (h1 : t.rtr = s.rtr := by rfl) (h2 : t.links = s.links := by rfl) (h3 : t.creds = s.creds := by rfl)
    (h4 : t.fc = s.fc := by rfl) (h5 : t.notes.was = s.notes.was := by rfl) (h6 : t.regs = s.regs := by rfl)
    (h7 : s.due <+: t.due := by exact List.prefix_rfl) : Spares K s t :=
  ⟨h1, h2, h3, h4, h5, fun a _ => by simp only [State.rd, h6], h7⟩

/-- A write of a register outside `K`. -/
theorem wr {a : Nat} (h : ¬ K a) (v : Word) : Spares K s (s.wr a v) :=
  ⟨rfl, rfl, rfl, rfl, rfl, fun b hb => State.rd_wr_ne s (a := a) (b := b) (by rintro rfl; exact h hb) v,
    List.prefix_rfl⟩

theorem setFld {a : Nat} (h : ¬ K a) (hi lo v : Nat) : Spares K s (s.setFld a hi lo v) := wr h _

theorem satFld {a : Nat} (h : ¬ K a) (hi lo n : Nat) : Spares K s (s.satFld a hi lo n) := wr h _

theorem setBit {a : Nat} (h : ¬ K a) (i : Nat) : Spares K s (s.setBit a i) := (setFld h i i 1).trans same

theorem tileFault (k cause who : Nat) : Spares K s (s.tileFault k cause who) :=
  same (h7 := List.prefix_append _ _)

theorem rtrOf (h : Spares K s t) (k : Nat) : t.rtrOf k = s.rtrOf k := congrArg (Tbl.get _ · k) h.rtr

theorem linkOf (h : Spares K s t) (l : Nat) : t.linkOf l = s.linkOf l := congrArg (Tbl.get _ · l) h.links

theorem credOf (h : Spares K s t) (l : Nat) : t.credOf l = s.credOf l := congrArg (Tbl.get _ · l) h.creds

/-- The link cycles of an output stay (R504). -/
theorem depth (h : Spares K s t) {k : Nat} (hk : K (LINK_DEPTH k)) (o : Nat) : t.depth k o = s.depth k o := by
  have hn : t.newFc (LINK_DEPTH k) = s.newFc (LINK_DEPTH k) := by simp only [State.newFc, h.was, h.fc]
  simp only [State.depth, State.rdFc, hn, h.was, h.rd _ hk]

end Spares

/-! Where marks, counters and probes write -/

theorem pageBase_mod (p : Page) : pageBase p % 0x1000 = 0 := by
  cases p <;> simp only [pageBase] <;> omega

/-- A common register of a page is not settled. -/
theorem not_settled_common (p : Page) {o : Nat} (ho : o < 0x100) : ¬ settled (pageBase p + o) := by
  have := pageBase_mod p
  rintro ⟨h, -⟩
  omega

/-- Nor is one between the pages of the blocks and the first router page, or above the last. -/
theorem not_settled_outside {a : Nat} (h : 0x4000 ≤ a ∧ a < 0x200000 ∨ 0x240000 ≤ a) : ¬ settled a := by
  rintro ⟨-, h' | h'⟩
  · simp only [FUSE_STAT] at h'; omega
  · omega

theorem settled_fuseStat : settled FUSE_STAT := ⟨by decide, .inl rfl⟩

theorem settled_linkDepth {k : Nat} (h : k < 56) : settled (LINK_DEPTH k) := by
  simp only [settled, LINK_DEPTH]; omega

theorem settled_schedErr {k : Nat} (h : k < 56) : settled (SCHED_ERR k) := by
  simp only [settled, SCHED_ERR]; omega

theorem settled_hdrErr {k : Nat} (h : k < 56) : settled (HDR_ERR k) := by
  simp only [settled, HDR_ERR]; omega

/-! Errors, interrupts and the Journal -/

theorem State.errBit_spares (s : State) (p : Page) (b : Nat) : Spares settled s (s.errBit p b) := by
  have h (o : Nat) (ho : o < 0x100) := not_settled_common p ho
  exact (Spares.ite (.wr (h 0x20 (by decide)) _) (.ite (.refl s) (.satFld (h 0x20 (by decide)) 7 5 1))).trans
    (.setBit (h 0x18 (by decide)) b)

theorem State.pulse_spares (s : State) (p : Page) : Spares settled s (s.pulse p) := by
  unfold State.pulse
  extract_lets k last xing s1 a s2
  have h1 : Spares settled s s1 := .same
  have h2 : Spares settled s s2 := .ite h1 (h1.trans (.tileFault k 5 k))
  have ha : ¬ settled a := not_settled_outside (by simp only [a, XING_OVR0, XING_OVR1]; split <;> omega)
  exact .ite (.refl s) (.ite h1 ((h2.trans (.setBit ha _)).trans (State.errBit_spares _ _ _)))

theorem State.pageErr_spares (s : State) (p : Page) (b : Nat) : Spares settled s (s.pageErr p b) :=
  (s.errBit_spares p b).trans (State.pulse_spares _ p)

theorem State.pageIrq_spares (s : State) (p : Page) (b : Nat) : Spares settled s (s.pageIrq p b) :=
  (Spares.setBit (not_settled_common p (by decide)) b).trans (State.pulse_spares _ p)

theorem State.journal_spares (s : State) (e : JEntry) : Spares settled s (s.journal e) :=
  .ite .same (((Spares.satFld (a := JRN_STAT) (not_settled_outside (by decide)) 15 0 1).trans
    (State.pageErr_spares _ _ _)).trans .same)

/-! Tally (R373 to R381) -/

theorem not_settled_cnt (i w : Nat) : ¬ settled (CNT i w) := not_settled_outside (by simp only [CNT]; omega)

theorem State.setCnt_spares (s : State) (i v : Nat) : Spares settled s (s.setCnt i v) :=
  (Spares.setFld (not_settled_cnt i 0) 31 0 v).trans (.setFld (not_settled_cnt i 1) 15 0 _)

/-- The bound is that of Tally's 1,272 counters: their overflow words lie in its page. -/
theorem State.cntOvf_spares (s : State) {i : Nat} (hi : i < 1272) : Spares settled s (s.cntOvf i) := by
  have ho : ¬ settled (TLY_OVF (i / 32)) := not_settled_outside (by simp only [TLY_OVF]; omega)
  exact ((Spares.trans .same (.setBit (not_settled_cnt i 3) 0)).trans (.setBit ho _)).trans
    (.ite (State.pageIrq_spares _ _ _) (.refl _))

theorem State.cntCarry_spares (s : State) (i n : Nat) : Spares settled s (s.cntCarry i n) := .ite (.refl s) .same

theorem State.addCnt_spares (s : State) {i : Nat} (hi : i < 1272) (add : Nat) : Spares settled s (s.addCnt i add) := by
  unfold State.addCnt
  extract_lets v w s1 s2
  have h1 : Spares settled s s1 :=
    ((s.setCnt_spares i _).trans (State.setCnt_spares _ (i + 1) _)).trans (State.cntCarry_spares _ i _)
  have h2 : Spares settled s s2 := s.setCnt_spares i _
  exact .ite (.refl s) (.ite (s.setCnt_spares i _) (.ite (.ite (h1.trans (State.cntOvf_spares _ hi)) h1)
    (.ite (h2.trans (State.cntOvf_spares _ hi)) h2)))

theorem State.countIn_spares (s : State) {base n : Nat} (h : base + n ≤ 1272) (code port add : Nat) (hit : Nat → Bool) :
    Spares settled s (s.countIn base n code port add hit) :=
  .ite (.refl s) (.forN (fun j u hj => .ite (u.addCnt_spares (by omega) add) (.refl u)) s)

theorem State.countRs_spares (s : State) {k : Nat} (hk : k < 56) (code port add : Nat) (hit : Nat → Bool) :
    Spares settled s (s.countRs k code port add hit) := s.countIn_spares (by omega) code port add hit

theorem State.countR_spares (s : State) {k : Nat} (hk : k < 56) (code port : Nat) (hit : Nat → Bool) :
    Spares settled s (s.countR k code port hit) := s.countRs_spares hk code port 1 hit

theorem State.countG_spares (s : State) (code port add : Nat) : Spares settled s (s.countG code port add) :=
  .ite (.refl s) (s.countIn_spares (by decide) code port add unfiltered)

/-! Probes (R381 to R385) -/

/-- The registers of the sixteen probes are in Tally's page. -/
theorem not_settled_probe {j a : Nat} (hj : j < 16) (ha : a = PRB_CNT_LO j ∨ a = PRB_CNT_HI j ∨ a = PRB_STAT j) :
    ¬ settled a := not_settled_outside (by simp only [PRB_CNT_LO, PRB_CNT_HI, PRB_STAT] at ha; omega)

theorem State.probeDrop_spares (s : State) {j : Nat} (hj : j < 16) : Spares settled s (s.probeDrop j) :=
  (((Spares.ite (s.pageErr_spares _ _) (.refl s)).trans (.satFld (not_settled_probe hj (.inr (.inr rfl))) 15 0 1)).trans
    (State.countG_spares _ _ _ _)).trans .same

theorem State.probeTake_spares (s : State) {j : Nat} (hj : j < 16) (f : Flit) (full : Bool) :
    Spares settled s (s.probeTake j f full) :=
  .ite (.refl s) (Spares.trans .same (.ite .same (State.probeDrop_spares _ hj)))

theorem State.probeOne_spares (s : State) (k : Nat) {j : Nat} (hj : j < 16) (f : Flit) :
    Spares settled s (s.probeOne k j f) := by
  unfold State.probeOne
  extract_lets c mode curs setCur last n s1 s2 stopped s3
  have hcur (u : State) (l : List (BitVec 128)) : Spares settled u (setCur u l) := .same
  have h1 : Spares settled s s1 := (Spares.setFld (not_settled_probe hj (.inl rfl)) 31 0 _).trans
    (.setFld (not_settled_probe hj (.inr (.inl rfl))) 15 0 _)
  have h2 : Spares settled s s2 := h1.trans (State.probeTake_spares _ hj _ _)
  have h3 : Spares settled s s3 := .ite (.refl s) (s.probeTake_spares hj f true)
  exact .ite (.ite (.ite (.ite (h2.trans (hcur _ _)) h2) h1) (.refl s)) (.ite (.ite (h3.trans (hcur _ _)) h3) (.refl s))

theorem State.probes_spares (s : State) (kind : Bool) (index port : Nat) (dir : Bool) (f : Flit) :
    Spares settled s (s.probes kind index port dir f) :=
  .ite (.refl s) (.forN (fun _ u hj => .ite (u.probeOne_spares _ hj f) (.refl u)) s)

/-- What a flit counts and shows on its way out of a router. -/
theorem State.seenOut_spares (s : State) {k : Nat} (hk : k < 56) (o : Nat) (f : Flit) :
    Spares settled s (s.seenOut k o f) := by
  have h (c : Prop) [Decidable c] (u : State) (code : Nat) (hit : Nat → Bool) :
      Spares settled u (if c then u.countR k code o hit else u) := .ite (u.countR_spares hk code o hit) (.refl u)
  exact (((((s.countR_spares hk _ _ _).trans (h _ _ _ _)).trans (h _ _ _ _)).trans (h _ _ _ _)).trans .same).trans
    (State.probes_spares _ _ _ _ _ _)

/-! Violations and discarded scheduled flits (R106, R179) -/

theorem State.partEvent_spares (s : State) (p : Nat) (opc : BitVec 8) (arg : Nat) :
    Spares settled s (s.partEvent p opc arg) := .ite (.refl s) .same

theorem State.demote_spares (s : State) (det : Nat) {f : Nat} (hf : f < 4096) : Spares settled s (s.demote det f) := by
  have hd : ¬ settled (FLOW_DEM (f / 32)) := not_settled_outside (by simp only [FLOW_DEM]; omega)
  have hc : ¬ settled DEM_CNT := not_settled_outside (by decide)
  exact ((((Spares.setBit hd _).trans (.satFld hc 15 0 1)).trans (.setFld hc 27 16 f)).trans
    (State.countG_spares _ _ _ _)).trans (State.partEvent_spares _ _ _ _)

theorem State.violation_spares (s : State) (det : Nat) (w : BitVec 16) {flows : List Nat} (h : ∀ f ∈ flows, f < 4096) :
    Spares settled s (s.violation det w flows) :=
  ((Spares.foldl _ (fun u f hf => u.demote_spares det (h f (List.mem_of_mem_filter hf))) s).trans
    (State.pageErr_spares _ _ _)).trans (State.journal_spares _ _)

/-- Of the settled registers only SCHED_ERR of the router is written for a flit discarded at a full bypass register. -/
theorem State.bypassOverflow_spares (s : State) {k : Nat} (hk : k < 56) (i o : Nat) (f : Flit) :
    Spares (fun a => settled a ∧ a ≠ SCHED_ERR k) s (s.bypassOverflow k i o f) ∧
    (s.bypassOverflow k i o f).rbit (SCHED_ERR k) 31 = true := by
  unfold State.bypassOverflow
  extract_lets s1 s2
  have h1 : Spares (fun a => settled a ∧ a ≠ SCHED_ERR k) s s1 :=
    .ite (.refl s) (((Spares.setFld (by simp) _ _ _).trans (.setFld (by simp) _ _ _)).trans (.setBit (by simp) _))
  have hb : s1.rbit (SCHED_ERR k) 31 = true := by
    simp only [s1]
    split
    · assumption
    · exact State.rbit_setBit_self _ _ (by decide)
  have h2 : Spares settled s1 ((s2.violation 1 (whereRtr k) [(hFlow f.hdr).toNat]).tileFault k 2 k) :=
    (((s1.pageErr_spares _ _).trans (State.countR_spares _ hk _ _ _)).trans
      (State.violation_spares _ _ _ (by simp only [List.mem_singleton]; rintro _ rfl; exact (hFlow f.hdr).isLt))).trans
      (.tileFault _ _ _)
  exact ⟨h1.trans (h2.mono fun _ h => h.1), (State.rbit_congr (h2.rd _ (settled_schedErr hk)) 31).trans hb⟩

/-! Header groups (R50) -/

/-- Of the settled registers only HDR_ERR of the router is written when the header groups are checked, and its valid bit
is set when one is uncorrectable. -/
theorem State.headerMarks_spares (s : State) {k : Nat} (hk : k < 56) (i o c u : Nat) (u0 : Bool) :
    Spares (fun a => settled a ∧ a ≠ HDR_ERR k) s (s.headerMarks k i o c u u0) ∧
    (u ≠ 0 → (s.headerMarks k i o c u u0).rbit (HDR_ERR k) 31 = true) := by
  unfold State.headerMarks
  extract_lets s1 s2 s3
  have h1 : Spares (fun a => settled a ∧ a ≠ HDR_ERR k) s s1 :=
    .ite (((s.pageErr_spares _ _).trans (State.countRs_spares _ hk _ _ _ _)).mono fun _ h => h.1) (.refl s)
  by_cases hu : u = 0
  · simpa [hu] using h1
  simp only [if_pos hu]
  have h2 : Spares (fun a => settled a ∧ a ≠ HDR_ERR k) s1 s2 :=
    .ite (.refl s1) ((Spares.setFld (by simp) _ _ _).trans (.setFld (by simp) _ _ _))
  have h3 : Spares settled ((s2.satFld (HDR_ERR k) 23 16 1).setBit (HDR_ERR k) 31)
      ((s3.countRs k 0x0B o u unfiltered).tileFault k 1 k) :=
    ((State.pageErr_spares _ _ _).trans (State.countRs_spares _ hk _ _ _ _)).trans (.tileFault _ _ _)
  refine ⟨((h1.trans h2).trans ((Spares.satFld (by simp) _ _ _).trans (.setBit (by simp) _))).trans
    (h3.mono fun _ h => h.1), fun _ => ?_⟩
  exact (State.rbit_congr (h3.rd _ (settled_hdrErr hk)) 31).trans (State.rbit_setBit_self _ _ (by decide))

end Sys2Proof.Machine
end

section
/-! Arrival at a router's input (R50, R99, R106), ages (R107) and credits (R103, R126). -/

namespace Sys2Proof.Machine

/-! Links, credits and the tables of a router -/

theorem State.rtrOf_setRtr_ne (s : State) {j k : Nat} (h : j ≠ k) (x : Rtr) : (s.setRtr k x).rtrOf j = s.rtrOf j :=
  Tbl.get_set_ne _ h _ _

theorem State.rtrOf_setRtr (s : State) (j k : Nat) (x : Rtr) :
    (s.setRtr k x).rtrOf j = if j = k then x else s.rtrOf j := Tbl.get_set _ _ _ _ _

@[simp] theorem Rtr.vc_setVc_self (x : Rtr) (i vc : Nat) (v : Vc) : (x.setVc i vc v).vc i vc = v :=
  Tbl.get_set_self _ _ _ _

@[simp] theorem Rtr.bypass_setBypass_self (x : Rtr) (i : Nat) (l : List VFlit) : (x.setBypass i l).bypass i = l :=
  Tbl.get_set_self _ _ _ _

@[simp] theorem Rtr.credits_setCredits_self (x : Rtr) (o vc c : Nat) : (x.setCredits o vc c).credits o vc = c :=
  Tbl.get_set_self _ _ _ _

/-- A credit that is issued upstream leaves every router as it is but for its relays. -/
theorem State.rtrOf_creditUp (s : State) (k i vc j : Nat) :
    ∃ r, (s.creditUp k i vc).rtrOf j = { s.rtrOf j with relay := r } := by
  unfold State.creditUp
  split
  · exact ⟨_, rfl⟩
  · next l _ =>
    extract_lets o fly
    split
    · rw [State.modRtr, State.rtrOf_setRtr]
      split
      · next e => subst e; exact ⟨_, rfl⟩
      · exact ⟨_, rfl⟩
    · exact ⟨_, rfl⟩
  · exact ⟨_, rfl⟩

/-- Nor does it reach the links or the registers. -/
theorem State.creditUp_links_regs (s : State) (k i vc : Nat) :
    (s.creditUp k i vc).links = s.links ∧ (s.creditUp k i vc).regs = s.regs := by
  unfold State.creditUp
  split
  · exact ⟨rfl, rfl⟩
  · extract_lets o fly
    split <;> exact ⟨rfl, rfl⟩
  · exact ⟨rfl, rfl⟩

/-- A flit for an NI goes onto the link into it. -/
theorem State.send_ni {s : State} {k o n : Nat} (h : Config.port k o = .ni n) (vc : Nat) (f : Flit) (la : Nat) :
    s.send k o vc f la = s.setLink (linkNi n)
      (s.linkOf (linkNi n) ++ [{ flit := f, due := s.fc + 1 + s.depth k o, vc := vc, la := la }]) := by
  simp only [State.send, h]

/-- A flit for another router goes onto the link into it where the link has no relay (R104). -/
theorem State.send_router {s : State} {k o j : Nat} (h : Config.port k o = .router j) (hd : s.depth k o ≠ 2) (vc : Nat)
    (f : Flit) (la : Nat) :
    s.send k o vc f la = s.setLink (linkIn j (Config.inputFrom j k)) (s.linkOf (linkIn j (Config.inputFrom j k)) ++
      [{ flit := f, due := s.fc + 1 + s.depth k o, vc := vc, la := la }]) := by
  simp only [State.send, h, if_neg hd]

theorem State.rtr_send {s : State} {k o : Nat} (hd : s.depth k o ≠ 2) (vc : Nat) (f : Flit) (la : Nat) :
    (s.send k o vc f la).rtr = s.rtr := by
  cases h : Config.port k o with
  | ni n => rw [State.send_ni h]; rfl
  | router j => rw [State.send_router h hd]; rfl
  | none => simp only [State.send, h]

/-! Arrival -/

theorem fixHeader_of_groups {e g f : Flit} {c1 u1 c2 u2 : Bool} (h1 : fixGroup e 0 = (g, c1, u1))
    (h2 : fixGroup g 1 = (f, c2, u2)) : fixHeader e = (f, flag c1 + flag c2, flag u1 + flag u2, u1) := by
  simp only [fixHeader, h1, h2]

/-- The flit has left the link, and its header groups and look-ahead have been checked (R50, R99). -/
def State.headChecked (s : State) (k i : Nat) (rest : List Fly) (laErr : Bool) (out c u : Nat) (u0 : Bool) : State :=
  let s := (s.setLink (linkIn k i) rest).headerMarks k i out c u u0
  if laErr then s.pageErr (rtrPage k) 2 else s

/-- Of the settled registers only HDR_ERR is written, and its valid bit is set when a group is uncorrectable. -/
theorem State.headChecked_spares (s : State) {k : Nat} (hk : k < 56) (i : Nat) (rest : List Fly) (laErr : Bool)
    (out c u : Nat) (u0 : Bool) :
    Spares (fun a => settled a ∧ a ≠ HDR_ERR k) (s.setLink (linkIn k i) rest)
      (s.headChecked k i rest laErr out c u u0) ∧
    (u ≠ 0 → (s.headChecked k i rest laErr out c u u0).rbit (HDR_ERR k) 31 = true) := by
  obtain ⟨h, hb⟩ := (s.setLink (linkIn k i) rest).headerMarks_spares hk i out c u u0
  have h' : Spares settled ((s.setLink (linkIn k i) rest).headerMarks k i out c u u0)
      (s.headChecked k i rest laErr out c u u0) := .ite (State.pageErr_spares _ _ _) (.refl _)
  exact ⟨h.trans (h'.mono fun _ ha => ha.1), fun hu =>
    (State.rbit_congr (h'.rd _ (settled_hdrErr hk)) 31).trans (hb hu)⟩

/-- The router notes that a flit has entered it (R400). -/
def State.entered (s : State) (k : Nat) : State := s.modRtr k fun x => { x with lastFc := s.fc }

/-- The first flit `f` of a Sheaf packet (R116). -/
def State.sheafHead (s : State) (f : Flit) : Bool := isSheaf s.die f.hdr && decide (sFidx f.sc = 0)

theorem State.sheafHead_eq_false {s : State} {f : Flit} (h : ¬ (isSheaf s.die f.hdr = true ∧ sFidx f.sc = 0)) :
    s.sheafHead f = false := by
  simpa [State.sheafHead] using h

/-- The checked flit is written into the bypass register or its VC (R99, R106, R116). -/
def State.keepFlit (s : State) (k i : Nat) (laErr : Bool) (y : Fly) (f : Flit) (out : Nat) (ue : Bool) : State :=
  let at_ := if laErr then s.fc + 1 else s.fc
  if y.vc = bypVc then
    let q := (s.rtrOf k).bypass i
    if 2 ≤ q.length then s.bypassOverflow k i out f
    else s.modRtr k fun x => x.setBypass i (q ++ [{ flit := f, fc := at_, la := out, ue := ue }])
  else
    let v := (s.rtrOf k).vc i y.vc
    let mask := s.sheafMaskOf k (getBits f.hdr 56 49)
    let s' := if s.sheafHead f && mask.testBit i then s.pageErr (rtrPage k) 4 else s
    let m := if s.sheafHead f then some (BitVec.ofNat 8 (if mask.testBit i then mask - 2 ^ i else mask)) else none
    if s.sheafHead f && (m.getD 0) = 0 then s'.creditUp k i y.vc
    else s'.modRtr k fun x => x.setVc i y.vc { v with flits := v.flits ++
      [{ flit := f, fc := at_, ord := (s'.rtrOf k).nextOrd i, la := out, ue := ue, sheaf := m }] }

/-- Nothing arrives where the oldest flit of the link is not due. -/
theorem State.routerArrive_notDue {s : State} {k i : Nat}
    (h : ∀ y, (s.linkOf (linkIn k i)).head? = some y → s.fc < y.due) (err : FlitErr) (laErr : Bool) :
    s.routerArrive k i err laErr = s := by
  unfold State.routerArrive
  extract_lets l
  split
  · rfl
  · next y rest hl =>
    exact if_pos (by simp [h y (by rw [hl]; rfl)])

/-- The arrival of a flit that is due, in its three steps. -/
theorem State.routerArrive_due {s : State} {k i : Nat} {y : Fly} {rest : List Fly} (hl : s.linkOf (linkIn k i) = y :: rest)
    (hd : y.due ≤ s.fc) (hr : s.runs k = true) {err : FlitErr} {f : Flit} {c u : Nat} {u0 : Bool}
    (hf : fixHeader (strike y.flit err) = (f, c, u, u0)) (laErr : Bool) {out : Nat}
    (ho : out = if laErr || s.ring then s.headerOut k f.hdr else y.la) :
    s.routerArrive k i err laErr =
      ((s.headChecked k i rest laErr out c u u0).entered k).keepFlit k i laErr y f out (decide (u ≠ 0)) := by
  unfold State.routerArrive
  extract_lets l
  split
  · next h => cases hl.symm.trans h
  · next h =>
    cases hl.symm.trans h
    rw [if_neg (by simp [hr, Nat.not_lt.mpr hd])]
    extract_lets t
    split
    next h =>
    cases hf.symm.trans h
    subst ho
    rfl

section
variable (s : State) {k : Nat} (i : Nat) (laErr : Bool) {y : Fly} {f : Flit} (out : Nat) (ue : Bool)

/-- A dynamic flit that is no Sheaf head goes to the end of its VC. -/
theorem State.keepFlit_dynamic (hv : y.vc ≠ bypVc) (hs : s.sheafHead f = false) :
    s.keepFlit k i laErr y f out ue = s.modRtr k fun x => x.setVc i y.vc
      { (s.rtrOf k).vc i y.vc with flits := ((s.rtrOf k).vc i y.vc).flits ++
          [{ flit := f, fc := if laErr then s.fc + 1 else s.fc, ord := (s.rtrOf k).nextOrd i, la := out, ue := ue }] } := by
  simp only [State.keepFlit, if_neg hv, hs, Bool.false_and, Bool.false_eq_true, if_false]

/-- A scheduled flit goes to the end of a bypass register that has room (R106). -/
theorem State.keepFlit_bypass (hv : y.vc = bypVc) (hq : ((s.rtrOf k).bypass i).length < 2) :
    s.keepFlit k i laErr y f out ue = s.modRtr k fun x => x.setBypass i ((s.rtrOf k).bypass i ++
      [{ flit := f, fc := if laErr then s.fc + 1 else s.fc, la := out, ue := ue }]) := by
  simp only [State.keepFlit, if_pos hv, if_neg (Nat.not_le.mpr hq)]

/-- It is discarded at a full one (R106). -/
theorem State.keepFlit_full (hv : y.vc = bypVc) (hq : 2 ≤ ((s.rtrOf k).bypass i).length) :
    s.keepFlit k i laErr y f out ue = s.bypassOverflow k i out f := by
  simp only [State.keepFlit, if_pos hv, if_pos hq]

/-- Wherever the flit goes, the links, HDR_ERR and the fc of the last entry stay. -/
theorem State.keepFlit_keeps (hk : k < 56) :
    (s.keepFlit k i laErr y f out ue).links = s.links ∧
    ((s.keepFlit k i laErr y f out ue).rtrOf k).lastFc = (s.rtrOf k).lastFc ∧
    (s.keepFlit k i laErr y f out ue).rd (HDR_ERR k) = s.rd (HDR_ERR k) := by
  by_cases hv : y.vc = bypVc
  · by_cases hq : 2 ≤ ((s.rtrOf k).bypass i).length
    · rw [s.keepFlit_full i laErr out ue hv hq]
      have h := (s.bypassOverflow_spares hk i out f).1
      exact ⟨h.links, by rw [h.rtrOf], h.rd _ ⟨settled_hdrErr hk, by simp only [HDR_ERR, SCHED_ERR]; omega⟩⟩
    · rw [s.keepFlit_bypass i laErr out ue hv (Nat.not_le.mp hq)]
      exact ⟨rfl, by simp [State.modRtr, Rtr.setBypass], rfl⟩
  · simp only [State.keepFlit, if_neg hv]
    generalize s.sheafMaskOf k (getBits f.hdr 56 49) = mask
    have h : Spares settled s (if s.sheafHead f && mask.testBit i then s.pageErr (rtrPage k) 4 else s) :=
      .ite (s.pageErr_spares _ _) (.refl s)
    generalize (if s.sheafHead f && mask.testBit i then s.pageErr (rtrPage k) 4 else s) = s' at h ⊢
    generalize (if s.sheafHead f then some (BitVec.ofNat 8 (if mask.testBit i then mask - 2 ^ i else mask)) else none) = m
    split
    · obtain ⟨hl, hr⟩ := s'.creditUp_links_regs k i y.vc
      obtain ⟨r, hx⟩ := s'.rtrOf_creditUp k i y.vc k
      exact ⟨hl.trans h.links, by rw [hx, h.rtrOf],
        (congrArg (Tbl.get resetWord · _) hr).trans (h.rd _ (settled_hdrErr hk))⟩
    · exact ⟨h.links, by simp [State.modRtr, Rtr.setVc, h.rtrOf], h.rd _ (settled_hdrErr hk)⟩

end

/-- A flit that is no Sheaf head concerns no other router. -/
theorem State.rtrOf_keepFlit_ne {s : State} {k : Nat} (hk : k < 56) (i : Nat) (laErr : Bool) {y : Fly} {f : Flit}
    (hs : y.vc = bypVc ∨ s.sheafHead f = false) (out : Nat) (ue : Bool) {j : Nat} (hj : j ≠ k) :
    (s.keepFlit k i laErr y f out ue).rtrOf j = s.rtrOf j := by
  by_cases hv : y.vc = bypVc
  · by_cases hq : 2 ≤ ((s.rtrOf k).bypass i).length
    · rw [s.keepFlit_full i laErr _ _ hv hq]
      exact (s.bypassOverflow_spares hk i _ f).1.rtrOf j
    · rw [s.keepFlit_bypass i laErr _ _ hv (Nat.not_le.mp hq)]
      exact State.rtrOf_setRtr_ne _ hj _
  · rw [s.keepFlit_dynamic i laErr _ _ hv (hs.resolve_left hv)]
    exact State.rtrOf_setRtr_ne _ hj _

/-- `t` is `s` once the flit at the end of the link into input `i` of router `k` has left it and has been checked: `rest`
follows on the link, and `u` of its header groups are uncorrectable. -/
structure State.FlitChecked (s : State) (k i : Nat) (rest : List Fly) (u : Nat) (t : State) : Prop where
  link   : t.linkOf (linkIn k i) = rest
  here   : t.rtrOf k = { s.rtrOf k with lastFc := s.fc }
  others : ∀ j, j ≠ k → t.rtrOf j = s.rtrOf j
  die    : t.die = s.die
  bad    : u ≠ 0 → t.rbit (HDR_ERR k) 31 = true

theorem State.flitChecked_entered (s : State) {k : Nat} (hk : k < 56) (i : Nat) (rest : List Fly) (laErr : Bool)
    (out c u : Nat) (u0 : Bool) : s.FlitChecked k i rest u ((s.headChecked k i rest laErr out c u u0).entered k) := by
  obtain ⟨h, hb⟩ := s.headChecked_spares hk i rest laErr out c u u0
  refine ⟨(h.linkOf _).trans (State.linkOf_setLink_self _ _ _), ?_, fun j hj => ?_, ?_, hb⟩
  · rw [State.entered, State.modRtr, State.rtrOf_setRtr_self, h.rtrOf, h.fc]
    rfl
  · rw [State.entered, State.modRtr, State.rtrOf_setRtr_ne _ hj, h.rtrOf]
    rfl
  · exact State.fld_congr (h.rd FUSE_STAT ⟨settled_fuseStat, by simp only [FUSE_STAT, HDR_ERR]; omega⟩) 2 0

/-! Ages and credits -/

theorem modFirst_append {α : Type} {p : α → Bool} (f : α → α) {pre : List α} {x : α} (rest : List α)
    (hpre : ∀ z ∈ pre, p z = false) (hx : p x = true) : modFirst p f (pre ++ x :: rest) = pre ++ f x :: rest := by
  induction pre with
  | nil => simp [modFirst, hx]
  | cons z pre ih =>
    have hz : p z = false := hpre z (by simp)
    simp [modFirst, hz, ih fun w hw => hpre w (by simp [hw])]

/-- The first head flit of a VC that has waited for another 64 fc ages by one. -/
theorem State.ageUp_first {s : State} {k i vc : Nat} {pre : List VFlit} {y : VFlit} {rest : List VFlit}
    (hf : ((s.rtrOf k).vc i vc).flits = pre ++ y :: rest) (hpre : ∀ z ∈ pre, z.aged s.fc = false)
    (hy : y.aged s.fc = true) (hr : s.runs k = true) :
    s.ageUp k i vc = s.setRtr k ((s.rtrOf k).setVc i vc
      { (s.rtrOf k).vc i vc with flits := pre ++ { y with add := y.add + 1 } :: rest }) := by
  refine (if_pos (by simp [hf, hy, hr])).trans ?_
  rw [hf, modFirst_append _ rest hpre hy]
  rfl

/-- Where none has, none ages. -/
theorem State.ageUp_none {s : State} {k i vc : Nat} (h : ∀ y ∈ ((s.rtrOf k).vc i vc).flits, y.aged s.fc = false) :
    s.ageUp k i vc = s := by
  refine if_neg ?_
  simp only [Bool.and_eq_true, List.any_eq_true, not_and]
  rintro ⟨y, hy, ha⟩
  simp [h y hy] at ha

/-- A credit beyond the fourth is a fault of the tile (R126). -/
theorem State.creditArrive_full {s : State} {k o : Nat} {c : Nat × Nat}
    (h : (s.credOf (8 * k + o)).find? (·.2 ≤ s.fc) = some c) (hc : 4 ≤ (s.rtrOf k).credits o c.1) :
    s.creditArrive k o =
      ((s.setCred (8 * k + o) (eraseFirst (· = c) (s.credOf (8 * k + o)))).pageErr (rtrPage k) 5).tileFault k 3 k := by
  simp only [State.creditArrive, h]
  exact if_pos hc

/-- Any other is counted (R103). -/
theorem State.creditArrive_counted {s : State} {k o : Nat} {c : Nat × Nat}
    (h : (s.credOf (8 * k + o)).find? (·.2 ≤ s.fc) = some c) (hc : (s.rtrOf k).credits o c.1 < 4) :
    s.creditArrive k o = (s.setCred (8 * k + o) (eraseFirst (· = c) (s.credOf (8 * k + o)))).modRtr k fun x =>
      x.setCredits o c.1 ((s.rtrOf k).credits o c.1 + 1) := by
  simp only [State.creditArrive, h]
  exact if_neg (Nat.not_le.mpr hc)

/-- No credit is counted before it is due. -/
theorem State.creditArrive_notDue {s : State} {k o : Nat} (h : ∀ c ∈ s.credOf (8 * k + o), s.fc < c.2) :
    s.creditArrive k o = s := by
  have hn : (s.credOf (8 * k + o)).find? (·.2 ≤ s.fc) = none :=
    List.find?_eq_none.mpr fun c hc => by simpa using h c hc
  simp only [State.creditArrive, hn]

end Sys2Proof.Machine
end

section
/-! Obligations.Routers (R21, R50, R99 to R108): a router cycle with one flit or none. -/

namespace Sys2Proof.Machine

/-! A router cycle without slot table, relays or bypass flits -/

theorem forN_eq_self {σ : Type} {n : Nat} {f : Nat → σ → σ} {s : σ} (h : ∀ i, i < n → f i s = s) : forN n f s = s := by
  induction n with
  | zero => rfl
  | succ n ih => rw [forN, ih fun i hi => h i (by omega), h n (by omega)]

/-- Of the first `n` numbers one alone has a value. -/
theorem filterMap_range_eq_singleton {α : Type} {f : Nat → Option α} {n i : Nat} {x : α} (hi : i < n) (hx : f i = some x)
    (h : ∀ j, j < n → j ≠ i → f j = none) : (List.range n).filterMap f = [x] := by
  induction n with
  | zero => omega
  | succ n ih =>
    rw [List.range_succ, List.filterMap_append]
    by_cases e : i = n
    · subst e
      have hn : (List.range i).filterMap f = [] :=
        List.filterMap_eq_nil_iff.mpr fun j hj => h j (by simp at hj; omega) (by simp at hj; omega)
      simp [hn, hx]
    · rw [ih (by omega) fun j hj => h j (by omega)]
      simp [h n (by omega) (Ne.symm e)]

/-- A relay that holds nothing does nothing (R104). -/
theorem State.relayStep_empty {s : State} {k : Nat} (h : (s.rtrOf k).relay = []) (o : Nat) : s.relayStep k o = s := by
  have hr : (s.rtrOf k).relayOf o = {} := by rw [Rtr.relayOf, h]; rfl
  unfold State.relayStep
  split
  · exact if_pos (by rw [hr]; rfl)
  · rfl

/-- Without a bank in force or a bypass flit nothing is granted by the slot table (R106). -/
theorem State.schedGrants_none {s : State} {k : Nat} (hb : s.rtrBank k = none) (h : (s.rtrOf k).byp = []) :
    s.schedGrants k = (s, []) := by
  have hy (i : Nat) : (s.rtrOf k).bypass i = [] := by rw [Rtr.bypass, h]; rfl
  have ho (o : Nat) : s.slotNow k o = none := by simp only [State.slotNow, hb]
  have hnow (i : Nat) : s.bypassNow k i = none := by simp only [State.bypassNow, hy, List.find?_nil]
  have hnil {α : Type} : (List.range 8).filterMap (fun _ => (none : Option α)) = [] :=
    List.filterMap_eq_nil_iff.mpr fun _ _ => rfl
  simp only [State.schedGrants, ho, hnow, Option.map_none, hnil, List.map_nil, List.foldl_nil]
  exact congrArg (·, []) (forN_eq_self fun i _ => by simp only [hy, List.find?_nil])

/-- With no output towards a cut-off domain nothing is discarded (R402). -/
theorem State.dropCut_open {s : State} {k : Nat} (h : ∀ o, o < 8 → Config.port k o ≠ .none → s.cutOff k o = false) :
    s.dropCut k = s := by
  refine if_pos ?_
  simp only [Bool.not_eq_true', List.any_eq_false, List.mem_range, Bool.and_eq_true, decide_eq_true_eq]
  rintro o ho ⟨hc, hp⟩
  simp [h o ho hp] at hc

/-- Nor is anything where no VC holds a flit. -/
theorem State.dropCut_empty {s : State} {k : Nat} (h : ∀ i vc, ((s.rtrOf k).vc i vc).flits = []) : s.dropCut k = s := by
  unfold State.dropCut
  split
  · rfl
  · exact forN_eq_self fun i _ => forN_eq_self fun vc _ => by simp only [h]

/-- The router notes that it has had its cycle (R99). -/
def State.cycled (s : State) (k : Nat) : State := s.modRtr k fun x => { x with ranFc := s.fc + 1 }

theorem State.rtrOf_cycled (s : State) (k : Nat) : (s.cycled k).rtrOf k = { s.rtrOf k with ranFc := s.fc + 1 } :=
  State.rtrOf_setRtr_self _ _ _

/-- A dynamic flit may leave by an output, when no scheduled one leaves. -/
def State.openOut (s : State) (k o : Nat) : Bool := !s.cutOff k o

/-- The nominees of the inputs (R108 stage 1). -/
def State.nominees (s : State) (k : Nat) : List Nominee :=
  (List.range 8).filterMap fun i => s.nominate k i (s.openOut k)

/-- Those that their outputs grant (R108 stage 2). -/
def State.winners (s : State) (k : Nat) (noms : List Nominee) : List Nominee :=
  (List.range 8).filterMap fun o =>
    best (fun n => (n.i + 7 - Tbl.get (fun _ => 7) (s.rtrOf k).lastIn o) % 8) (noms.filter fun n => n.o = o)

/-- The nominees that are not granted are counted (R379). -/
def State.lossCount (s : State) (k : Nat) (noms wins : List Nominee) : State :=
  noms.foldl (fun s n =>
    if wins.contains n then s else
    match ((s.rtrOf k).vc n.i n.vc).flits with
    | y :: _ => s.countR k 0x06 n.o (s.hits k (flitSeen y.flit))
    | [] => s) s

/-- The head flits that only a credit holds are counted (R379). -/
def State.creditCount (s : State) (k : Nat) (free : Nat → Bool) : State :=
  forN 8 (fun i s => forN 16 (fun vc s =>
    match ((s.rtrOf k).vc i vc).flits with
    | [] => s
    | y :: _ => match s.noCredit k i vc y free with | some o => s.countR k 0x07 o unfiltered | none => s) s) s

/-- The dynamic grants of a router cycle, when no scheduled flit leaves (R108). -/
def State.dynGrants (s : State) (k : Nat) : State :=
  (s.winners k (s.nominees k)).foldl (fun s n => s.dynOut k n)
    ((s.lossCount k (s.nominees k) (s.winners k (s.nominees k))).creditCount k (s.openOut k))

/-- With no slot table, relay or bypass flit, and nothing to discard, a router cycle is its dynamic grants. -/
theorem State.traverse_dynamic {s : State} {k : Nat} (hr : s.runs k = true) (hc : (s.rtrOf k).ranFc ≠ s.fc + 1)
    (hb : s.rtrBank k = none) (hrel : (s.rtrOf k).relay = []) (hbyp : (s.rtrOf k).byp = [])
    (hd : (s.cycled k).dropCut k = s.cycled k) : s.traverse k = (s.cycled k).dynGrants k := by
  have hrel' : ((s.cycled k).rtrOf k).relay = [] := by rwa [State.rtrOf_cycled]
  have hbyp' : ((s.cycled k).rtrOf k).byp = [] := by rwa [State.rtrOf_cycled]
  have hb' : (s.cycled k).rtrBank k = none := hb
  have h1 : forN 8 (fun o s => s.relayStep k o) (s.cycled k) = s.cycled k :=
    forN_eq_self fun o _ => State.relayStep_empty hrel' o
  have h2 : (s.cycled k).slotMarks k = s.cycled k := by simp only [State.slotMarks, hb']
  have hn : ¬ ((!s.runs k || decide ((s.rtrOf k).ranFc = s.fc + 1)) = true) := by simp [hr, hc]
  have hcy : (s.modRtr k fun x => { x with ranFc := s.fc + 1 }) = s.cycled k := rfl
  refine (if_neg hn).trans ?_
  simp only [hcy, h1, h2, State.schedGrants_none hb' hbyp', hd]
  rfl

/-! An empty router -/

/-- What VC `vc` of input `i` puts up for nomination (R108 stage 1). -/
def State.candidate (s : State) (k i : Nat) (free : Nat → Bool) (vc : Nat) : Option Nominee :=
  let v := (s.rtrOf k).vc i vc
  match v.flits with
  | [] => none
  | y :: _ =>
    if !s.mayGo k i vc y then none
    else (s.wants k vc v y free).map fun (o, d) => { i := i, vc := vc, o := o, d := d, u := s.urgency k v y }

theorem State.nominate_eq_best (s : State) (k i : Nat) (free : Nat → Bool) :
    s.nominate k i free = best (fun n => (n.vc + 15 - Tbl.get (fun _ => 15) (s.rtrOf k).lastVc i) % 16)
      ((List.range 16).filterMap (s.candidate k i free)) := rfl

theorem State.candidate_empty {s : State} {k i vc : Nat} (h : ((s.rtrOf k).vc i vc).flits = []) (free : Nat → Bool) :
    s.candidate k i free vc = none := by
  simp only [State.candidate, h]

/-- An input whose VCs hold nothing nominates nothing. -/
theorem State.nominate_empty {s : State} {k i : Nat} (h : ∀ vc, vc < 16 → ((s.rtrOf k).vc i vc).flits = [])
    (free : Nat → Bool) : s.nominate k i free = none := by
  have hn : (List.range 16).filterMap (s.candidate k i free) = [] :=
    List.filterMap_eq_nil_iff.mpr fun vc hvc => State.candidate_empty (h vc (List.mem_range.mp hvc)) free
  rw [State.nominate_eq_best, hn]
  rfl

/-- In a router that holds nothing nothing is granted. -/
theorem State.dynGrants_empty {s : State} {k : Nat} (h : ∀ i vc, ((s.rtrOf k).vc i vc).flits = []) :
    s.dynGrants k = s := by
  have hn : s.nominees k = [] :=
    List.filterMap_eq_nil_iff.mpr fun i _ => State.nominate_empty (fun vc _ => h i vc) _
  have hw : s.winners k [] = [] := List.filterMap_eq_nil_iff.mpr fun _ _ => rfl
  have hc : s.creditCount k (s.openOut k) = s :=
    forN_eq_self fun i _ => forN_eq_self fun vc _ => by simp only [h]
  have hl : s.lossCount k [] [] = s := rfl
  rw [State.dynGrants, hn, hw, hl, hc, List.foldl_nil]

/-! A router with one flit -/

/-- Router `k` holds one flit, `y` in VC `vc` of input `i`, which is a whole dynamic packet and has been written; the
output it asks for is open and gives it VC `d` downstream (R99, R102). -/
structure State.Lone (s : State) (k i vc : Nat) (v : Vc) (y : VFlit) (d : Nat) : Prop where
  input   : i < 8
  lane    : vc < 16
  vcs     : (s.rtrOf k).vcs = [(16 * i + vc, v)]
  flits   : v.flits = [y]
  out     : v.out = none
  written : y.fc ≤ s.fc
  sheaf   : y.sheaf = none
  head    : sFidx y.flit.sc = 0
  last    : hLen y.flit.hdr = 0
  sound   : y.ue = false
  output  : y.la < 8
  cut     : s.cutOff k y.la = false
  pick    : s.pickVc k y.la vc y.flit.hdr (sOpc y.flit.sc) = some d

namespace State.Lone

variable {s : State} {k i vc : Nat} {v : Vc} {y : VFlit} {d : Nat} (h : s.Lone k i vc v y d)
include h

theorem vc_self : (s.rtrOf k).vc i vc = v := by
  rw [Rtr.vc, h.vcs]
  exact if_pos rfl

theorem vc_other {j w : Nat} (hw : w < 16) (hne : ¬ (j = i ∧ w = vc)) : ((s.rtrOf k).vc j w).flits = [] := by
  have hlane := h.lane
  have hk : ¬ 16 * i + vc = 16 * j + w := by omega
  rw [Rtr.vc, h.vcs, show Tbl.get (fun _ => ({} : Vc)) [(16 * i + vc, v)] (16 * j + w) = {} from if_neg hk]

/-- It passes nothing: no other VC holds a flit (log 127). -/
theorem mayGo : s.mayGo k i vc y = true := by
  have hb : ((List.range 16).filter (· ≠ vc)).flatMap (fun w =>
      (((s.rtrOf k).vc i w).flits.filter fun z => z.ord < y.ord).map (·.flit.hdr)) = [] := by
    refine List.flatMap_eq_nil_iff.mpr fun w hw => ?_
    obtain ⟨hw, hne⟩ := List.mem_filter.mp hw
    have hne : w ≠ vc := by simpa using hne
    rw [h.vc_other (List.mem_range.mp hw) fun e => hne e.2]
    rfl
  simp only [State.mayGo, hb, passes, List.any_nil, Bool.and_false, Bool.not_false, Bool.and_true, decide_eq_true_eq]
  exact h.written

/-- What it is nominated for: its look-ahead output. -/
def nominee (s : State) (k i vc : Nat) (v : Vc) (y : VFlit) (d : Nat) : Nominee :=
  { i := i, vc := vc, o := y.la, d := d, u := s.urgency k v y }

theorem wants {free : Nat → Bool} (hf : free y.la = true) : s.wants k vc v y free = some (y.la, d) := by
  simp only [State.wants, h.sheaf, h.out, hf, h.pick, if_true, Option.map_some]

theorem candidate {free : Nat → Bool} (hf : free y.la = true) :
    s.candidate k i free vc = some (nominee s k i vc v y d) := by
  simp only [State.candidate, h.vc_self, h.flits, h.mayGo, h.wants hf, Bool.not_true, Bool.false_eq_true, if_false,
    Option.map_some, nominee]

theorem nominate {free : Nat → Bool} (hf : free y.la = true) :
    s.nominate k i free = some (nominee s k i vc v y d) := by
  have hn : (List.range 16).filterMap (s.candidate k i free) = [nominee s k i vc v y d] :=
    filterMap_range_eq_singleton h.lane (h.candidate hf) fun w hw hne =>
      State.candidate_empty (h.vc_other hw fun e => hne e.2) free
  rw [State.nominate_eq_best, hn]
  rfl

/-- No credit holds it back (R379). -/
theorem noCredit {free : Nat → Bool} (hf : free y.la = true) : s.noCredit k i vc y free = none := by
  simp [State.noCredit, h.sheaf, hf, h.pick]

/-- It is granted its output, the only grant of the cycle. -/
theorem dynGrants : s.dynGrants k = s.dynOut k (nominee s k i vc v y d) := by
  have hf : s.openOut k y.la = true := by rw [State.openOut, h.cut, Bool.not_false]
  have hn : s.nominees k = [nominee s k i vc v y d] :=
    filterMap_range_eq_singleton h.input (h.nominate hf) fun j _ hne =>
      State.nominate_empty (fun w hw => h.vc_other hw fun e => hne e.1) _
  have hw : s.winners k [nominee s k i vc v y d] = [nominee s k i vc v y d] := by
    refine filterMap_range_eq_singleton h.output ?_ fun o _ hne => ?_
    · rw [List.filter_cons_of_pos (by simp [nominee])]
      rfl
    · rw [List.filter_cons_of_neg (by simp [nominee, Ne.symm hne])]
      rfl
  have hl : s.lossCount k [nominee s k i vc v y d] [nominee s k i vc v y d] = s := if_pos (by simp)
  have hc : s.creditCount k (s.openOut k) = s := by
    refine forN_eq_self fun j _ => forN_eq_self fun w hw => ?_
    by_cases e : j = i ∧ w = vc
    · obtain ⟨rfl, rfl⟩ := e
      simp only [h.vc_self, h.flits, h.noCredit hf]
    · simp only [h.vc_other hw e]
  simp only [State.dynGrants, hn, hw, hl, hc, List.foldl_cons, List.foldl_nil]

end State.Lone

/-- A router after the only flit of a packet has left it (R102, R108). -/
def Rtr.sentLone (x : Rtr) (n : Nominee) : Rtr :=
  { ((x.setVc n.i n.vc {}).setCredits n.o n.d (x.credits n.o n.d - 1)).setBusy n.o n.d false with
    lastVc := Tbl.set (fun _ => 15) n.i n.vc x.lastVc, lastIn := Tbl.set (fun _ => 7) n.o n.i x.lastIn }

theorem Rtr.vc_sentLone (x : Rtr) (n : Nominee) : (x.sentLone n).vc n.i n.vc = {} := x.vc_setVc_self n.i n.vc {}

theorem Rtr.credits_sentLone (x : Rtr) (n : Nominee) : (x.sentLone n).credits n.o n.d = x.credits n.o n.d - 1 :=
  x.credits_setCredits_self n.o n.d _

/-- Its flit crosses the switch. -/
theorem State.Lone.dynOut {s : State} {k i vc : Nat} {v : Vc} {y : VFlit} {d : Nat} (h : s.Lone k i vc v y d)
    {hdr : BitVec 128} {la : Nat} (hl : s.leave y.flit.hdr (v.ageNow y) = (hdr, la)) {n : Nominee}
    (hn : n = nominee s k i vc v y d) :
    s.dynOut k n = ((((s.setRtr k ((s.rtrOf k).sentLone n)).seenOut k y.la (rewriteHdr y.flit hdr)).send k y.la d
      (rewriteHdr y.flit hdr) la).creditUp k i vc) := by
  subst hn
  have hlv (x : Rtr) : (s.setRtr k x).leaving y (v.ageNow y) = (rewriteHdr y.flit hdr, la) := by
    have hx : (s.setRtr k x).leave y.flit.hdr (v.ageNow y) = (hdr, la) := hl
    simp only [State.leaving, h.sound, Bool.false_eq_true, if_false, hx]
  unfold State.dynOut
  simp only [nominee, h.vc_self, h.flits, h.sheaf, h.head, h.last, hlv]
  rfl

/-- The header of a dynamic flit that leaves has its hop counted (R99). -/
theorem State.hHop_leave {s : State} {h : BitVec 128} (hr : s.ring = false) (hs : hSch h = false)
    (hm : isSheaf s.die h = false) (age : Nat) : hHop (s.leave h age).1 = (hHop h + 1) % 16 := by
  have hd : hDst (setAge h age) = hDst h := by
    refine BitVec.eq_of_getLsbD_eq fun i hi => ?_
    simp only [hDst, setAge, BitVec.getLsbD_extractLsb', hi, decide_true, Bool.true_and]
    rw [putBits_getLsbD _ _ _ _ _ (by omega), if_neg (by omega)]
  have hm' : isSheaf s.die (setAge h age) = false := by rw [← hm, isSheaf, isSheaf, hd]
  simp only [State.leave, hs, hr, hm', Bool.false_or, Bool.false_eq_true, if_false, hHop, setHop]
  rw [getBits_putBits_self _ _ _ _ (by decide) (by decide), setAge, getBits_putBits_ne _ _ _ _ _ _ (by decide)]
  norm_num

/-- Its flit goes onto the link of its output, for one credit, and leaves its VC empty (R99, R102, R103). -/
theorem State.Lone.sent {s : State} {k i vc : Nat} {v : Vc} {y : VFlit} {d : Nat} (h : s.Lone k i vc v y d) (hk : k < 56)
    (hdep : s.depth k y.la ≠ 2) {hdr : BitVec 128} {la : Nat} (hl : s.leave y.flit.hdr (v.ageNow y) = (hdr, la)) {z : Fly}
    (hz : z = { flit := rewriteHdr y.flit hdr, due := s.fc + 1 + s.depth k y.la, vc := d, la := la }) :
    (((s.dynGrants k).rtrOf k).vc i vc).flits = [] ∧
    ((s.dynGrants k).rtrOf k).credits y.la d + 1 = (s.rtrOf k).credits y.la d ∧
    (∀ n, Config.port k y.la = .ni n → (s.dynGrants k).linkOf (linkNi n) = s.linkOf (linkNi n) ++ [z]) ∧
    (∀ j, Config.port k y.la = .router j → (s.dynGrants k).linkOf (linkIn j (Config.inputFrom j k)) =
      s.linkOf (linkIn j (Config.inputFrom j k)) ++ [z]) := by
  subst hz
  rw [h.dynGrants, h.dynOut hl rfl]
  have hsp := (s.setRtr k ((s.rtrOf k).sentLone (nominee s k i vc v y d))).seenOut_spares hk y.la (rewriteHdr y.flit hdr)
  generalize State.seenOut _ _ _ _ = u at hsp ⊢
  have hd : u.depth k y.la = s.depth k y.la := hsp.depth (settled_linkDepth hk) _
  have hfc : u.fc = s.fc := hsp.fc
  have hlk (l : Nat) : u.linkOf l = s.linkOf l := hsp.linkOf l
  have hrtr : (u.send k y.la d (rewriteHdr y.flit hdr) la).rtrOf k = (s.rtrOf k).sentLone (nominee s k i vc v y d) :=
    (congrArg (Tbl.get _ · k) (State.rtr_send (by rwa [hd]) _ _ _)).trans
      ((hsp.rtrOf k).trans (State.rtrOf_setRtr_self _ _ _))
  obtain ⟨r, hr⟩ := (u.send k y.la d (rewriteHdr y.flit hdr) la).rtrOf_creditUp k i vc k
  rw [hrtr] at hr
  have hlinks (l : Nat) := congrArg (Tbl.get (fun _ => []) · l)
    ((u.send k y.la d (rewriteHdr y.flit hdr) la).creditUp_links_regs k i vc).1
  refine ⟨?_, ?_, fun n hn => (hlinks _).trans ?_, fun j hj => (hlinks _).trans ?_⟩
  · rw [hr]
    exact congrArg Vc.flits (Rtr.vc_sentLone _ _)
  · rw [hr]
    have hc : ((s.rtrOf k).sentLone (nominee s k i vc v y d)).credits y.la d = (s.rtrOf k).credits y.la d - 1 :=
      Rtr.credits_sentLone _ _
    have hp := List.find?_some h.pick
    simp only [Bool.and_eq_true, decide_eq_true_eq] at hp
    refine (congrArg (· + 1) hc).trans ?_
    omega
  · rw [State.send_ni hn, hd, hfc, hlk]
    exact State.linkOf_setLink_self _ _ _
  · rw [State.send_router hj (by rwa [hd]), hd, hfc, hlk]
    exact State.linkOf_setLink_self _ _ _

/-! The obligation -/

/-- Settles O48. An arriving flit passes through the three steps of `State.routerArrive_due`, and what a step marks and
counts spares the routers; a router cycle comes down to its dynamic grants, of which a lone flit gets the only one. -/
theorem routers : Obligations.Routers := by
  refine ⟨?arrive, ?notDue, ?age, ?young, ?credit, ?noCredit, ?lone, ?empty, ?idle⟩
  case arrive =>
    intro s k i err laErr y rest g f c1 u1 c2 u2 hl hd hr hring h1 h2
    have hk := k.isLt
    refine ⟨_, rfl, ?_⟩
    obtain ⟨out, hout⟩ : ∃ out, out = if laErr then hSel f.hdr (hHop f.hdr) else y.la := ⟨_, rfl⟩
    have ho : out = if laErr || s.ring then s.headerOut k f.hdr else y.la := by
      simp only [hout, hring, Bool.or_false, State.headerOut, Bool.false_eq_true, if_false]
    rw [State.routerArrive_due hl hd hr (fixHeader_of_groups h1 h2) laErr ho, ← hout]
    have ht := s.flitChecked_entered hk i rest laErr out (flag c1 + flag c2) (flag u1 + flag u2) u1
    generalize State.entered _ _ = t at ht ⊢
    have hsheaf (h : ¬ (isSheaf s.die f.hdr = true ∧ sFidx f.sc = 0)) : t.sheafHead f = false :=
      State.sheafHead_eq_false (by rwa [ht.die])
    have hvc (w : Nat) : (t.rtrOf k).vc i w = (s.rtrOf k).vc i w := by rw [ht.here]; rfl
    have hbyp : (t.rtrOf k).bypass i = (s.rtrOf k).bypass i := by rw [ht.here]; rfl
    obtain ⟨hlinks, hlast, herr⟩ := t.keepFlit_keeps i laErr (y := y) (f := f) out (decide (flag u1 + flag u2 ≠ 0)) hk
    refine ⟨(congrArg (Tbl.get _ · _) hlinks).trans ht.link, by rw [hlast, ht.here], fun hv hs => ?dynamic,
      fun hv hq => ?bypass, fun hv hq => ?full, fun hu => ?bad, fun hs j hj => ?others⟩
    case dynamic =>
      rw [t.keepFlit_dynamic i laErr _ _ hv (hsheaf hs), State.modRtr, State.rtrOf_setRtr_self, Rtr.vc_setVc_self, hvc]
      exact ⟨_, rfl, rfl, rfl, rfl⟩
    case bypass =>
      rw [t.keepFlit_bypass i laErr _ _ hv (by rwa [hbyp]), State.modRtr, State.rtrOf_setRtr_self,
        Rtr.bypass_setBypass_self, hbyp]
      exact ⟨_, rfl, rfl⟩
    case full =>
      rw [t.keepFlit_full i laErr _ _ hv (by rwa [hbyp])]
      obtain ⟨hsp, hb⟩ := t.bypassOverflow_spares hk i out f
      exact ⟨by rw [hsp.rtrOf, hbyp], hb⟩
    case bad =>
      exact (State.rbit_congr herr 31).trans (ht.bad (by obtain rfl | rfl := hu <;> simp [flag]))
    case others =>
      exact (State.rtrOf_keepFlit_ne hk i laErr (hs.imp_right hsheaf) _ _ hj).trans (ht.others j hj)
  case notDue =>
    intro s k i err laErr h
    exact congrArg Host.Outcome.next (State.routerArrive_notDue h err laErr)
  case age =>
    intro s k i vc pre y rest hf hpre hh hfc hr
    have hy : y.aged s.fc = true := by simp [VFlit.aged, hh, hfc]
    exact congrArg Host.Outcome.next (State.ageUp_first hf hpre hy hr)
  case young =>
    intro s k i vc h
    refine congrArg Host.Outcome.next (State.ageUp_none fun y hy => ?_)
    simpa [VFlit.aged] using h y hy
  case credit =>
    intro s k o c hc
    refine ⟨_, rfl, ?_, fun h4 => ?_, fun h4 => ?_⟩
    · by_cases h4 : 4 ≤ (s.rtrOf k).credits o c.1
      · rw [State.creditArrive_full hc h4, ((State.pageErr_spares _ _ _).trans (.tileFault k.val 3 k.val)).credOf]
        exact State.credOf_setCred_self _ _ _
      · rw [State.creditArrive_counted hc (Nat.not_le.mp h4)]
        exact State.credOf_setCred_self _ _ _
    · rw [State.creditArrive_counted hc h4]
      exact ⟨by simp [State.modRtr], rfl⟩
    · rw [State.creditArrive_full hc h4]
      have hsp := State.pageErr_spares (s.setCred (8 * k + o) (eraseFirst (· = c) (s.credOf (8 * k + o)))) (rtrPage k) 5
      obtain ⟨l, hl⟩ := hsp.due
      exact ⟨hsp.rtr, l, _, congrArg (· ++ [_]) hl.symm, congrArg FaultItem.tile (Fin.ofNat_val_eq_self k)⟩
  case noCredit =>
    intro s k o h
    exact congrArg Host.Outcome.next (State.creditArrive_notDue h)
  case lone =>
    intro s k i vc v y d h la hr hc hring hb hrel hbyp hvcs hfl hout hw hsh hh hlen hsch hdie hue hla hcut hport hpick
      hdep hlv
    have hx := s.rtrOf_cycled k
    have hone : (s.cycled k).Lone k i vc v y d :=
      { input := i.isLt, lane := vc.isLt, vcs := by rw [hx]; exact hvcs, flits := hfl, out := hout, written := hw,
        sheaf := hsh, head := hh, last := hlen, sound := hue, output := hla, cut := hcut y.la hla hport,
        pick := by rw [← hpick, State.pickVc, hx]; rfl }
    obtain ⟨hempty, hcred, hni, hrtr⟩ := hone.sent k.isLt hdep hlv rfl
    rw [hx] at hcred
    have ht := State.traverse_dynamic hr hc hb hrel hbyp (State.dropCut_open (s := s.cycled k) hcut)
    refine ⟨_, congrArg Host.Outcome.next ht, hempty, hcred, fun n hn => ⟨_, hni n hn, rfl, rfl, rfl⟩,
      fun j hj => ⟨_, hrtr j hj, rfl, rfl, rfl, ?_⟩, ?_⟩
    · rw [← (Prod.mk.inj hlv).1, ← (Prod.mk.inj hlv).2]
    · rw [← (Prod.mk.inj hlv).1]
      exact State.hHop_leave hring hsch hdie _
  case empty =>
    intro s k hr hc hb hrel hbyp hvcs
    have he (i vc : Nat) : (((s.cycled k).rtrOf k).vc i vc).flits = [] := by
      simp [State.cycled, State.modRtr, Rtr.vc, hvcs]
    refine congrArg Host.Outcome.next ((State.traverse_dynamic hr hc hb hrel hbyp (State.dropCut_empty he)).trans ?_)
    exact State.dynGrants_empty he
  case idle =>
    intro s k h
    refine congrArg Host.Outcome.next (if_pos ?_)
    obtain h | h := h <;> simp [h]

end Sys2Proof.Machine
end

section
/-! What marks leave. Error bits, interrupts, the Journal, Tally, probes, partition events and Foreman's samples work on
registers and on tables of their own (R355, R373 to R385, R448, R453, R456); the NIs, the links, the ports and the modes
stay. The statements on flits and messages use it for every state operation that marks and counts on its way. -/

namespace Sys2Proof.Machine

/-- The state without what marks work on. -/
def State.bare (s : State) : State :=
  { s with regs := [], tally := {}, notes := { s.notes with marks := {}, xing := [] }, due := [], jq := [], jgap := false,
           eng := {}, parts := [] }

/-- From `s` to `t` there are marks alone, which leave the registers of `K`. -/
structure State.Marked (K : Nat → Prop) (s t : State) : Prop where
  bare : t.bare = s.bare
  rd    : ∀ a, K a → t.rd a = s.rd a

/-- No register. -/
def noReg (_ : Nat) : Prop := False

/-- Every register but those of Tally's page and its counters. -/
def offTally (a : Nat) : Prop := ¬ (0x5000 ≤ a ∧ a < 0x6000) ∧ a < 0x3000000

namespace State.Marked

variable {K : Nat → Prop} {s t u : State}

theorem refl (s : State) : Marked K s s := ⟨rfl, fun _ _ => rfl⟩

theorem trans (h : Marked K s t) (k : Marked K t u) : Marked K s u :=
  ⟨k.bare.trans h.bare, fun a ha => (k.rd a ha).trans (h.rd a ha)⟩

theorem mono {L : Nat → Prop} (h : Marked K s t) (hL : ∀ a, L a → K a) : Marked L s t :=
  ⟨h.bare, fun a ha => h.rd a (hL a ha)⟩

/-- Marks that may reach any register. -/
theorem all (h : Marked K s t) : Marked noReg s t := h.mono fun _ h => h.elim

theorem ite {a b : State} {c : Prop} [Decidable c] (ha : Marked K s a) (hb : Marked K s b) :
    Marked K s (if c then a else b) := by split <;> assumption

theorem forN {n : Nat} {f : Nat → State → State} (hf : ∀ i u, i < n → Marked K u (f i u)) (s : State) :
    Marked K s (forN n f s) := by
  induction n with
  | zero => exact refl s
  | succ n ih => exact (ih fun i u hi => hf i u (by omega)).trans (hf n _ (by omega))

theorem foldl {α : Type} {f : State → α → State} (l : List α) (hf : ∀ u x, Marked K u (f u x)) (s : State) :
    Marked K s (l.foldl f s) := by
  induction l generalizing s with
  | nil => exact refl s
  | cons x l ih => exact (hf s x).trans (ih _)

/-- An update of the tables that marks work on. -/
theorem same (h : t.bare = s.bare := by rfl) (hr : t.regs = s.regs := by rfl) : Marked K s t :=
  ⟨h, fun a _ => by simp only [State.rd, hr]⟩

theorem wr {a : Nat} (h : ¬ K a) (v : Word) : Marked K s (s.wr a v) :=
  ⟨rfl, fun b hb => State.rd_wr_ne s (a := a) (b := b) (by rintro rfl; exact h hb) v⟩

theorem setFld {a : Nat} (h : ¬ K a) (hi lo v : Nat) : Marked K s (s.setFld a hi lo v) := wr h _

theorem satFld {a : Nat} (h : ¬ K a) (hi lo n : Nat) : Marked K s (s.satFld a hi lo n) := wr h _

theorem setBit {a : Nat} (h : ¬ K a) (i : Nat) : Marked K s (s.setBit a i) := (setFld h i i 1).trans same

/-! What stays -/

theorem ni (h : Marked K s t) : t.ni = s.ni := (congrArg State.ni h.bare :)
theorem links (h : Marked K s t) : t.links = s.links := (congrArg State.links h.bare :)
theorem creds (h : Marked K s t) : t.creds = s.creds := (congrArg State.creds h.bare :)
theorem fc (h : Marked K s t) : t.fc = s.fc := (congrArg State.fc h.bare :)
theorem mode (h : Marked K s t) : t.mode = s.mode := (congrArg State.mode h.bare :)
theorem skw (h : Marked K s t) : t.skw = s.skw := (congrArg State.skw h.bare :)
theorem lni (h : Marked K s t) : t.lni = s.lni := (congrArg State.lni h.bare :)
theorem rules (h : Marked K s t) : t.rules = s.rules := (congrArg State.rules h.bare :)
theorem draws (h : Marked K s t) : t.draws = s.draws := (congrArg State.draws h.bare :)
theorem niAlive (h : Marked K s t) : t.niAlive = s.niAlive := (congrArg State.niAlive h.bare :)
theorem change (h : Marked K s t) : t.change = s.change := (congrArg State.change h.bare :)
theorem time (h : Marked K s t) : t.time = s.time := (congrArg State.time h.bare :)
theorem was (h : Marked K s t) : t.notes.was = s.notes.was := (congrArg (fun u : State => u.notes.was) h.bare :)
theorem ruleWas (h : Marked K s t) : t.notes.ruleWas = s.notes.ruleWas := (congrArg (fun u : State => u.notes.ruleWas) h.bare :)

theorem niOf (h : Marked K s t) (n : Nat) : t.niOf n = s.niOf n := congrArg (Tbl.get _ · n) h.ni
theorem linkOf (h : Marked K s t) (l : Nat) : t.linkOf l = s.linkOf l := congrArg (Tbl.get _ · l) h.links
theorem credOf (h : Marked K s t) (l : Nat) : t.credOf l = s.credOf l := congrArg (Tbl.get _ · l) h.creds
theorem skwOf (h : Marked K s t) (k : Nat) : t.skwOf k = s.skwOf k := congrArg (Tbl.get _ · k) h.skw

end State.Marked

/-! The marks of a page, and the Journal -/

section
variable (s : State)

theorem State.tileFault_marked {K : Nat → Prop} (k cause who : Nat) : Marked K s (s.tileFault k cause who) := .same

theorem State.errBit_marked (p : Page) (b : Nat) : Marked noReg s (s.errBit p b) :=
  (Marked.ite (.wr id _) (.ite (.refl s) (.satFld id 7 5 1))).trans (.setBit id b)

theorem State.pulse_marked (p : Page) : Marked noReg s (s.pulse p) := by
  unfold State.pulse
  extract_lets k last xing s1 a s2
  have h1 : Marked noReg s s1 := .same
  have h2 : Marked noReg s s2 := .ite h1 (h1.trans (s1.tileFault_marked k 5 k))
  exact .ite (.refl s) (.ite h1 ((h2.trans (.setBit id _)).trans (State.errBit_marked _ _ _)))

theorem State.pageErr_marked (p : Page) (b : Nat) : Marked noReg s (s.pageErr p b) :=
  (s.errBit_marked p b).trans (State.pulse_marked _ p)

theorem State.pageIrq_marked (p : Page) (b : Nat) : Marked noReg s (s.pageIrq p b) :=
  (Marked.setBit id b).trans (State.pulse_marked _ p)

theorem State.niErr_marked (n b : Nat) : Marked noReg s (s.niErr n b) := s.pageErr_marked _ b

theorem State.journal_marked (e : JEntry) : Marked noReg s (s.journal e) :=
  .ite .same (((Marked.satFld id 15 0 1).trans (State.pageErr_marked _ _ _)).trans .same)

/-- An interrupt of Tally writes its page alone: the page has no tile. -/
theorem State.pageIrq_tally_marked (b : Nat) : Marked offTally s (s.pageIrq .tally b) :=
  .setBit (by simp [offTally, pageBase]) b

theorem State.pageErr_tally_marked (b : Nat) : Marked offTally s (s.pageErr .tally b) := by
  have h (o : Nat) (ho : o < 0x1000) : ¬ offTally (pageBase .tally + o) := by
    simp only [offTally, pageBase]
    omega
  exact (Marked.ite (.wr (h 0x20 (by decide)) _) (.ite (.refl s) (.satFld (h 0x20 (by decide)) 7 5 1))).trans
    (.setBit (h 0x18 (by decide)) b)

/-! Tally and probes -/

theorem not_offTally_cnt (i w : Nat) : ¬ offTally (CNT i w) := by simp only [offTally, CNT]; omega

theorem State.setCnt_marked (i v : Nat) : Marked offTally s (s.setCnt i v) :=
  (Marked.setFld (not_offTally_cnt i 0) 31 0 v).trans (.setFld (not_offTally_cnt i 1) 15 0 _)

theorem State.cntOvf_marked {i : Nat} (hi : i < 1272) : Marked offTally s (s.cntOvf i) := by
  have ho : ¬ offTally (TLY_OVF (i / 32)) := by simp only [offTally, TLY_OVF]; omega
  exact ((Marked.trans .same (.setBit (not_offTally_cnt i 3) 0)).trans (.setBit ho _)).trans
    (.ite (State.pageIrq_tally_marked _ _) (.refl _))

theorem State.cntCarry_marked (i n : Nat) : Marked offTally s (s.cntCarry i n) := .ite (.refl s) .same

theorem State.addCnt_marked {i : Nat} (hi : i < 1272) (add : Nat) : Marked offTally s (s.addCnt i add) := by
  unfold State.addCnt
  extract_lets v w s1 s2
  have h1 : Marked offTally s s1 :=
    ((s.setCnt_marked i _).trans (State.setCnt_marked _ (i + 1) _)).trans (State.cntCarry_marked _ i _)
  have h2 : Marked offTally s s2 := s.setCnt_marked i _
  exact .ite (.refl s) (.ite (s.setCnt_marked i _) (.ite (.ite (h1.trans (State.cntOvf_marked _ hi)) h1)
    (.ite (h2.trans (State.cntOvf_marked _ hi)) h2)))

theorem State.countIn_marked {base n : Nat} (h : base + n ≤ 1272) (code port add : Nat) (hit : Nat → Bool) :
    Marked offTally s (s.countIn base n code port add hit) :=
  .ite (.refl s) (.forN (fun j u hj => .ite (u.addCnt_marked (by omega) add) (.refl u)) s)

theorem State.countN_marked {n : Nat} (hn : n < 87) (code add : Nat) (hit : Nat → Bool) :
    Marked offTally s (s.countN n code add hit) := s.countIn_marked (by omega) code 8 add hit

theorem State.countOnce_marked {n : Nat} (hn : n < 87) (code : Nat) : Marked offTally s (s.countOnce n code) :=
  .ite (.refl s) (Marked.trans .same (State.countN_marked _ hn code 1 unfiltered))

theorem State.countG_marked (code port add : Nat) : Marked offTally s (s.countG code port add) :=
  .ite (.refl s) (s.countIn_marked (by decide) code port add unfiltered)

theorem not_offTally_probe {j a : Nat} (hj : j < 16) (ha : a = PRB_CNT_LO j ∨ a = PRB_CNT_HI j ∨ a = PRB_STAT j) :
    ¬ offTally a := by
  simp only [PRB_CNT_LO, PRB_CNT_HI, PRB_STAT] at ha
  simp only [offTally]
  omega

theorem State.probeDrop_marked {j : Nat} (hj : j < 16) : Marked offTally s (s.probeDrop j) :=
  (((Marked.ite (s.pageErr_tally_marked _) (.refl s)).trans
    (.satFld (not_offTally_probe hj (.inr (.inr rfl))) 15 0 1)).trans (State.countG_marked _ _ _ _)).trans .same

theorem State.probeTake_marked {j : Nat} (hj : j < 16) (f : Flit) (full : Bool) : Marked offTally s (s.probeTake j f full) :=
  .ite (.refl s) (Marked.trans .same (.ite .same (State.probeDrop_marked _ hj)))

theorem State.probeOne_marked (k : Nat) {j : Nat} (hj : j < 16) (f : Flit) : Marked offTally s (s.probeOne k j f) := by
  unfold State.probeOne
  extract_lets c mode curs setCur last n s1 s2 stopped s3
  have hcur (u : State) (l : List (BitVec 128)) : Marked offTally u (setCur u l) := .same
  have h1 : Marked offTally s s1 := (Marked.setFld (not_offTally_probe hj (.inl rfl)) 31 0 _).trans
    (.setFld (not_offTally_probe hj (.inr (.inl rfl))) 15 0 _)
  have h2 : Marked offTally s s2 := h1.trans (State.probeTake_marked _ hj _ _)
  have h3 : Marked offTally s s3 := .ite (.refl s) (s.probeTake_marked hj f true)
  exact .ite (.ite (.ite (.ite (h2.trans (hcur _ _)) h2) h1) (.refl s)) (.ite (.ite (h3.trans (hcur _ _)) h3) (.refl s))

theorem State.probes_marked (kind : Bool) (index port : Nat) (dir : Bool) (f : Flit) :
    Marked offTally s (s.probes kind index port dir f) :=
  .ite (.refl s) (.forN (fun _ u hj => .ite (u.probeOne_marked _ hj f) (.refl u)) s)

end

end Sys2Proof.Machine
end

section
/-! Obligations.AnswersArrive (R274, R443, R446): what an answer does to the Ledger entry that its TAG names. -/

namespace Sys2Proof.Machine

/-! Ledger entries under the operations of a source NI -/

@[simp] theorem Ni.led_setLed_self (x : Ni) (k : Nat) (e : LEntry) : (x.setLed k e).led k = e := Tbl.get_set_self _ _ _ _

@[simp] theorem State.led_modLed_self (s : State) (n k : Nat) (f : LEntry → LEntry) :
    ((s.modLed n k f).niOf n).led k = f ((s.niOf n).led k) := by
  simp [State.modLed, Ni.modLed]

/-- A message for the unit leaves the Ledger. -/
theorem State.ledger_toUnit (s : State) (n : Nat) (m : Msg) (k : Nat) : ((s.toUnit n m).niOf k).ledger = (s.niOf k).ledger := by
  unfold State.toUnit
  split
  · by_cases h : k = n
    · subst h
      rw [State.niOf_modNi_self]
    · rw [State.niOf_modNi_ne s h]
  · rfl

theorem State.ledger_answerUnit (s : State) (n : Nat) (m : Msg) (load k : Nat) :
    ((s.answerUnit n m load).niOf k).ledger = (s.niOf k).ledger := by
  unfold State.answerUnit
  split <;> exact State.ledger_toUnit _ _ _ _

/-- A grant that may be released and losses that are forgotten leave the Ledger. -/
theorem Ni.led_noteGrant (x : Ni) (p : BitVec 9) (d : NodeId) (arb : Bool) (k : Nat) : (x.noteGrant p d arb).led k = x.led k := by
  unfold Ni.noteGrant
  split <;> rfl

/-- Freeing an entry leaves its state and its code. -/
theorem Ni.led_freeEntry (x : Ni) (k : Nat) :
    ((x.freeEntry k).led k).st = (x.led k).st ∧ ((x.freeEntry k).led k).code = (x.led k).code := by
  simp only [Ni.freeEntry, Ni.led_setLed_self, and_self]

theorem Ni.barNote_ok (x : Ni) (e : LEntry) : x.barNote e OK = x := by simp [Ni.barNote]

theorem State.ownerDone_ok (s : State) (o : Owner) : s.ownerDone o OK = s := if_pos rfl

theorem State.countEnd_marked (s : State) {n : Nat} (hn : n < 87) (k : Nat) : Marked offTally s (s.countEnd n k) := by
  unfold State.countEnd
  extract_lets e hit s1
  have h1 : Marked offTally s s1 := .ite (s.countN_marked hn _ _ _) (.refl s)
  exact .ite (.ite h1 ((h1.trans (State.countN_marked _ hn _ _ _)).trans (State.countN_marked _ hn _ _ _)))
    (h1.trans (State.countN_marked _ hn _ _ _))

/-- An entry that ends DONE: its owner, the barriers and the Journal take no note. -/
theorem State.endEntry_done (s : State) {n : Nat} (hn : n < 87) (k : Nat) :
    (((s.endEntry n k .done OK 0 false).niOf n).led k).st = .done ∧
    (((s.endEntry n k .done OK 0 false).niOf n).led k).code = OK := by
  unfold State.endEntry
  extract_lets e s1 s2 s3
  have h2 : s2 = s1.modNi n fun x => x.freeEntry k := by simp only [s2, Ni.barNote_ok, State.ownerDone_ok]
  have h3 : (s3.niOf n).led k = ((s1.niOf n).freeEntry k).led k := by
    rw [(State.countEnd_marked s2 hn k).niOf, h2, State.niOf_modNi_self]
  obtain ⟨hst, hcode⟩ := (s1.niOf n).led_freeEntry k
  rw [if_neg (by simp), h3, hst, hcode, State.led_modLed_self]
  exact ⟨rfl, rfl⟩

/-- Of an open entry of one line that has the outcome OK the end is DONE. -/
theorem State.finish_one_ok (s : State) {n k : Nat} (hn : n < 87) (ho : ((s.niOf n).led k).isOpen = true)
    (hl : ((s.niOf n).led k).lines = 1) (hc : ((s.niOf n).led k).codes = [(0, OK)]) :
    (((s.finish n k).niOf n).led k).st = .done ∧ (((s.finish n k).niOf n).led k).code = OK := by
  have ha : ((s.niOf n).led k).awaited = [] := by simp [LEntry.awaited, hl, hc]
  have hout : ((s.niOf n).led k).outcome = (.done, OK, 0, false) := by
    simp [LEntry.outcome, LEntry.codeOf, hl, hc]
  have hf : s.finish n k = s.endEntry n k .done OK 0 false := by
    simp [State.finish, ho, ha, hout]
  rw [hf]
  exact s.endEntry_done hn k

/-- A line that is awaited and that no initiator check split takes the outcome OK. -/
theorem State.led_lineDone_ok (s : State) {n k j : Nat} (ha : ((s.niOf n).led k).awaited.contains j = true)
    (hi : ((s.niOf n).led k).inl = none) (m : Option Msg) (load : Nat) :
    ((s.lineDone n k j OK m load).niOf n).led k =
      ({ (s.niOf n).led k with answered := ((s.niOf n).led k).answered + 1 } : LEntry).take [(j, OK)] := by
  unfold State.lineDone
  extract_lets e s1 code s2
  have h1 : s1 = s := if_neg (by simp)
  have hc : code = OK := if_neg (by simp [e, hi])
  have h2 : (s2.niOf n).ledger = (s.niOf n).ledger := by
    simp only [s2, h1]
    split
    · rfl
    · split
      · exact State.ledger_answerUnit _ _ _ _ _
      · rfl
  have hl : (s2.niOf n).led k = (s.niOf n).led k := congrArg (Tbl.get _ · k) h2
  rw [if_neg (by simpa using ha), State.led_modLed_self, hl, hc]

/-- One more answer to a part changes the parts of the entry alone. -/
theorem State.led_partAnswered (s : State) (n k i c : Nat) :
    ∃ l, ((s.partAnswered n k i c).niOf n).led k = { (s.niOf n).led k with parts := l } := by
  unfold State.partAnswered
  extract_lets x e
  split
  · exact ⟨_, rfl⟩
  · rw [State.niOf_setNi_self, Ni.led_setLed_self]
    exact ⟨_, rfl⟩

theorem State.flushIoc_empty (s : State) {n k : Nat} (h : ((s.niOf n).led k).heldIoc = []) (fuel : Nat) :
    s.flushIoc n k fuel = s := by
  cases fuel with
  | zero => rfl
  | succ fuel => simp [State.flushIoc, h]

/-! An answer and its entry -/

/-- The entry that an answer without data ends: it awaits one line, and nothing sets its answer aside. -/
structure LEntry.OneLine (e : LEntry) : Prop where
  issued : e.st = .issued
  lines  : e.lines = 1
  codes  : e.codes = []
  inl    : e.inl = none
  sheaf  : e.sheaf = 0
  held   : e.heldIoc = []
  cxl    : bit e.opc 7 = false

/-- An OK answer without data to a request of one line ends its entry DONE (R251, R443). -/
theorem State.applyAnswer_ok (s : State) {n k i : Nat} {p : HPkt} {q : LPart} (hn : n < 87) (hc : hCls p.hdr = cNDR)
    (hf : sOpc p.sc ≠ opFERR) (hs : sStatus p.sc = OK) (he : ((s.niOf n).led k).OneLine)
    (hp : ((s.niOf n).led k).parts.drop i = [q]) (hq0 : q.lidx = 0) (hq1 : q.lines = 1) :
    (((s.applyAnswer n k i p).niOf n).led k).st = .done ∧ (((s.applyAnswer n k i p).niOf n).led k).code = OK := by
  obtain ⟨hst, hlines, hcodes, hinl, hsheaf, hheld, hopc⟩ := he
  have hcode : ansCode p.hdr p.sc = OK := by simp [ansCode, hc, hs]
  unfold State.applyAnswer
  extract_lets e part c code load s1 s2 quiet all s3
  obtain ⟨l, hl⟩ : ∃ l, (s2.niOf n).led k = { e with parts := l } := by
    obtain ⟨l, hl⟩ := s.led_partAnswered n k i p.body.length
    refine ⟨l, ?_⟩
    have h2 : s2 = s1.modNi n fun x => x.noteGrant e.part (hSrc p.hdr) (e.arb && !e.injSch) :=
      if_neg (by simp [code, hcode])
    rw [h2, State.niOf_modNi_self, Ni.led_noteGrant]
    exact hl
  have hall : all = [0] := by simp [all, part, e, hp, hq0, hq1]
  have ha : ((s2.niOf n).led k).awaited.contains 0 = true := by simp [hl, LEntry.awaited, e, hlines, hcodes]
  obtain ⟨m, h3⟩ : ∃ m, s3 = s2.lineDone n k 0 OK m load := by
    simp only [s3]
    rw [if_neg (by simp [c, hc]), if_neg (by simp [e, hopc]), if_neg (by simp [c, hc]), hall, show code = OK from hcode]
    exact ⟨_, rfl⟩
  have hled : (s3.niOf n).led k = { e with parts := l, answered := e.answered + 1, codes := [(0, OK)], ok := e.ok + 1 } := by
    rw [h3, s2.led_lineDone_ok ha (by rw [hl]; exact hinl), hl]
    simp [LEntry.take, LEntry.awaited, e, hlines, hcodes]
  have hopen : e.isOpen = true := by simp [LEntry.isOpen, e, hst]
  rw [if_neg (by simpa [e] using hsheaf), if_neg (by rw [show code = OK from hcode]; simpa using fun _ => hf), s3.flushIoc_empty (by rw [hled]; exact hheld)]
  exact s3.finish_one_ok hn (by rw [hled]; exact hopen) (by rw [hled]; exact hlines) (by rw [hled])

/-- A RETRY leaves the entry ISSUED and sets the time of its next sending (R274). -/
theorem State.led_applyRetry (s : State) {n k i : Nat} {p : HPkt} {q : LPart}
    (hq : (((s.niOf n).led k).parts.drop i).head? = some q) :
    (((s.applyRetry n k i p).niOf n).led k).st = ((s.niOf n).led k).st ∧
    (((s.applyRetry n k i p).niOf n).led k).retryAt = some (s.fc + 256) ∧
    { s.applyRetry n k i p with ni := s.ni } = s := by
  unfold State.applyRetry
  simp only [hq, State.niOf_setNi_self, Ni.led_setLed_self, true_and]
  rfl

/-- An error bit of a page leaves the Journal's queue. -/
theorem State.pageErr_jq (s : State) (p : Page) (b : Nat) : (s.pageErr p b).jq = s.jq := by
  have herr (u : State) (p : Page) (b : Nat) : (u.errBit p b).jq = u.jq := by
    unfold State.errBit
    extract_lets a err u1
    have h1 : u1.jq = u.jq := by
      simp only [u1]
      split
      · rfl
      · split <;> rfl
    exact h1
  have hpulse (u : State) (p : Page) : (u.pulse p).jq = u.jq := by
    unfold State.pulse
    extract_lets k last xing u1 a u2
    have h2 : u2.jq = u.jq := by
      simp only [u2]
      split <;> rfl
    split
    · rfl
    · split
      · rfl
      · exact (herr _ _ _).trans h2
  exact (hpulse _ p).trans (herr s p b)

/-- A late answer is journaled with its status and the unmatched flag, and its error bit is set (R446, R450). -/
theorem State.lateAnswer_journals (s : State) (n : Nat) (hdr : BitVec 128) (code : Code) (hj : s.jq.length < 64) :
    ∃ e, (s.lateAnswer n hdr code true).jq = s.jq ++ [e] ∧ e.kind = kLATE ∧ e.where_ = BitVec.ofNat 16 n ∧ e.tag = hTag hdr ∧
      e.tgt = hSrc hdr ∧ bit e.detail 8 = true ∧ e.t = s.stamp ∧ (s.lateAnswer n hdr code true).niOf n = s.niOf n ∧
      (s.lateAnswer n hdr code true).rbit (pageBase (niPage n) + 0x18) 7 = true := by
  have hm := s.niErr_marked n 7
  have hq : (s.niErr n 7).jq = s.jq := s.pageErr_jq _ _
  have hr : (s.niErr n 7).rbit (pageBase (niPage n) + 0x18) 7 = true :=
    s.rbit_pageErr_self _ (by decide) (not_mem_pulseRegs (by simp only [niPage, pageBase]; omega))
  have hbit : bit (BitVec.ofNat 16 (code.toNat + 256)) 8 = true := by
    have := code.isLt
    simp only [bit, BitVec.getLsbD_ofNat, Nat.testBit, Nat.shiftRight_eq_div_pow]
    norm_num
    omega
  unfold State.lateAnswer State.journal
  rw [if_pos (by rwa [hq]), hq]
  refine ⟨_, rfl, rfl, rfl, rfl, rfl, hbit, ?_, hm.niOf n, hr⟩
  rw [State.stamp, State.stamp, hm.time]

/-! The obligation -/

/-- An answer of another class than MGT, or an EH_RSP, to an ISSUED entry with a part that it fits (R443). -/
theorem State.answerArrive_issued {s : State} {n i : Nat} {p : HPkt} {x : Ni} (ht : (s.niOf n).takeIn isAnswer = some (p, x))
    (hc : hCls p.hdr = cMGT → sOpc p.sc = opEH_RSP) (hp : (x.led (tagKey (hTag p.hdr))).partFor p.hdr p.sc = some i)
    (hst : (x.led (tagKey (hTag p.hdr))).st = .issued) :
    s.answerArrive n = if hCls p.hdr = cMGT && ansCode p.hdr p.sc = RETRY then
        (s.setNi n x).applyRetry n (tagKey (hTag p.hdr)) i p
      else (s.setNi n x).applyAnswer n (tagKey (hTag p.hdr)) i p := by
  simp only [State.answerArrive, ht, hp, hst, if_true]
  exact if_neg (by simpa using hc)

/-- An answer that fits no part is late (R446). -/
theorem State.answerArrive_unmatched {s : State} {n : Nat} {p : HPkt} {x : Ni}
    (ht : (s.niOf n).takeIn isAnswer = some (p, x)) (hc : hCls p.hdr ≠ cMGT)
    (hp : (x.led (tagKey (hTag p.hdr))).partFor p.hdr p.sc = none) :
    s.answerArrive n = (s.setNi n x).lateAnswer n p.hdr (ansCode p.hdr p.sc) true := by
  simp only [State.answerArrive, ht, hp]
  exact if_neg (by simpa using fun h => absurd h hc)

/-- Settles O38, by the three things that an answer can be: one that completes a line, a RETRY, or one that fits no part. -/
theorem answersArrive : Obligations.AnswersArrive := by
  have hrun (s : State) (n : Fin 80) (hr : s.runs (niTile n) = true) :
      exec (.answerArrive n) s = .next (s.answerArrive n) := congrArg Host.Outcome.next (if_pos hr)
  refine ⟨?ok, ?retry, ?late, ?none⟩
  case ok =>
    intro s n p x i q hr ht hc hf hs hp hq hq0 hq1 hst hl hcs hi hsh hh ho
    have hled : ((s.setNi n x).niOf n).led (tagKey (hTag p.hdr)) = x.led (tagKey (hTag p.hdr)) := by
      rw [State.niOf_setNi_self]
    have ha : s.answerArrive n = (s.setNi n x).applyAnswer n (tagKey (hTag p.hdr)) i p := by
      rw [State.answerArrive_issued ht (by simp [hc]) hp hst]
      exact if_neg (by simp [hc])
    refine ⟨_, hrun s n hr, ?_⟩
    rw [ha]
    exact State.applyAnswer_ok _ (by omega) hc hf hs (by rw [hled]; exact ⟨hst, hl, hcs, hi, hsh, hh, ho⟩)
      (by rw [hled]; exact hq) hq0 hq1
  case retry =>
    intro s n p x i q hr ht hc ho hs hp hq hst
    have hled : ((s.setNi n x).niOf n).led (tagKey (hTag p.hdr)) = x.led (tagKey (hTag p.hdr)) := by
      rw [State.niOf_setNi_self]
    have ha : s.answerArrive n = (s.setNi n x).applyRetry n (tagKey (hTag p.hdr)) i p := by
      rw [State.answerArrive_issued ht (fun _ => ho) hp hst]
      exact if_pos (by simp [hc, ansCode, hs])
    refine ⟨_, hrun s n hr, ?_⟩
    rw [ha]
    obtain ⟨h1, h2, h3⟩ := (s.setNi n x).led_applyRetry (n := n) (p := p) (by rw [hled]; exact hq)
    exact ⟨by rw [h1, hled, hst], h2, congrArg (fun u : State => { u with ni := s.ni }) h3⟩
  case late =>
    intro s n p x hr ht hc hp hj
    obtain ⟨e, he⟩ := (s.setNi n x).lateAnswer_journals n p.hdr (ansCode p.hdr p.sc) hj
    rw [State.niOf_setNi_self] at he
    refine ⟨_, e, hrun s n hr, ?_⟩
    rw [State.answerArrive_unmatched ht hc hp]
    exact he
  case none =>
    intro s n h
    refine congrArg Host.Outcome.next ?_
    have hn : s.answerArrive n = s := by simp [State.answerArrive, Ni.takeIn, h]
    simp only [State.atTile, hn, ite_self]

end Sys2Proof.Machine
end

section
/-! Fields of headers and sidecars (R29, R42): what a field reads after a header was made, or a field of it replaced. -/

namespace Sys2Proof.Machine

theorem extract_putBits_ne {w : Nat} (x : BitVec w) {hi lo start len : Nat} (v : Nat) (h : start + len ≤ lo ∨ hi < start) :
    (putBits x hi lo v).extractLsb' start len = x.extractLsb' start len := by
  refine BitVec.eq_of_getLsbD_eq fun i hi' => ?_
  simp only [BitVec.getLsbD_extractLsb', hi', decide_true, Bool.true_and]
  by_cases hw : start + i < w
  · rw [putBits_getLsbD _ _ _ _ _ hw, if_neg (by omega)]
  · rw [BitVec.getLsbD_of_ge _ _ (by omega), BitVec.getLsbD_of_ge _ _ (by omega)]

theorem extract_putBits_self {w : Nat} (x : BitVec w) {hi lo len : Nat} (v : BitVec len) (h : hi + 1 = lo + len) (hw : hi < w) :
    (putBits x hi lo v.toNat).extractLsb' lo len = v := by
  refine BitVec.eq_of_getLsbD_eq fun i hi' => ?_
  simp only [BitVec.getLsbD_extractLsb', hi', decide_true, Bool.true_and]
  rw [putBits_getLsbD _ _ _ _ _ (by omega), if_pos (by omega), Nat.add_sub_cancel_left, ← BitVec.getLsbD]

section
variable (cls : BitVec 4) (sch : Bool) (flow tag : BitVec 12) (part : BitVec 9) (src dst : NodeId) (route : BitVec 36) (len : Nat)

/-- A header as the number that its fields make up. -/
theorem mkHdr_toNat : (mkHdr cls sch flow part src dst route tag len).toNat =
    cls.toNat + vnOf cls * 2 ^ 4 + flag sch * 2 ^ 7 + flow.toNat * 2 ^ 8 + part.toNat * 2 ^ 20 + src.toNat * 2 ^ 29 +
      dst.toNat * 2 ^ 39 + route.toNat * 2 ^ 49 + tag.toNat * 2 ^ 89 + len % 8 * 2 ^ 101 ∧ vnOf cls < 8 ∧ flag sch < 2 := by
  have hv : vnOf cls < 8 := by
    unfold vnOf
    split <;> decide
  have hs : flag sch < 2 := by cases sch <;> decide
  refine ⟨?_, hv, hs⟩
  unfold mkHdr
  rw [BitVec.toNat_ofNat]
  omega

@[simp] theorem hCls_mkHdr : hCls (mkHdr cls sch flow part src dst route tag len) = cls := by
  obtain ⟨h, hv, hs⟩ := mkHdr_toNat cls sch flow tag part src dst route len
  refine BitVec.eq_of_toNat_eq ?_
  rw [hCls, BitVec.extractLsb'_toNat, Nat.shiftRight_eq_div_pow, h]
  clear h
  omega

@[simp] theorem hSrc_mkHdr : hSrc (mkHdr cls sch flow part src dst route tag len) = src := by
  obtain ⟨h, hv, hs⟩ := mkHdr_toNat cls sch flow tag part src dst route len
  refine BitVec.eq_of_toNat_eq ?_
  rw [hSrc, BitVec.extractLsb'_toNat, Nat.shiftRight_eq_div_pow, h]
  clear h
  omega

@[simp] theorem hDst_mkHdr : hDst (mkHdr cls sch flow part src dst route tag len) = dst := by
  obtain ⟨h, hv, hs⟩ := mkHdr_toNat cls sch flow tag part src dst route len
  refine BitVec.eq_of_toNat_eq ?_
  rw [hDst, BitVec.extractLsb'_toNat, Nat.shiftRight_eq_div_pow, h]
  clear h
  omega

@[simp] theorem hTag_mkHdr : hTag (mkHdr cls sch flow part src dst route tag len) = tag := by
  obtain ⟨h, hv, hs⟩ := mkHdr_toNat cls sch flow tag part src dst route len
  refine BitVec.eq_of_toNat_eq ?_
  rw [hTag, BitVec.extractLsb'_toNat, Nat.shiftRight_eq_div_pow, h]
  clear h
  omega

end

/-- The status of an NDR as its sender writes it. -/
theorem sStatus_ndr (x : BitVec 128) (code : Code) (load i : Nat) (raddr : BitVec 46) :
    sStatus (trimSc cNDR (setFidx (setRaddr (setLoad (setStatus x code) load) raddr) i)) = code := by
  have hmask (y : BitVec 128) : sStatus (trimSc cNDR y) = sStatus y := by
    refine BitVec.eq_of_getLsbD_eq fun i hi => ?_
    have hd : (BitVec.ofNat 128 (scDefined cNDR)).getLsbD i = true := by
      interval_cases i <;> decide
    simp only [sStatus, trimSc, BitVec.getLsbD_extractLsb', BitVec.getLsbD_and, hi, decide_true, Bool.true_and, Nat.zero_add,
      hd, Bool.and_true]
  rw [hmask, sStatus, setFidx, extract_putBits_ne _ _ (by decide), setRaddr, extract_putBits_ne _ _ (by decide), setLoad,
    extract_putBits_ne _ _ (by decide), setStatus, extract_putBits_self _ _ (by decide) (by decide)]

end Sys2Proof.Machine
end

section
/-! Obligations.AnswersOfUnits (R240, R245, R252): the answers of a unit and the answers built from them. -/

namespace Sys2Proof.Machine

/-! What NI `n` does alone -/

/-- From `s` to `t` no link changes, and of the NIs only NI `n`. -/
structure State.Local (n : Nat) (s t : State) : Prop where
  links : t.links = s.links
  other : ∀ k, k ≠ n → t.niOf k = s.niOf k

namespace State.Local

variable {n : Nat} {s t u : State}

theorem refl (s : State) : Local n s s := ⟨rfl, fun _ _ => rfl⟩

theorem trans (h : Local n s t) (k : Local n t u) : Local n s u :=
  ⟨k.links.trans h.links, fun i hi => (k.other i hi).trans (h.other i hi)⟩

theorem ite {a b : State} {c : Prop} [Decidable c] (ha : Local n s a) (hb : Local n s b) :
    Local n s (if c then a else b) := by split <;> assumption

theorem modNi (f : Ni → Ni) : Local n s (s.modNi n f) := ⟨rfl, fun _ hk => State.niOf_modNi_ne s hk f⟩

theorem setNi (x : Ni) : Local n s (s.setNi n x) := ⟨rfl, fun _ hk => State.niOf_setNi_ne s hk x⟩

theorem of_marked {K : Nat → Prop} (h : Marked K s t) : Local n s t := ⟨h.links, fun k _ => h.niOf k⟩

end State.Local

/-! Answers of the NI -/

/-- The levels of a PNI are recorded in DL_STAT alone (R259). -/
theorem State.loadNow_marked (s : State) (n : Nat) : Marked (· ≠ DL_STAT n) s (s.loadNow n).2 := by
  unfold State.loadNow
  extract_lets own
  split
  · exact .setFld (by simp) _ _ _
  · exact .refl s

theorem State.node_of_marked {K : Nat → Prop} {s t : State} (h : Marked K s t) (hK : K FUSE_STAT) (n : Nat) : t.node n = s.node n := by
  rw [State.node, State.node, State.die, State.die, State.fld_congr (h.rd _ hK)]

theorem fuseStat_ne_dlStat (n : Nat) : FUSE_STAT ≠ DL_STAT n := by simp only [FUSE_STAT, DL_STAT]; omega

/-- An answer of an NI with lookups waits with its answers. -/
theorem State.reply_eq (s : State) {n : Nat} (hn : n < 81) (h : BitVec 128) (cls : BitVec 4) (body : List (BitVec 128 × BitVec 512)) :
    s.reply n h cls body = s.modNi n fun x => { x with answers := x.answers ++ [{
      pkt := { hdr := mkHdr cls false 0 (hPart h) (s.node n) (hSrc h) 0 (hTag h) (body.length - 1),
               body := body.zipIdx.map fun ((x, d), i) => (trimSc cls (setFidx x i), d) }, ord := x.ordN }] } :=
  if_neg (by omega)

/-- What an NDR for the request of header `h` is: it takes the tag of the request back to its source with its status. -/
structure Pkt.NdrFor (p : Pkt) (h : BitVec 128) (me : NodeId) (code : Code) : Prop where
  cls    : hCls p.hdr = cNDR
  tag    : hTag p.hdr = hTag h
  dst    : hDst p.hdr = hSrc h
  src    : hSrc p.hdr = me
  flits  : p.body.length = 1
  status : sStatus (p.body.headD (0, 0)).1 = code

/-- The NDR of an NI with lookups joins its answers; the rest of the NI stays. -/
theorem State.ndrMeta_answers (s : State) {n : Nat} (hn : n < 81) (h sc : BitVec 128) (opc : BitVec 8) (code : Code) (m : Nat) :
    Local n s (s.ndrMeta n h sc opc code m) ∧ ∃ a : AItem, a.pkt.NdrFor h (s.node n) code ∧
      (s.ndrMeta n h sc opc code m).niOf n = { s.niOf n with answers := (s.niOf n).answers ++ [a] } := by
  have hm := s.loadNow_marked n
  unfold State.ndrMeta
  generalize s.loadNow n = r at hm ⊢
  obtain ⟨l, u⟩ := r
  dsimp only at hm ⊢
  rw [State.reply_eq _ hn, State.node_of_marked hm (fuseStat_ne_dlStat n)]
  refine ⟨(Local.of_marked hm).trans (.modNi _), _, ?_, by rw [State.niOf_modNi_self, hm.niOf]⟩
  exact ⟨hCls_mkHdr .., hTag_mkHdr .., hDst_mkHdr .., hSrc_mkHdr .., rfl, sStatus_ndr _ _ _ 0 _⟩

/-! Packets held or under way -/

/-- A packet that is found has the number looked for. -/
theorem Ni.pid_of_pktOf {x : Ni} {pid : Nat} {h : HPkt} (hp : x.pktOf pid = some h) : h.pid = pid := by
  simpa using List.find?_some hp

theorem Ni.pktOf_dropPkt (x : Ni) (pid : Nat) : (x.dropPkt pid).pktOf pid = none := by
  simp only [Ni.pktOf, Ni.dropPkt, List.find?_eq_none, List.mem_append, List.mem_filter, decide_eq_true_eq]
  rintro h (⟨-, h'⟩ | ⟨-, h'⟩) <;> exact h'

/-- A packet after it is changed, its number kept. -/
theorem Ni.pktOf_modPkt {x : Ni} {pid : Nat} {h : HPkt} (hp : x.pktOf pid = some h) {f : HPkt → HPkt} (hf : (f h).pid = h.pid) :
    (x.modPkt pid f).pktOf pid = some (f h) := by
  simp only [Ni.pktOf, Ni.modPkt, ← List.map_append] at hp ⊢
  generalize x.gran ++ x.work = l at hp ⊢
  induction l with
  | nil => simp at hp
  | cons a l ih =>
    by_cases ha : a.pid = pid
    · obtain rfl : a = h := by simpa [ha] using hp
      simp [ha, hf]
    · rw [List.find?_cons_of_neg (by simpa using ha)] at hp
      rw [List.map_cons, if_neg ha, List.find?_cons_of_neg (by simpa using ha)]
      exact ih hp

theorem Ni.ptag_modPkt (x : Ni) (pid t : Nat) (f : HPkt → HPkt) : (x.modPkt pid f).ptag t = x.ptag t := rfl

theorem Ni.ptag_setPtag_self (x : Ni) (t : Nat) (p : Option PTag) : (x.setPtag t p).ptag t = p := Tbl.get_set_self _ _ _ _

/-! An answer of the unit (R245) -/

/-- The packet with the unit's answer to it kept for line `j` (R245, R260). -/
def HPkt.keep (h : HPkt) (j : Nat) (m : Msg) (ord : Nat) : HPkt :=
  { h with ans := h.ans ++ [(j, m.status, answerSc m, m.data)], ansOrd := some (h.ansOrd.getD ord) }

/-- The state once an answer of the unit is kept with its packet. -/
def State.kept (s : State) (n : Nat) (m : Msg) (p : PTag) : State :=
  ((s.credUse n m.cls).takeDevload n m).modNi n fun x =>
    (x.setPtag m.ptag.toNat none).modPkt p.pid fun h => h.keep p.line m x.ordN

/-- An answer with a good status to a request with data is kept, and the packet is answered if it was the last (R245, R252). -/
theorem State.unitAnswer_kept {s : State} {n : Nat} {m : Msg} {p : PTag} {h : HPkt}
    (ht : (s.niOf n).ptag m.ptag.toNat = some p) (hl : p.left = 1) (hp : (s.niOf n).pktOf p.pid = some h)
    (hm : m.status = OK ∨ m.status = POISON ∨ m.status = FAR) (hc : hCls h.hdr = cRWD) :
    s.unitAnswer n m = (s.kept n m p).tryAnswer n p.pid := by
  have hid := Ni.pid_of_pktOf hp
  have hx : (((s.credUse n m.cls).niOf n).ptag m.ptag.toNat).bind (fun p => (((s.credUse n m.cls).niOf n).pktOf p.pid).map
      fun h => (p, h)) = some (p, h) := by
    have ht' : ((s.niOf n).useCredit m.cls).ptag m.ptag.toNat = some p := ht
    have hp' : ((s.niOf n).useCredit m.cls).pktOf p.pid = some h := hp
    rw [State.credUse, State.niOf_modNi_self, ht', Option.bind_some, hp', Option.map_some]
  have hg : (decide (m.status = OK) || decide (m.status = POISON) || decide (m.status = FAR)) = true := by
    simpa [or_assoc] using hm
  simp only [State.unitAnswer, hx, hl, hg, hc, hid, State.kept, HPkt.keep]
  rfl

/-- The DevLoad of an answer changes the level of the NI's engine and DL_STAT alone (R257, R259). -/
theorem State.takeDevload_leaves (s : State) (n : Nat) (m : Msg) : Local n s (s.takeDevload n m) ∧
    (∃ d, (s.takeDevload n m).niOf n = { s.niOf n with devD := d }) ∧ (s.takeDevload n m).node n = s.node n := by
  unfold State.takeDevload
  split
  · exact ⟨.refl s, ⟨_, rfl⟩, rfl⟩
  · have hm (u : State) (v : Nat) : Marked (· ≠ DL_STAT n) u (u.setFld (DL_STAT n) 17 16 v) := .setFld (by simp) _ _ _
    refine ⟨(Local.modNi _).trans (.of_marked (hm _ _)), ⟨_, ((hm _ _).niOf n).trans (State.niOf_modNi_self _ _ _)⟩, ?_⟩
    exact State.node_of_marked (hm _ _) (fuseStat_ne_dlStat n) n

/-- Keeping the answer frees the PTAG, uses a credit and changes the packet; the other NIs stay. -/
theorem State.kept_leaves {s : State} {n : Nat} {m : Msg} {p : PTag} {h : HPkt} (hp : (s.niOf n).pktOf p.pid = some h) :
    Local n s (s.kept n m p) ∧ (s.kept n m p).node n = s.node n ∧ ((s.kept n m p).niOf n).ptag m.ptag.toNat = none ∧
    ((s.kept n m p).niOf n).pktOf p.pid = some (h.keep p.line m (s.niOf n).ordN) ∧
    ((s.kept n m p).niOf n).inCredit m.cls = (s.niOf n).inCredit m.cls - 1 ∧
    ((s.kept n m p).niOf n).answers = (s.niOf n).answers := by
  obtain ⟨hloc, ⟨d, hd⟩, hnode⟩ := (s.credUse n m.cls).takeDevload_leaves n m
  have hx : (s.credUse n m.cls).niOf n = (s.niOf n).useCredit m.cls := State.niOf_modNi_self _ _ _
  have hk : (s.kept n m p).niOf n = ({ (s.niOf n).useCredit m.cls with devD := d }.setPtag m.ptag.toNat none).modPkt p.pid
      fun h => h.keep p.line m (s.niOf n).ordN := by
    rw [State.kept, State.niOf_modNi_self, hd, hx]
    rfl
  refine ⟨((Local.modNi _).trans hloc).trans (.modNi _), hnode, ?_, ?_, ?_, ?_⟩
  · rw [hk, Ni.ptag_modPkt, Ni.ptag_setPtag_self]
  · rw [hk]
    exact Ni.pktOf_modPkt (x := ({ (s.niOf n).useCredit m.cls with devD := d } : Ni).setPtag m.ptag.toNat none) hp rfl
  · rw [hk]
    exact Tbl.get_set_self _ _ _ _
  · rw [hk]
    rfl

/-! The NDR of a write (R252) -/

theorem State.tryAnswer_waits {s : State} {n pid : Nat} {h : HPkt} (hp : (s.niOf n).pktOf pid = some h)
    (hw : h.offered < h.lines ∨ h.ans.length < h.needed) : s.tryAnswer n pid = s := by
  simp only [State.tryAnswer, hp]
  exact if_neg (by simp only [Bool.and_eq_true, decide_eq_true_eq]; omega)

theorem State.tryAnswer_ends {s : State} {n pid : Nat} {h : HPkt} (hp : (s.niOf n).pktOf pid = some h)
    (ho : h.lines ≤ h.offered) (ha : h.needed ≤ h.ans.length) : s.tryAnswer n pid = s.answerPkt n h := by
  simp only [State.tryAnswer, hp]
  exact if_pos (by simp [ho, ha])

/-- A write that its taking does not end is answered by an NDR. -/
theorem State.answerPkt_write (s : State) (n : Nat) {h : HPkt} (hc : hCls h.hdr = cRWD) (he : h.endsTaken = false)
    (hn : noCompletion cRWD (sOpc h.sc) = false) :
    s.answerPkt n h = (s.modNi n fun x => (x.dropPkt h.pid).freePtags h.pid).answerNdr n h (sOpc (h.lineAns 0).2.1) := by
  simp only [State.answerPkt, he, hc, hn]
  rfl

/-- A packet of one line with a good outcome, not cut, has an NDR with that outcome. -/
theorem State.answerNdr_one (s : State) (n : Nat) {h : HPkt} (hl : h.lines = 1) (hp : (h.lineAns 0).1 ≠ PARTIAL)
    (hv : h.verdict ≠ PARTIAL) (opc : BitVec 8) :
    ∃ k, s.answerNdr n h opc = s.ndrMeta n h.hdr h.sc opc (h.lineAns 0).1 k := by
  unfold State.answerNdr
  extract_lets outs common good code s1
  have houts : outs = [(0, (h.lineAns 0).1)] := by simp [outs, hl]
  have hcommon : common = (h.lineAns 0).1 := by simp [common, houts, commonCode]
  have h1 : s1 = s := by
    simp only [s1]
    split
    · exact if_neg (by rwa [hcommon])
    · rfl
  have hcode : code = (h.lineAns 0).1 := (if_neg hv).trans hcommon
  rw [h1, hcode]
  exact ⟨_, rfl⟩

/-- Such a write leaves the NI, and its NDR joins the NI's answers. -/
theorem State.answerPkt_ndr (s : State) {n : Nat} (hn : n < 81) {h : HPkt} (hc : hCls h.hdr = cRWD) (he : h.endsTaken = false)
    (hnc : noCompletion cRWD (sOpc h.sc) = false) (hl : h.lines = 1) (hp : (h.lineAns 0).1 ≠ PARTIAL)
    (hv : h.verdict ≠ PARTIAL) :
    Local n s (s.answerPkt n h) ∧ ∃ a : AItem, a.pkt.NdrFor h.hdr (s.node n) (h.lineAns 0).1 ∧
      ((s.answerPkt n h).niOf n).answers = (s.niOf n).answers ++ [a] ∧ ((s.answerPkt n h).niOf n).pktOf h.pid = none ∧
      ((s.answerPkt n h).niOf n).inCred = (s.niOf n).inCred := by
  rw [s.answerPkt_write n hc he hnc]
  obtain ⟨k, hk⟩ := (s.modNi n fun x => (x.dropPkt h.pid).freePtags h.pid).answerNdr_one n hl hp hv (sOpc (h.lineAns 0).2.1)
  obtain ⟨hloc, a, ha, hx⟩ := (s.modNi n fun x => (x.dropPkt h.pid).freePtags h.pid).ndrMeta_answers hn h.hdr h.sc
    (sOpc (h.lineAns 0).2.1) (h.lineAns 0).1 k
  rw [hk]
  rw [State.niOf_modNi_self] at hx
  exact ⟨(Local.modNi _).trans hloc, a, ha, congrArg Ni.answers hx, (congrArg (Ni.pktOf · h.pid) hx).trans
    ((s.niOf n).pktOf_dropPkt h.pid), (congrArg Ni.inCred hx :)⟩

/-! The obligation -/

/-- An answer message of CXL.mem or CXL.io that the NI takes (R239, R241). -/
theorem State.inbound_answer {s : State} {n : Nat} {m : Msg} (hu : s.unitUp n = true) (hr : s.runs (niTile n) = true)
    (ht : s.takesNow n m = true) (hh : s.handshake n m = []) (hc : chanRequest m.cls = false) (hf : m.cls ≠ 0xF)
    (ha : s.answerRefused m = false) : s.inbound n m = s.unitAnswer n m := by
  simpa [State.inbound, State.iTake, hu, hr, ht, hh, hc, ha] using fun h => absurd h hf

/-- Settles O44. The answer is kept with its packet; the packet waits on, or its NDR joins the NI's answers. -/
theorem answersOfUnits : Obligations.AnswersOfUnits := by
  refine ⟨?good, ?stray⟩
  case good =>
    intro s n m p h hu hr ht hh hc hf ha hpt hl hp hm hcls
    have hexec : exec (.inboundAnswerMessage n m) s = .next ((s.kept n m p).tryAnswer n p.pid) :=
      congrArg Host.Outcome.next ((State.inbound_answer hu hr ht hh hc hf ha).trans (State.unitAnswer_kept hpt hl hp hm hcls))
    obtain ⟨hloc, hnode, hptag, hpkt, hcred, hans⟩ := s.kept_leaves (m := m) hp
    refine ⟨fun hw => ?waits, fun hb ho hno hline he hnc hv => ?ends⟩
    case waits =>
      have htry : (s.kept n m p).tryAnswer n p.pid = s.kept n m p := by
        refine State.tryAnswer_waits hpkt ?_
        rcases hw with hw | hw
        · exact .inl hw
        · exact .inr (by rw [HPkt.keep, List.length_append]; exact hw)
      rw [htry] at hexec
      exact ⟨_, hexec, hptag, hpkt, hcred, hans, hloc.other⟩
    case ends =>
      have hlines : h.lines = 1 := by simp [HPkt.lines, hcls, hb]
      have hsilent : h.silent = false := by rw [HPkt.silent, he, hcls, hnc]; rfl
      have hneeded : h.needed = 1 := by simp [HPkt.needed, hsilent, hcls, hlines]
      have hout : ((h.keep p.line m (s.niOf n).ordN).lineAns 0).1 = m.status := by
        simp [HPkt.lineAns, HPkt.keep, hno, hline]
      have hmp : m.status ≠ PARTIAL := by rcases hm with hm | hm | hm <;> rw [hm] <;> decide
      have htry := State.tryAnswer_ends hpkt (Nat.le_of_eq (hlines.trans ho.symm))
        (by rw [HPkt.keep, hno]; exact Nat.le_of_eq hneeded)
      obtain ⟨hloc', a, ⟨h1, h2, h3, h4, h5, h6⟩, hans', hpkt', hcred'⟩ := (s.kept n m p).answerPkt_ndr (n := n) (by omega)
        (h := h.keep p.line m (s.niOf n).ordN) hcls he hnc hlines (by rwa [hout]) hv
      rw [htry] at hexec
      exact ⟨_, a, hexec, hans'.trans (congrArg (· ++ [a]) hans), h1, h2, h3, h4.trans hnode, h5, h6.trans hout,
        Ni.pid_of_pktOf hp ▸ hpkt', (congrArg (Tbl.get _ · _) hcred').trans hcred, (hloc.trans hloc').other⟩
  case stray =>
    intro s n m hu hr ht hh hc hf ha hpt
    refine congrArg Host.Outcome.next ((State.inbound_answer hu hr ht hh hc hf ha).trans ?_)
    have hx : ((s.credUse n m.cls).niOf n).ptag m.ptag.toNat = none := by
      rw [State.credUse, State.niOf_modNi_self]
      exact hpt
    simp only [State.unitAnswer, hx]
    rfl

end Sys2Proof.Machine
end

section
/-! What an NI does to end a request or to answer one changes no link and no other NI (R39, R254, R323, R503). -/

namespace Sys2Proof.Machine

section
variable (s : State) {n : Nat}

/-- A change that leaves the links and the NIs. -/
theorem State.Local.same {s t : State} (hl : t.links = s.links := by rfl) (hn : t.ni = s.ni := by rfl) : Local n s t :=
  ⟨hl, fun k _ => congrArg (Tbl.get _ · k) hn⟩

theorem State.Local.countN {s t : State} (h : Local n s t) (hn : n < 87) (code add : Nat) (hit : Nat → Bool) :
    Local n s (t.countN n code add hit) := h.trans (.of_marked (State.countN_marked _ hn _ _ _))

theorem State.Local.journal {s t : State} (h : Local n s t) (e : JEntry) : Local n s (t.journal e) :=
  h.trans (.of_marked (State.journal_marked _ _))

theorem State.lookMarks_marked (c : Nat) (f : Found) : Marked noReg s (s.lookMarks c f) := by
  unfold State.lookMarks
  extract_lets s1
  have h1 : Marked noReg s s1 := .ite (.refl s) (s.pageErr_marked _ _)
  refine h1.trans (.foldl _ (fun u i => ?_) _)
  exact (u.pageErr_marked _ _).trans (Marked.trans .same (.ite .same (State.pageErr_marked _ _ _)))

theorem State.lookCount_marked (hn : n < 87) (f : Found) : Marked noReg s (s.lookCount n f) :=
  (((s.lookMarks_marked _ f).trans (Marked.trans .same (State.countG_marked _ _ _ _).all)).trans
    (State.countN_marked _ hn _ _ _).all).trans (State.countN_marked _ hn _ _ _).all

theorem State.rtFail_local (code : Code) (idx : Option Nat) : Local n s (s.rtFail n code idx) := by
  unfold State.rtFail
  extract_lets a s1
  have h1 : Local n s s1 := by
    simp only [s1]
    split
    · exact .refl s
    · split <;> exact .same
  exact h1.trans (.of_marked ((Marked.setBit id 31).trans (State.niErr_marked _ _ _)))

theorem State.sprayed_local (vn : Nat) (f : Found) : Local n s (s.sprayed n vn f) := by
  unfold State.sprayed
  split
  · exact .modNi _
  · exact .refl s

theorem State.ehFill_local (a : AItem) : Local n s (s.ehFill a).1 := by
  unfold State.ehFill
  split
  · exact .refl s
  · exact .same

theorem State.routeAnswer_local (hn : n < 87) : Local n s (s.routeAnswer n) := by
  unfold State.routeAnswer
  split
  · exact .refl s
  · rename_i a ha
    extract_lets h f s1 code s2
    have h1 : Local n s s1 := .of_marked (s.lookCount_marked hn f)
    have h2 : Local n s s2 := (h1.trans (s1.rtFail_local code f.idx)).countN hn _ _ _
    exact .ite (((h2.trans (s2.ehFill_local a)).trans (.modNi _)).journal _)
      ((h1.trans (s1.sprayed_local _ f)).trans (.modNi _))

theorem State.reply_local (hn : n < 87) (h : BitVec 128) (cls : BitVec 4) (body : List (BitVec 128 × BitVec 512)) :
    Local n s (s.reply n h cls body) :=
  .ite ((Local.modNi _).trans (State.routeAnswer_local _ hn)) (.modNi _)

theorem State.ndr_local (hn : n < 87) (h sc : BitVec 128) (opc : BitVec 8) (code : Code) : Local n s (s.ndr n h sc opc code) := by
  have hm := s.loadNow_marked n
  unfold State.ndr State.ndrMeta
  generalize s.loadNow n = r at hm ⊢
  obtain ⟨l, u⟩ := r
  exact (Local.of_marked hm).trans (u.reply_local hn _ _ _)

theorem State.endReply_local (hn : n < 87) (h sc : BitVec 128) (code : Code) : Local n s (s.endReply n h sc code) :=
  .ite (s.ndr_local hn _ _ _ _) (.ite (s.reply_local hn _ _ _) (.ite (s.reply_local hn _ _ _) (s.ndr_local hn _ _ _ _)))

theorem State.targetJ_local (h : BitVec 128) (code : Code) (addr split done hi : Nat) :
    Local n s (s.targetJ n h code addr split done hi) := (Local.refl s).journal _

theorem State.closedAt_local (hn : n < 87) (h sc : BitVec 128) (code : Code) (jnl : Bool) :
    Local n s (s.closedAt n h sc code jnl) :=
  .ite (s.targetJ_local _ _ _ _ _ _)
    ((Local.ite (s.targetJ_local _ _ _ _ _ _) (.refl s)).trans (State.endReply_local _ hn _ _ _))

theorem State.refuseAt_local (hn : n < 87) (h sc : BitVec 128) (code : Code) (jnl : Bool) :
    Local n s (s.refuseAt n h sc code jnl) := by
  unfold State.refuseAt
  extract_lets s1 s2
  have h1 : Local n s s1 := .ite (s.targetJ_local _ _ _ _ _ _) (.refl s)
  have h2 : Local n s s2 := .ite ((h1.countN hn _ _ _).trans .same) h1
  exact h2.trans (State.endReply_local _ hn _ _ _)

theorem State.skwRefuse_local (hn : n < 87) (h sc : BitVec 128) : Local n s (s.skwRefuse n h sc) :=
  .ite ((Local.refl s).journal _) (s.endReply_local hn _ _ _)

theorem State.endRefused_local (hn : n < 87) (h sc : BitVec 128) (code : Code) : Local n s (s.endRefused n h sc code) :=
  .ite (s.closedAt_local hn _ _ _ _) (s.refuseAt_local hn _ _ _ _)

theorem State.refused_local (hn : n < 87) (p : HPkt) (code : Code) : Local n s (s.refused n p code).1 := by
  unfold State.refused
  split
  · exact .refl s
  · exact s.endRefused_local hn _ _ _

theorem State.ruleNote_marked (tgt : Bool) (v : Verdict) : Marked noReg s (s.ruleNote n tgt v) := by
  unfold State.ruleNote
  extract_lets a s1
  have h1 : Marked noReg s s1 :=
    .ite (.refl s) ((((Marked.setFld id _ _ _).trans (.setFld id _ _ _)).trans (.setFld id _ _ _)).trans (.setFld id _ _ _))
  exact .ite (.refl s) ((h1.trans ((Marked.satFld id _ _ _).trans (.setBit id _))).trans (State.niErr_marked _ _ _))

theorem State.targetCheck_local (hn : n < 87) (a : Asm) : Local n s (s.targetCheck n a).1 := by
  unfold State.targetCheck
  extract_lets h sc pkt idr known pbr s1
  have h1 : Local n s s1 := .ite .same (.refl s)
  split
  · exact s.refused_local hn _ _
  · split
    · exact h1
    · extract_lets v s2 lines s3
      have h2 : Local n s s2 := (h1.trans (.of_marked (s1.ruleNote_marked true v))).countN hn _ _ _
      split
      · exact h2
      · split
        · exact h2.journal _
        · exact h2.trans (s2.refused_local hn _ _)

theorem State.completePkt_local (hn : n < 87) (a : Asm) : Local n s (s.completePkt n a).1 := by
  unfold State.completePkt
  extract_lets sc
  split
  · split
    · exact s.closedAt_local hn _ _ _ _
    · split
      · exact .refl s
      · exact s.skwRefuse_local hn _ _
  · split
    · exact .refl s
    · have hc := s.targetCheck_local hn a
      generalize s.targetCheck n a = r at hc ⊢
      obtain ⟨u, p⟩ := r
      cases p <;> exact hc

end

end Sys2Proof.Machine
end

section
/-! Obligations.FlitsReachTheirNi (R51, R112, R321, R502): a flit that begins and ends a packet, and the flits that leave
a VC. -/

namespace Sys2Proof.Machine

/-! What the checks of an arriving packet read -/

section
variable {s t : State}

theorem State.partCode_congr (h : BitVec 128) (hr : ∀ a, offTally a → t.rd a = s.rd a) : t.partCode h = s.partCode h := by
  have hp := (hPart h).isLt
  have ha : offTally (PART_STAT (hPart h).toNat) := by simp only [offTally, PART_STAT]; omega
  simp only [State.partCode, State.partState, State.fld_congr (hr _ ha)]

theorem State.rdFc_congr {a : Nat} (hw : t.notes.was = s.notes.was) (hf : t.fc = s.fc) (hr : t.rd a = s.rd a) :
    t.rdFc a = s.rdFc a := by
  have hn : t.newFc a = s.newFc a := by simp only [State.newFc, hw, hf]
  simp only [State.rdFc, hn, hw, hr]

theorem State.ruleDflt_congr (a : Access) (hw : t.notes.was = s.notes.was) (hf : t.fc = s.fc)
    (hr : ∀ a, offTally a → t.rd a = s.rd a) : t.ruleDflt a = s.ruleDflt a := by
  simp only [State.ruleDflt, State.rdFc_congr hw hf (hr RULE_DFLT ⟨by decide, by decide⟩)]

theorem State.shadowRules_congr {n : Nat} (hn : n < 87) (hw : t.notes.was = s.notes.was) (hx : t.notes.ruleWas = s.notes.ruleWas)
    (hf : t.fc = s.fc) (hu : t.rules = s.rules) (hs : (t.niOf n).shadow = (s.niOf n).shadow)
    (hr : ∀ a, offTally a → t.rd a = s.rd a) : t.shadowRules n true = s.shadowRules n true := by
  have ha : offTally (RULE_TGT n) := by simp only [offTally, RULE_TGT]; omega
  have hfc (i : Nat) : t.ruleFc i = s.ruleFc i := by simp only [State.ruleFc, hx, hf, hu]
  simp only [State.shadowRules, State.ruleRange, if_true, State.rdFc_congr hw hf (hr _ ha), hs, hfc]

theorem State.pbrOf_congr (h : BitVec 128) (hl : ∀ k, (t.niOf k).ledger = (s.niOf k).ledger)
    (hr : t.rd FUSE_STAT = s.rd FUSE_STAT) : t.pbrOf h = s.pbrOf h := by
  have hd : t.die = s.die := State.fld_congr hr 2 0
  have he (k i : Nat) : (t.niOf k).led i = (s.niOf k).led i := congrArg (Tbl.get _ · i) (hl k)
  rw [State.pbrOf, State.pbrOf, hd, he]

theorem State.skwOpen_congr {p : Nat} (hp : p < 6) (hk : t.skw = s.skw) (hr : ∀ a, offTally a → t.rd a = s.rd a) :
    t.skwOpen p = s.skwOpen p := by
  have ha : offTally (SKW_STAT p) := by simp only [offTally, SKW_STAT]; omega
  have hs : t.skwState p = s.skwState p := State.fld_congr (hr _ ha) 2 0
  have hx : t.skwOf p = s.skwOf p := congrArg (Tbl.get _ · p) hk
  rw [State.skwOpen, State.skwOpen, hs, hx]

end

/-- What arrives is counted and shown to the probes; a flit that no check finds wrong sets no error bit (R379, R381). -/
theorem State.ejectMarks_clean (s : State) {n : Nat} (hn : n < 87) (f : Flit) :
    Marked offTally s (s.ejectMarks n f 0 false false) := by
  have hc (u : State) (c : Prop) [Decidable c] (code : Nat) (hit : Nat → Bool) :
      Marked offTally u (if c then u.countN n code 1 hit else u) := .ite (u.countN_marked hn _ _ _) (.refl u)
  unfold State.ejectMarks
  extract_lets p s1 s2 s3 s4 s5 s6
  have h1 : Marked offTally s s1 := (s.countN_marked hn _ _ _).trans (State.countN_marked _ hn _ _ _)
  have h3 : Marked offTally s s3 := (h1.trans (hc s1 _ _ _)).trans (hc s2 _ _ _)
  have h6 : s6 = s3 := rfl
  rw [h6]
  exact h3.trans (State.probes_marked _ _ _ _ _ _)

/-! Packets on a VC -/

@[simp] theorem Ni.vcAsm_setVcAsm_self (x : Ni) (vc : Nat) (l : List Asm) : (x.setVcAsm vc l).vcAsm vc = l := by
  unfold Ni.setVcAsm Ni.vcAsm
  split
  · rfl
  · exact Tbl.get_set_self _ _ _ _

theorem Ni.setVcAsm_keeps (x : Ni) (vc : Nat) (l : List Asm) : (x.setVcAsm vc l).admFc = x.admFc ∧
    (x.setVcAsm vc l).gran = x.gran ∧ (x.setVcAsm vc l).answersIn = x.answersIn ∧ (x.setVcAsm vc l).pidN = x.pidN := by
  unfold Ni.setVcAsm
  split <;> exact ⟨rfl, rfl, rfl, rfl⟩

/-! A packet of one flit -/

/-- From `s` to `t` what the checks of a whole packet read beside its own rules stays: the Ledgers, the free values, the
ports and the registers off Tally. -/
structure State.Checks (s t : State) : Prop where
  ledger : ∀ k, (t.niOf k).ledger = (s.niOf k).ledger
  draws  : t.draws = s.draws
  skw    : t.skw = s.skw
  rd     : ∀ a, offTally a → t.rd a = s.rd a

theorem State.Checks.trans {s t u : State} (h : State.Checks s t) (k : State.Checks t u) : State.Checks s u where
  ledger i := (k.ledger i).trans (h.ledger i)
  draws := k.draws.trans h.draws
  skw := k.skw.trans h.skw
  rd a ha := (k.rd a ha).trans (h.rd a ha)

theorem State.Checks.of_marked {s t : State} (h : Marked offTally s t) : State.Checks s t :=
  ⟨fun k => congrArg Ni.ledger (h.niOf k), h.draws, h.skw, h.rd⟩

theorem State.Checks.setNi {s : State} {n : Nat} {x : Ni} (hx : x.ledger = (s.niOf n).ledger) : State.Checks s (s.setNi n x) := by
  refine ⟨fun k => ?_, rfl, rfl, fun _ _ => rfl⟩
  by_cases h : k = n
  · subst h
    rwa [State.niOf_setNi_self]
  · rw [State.niOf_setNi_ne s h]

theorem State.Checks.modNi {s : State} {n : Nat} {f : Ni → Ni} (hf : (f (s.niOf n)).ledger = (s.niOf n).ledger) :
    State.Checks s (s.modNi n f) := .setNi hf

theorem State.readShadow_leaves (s : State) {n : Nat} (hn : n < 87) (tgt : Bool) :
    Local n s (s.readShadow n tgt) ∧ State.Checks s (s.readShadow n tgt) := by
  unfold State.readShadow
  have hm := s.countN_marked hn 0x2B (s.ruleFixes n tgt) unfiltered
  exact ⟨(Local.of_marked hm).trans (.modNi _), (State.Checks.of_marked hm).trans (.modNi rfl)⟩

/-- The packet on a VC that flit `f` is all of, at NI `n`, before it is checked: its check takes the partition's state and
the rules as `s` has them. -/
structure Asm.Lone (a : Asm) (s : State) (n : Nat) (f : Flit) : Prop where
  hdr     : a.hdr = f.hdr
  body    : a.body = [(f.sc, f.data)]
  moved   : a.moved = 0
  discard : a.discard = false
  pkt     : a.pkt = none
  free    : (81 ≤ n ∨ roomless n f.hdr f.sc = true) → a.code = OK
  code    : n < 81 → roomless n f.hdr f.sc = false → a.code = s.partCode f.hdr
  rules   : n < 81 → roomless n f.hdr f.sc = false → a.rules = s.shadowRules n true
  dflt    : a.dflt = ((accessOf (hCls f.hdr) [(f.sc, 0)] 0).map s.ruleDflt).getD false

/-- A packet that begins at NI `n` takes its part of the state (R321, R338). -/
theorem State.beginPkt_leaves {s : State} {n : Nat} (hn : n < 87) (vc : Nat) (h sc : BitVec 128) :
    Local n s (s.beginPkt n vc h sc).1 ∧ State.Checks s (s.beginPkt n vc h sc).1 := by
  unfold State.beginPkt
  extract_lets x transit free acc granted code a x1 x2
  have hx : x2.ledger = (s.niOf n).ledger := by
    simp only [x2, x1]
    split <;> split <;> rfl
  have hset : Local n s (s.setNi n x2) ∧ State.Checks s (s.setNi n x2) := ⟨.setNi _, .setNi hx⟩
  clear_value x2
  split
  · exact hset
  · obtain ⟨hl, hc⟩ := (s.setNi n x2).readShadow_leaves hn true
    exact ⟨hset.1.trans hl, hset.2.trans hc⟩

section
variable (s : State) (n vc : Nat) (h sc : BitVec 128)

theorem State.code_beginPkt : (s.beginPkt n vc h sc).2.code = if decide (81 ≤ n) || roomless n h sc then OK else s.partCode h := rfl

theorem State.rules_beginPkt :
    (s.beginPkt n vc h sc).2.rules = if decide (81 ≤ n) || roomless n h sc then [] else s.shadowRules n true := rfl

theorem State.dflt_beginPkt :
    (s.beginPkt n vc h sc).2.dflt = ((accessOf (hCls h) [(sc, 0)] 0).map s.ruleDflt).getD false := rfl

end

/-- A packet that flit `f` begins, with the flit, the fc and the order of its arrival. -/
def State.lonePkt (s : State) (n vc : Nat) (f : Flit) : Asm :=
  { (s.beginPkt n vc f.hdr f.sc).2 with
    fc := (s.beginPkt n vc f.hdr f.sc).1.fc, ord := ((s.beginPkt n vc f.hdr f.sc).1.niOf n).nextAsm, body := [(f.sc, f.data)] }

theorem State.lonePkt_lone (s : State) (n vc : Nat) (f : Flit) : (s.lonePkt n vc f).Lone s n f where
  hdr := rfl
  body := rfl
  moved := rfl
  discard := rfl
  pkt := rfl
  free h := (s.code_beginPkt n vc f.hdr f.sc).trans (if_pos (by simpa using h))
  code h h' := (s.code_beginPkt n vc f.hdr f.sc).trans (if_neg (by simp [h', Nat.not_le.mpr h]))
  rules h h' := (s.rules_beginPkt n vc f.hdr f.sc).trans (if_neg (by simp [h', Nat.not_le.mpr h]))
  dflt := s.dflt_beginPkt n vc f.hdr f.sc

/-- A packet is the lone one by another state too, if that has the same partitions, rules and default map. -/
theorem Asm.Lone.congr {a : Asm} {s t : State} {n : Nat} {f : Flit} (h : a.Lone t n f) (hp : t.partCode f.hdr = s.partCode f.hdr)
    (hr : t.shadowRules n true = s.shadowRules n true) (hd : ∀ x, t.ruleDflt x = s.ruleDflt x) : a.Lone s n f :=
  { h with
    code := fun h1 h2 => (h.code h1 h2).trans hp
    rules := fun h1 h2 => (h.rules h1 h2).trans hr
    dflt := by rw [h.dflt, funext hd] }

/-- A flit that is the whole of its packet on a dynamic VC: the packet is checked and waits there. -/
theorem State.joinFlit_whole (s : State) {n vc : Nat} {a : Asm} {f : Flit} (hv : vc ≠ bypVc) (hb : a.body = [])
    (hl : hLen a.hdr = 0) :
    s.joinFlit n vc a [] f = (s.completePkt n { a with body := [(f.sc, f.data)] }).1.modNi n fun x =>
      x.setVcAsm vc [(s.completePkt n { a with body := [(f.sc, f.data)] }).2] := by
  have hf : ({ a with body := [(f.sc, f.data)] } : Asm).full = true := by simp [Asm.full, hl]
  simp only [State.joinFlit, hb, List.nil_append, hf, if_neg hv]
  rfl

/-- A flit that no check finds wrong, alone in its packet, is checked at once and waits on its VC (R51, R502). -/
theorem State.newFlit_lone {s : State} {n : Nat} (hn : n < 87) {y : Fly} (hv : y.vc < 16) {f : Flit}
    (hasm : (s.niOf n).vcAsm y.vc = []) (hf : sFidx f.sc = 0) (hl : hLen f.hdr = 0) (hb : s.badArrival n f.hdr f.sc = false) :
    ∃ u a, Local n s u ∧ State.Checks s u ∧ a.Lone s n f ∧
      s.newFlit n y f [] [] = (u.completePkt n a).1.modNi n fun x => x.setVcAsm y.vc [(u.completePkt n a).2] := by
  have hbyp : y.vc ≠ bypVc := by simp only [bypVc]; omega
  obtain ⟨u, hu⟩ : ∃ u, u = (s.modNi n fun x => x.setDisc (discKey y.vc f.hdr) 0).ejectMarks n f 0 false false := ⟨_, rfl⟩
  have hm : Marked offTally (s.modNi n fun x => x.setDisc (discKey y.vc f.hdr) 0) u := hu ▸ State.ejectMarks_clean _ hn f
  have h1 : Local n s u := (Local.modNi _).trans (.of_marked hm)
  have hc1 : State.Checks s u := (State.Checks.modNi rfl).trans (.of_marked hm)
  have hx : u.niOf n = (s.niOf n).setDisc (discKey y.vc f.hdr) 0 := (hm.niOf n).trans (State.niOf_modNi_self _ _ _)
  have hothers : (u.niOf n).vcAsm y.vc = [] := by rw [hx]; exact hasm
  have hnew : s.newFlit n y f [] [] = (u.beginPkt n y.vc f.hdr f.sc).1.joinFlit n y.vc
      { (u.beginPkt n y.vc f.hdr f.sc).2 with fc := (u.beginPkt n y.vc f.hdr f.sc).1.fc,
                                              ord := ((u.beginPkt n y.vc f.hdr f.sc).1.niOf n).nextAsm } [] f := by
    unfold State.newFlit
    extract_lets vc key d bad s1 s2 s3 g s4 s5 others s6
    have h5 : s5 = u := hu.symm
    have ho : others = [] := by simp only [others, h5]; exact hothers
    rw [if_neg (by simp), if_neg (by simp [hf]), if_neg (by simp [hb]), if_neg (by simp [vc, hbyp]),
      if_neg (by simp [vc, hbyp]), ho, h5]
    rfl
  obtain ⟨h2, hc2⟩ := u.beginPkt_leaves hn y.vc f.hdr f.sc
  refine ⟨(u.beginPkt n y.vc f.hdr f.sc).1, u.lonePkt n y.vc f, h1.trans h2, hc1.trans hc2,
    (u.lonePkt_lone n y.vc f).congr (State.partCode_congr _ hc1.rd) ?_ fun x => ?_,
    hnew.trans (State.joinFlit_whole _ hbyp rfl hl)⟩
  · exact State.shadowRules_congr hn hm.was hm.ruleWas hm.fc hm.rules (congrArg Ni.shadow hx :) hc1.rd
  · exact State.ruleDflt_congr x hm.was hm.fc hc1.rd

/-! A complete packet -/

section
variable {s : State} {n : Nat} {a : Asm}

/-- A packet that is complete has the flits it came with. -/
theorem State.completePkt_flits (s : State) (n : Nat) (a : Asm) : (s.completePkt n a).2.hdr = a.hdr ∧
    (s.completePkt n a).2.body = a.body ∧ (s.completePkt n a).2.moved = a.moved := by
  unfold State.completePkt
  extract_lets sc
  split
  · split
    · exact ⟨rfl, rfl, rfl⟩
    · split <;> exact ⟨rfl, rfl, rfl⟩
  · split
    · exact ⟨rfl, rfl, rfl⟩
    · generalize s.targetCheck n a = r
      obtain ⟨u, p⟩ := r
      cases p <;> exact ⟨rfl, rfl, rfl⟩

/-- A packet towards the peer at a port that takes packets. -/
theorem State.completePkt_peer (hn : 81 ≤ n) (hc : a.code = OK) (ho : s.skwOpen (n - 81) = true) :
    s.completePkt n a = (s, { a with pkt := some { hdr := a.hdr, body := a.body, total := a.body.length } }) := by
  simp only [State.completePkt, if_pos hn, hc, ho, ne_eq, not_true_eq_false, if_false, if_true]

/-- An answer to a request of the NI, and what else needs no room. -/
theorem State.completePkt_roomless (hn : n < 81) (hr : roomless n a.hdr (a.body.headD (0, 0)).1 = true) :
    s.completePkt n a = (s, a) := by
  simp only [State.completePkt, if_neg (Nat.not_le.mpr hn), hr, if_true]

/-- A request that its check leaves a packet to hold. -/
theorem State.completePkt_holds (hn : n < 81) (hr : roomless n a.hdr (a.body.headD (0, 0)).1 = false) {p : HPkt}
    (hp : (s.targetCheck n a).2 = some p) : (s.completePkt n a).2 = { a with pkt := some p } := by
  generalize hq : s.targetCheck n a = q at hp
  obtain ⟨u, o⟩ := q
  dsimp only at hp
  simp only [State.completePkt, if_neg (Nat.not_le.mpr hn), hr, hq, hp, Bool.false_eq_true, if_false]

/-- A request that its check ends. -/
theorem State.completePkt_ends (hn : n < 81) (hr : roomless n a.hdr (a.body.headD (0, 0)).1 = false)
    (hp : (s.targetCheck n a).2 = none) : (s.completePkt n a).2 = a.ended := by
  generalize hq : s.targetCheck n a = q at hp
  obtain ⟨u, o⟩ := q
  dsimp only at hp
  simp only [State.completePkt, if_neg (Nat.not_le.mpr hn), hr, hq, hp, Bool.false_eq_true, if_false]

/-- The PBR ID of a packet's check (R65, R319). -/
def State.checkPbr (s : State) (h sc : BitVec 128) : Nat :=
  if (hCls h = cIOP || hCls h = cION) && !tlpAddrRouted (sOpc sc) then (s.pbrOf h).getD (s.freeNow.toNat % 4096) else 0

/-- A request whose partition is open, and which the rules permit where they apply, is held whole (R322, R323). -/
theorem State.targetCheck_permits (hc : a.code = OK)
    (hv : ∀ acc, accessOf (hCls a.hdr) a.body (s.checkPbr a.hdr (a.body.headD (0, 0)).1) = some acc →
      (verdictOf (decideByte a.rules (privileged (hSrc a.hdr) && a.dflt) acc false (hPart a.hdr) (hSrc a.hdr)) acc).code = OK) :
    ∃ p, (s.targetCheck n a).2 = some p ∧ p.hdr = a.hdr ∧ p.body = a.body ∧ p.verdict = OK := by
  unfold State.targetCheck
  extract_lets h sc pkt idr known pbr s1
  rw [if_neg (by simp [hc])]
  split
  · exact ⟨_, rfl, rfl, rfl, rfl⟩
  · next acc hacc =>
    extract_lets v s2 lines s3
    rw [if_pos (hv acc hacc)]
    exact ⟨_, rfl, rfl, rfl, rfl⟩

/-- A request that step 1 of R502 refuses is ended where the NI has a unit (R338). -/
theorem State.targetCheck_closed (hn : n < 80) (hc : a.code ≠ OK) : (s.targetCheck n a).2 = none := by
  unfold State.targetCheck
  extract_lets h sc pkt idr known pbr s1
  have hl : n ≠ lniN := by simp only [lniN]; omega
  rw [if_pos hc, State.refused, if_neg (by simp [hl])]

/-- At the LNI one that takes an answer keeps its place, with its code (R269). -/
theorem State.targetCheck_lni (hc : a.code ≠ OK) :
    if a.code = FENCED ∧ postedPkt a.hdr (a.body.headD (0, 0)).1 = true then (s.targetCheck 80 a).2 = none
    else ∃ p, (s.targetCheck 80 a).2 = some p ∧ p.hdr = a.hdr ∧ p.body = a.body ∧ p.verdict = a.code := by
  unfold State.targetCheck
  extract_lets h sc pkt idr known pbr s1
  rw [if_pos hc, State.refused]
  have hp : postedPkt pkt.hdr pkt.sc = postedPkt a.hdr (a.body.headD (0, 0)).1 := rfl
  split
  · next hf =>
    rw [if_neg (by rw [hp, hf.1, hf.2]; decide)]
  · next hf =>
    rw [if_pos (by simpa only [hp, lniN, decide_true, Bool.true_and, Bool.not_eq_true', ← Bool.not_eq_true, Bool.and_eq_true,
      decide_eq_true_eq] using hf)]
    exact ⟨_, rfl, rfl, rfl, rfl⟩

end

/-! A flit that arrives -/

/-- A flit that is due leaves its link and is taken, corrected (R51). -/
theorem State.ejectArrive_due {s : State} {n : Nat} {err : FlitErr} {y : Fly} {rest : List Fly} {f : Flit}
    (hl : s.linkOf (linkNi n) = y :: rest) (hd : y.due ≤ s.fc) (hr : s.runs (niTile n) = true) (hv : y.vc < 16)
    (hf : fixFlit (strike y.flit err) = (f, [], [])) (ha : (s.niOf n).vcAsm y.vc = []) :
    s.ejectArrive n err = (s.setLink (linkNi n) rest).newFlit n y f [] [] := by
  have hb : y.vc ≠ bypVc := by simp only [bypVc]; omega
  have ha' : ((s.setLink (linkNi n) rest).niOf n).vcAsm y.vc = [] := ha
  simp only [State.ejectArrive, hl, hf, hr, if_neg hb, State.ejectFlit, ha', List.find?_nil]
  exact if_neg (by simp [hd])

theorem State.ejectArrive_notDue {s : State} {n : Nat} (err : FlitErr)
    (h : ∀ y, (s.linkOf (linkNi n)).head? = some y → s.fc < y.due) : s.ejectArrive n err = s := by
  unfold State.ejectArrive
  split
  · rfl
  · next y rest hl => exact if_pos (by simp [h y (by rw [hl]; rfl)])

/-! The flits of a VC (R112) -/

theorem State.ejCredit_ni (s : State) (n vc : Nat) : (s.ejCredit n vc).ni = s.ni := by
  unfold State.ejCredit
  split <;> rfl

theorem State.ejCredit_local (s : State) (n vc : Nat) : Local n s (s.ejCredit n vc) := by
  unfold State.ejCredit
  split
  · exact .refl s
  · exact .same

/-- Room for a whole packet is asked for once, and only by a request that is not ended (R112). -/
def Asm.asksRoom (a : Asm) (n : Nat) : Bool :=
  !roomless n a.hdr (a.body.headD (0, 0)).1 && (decide (a.code = OK) || decide (n = lniN)) && !a.discard

/-- The packet with one more flit out of its VC. -/
def Asm.move (a : Asm) (n : Nat) : Asm := { a with admitted := a.asksRoom n || a.admitted, moved := a.moved + 1 }

/-- The state in which the flit has left and its credit is on its way (R103, R112). -/
def State.flitLeft (s : State) (n vc : Nat) : State := (s.modNi n fun x => { x with admFc := s.fc + 1 }).ejCredit n vc

theorem State.flitLeft_local (s : State) (n vc : Nat) : Local n s (s.flitLeft n vc) :=
  (Local.modNi _).trans (State.ejCredit_local _ n vc)

theorem State.niOf_flitLeft (s : State) (n vc : Nat) : (s.flitLeft n vc).niOf n = { s.niOf n with admFc := s.fc + 1 } :=
  (congrArg (Tbl.get _ · n) (State.ejCredit_ni _ n vc)).trans (State.niOf_modNi_self _ _ _)

/-- With room, and no earlier packet of its stream on another VC, the first packet on a VC gives up a flit (R112). -/
theorem State.granAdmit_moves {s : State} {n vc : Nat} {a : Asm} {rest : List Asm} (hr : s.runs (niTile n) = true)
    (hf : (s.niOf n).admFc ≠ s.fc + 1) (ha : (s.niOf n).vcAsm vc = a :: rest)
    (hroom : a.asksRoom n = false ∨ a.admitted = true ∨ (s.niOf n).granUsed (granKey a.hdr (sOpc (a.body.headD (0, 0)).1)) +
      (s.niOf n).reserved (granKey a.hdr (sOpc (a.body.headD (0, 0)).1)) + hLen a.hdr + 1 ≤
      s.granLimit n (granKey a.hdr (sOpc (a.body.headD (0, 0)).1)))
    (hm : a.moved < a.body.length)
    (hp : 0 < a.moved ∨ passes a.hdr (((s.niOf n).asm.flatMap fun l => l.2.filter fun b => b.vc ≠ vc && b.ord < a.ord).map (·.hdr)) = false) :
    s.granAdmit n vc = if a.full && a.moved + 1 = a.body.length then
        ((s.flitLeft n vc).modNi n fun x => x.setVcAsm vc rest).settle n (a.move n)
      else (s.flitLeft n vc).modNi n fun x => x.setVcAsm vc (a.move n :: rest) := by
  unfold State.granAdmit
  extract_lets x
  rw [if_neg (by simp [x, hr, hf])]
  simp only [x, ha]
  rw [if_neg ?room, if_neg ?passes, if_neg (by omega)]
  · rfl
  case room =>
    change ¬ (a.asksRoom n && !a.admitted && decide (_ < _)) = true
    rcases hroom with h | h | h
    · simp [h]
    · simp [h]
    · simp only [Bool.and_eq_true, decide_eq_true_eq]
      omega
  case passes =>
    rcases hp with h | h
    · simp [h.ne']
    · simp only [h, Bool.and_false, Bool.false_eq_true, not_false_eq_true]

/-- Without room it stays, and its waiting is counted at most (R112, R379). -/
theorem State.granAdmit_full {s : State} {n vc : Nat} {a : Asm} {rest : List Asm} (ha : (s.niOf n).vcAsm vc = a :: rest)
    (hadm : a.admitted = false) (hask : a.asksRoom n = true)
    (hl : s.granLimit n (granKey a.hdr (sOpc (a.body.headD (0, 0)).1)) <
      (s.niOf n).granUsed (granKey a.hdr (sOpc (a.body.headD (0, 0)).1)) +
      (s.niOf n).reserved (granKey a.hdr (sOpc (a.body.headD (0, 0)).1)) + hLen a.hdr + 1) :
    s.granAdmit n vc = s ∨ s.granAdmit n vc = s.countOnce n 0x36 := by
  unfold State.granAdmit
  extract_lets x
  split
  · exact .inl rfl
  · simp only [x, ha]
    refine .inr (if_pos ?_)
    change (a.asksRoom n && !a.admitted && decide (_ < _)) = true
    simp only [hask, hadm, hl, decide_true, Bool.not_false, Bool.and_self]

theorem State.granAdmit_empty {s : State} {n vc : Nat} (h : (s.niOf n).vcAsm vc = []) : s.granAdmit n vc = s := by
  simp only [State.granAdmit, h, ite_self]

/-! A packet that has left its VC -/

section
variable (s : State) {n : Nat} {a : Asm}

theorem State.settle_local : Local n s (s.settle n a) := by
  unfold State.settle
  split
  · exact .refl s
  · split <;> exact .modNi _

/-- Neither the packets that still wait nor the fc of the last flit change. -/
theorem State.settle_vcAsm (vc : Nat) : ((s.settle n a).niOf n).vcAsm vc = (s.niOf n).vcAsm vc ∧
    ((s.settle n a).niOf n).admFc = (s.niOf n).admFc := by
  unfold State.settle
  split
  · exact ⟨rfl, rfl⟩
  · have hmod (f : Ni → Ni) (h1 : ∀ x, (f x).vcAsm vc = x.vcAsm vc) (h2 : ∀ x, (f x).admFc = x.admFc) :
        ((s.modNi n f).niOf n).vcAsm vc = (s.niOf n).vcAsm vc ∧ ((s.modNi n f).niOf n).admFc = (s.niOf n).admFc := by
      rw [State.niOf_modNi_self]
      exact ⟨h1 _, h2 _⟩
    split <;> exact hmod _ (fun _ => rfl) (fun _ => rfl)

theorem State.settle_discard (h : a.discard = true) : s.settle n a = s := if_pos h

theorem State.settle_pkt (h : a.discard = false) {p : HPkt} (hp : a.pkt = some p) :
    ((s.settle n a).niOf n).gran = (s.niOf n).gran ++ [{ p with pid := (s.niOf n).pidN + 1 }] := by
  simp only [State.settle, h, hp, State.holdPkt, Bool.false_eq_true, if_false, State.niOf_modNi_self]

theorem State.settle_answer (h : a.discard = false) (hp : a.pkt = none) :
    ((s.settle n a).niOf n).answersIn = (s.niOf n).answersIn ++ [{ hdr := a.hdr, body := a.body, total := a.body.length }] := by
  simp only [State.settle, h, hp, Bool.false_eq_true, if_false, State.niOf_modNi_self, Ni.toAnswers]

end

/-! The obligation -/

/-- What waits on the VC when flit `f`, a whole packet, has been checked at NI `n` (R51, R502). -/
structure Asm.Waits (a : Asm) (s : State) (n : Nat) (f : Flit) : Prop where
  hdr   : a.hdr = f.hdr
  body  : a.body = [(f.sc, f.data)]
  moved : a.moved = 0
  free  : roomless n f.hdr f.sc = true → a.pkt = none ∧ a.discard = false
  held  : roomless n f.hdr f.sc = false → n < 81 → s.partCode f.hdr = OK →
    (∀ acc, accessOf (hCls f.hdr) [(f.sc, f.data)] (s.checkPbr f.hdr f.sc) = some acc →
      (verdictOf (decideByte (s.shadowRules n true)
        (privileged (hSrc f.hdr) && ((accessOf (hCls f.hdr) [(f.sc, 0)] 0).map s.ruleDflt).getD false) acc false
        (hPart f.hdr) (hSrc f.hdr)) acc).code = OK) →
    ∃ p, a.pkt = some p ∧ p.hdr = f.hdr ∧ p.body = [(f.sc, f.data)] ∧ p.verdict = OK
  ended : roomless n f.hdr f.sc = false → n < 80 → s.partCode f.hdr ≠ OK → a.pkt = none ∧ a.discard = true
  lni   : roomless n f.hdr f.sc = false → n = 80 → s.partCode f.hdr ≠ OK →
    if s.partCode f.hdr = FENCED ∧ postedPkt f.hdr f.sc = true then a.pkt = none ∧ a.discard = true
    else ∃ p, a.pkt = some p ∧ p.hdr = f.hdr ∧ p.body = [(f.sc, f.data)] ∧ p.verdict = s.partCode f.hdr
  peer  : 81 ≤ n → s.skwOpen (n - 81) = true → ∃ p, a.pkt = some p ∧ p.hdr = f.hdr ∧ p.body = [(f.sc, f.data)]

/-- The lone packet, checked in a state whose Ledgers, free values and ports are those of `s`. -/
theorem Asm.Lone.waits {a : Asm} {s u : State} {n : Nat} {f : Flit} (hn : n < 87) (h : a.Lone s n f) (hc : State.Checks s u) :
    (u.completePkt n a).2.Waits s n f := by
  obtain ⟨hhdr, hbody, hmoved, hdisc, hpkt, hfree, hcode, hrules, hdflt⟩ := h
  obtain ⟨kh, kb, km⟩ := u.completePkt_flits n a
  have hsc : (a.body.headD (0, 0)).1 = f.sc := by rw [hbody]; rfl
  refine ⟨kh.trans hhdr, kb.trans hbody, km.trans hmoved, fun hr => ?_, fun hr h81 hp hv => ?_, fun hr h80 hp => ?_,
    fun hr h80 hp => ?_, fun h81 ho => ?_⟩
  · have h81 : n < 81 := by simp only [roomless, Bool.and_eq_true, decide_eq_true_eq] at hr; exact hr.1
    rw [State.completePkt_roomless h81 (by rwa [hhdr, hsc])]
    exact ⟨hpkt, hdisc⟩
  · have hpbr : u.checkPbr a.hdr (a.body.headD (0, 0)).1 = s.checkPbr f.hdr f.sc := by
      rw [State.checkPbr, State.checkPbr, hhdr, hsc, State.pbrOf_congr _ hc.ledger (hc.rd _ ⟨by decide, by decide⟩),
        State.freeNow, State.freeNow, hc.draws]
    obtain ⟨p, hp1, hp2, hp3, hp4⟩ := State.targetCheck_permits (s := u) (n := n) ((hcode h81 hr).trans hp) (a := a) (by
      rw [hpbr, hhdr, hbody, hrules h81 hr, hdflt]
      exact hv)
    rw [State.completePkt_holds h81 (by rwa [hhdr, hsc]) hp1]
    exact ⟨p, rfl, hp2.trans hhdr, hp3.trans hbody, hp4⟩
  · have hce : a.code ≠ OK := by rwa [hcode (by omega) hr]
    rw [State.completePkt_ends (by omega) (by rwa [hhdr, hsc]) (State.targetCheck_closed h80 hce)]
    exact ⟨rfl, rfl⟩
  · subst h80
    have hl := State.targetCheck_lni (s := u) (a := a) (by rwa [hcode (by omega) hr])
    rw [hcode (by omega) hr, hhdr, hsc] at hl
    split
    · next hf =>
      rw [if_pos hf] at hl
      rw [State.completePkt_ends (by omega) (by rwa [hhdr, hsc]) hl]
      exact ⟨rfl, rfl⟩
    · next hf =>
      rw [if_neg hf] at hl
      obtain ⟨p, hp1, hp2, hp3, hp4⟩ := hl
      rw [State.completePkt_holds (by omega) (by rwa [hhdr, hsc]) hp1]
      exact ⟨p, rfl, hp2, hp3.trans hbody, hp4⟩
  · rw [State.completePkt_peer h81 (hfree (.inl h81)) (by rwa [State.skwOpen_congr (by omega) hc.skw hc.rd])]
    exact ⟨_, rfl, hhdr, hbody⟩

/-- Settles O49. A flit that is a whole packet is checked at once (`Asm.Lone.waits`); the first packet on a VC moves by one
flit (`State.granAdmit_moves`), and with its last one is settled. -/
theorem flitsReachTheirNi : Obligations.FlitsReachTheirNi := by
  refine ⟨?arrive, ?notDue, ?moves, ?full, ?empty⟩
  case arrive =>
    intro s n err y rest f hl hd hr hv hf ha hi hlen hb hring
    have hn := n.isLt
    obtain ⟨u, a, hloc, hc, hlone, hnew⟩ := State.newFlit_lone (s := s.setLink (linkNi n) rest) hn hv ha hi hlen hb
    have hw : (u.completePkt n a).2.Waits (s.setLink (linkNi n) rest) n f := hlone.waits hn hc
    obtain ⟨w1, w2, w3, w4, w5, w6, w7, w8⟩ := hw
    have hl' := hloc.trans ((u.completePkt_local hn a).trans
      (.modNi fun x => x.setVcAsm y.vc [(u.completePkt n a).2]))
    refine ⟨_, congrArg Host.Outcome.next ((State.ejectArrive_due hl hd hr hv hf ha).trans hnew), ?_,
      ⟨(u.completePkt n a).2, ?_, w1, w2, w3, w4, w5, w6, w7, w8⟩, hl'.other⟩
    · exact (congrArg (Tbl.get _ · _) hl'.links).trans (State.linkOf_setLink_self _ _ _)
    · rw [State.niOf_modNi_self, Ni.vcAsm_setVcAsm_self]
  case notDue =>
    intro s n err h
    exact congrArg Host.Outcome.next (State.ejectArrive_notDue err h)
  case moves =>
    intro s n vc a rest room hr hf ha hroom hadm hm hp
    subst hroom
    have hexec : exec (.granaryAdmit n vc) s = .next _ :=
      congrArg Host.Outcome.next (State.granAdmit_moves hr hf ha hadm hm hp)
    have hx := s.niOf_flitLeft n vc
    by_cases hlast : a.full = true ∧ a.moved + 1 = a.body.length
    · rw [if_pos (by simpa using hlast)] at hexec
      obtain ⟨u, hu⟩ : ∃ u, u = (s.flitLeft n vc).modNi n fun x => x.setVcAsm vc rest := ⟨_, rfl⟩
      have hun : u.niOf n = ({ s.niOf n with admFc := s.fc + 1 } : Ni).setVcAsm vc rest := by
        rw [hu, State.niOf_modNi_self, hx]
      have hloc : State.Local n s u := hu ▸ (s.flitLeft_local n vc).trans (.modNi _)
      rw [← hu] at hexec
      obtain ⟨kadm, kgran, kans, kpid⟩ := ({ s.niOf n with admFc := s.fc + 1 } : Ni).setVcAsm_keeps vc rest
      rw [← hun] at kadm kgran kans kpid
      obtain ⟨hvc, hadm'⟩ := u.settle_vcAsm (n := n) (a := a.move n) vc
      refine ⟨_, hexec, hadm'.trans kadm, fun _ _ => ⟨?_, fun h => ?_, fun p h hp => ?_, fun h hp => ?_⟩, fun h => ?_,
        (hloc.trans (u.settle_local)).other⟩
      · rw [hvc, hun, Ni.vcAsm_setVcAsm_self]
      · rw [u.settle_discard (a := a.move n) h]
        exact ⟨kgran, kans⟩
      · rw [u.settle_pkt (a := a.move n) h hp, kgran, kpid]
      · rw [u.settle_answer (a := a.move n) h hp, kans]
        rfl
      · rw [hlast.1, hlast.2] at h
        exact absurd h (by simp)
    · rw [if_neg (by simpa using hlast)] at hexec
      obtain ⟨kadm, kgran, -, -⟩ := ({ s.niOf n with admFc := s.fc + 1 } : Ni).setVcAsm_keeps vc (a.move n :: rest)
      refine ⟨_, hexec, ?_, fun hf hl => absurd ⟨hf, hl⟩ hlast, fun _ => ⟨?_, ?_⟩,
        ((s.flitLeft_local n vc).trans (.modNi _)).other⟩
      all_goals rw [State.niOf_modNi_self, hx]
      · exact kadm
      · exact Ni.vcAsm_setVcAsm_self _ _ _
      · exact kgran
  case full =>
    intro s n vc a rest ha hadm hr hc hd hl
    have hask : a.asksRoom n = true := by simp only [Asm.asksRoom, hr, hc, hd]; rfl
    obtain h | h := State.granAdmit_full ha hadm hask hl
    · exact ⟨s, congrArg Host.Outcome.next h, rfl, rfl⟩
    · have hm := s.countOnce_marked n.isLt 0x36
      exact ⟨_, congrArg Host.Outcome.next h, hm.ni, hm.creds⟩
  case empty =>
    intro s n vc h
    exact congrArg Host.Outcome.next (State.granAdmit_empty h)

end Sys2Proof.Machine
end

section
/-! What an NI's injection of one fc works on (R102, R188): tables written with what they hold, flits that leave, packets that
start and packets under way. -/

namespace Sys2Proof.Machine

/-! A table written with what it holds -/

section
variable {α : Type} (d : Nat → α)

theorem Tbl.get_of_lacks {k : Nat} {t : Tbl α} (h : Tbl.lacks k t) : Tbl.get d t k = d k := by
  induction t with
  | nil => rfl
  | cons x t ih =>
    obtain ⟨a, v⟩ := x
    exact (if_neg (h _ List.mem_cons_self)).trans (ih fun y hy => h y (List.mem_cons_of_mem _ hy))

theorem Tbl.erase_of_lacks {k : Nat} {t : Tbl α} (h : Tbl.lacks k t) : Tbl.erase k t = t := by
  induction t with
  | nil => rfl
  | cons x t ih =>
    obtain ⟨a, v⟩ := x
    exact (if_neg (h _ List.mem_cons_self)).trans (congrArg _ (ih fun y hy => h y (List.mem_cons_of_mem _ hy)))

variable [DecidableEq α]

theorem Tbl.lacks_of_above {k : Nat} {t : Tbl α} {b : Nat} (h : Tbl.wfFrom d (some b) t = true) (hk : k ≤ b) : Tbl.lacks k t := by
  induction t generalizing b with
  | nil => exact fun x hx => nomatch hx
  | cons x t ih =>
    obtain ⟨a, v⟩ := x
    obtain ⟨ha, -, ht⟩ := (Tbl.wfFrom_cons d _ _ _ _).mp h
    have hab : b < a := ha b rfl
    intro y hy
    obtain rfl | hy := List.mem_cons.mp hy
    · exact fun h => by simp only at h; omega
    · exact ih ht (by omega) y hy

theorem Tbl.insert_of_above {k : Nat} {t : Tbl α} (h : Tbl.wfFrom d (some k) t = true) (v : α) : Tbl.insert k v t = (k, v) :: t := by
  cases t with
  | nil => rfl
  | cons x t =>
    obtain ⟨a, w⟩ := x
    obtain ⟨ha, -, -⟩ := (Tbl.wfFrom_cons d _ _ _ _).mp h
    exact if_pos (ha k rfl)

/-- A table in canonical form stays when a key is written with what it holds. -/
theorem Tbl.set_get_from {k : Nat} {t : Tbl α} {b : Option Nat} (h : Tbl.wfFrom d b t = true) :
    Tbl.set d k (Tbl.get d t k) t = t := by
  induction t generalizing b with
  | nil => exact if_pos rfl
  | cons x t ih =>
    obtain ⟨a, v⟩ := x
    obtain ⟨-, hv, ht⟩ := (Tbl.wfFrom_cons d _ _ _ _).mp h
    by_cases hak : a = k
    · subst hak
      have hl := Tbl.lacks_of_above d ht (Nat.le_refl a)
      simp only [Tbl.set, Tbl.get, Tbl.erase, if_true, if_neg hv, Tbl.erase_of_lacks hl, Tbl.insert_of_above d ht]
    · specialize ih ht
      simp only [Tbl.set, Tbl.get, Tbl.erase, if_neg hak] at ih ⊢
      by_cases hd : Tbl.get d t k = d k
      · rw [if_pos hd] at ih ⊢
        rw [ih]
      · rw [if_neg hd] at ih ⊢
        have hka : ¬ k < a := fun hlt => hd (Tbl.get_of_lacks d (Tbl.lacks_of_above d ht (Nat.le_of_lt hlt)))
        rw [Tbl.insert, if_neg hka, ih]

end

theorem State.setNi_niOf {s : State} (h : s.Sound) (n : Nat) : s.setNi n (s.niOf n) = s :=
  congrArg (fun t : Tbl Ni => { s with ni := t }) (Tbl.set_get_from _ h.ni)

/-! An NI that may send -/

namespace State.MaySend

variable {s : State} {n : Nat}

theorem takeCredits (h : s.MaySend n) : s.takeCredits n = s := by
  refine Eq.trans ?_ (State.setNi_niOf h.sound n)
  simp only [State.takeCredits, State.modNi, h.cred, List.filter_nil, List.foldl_nil]
  exact congrArg (s.setNi n) (by rw [← h.cred])

theorem releases (h : s.MaySend n) : s.releases n = s := by
  have hf (l : List HoldRec) (hl : ∀ r ∈ l, r.granted = false) : l.foldl (fun s r =>
      if r.granted && s.arbListed n r.node && !s.requesting n r then
        (s.control n opARB_REL r.part r.node r.lastTag).modNi n fun x =>
          { x with holds := modFirst (· = r) (fun r => { r with granted := false, relTag := some r.lastTag }) x.holds }
      else s) s = s := by
    induction l with
    | nil => rfl
    | cons r l ih =>
      rw [List.foldl_cons, if_neg (by simp [hl r List.mem_cons_self])]
      exact ih fun r hr => hl r (List.mem_cons_of_mem _ hr)
  exact hf _ h.holds

theorem schedInject (h : s.MaySend n) : s.schedInject n = s := by
  have hm : s.injMarks n = s := by simp only [State.injMarks, h.bank]
  simp only [State.schedInject, hm, h.sched, h.bank, ite_self]

theorem kniSchedInject (h : s.MaySend n) (hn : 81 ≤ n) : s.kniSchedInject (n - 81) = s := by
  have hk : kniOf (n - 81) = n := by simp only [kniOf]; omega
  have hm : s.injMarks n = s := by simp only [State.injMarks, h.bank]
  have hi (f : Nat) : s.injHere n f = false := by simp only [State.injHere, h.bank, Option.any_none]
  have hf (l : List SkSched) : l.find? (fun _ => false) = none := List.find?_eq_none.mpr fun _ _ => Bool.false_ne_true
  simp only [State.kniSchedInject, hk, hm, h.peer hn, hi, Bool.and_false, hf, ite_self]

/-- What it sends in this fc is a dynamic flit (R188). -/
theorem exec_inject (h : s.MaySend n) {n' : Fin 87} (hn : n'.val = n) :
    exec (.injectPacket n') s = .next (if 81 ≤ n then s.kniDyn n else s.dynInject n) := by
  subst hn
  refine congrArg Host.Outcome.next ?_
  unfold State.inject
  rw [if_neg (by simp [h.runs, h.free])]
  simp only [h.takeCredits, h.releases]
  have hs : (if 81 ≤ n'.val then s.kniSchedInject (n' - 81) else s.schedInject n') = s := by
    split
    · next h81 => exact h.kniSchedInject h81
    · exact h.schedInject
  rw [hs, if_neg h.free]

end State.MaySend

/-! A flit leaves -/

/-- An NI that has sent flit `f` on VC `vc` (R102, R103, R162). -/
def Ni.sent (x : Ni) (vc : Nat) (f : Flit) (fc : Nat) : Ni :=
  { x with attCred := Tbl.upd (fun _ => 4) vc (· - 1) x.attCred,
           attBusy := Tbl.set (fun _ => false) vc (!decide (sFidx f.sc = hLen f.hdr)) x.attBusy, sentFc := fc + 1 }

/-- A flit that leaves is on the link to the router; of the NI its last fc changes. -/
theorem State.niSend_sends (s : State) {n : Nat} (hn : n < 87) (vc : Nat) (f : Flit) :
    (s.niSend n vc f).niOf n = { s.niOf n with sentFc := s.fc + 1 } ∧ (s.niSend n vc f).fc = s.fc ∧
    ∃ y, (s.niSend n vc f).linkOf (linkIn (Config.niRouter n) (Config.niPort n)) =
      s.linkOf (linkIn (Config.niRouter n) (Config.niPort n)) ++ [y] ∧ y.flit = f ∧ y.vc = vc ∧ y.due = s.fc + 1 := by
  unfold State.niSend
  extract_lets k l s1 s2 p s3 s4
  have hm : Marked offTally s2 (s4.probes true n 0 false f) :=
    ((s2.countN_marked hn _ _ _).trans (.ite (State.countN_marked _ hn _ _ _) (.refl _))).trans (State.probes_marked _ _ _ _ _ _)
  have h2 : s2.niOf n = { s1.niOf n with sentFc := s1.fc + 1 } := State.niOf_modNi_self s1 n _
  exact ⟨(hm.niOf n).trans h2, hm.fc, _, (hm.linkOf l).trans (State.linkOf_setLink_self s l _), rfl, rfl, rfl⟩

/-- A dynamic flit that leaves changes of the NI its credits too. -/
theorem State.dynSend_sends (s : State) {n : Nat} (hn : n < 87) (vc : Nat) (f : Flit) :
    (s.dynSend n vc f).niOf n = (s.niOf n).sent vc f s.fc ∧ (s.dynSend n vc f).fc = s.fc ∧
    ∃ y, (s.dynSend n vc f).linkOf (linkIn (Config.niRouter n) (Config.niPort n)) =
      s.linkOf (linkIn (Config.niRouter n) (Config.niPort n)) ++ [y] ∧ y.flit = f ∧ y.vc = vc ∧ y.due = s.fc + 1 := by
  unfold State.dynSend
  extract_lets last u
  have hu := State.niOf_modNi_self s n fun x => { x with
    attCred := Tbl.upd (fun _ => 4) vc (· - 1) x.attCred, attBusy := Tbl.set (fun _ => false) vc (!decide last) x.attBusy }
  obtain ⟨hx, hfc, y, hy⟩ := u.niSend_sends hn vc f
  exact ⟨hx.trans (congrArg (fun x : Ni => { x with sentFc := s.fc + 1 }) hu), hfc, y, hy⟩

theorem Ni.attCredits_sent (x : Ni) (vc : Nat) (f : Flit) (fc : Nat) : (x.sent vc f fc).attCredits vc = x.attCredits vc - 1 :=
  Tbl.get_set_self _ _ _ _

/-- What a flit is charged to (R184, R191, R336) are counts of the frame, and registers. -/
theorem State.charge_leaves (s : State) (n j : Nat) : (s.charge n j).fc = s.fc ∧ (s.charge n j).links = s.links ∧
    ∃ a b, (s.charge n j).niOf n = { s.niOf n with thrUsed := a, shUsed := b } := by
  unfold State.charge
  split
  · exact ⟨rfl, rfl, _, _, rfl⟩
  · exact ⟨rfl, rfl, _, _, State.niOf_modNi_self _ _ _⟩

theorem State.poolCredit_leaves (s : State) (n : Nat) (i : Option Nat) : (s.poolCredit n i).ni = s.ni ∧
    (s.poolCredit n i).links = s.links := by
  unfold State.poolCredit
  split
  · split <;> exact ⟨rfl, rfl⟩
  · exact ⟨rfl, rfl⟩

/-- A flit sent in a state with the clock and the link of `s` has left `s` (R162). -/
theorem State.dynSend_left {s u : State} {n : Nat} (hn : n < 87) (hfc : u.fc = s.fc) (hl : u.links = s.links) (vc : Nat) (f : Flit) :
    s.Left (u.dynSend n vc f) n vc f := by
  obtain ⟨hx, -, y, hy, h1, h2, h3⟩ := u.dynSend_sends hn vc f
  refine ⟨(congrArg Ni.sentFc hx).trans (congrArg (· + 1) hfc), y, ?_, h1, h2, h3.trans (congrArg (· + 1) hfc)⟩
  exact hy.trans (congrArg (· ++ [y]) (congrArg (Tbl.get _ · _) hl))

/-- A flit that has left stays so while its link and the NI's last fc stay. -/
theorem State.Left.mono {s t u : State} {n vc : Nat} {f : Flit} (h : s.Left t n vc f) (hx : (u.niOf n).sentFc = (t.niOf n).sentFc)
    (hl : u.links = t.links) : s.Left u n vc f := by
  obtain ⟨hs, y, hy, h1⟩ := h
  exact ⟨hx.trans hs, y, (congrArg (Tbl.get _ · _) hl).trans hy, h1⟩

/-- What the start of a packet leaves of its NI: the queues, the answers and the Ledger. -/
structure Ni.Starts (x y : Ni) (h : BitVec 128) : Prop where
  queues  : y.queues = x.queues
  answers : y.answers = x.answers
  ledger  : y.ledger = x.ledger
  seq     : y.nextSeq h = x.nextSeq h + 1

theorem Ni.Starts.mono {x y z : Ni} {h : BitVec 128} (hs : x.Starts y h) (hq : z.queues = y.queues) (ha : z.answers = y.answers)
    (hl : z.ledger = y.ledger) (hst : z.stream = y.stream) : x.Starts z h :=
  ⟨hq.trans hs.queues, ha.trans hs.answers, hl.trans hs.ledger, (congrArg (Tbl.get _ · _) hst).trans hs.seq⟩

/-- The next sequence number of a packet's stream is taken (R45). -/
theorem State.takeSeq_starts (s : State) (n : Nat) (h : BitVec 128) : (s.takeSeq n (hDst h) (hVn h)).1 = (s.niOf n).nextSeq h ∧
    (s.niOf n).Starts ((s.takeSeq n (hDst h) (hVn h)).2.niOf n) h := by
  refine ⟨rfl, ?_⟩
  unfold State.takeSeq
  simp only [State.niOf_modNi_self]
  exact ⟨rfl, rfl, rfl, Tbl.get_set_self _ _ _ _⟩

/-- A packet starts: its first flit leaves, and its stream takes the next sequence number (R43, R45). -/
theorem State.startPkt_sends {s u : State} {n : Nat} (hn : n < 87) (hfc : u.fc = s.fc) (hl : u.links = s.links) (vc : Nat) (q : Option Nat)
    {p : Pkt} {f : Flit} {rest : List Flit}
    (hf : ({ p with hdr := setSeq p.hdr ((u.niOf n).nextSeq p.hdr) } : Pkt).flits = f :: rest) :
    s.Left (u.startPkt n vc q p) n vc f ∧ (u.niOf n).Starts ((u.startPkt n vc q p).niOf n) p.hdr := by
  obtain ⟨hseq, hst⟩ := u.takeSeq_starts n p.hdr
  unfold State.startPkt
  have hfc1 : (u.takeSeq n (hDst p.hdr) (hVn p.hdr)).2.fc = s.fc := hfc
  have hl1 : (u.takeSeq n (hDst p.hdr) (hVn p.hdr)).2.links = s.links := hl
  rw [← hseq] at hf
  generalize u.takeSeq n (hDst p.hdr) (hVn p.hdr) = r at *
  obtain ⟨seq, v⟩ := r
  dsimp only at *
  rw [hf]
  dsimp only
  obtain ⟨hx, -, -⟩ := v.dynSend_sends hn vc f
  have h1 := State.dynSend_left hn hfc1 hl1 vc f
  have h2 : (u.niOf n).Starts ((v.dynSend n vc f).niOf n) p.hdr := hst.mono (by rw [hx]; rfl) (by rw [hx]; rfl) (by rw [hx]; rfl) (by rw [hx]; rfl)
  generalize v.dynSend n vc f = w at h1 h2
  have hrest (z : State) (h1 : s.Left z n vc f) (h2 : (u.niOf n).Starts (z.niOf n) p.hdr) :
      s.Left (if rest.isEmpty then z else z.modNi n fun x => { x with cur := x.cur ++ [{ flits := rest, vc := vc, q := q }] }) n vc f ∧
      (u.niOf n).Starts ((if rest.isEmpty then z else
        z.modNi n fun x => { x with cur := x.cur ++ [{ flits := rest, vc := vc, q := q }] }).niOf n) p.hdr := by
    split
    · exact ⟨h1, h2⟩
    · have hx := State.niOf_modNi_self z n fun x => { x with cur := x.cur ++ [{ flits := rest, vc := vc, q := q }] }
      exact ⟨h1.mono (by rw [hx]) rfl, h2.mono (by rw [hx]) (by rw [hx]) (by rw [hx]) (by rw [hx])⟩
  cases q with
  | none => exact hrest w h1 h2
  | some j =>
    obtain ⟨-, hl, a, b, hx⟩ := w.charge_leaves n j
    exact hrest _ (h1.mono (by rw [hx]) hl) (h2.mono (by rw [hx]) (by rw [hx]) (by rw [hx]) (by rw [hx]))

/-! A packet under way, and an answer -/

/-- The packets under way once the next flit of `c` has left, the flits `rest` still to leave. -/
def curLeft (l : List CurPkt) (c : CurPkt) (rest : List Flit) : List CurPkt :=
  if rest.isEmpty then eraseFirst (· = c) l else modFirst (· = c) (fun c => { c with flits := rest }) l

/-- The next flit of a packet under way leaves (R188 item 2). -/
theorem State.dynInject_cur {s : State} {n : Nat} (hn : n < 87) {c : CurPkt} {f : Flit} {rest : List Flit}
    (hc : (s.niOf n).cur.find? (fun c => 0 < (s.niOf n).attCredits c.vc) = some c) (hf : c.flits = f :: rest) :
    s.Left (s.dynInject n) n c.vc f ∧ ∃ a b, (s.dynInject n).niOf n =
      ({ s.niOf n with cur := curLeft (s.niOf n).cur c rest, thrUsed := a, shUsed := b }.sent c.vc f s.fc) := by
  have h (u : State) (hfc : u.fc = s.fc) (hl : u.links = s.links) {a : Nat} {b : Tbl Nat}
      (hx : u.niOf n = { s.niOf n with cur := curLeft (s.niOf n).cur c rest, thrUsed := a, shUsed := b }) :
      s.Left ((u.dynSend n c.vc f).poolCredit n c.pool) n c.vc f ∧ ∃ a b, ((u.dynSend n c.vc f).poolCredit n c.pool).niOf n =
        ({ s.niOf n with cur := curLeft (s.niOf n).cur c rest, thrUsed := a, shUsed := b }.sent c.vc f s.fc) := by
    obtain ⟨hp, hpl⟩ := State.poolCredit_leaves (u.dynSend n c.vc f) n c.pool
    have hn' : ((u.dynSend n c.vc f).poolCredit n c.pool).niOf n = (u.dynSend n c.vc f).niOf n := congrArg (Tbl.get _ · n) hp
    refine ⟨(State.dynSend_left hn hfc hl c.vc f).mono (by rw [hn']) hpl, a, b, hn'.trans ?_⟩
    rw [(u.dynSend_sends hn c.vc f).1, hx, hfc]
  unfold State.dynInject
  simp only [hc, hf]
  have h1 := State.niOf_modNi_self s n fun x => { x with cur := curLeft (s.niOf n).cur c rest }
  cases c.q with
  | none => exact h _ rfl rfl h1
  | some j =>
    obtain ⟨hfc, hl, a, b, hx⟩ := (s.modNi n fun x => { x with cur := curLeft (s.niOf n).cur c rest }).charge_leaves n j
    exact h _ hfc hl (hx.trans (congrArg (fun x : Ni => { x with thrUsed := a, shUsed := b }) h1))

end Sys2Proof.Machine
end

section
/-! The choice of a head (R188, R189, R190) does not see the mark that a held route change leaves in ORD_STAT (R209). -/

namespace Sys2Proof.Machine

theorem answerSpace_key_le (p : Pkt) (sheaf : Nat) : (answerSpace p sheaf).1 ≤ 8 := by
  simp only [answerSpace]
  split_ifs <;> omega

namespace State.Marked

variable {n : Nat} {s t : State}

theorem sw {K : Nat → Prop} (h : Marked K s t) : t.sw = s.sw := (congrArg State.sw h.bare :)
theorem shRate {K : Nat → Prop} (h : Marked K s t) : t.shRate = s.shRate := (congrArg State.shRate h.bare :)

variable (h : Marked (· ≠ ORD_STAT n) s t) (hn : n < 87)
include h

/-! What the personality and the schedule are -/

theorem ring : t.ring = s.ring := by
  have hf : FEAT_ACTIVE_LO ≠ ORD_STAT n := by simp only [ORD_STAT, FEAT_ACTIVE_LO]; omega
  have hc : MODE_CFG ≠ ORD_STAT n := by simp only [ORD_STAT, MODE_CFG]; omega
  simp only [State.ring, State.feat, State.rbit_congr (h.rd _ hf), State.rbit_congr (h.rd _ hc), h.mode, h.change]

theorem swState : t.swState = s.swState := by
  have ha : SW_STAT ≠ ORD_STAT n := by simp only [ORD_STAT, SW_STAT]; omega
  exact State.fld_congr (h.rd _ ha) 2 0

theorem activeBank : t.activeBank = s.activeBank := by
  have ha : SW_STAT ≠ ORD_STAT n := by simp only [ORD_STAT, SW_STAT]; omega
  exact State.fld_congr (h.rd _ ha) 3 3

include hn in
theorem bankAt (c : Nat) : t.bankAt (NI_OFF n) c = s.bankAt (NI_OFF n) c := by
  have ha : NI_OFF n ≠ ORD_STAT n := by simp only [NI_OFF, ORD_STAT]; omega
  have hm : t.serviceMode = s.serviceMode := by simp only [State.serviceMode, h.mode, h.change]
  unfold State.bankAt
  simp only [h.activeBank, h.sw, State.fld_congr (h.rd _ ha)]
  rw [h.swState, hm]

include hn in
theorem niBank : t.niBank n = s.niBank n := by rw [State.niBank, State.niBank, h.bankAt hn, h.fc]

include hn in
theorem injFlow (b p : Nat) : t.injFlow n b p = s.injFlow n b p := by
  have h1 : INJE n b p ≠ ORD_STAT n := by simp only [INJE, ORD_STAT]; omega
  have h2 : INJE n b p + 0x2000 ≠ ORD_STAT n := by simp only [INJE, ORD_STAT]; omega
  simp only [State.injFlow, State.injWord, h.rd _ h1, h.rd _ h2]

include hn in
theorem fits (len : Nat) : t.fits n len = s.fits n len := by
  simp only [State.fits, h.bankAt hn, h.injFlow hn, h.fc, h.time]

include hn in
theorem schedWaits (it : QItem) : t.schedWaits n it = s.schedWaits n it := by
  have hd (f : BitVec 12) : t.demoted f.toNat = s.demoted f.toNat := by
    refine State.rbit_congr (h.rd _ ?_) _
    simp only [FLOW_DEM, ORD_STAT]
    omega
  simp only [State.schedWaits, State.flowSched, State.hasInj, State.hasInjIn, hd, h.mode, h.swState, h.niBank hn, h.injFlow hn]

/-! What a head needs -/

theorem attVc (hd : BitVec 128) (opc : BitVec 8) : t.attVc n hd opc = s.attVc n hd opc := by
  simp only [State.attVc, h.niOf, h.ring]

theorem nextAnswer : t.nextAnswer n = s.nextAnswer n := by simp only [State.nextAnswer, h.niOf, h.attVc]

theorem canReserve {key : Nat} (hk : key ≤ 8) (m : Nat) : t.canReserve n key m = s.canReserve n key m := by
  have ha : GRAN_LIM0 n + 4 * (key / 2) ≠ ORD_STAT n := by simp only [GRAN_LIM0, ORD_STAT]; omega
  rw [State.canReserve, State.canReserve, State.granLimit, State.granLimit, h.niOf, State.fld_congr (h.rd _ ha)]

include hn in
theorem headOf (j : Nat) : t.headOf n j = s.headOf n j := by
  simp only [State.headOf, h.niOf, h.schedWaits hn]

include hn in
theorem ready (j : Nat) (it : QItem) (p : Pkt) : t.ready n j it p = s.ready n j it p := by
  have hk := answerSpace_key_le p ((s.niOf n).led (tagKey it.tag)).sheaf
  simp only [State.ready, h.niOf, h.fits hn, h.attVc, h.ring, h.canReserve hk]

/-! The queues -/

theorem qDesc (j : Nat) : t.qDesc n j = s.qDesc n j := by
  have ha : INJ_QBASE n ≠ ORD_STAT n := by simp only [INJ_QBASE, ORD_STAT]; omega
  simp only [State.qDesc, State.fld_congr (h.rd _ ha)]

theorem qCount : t.qCount n = s.qCount n := by
  have ha : INJ_QBASE n ≠ ORD_STAT n := by simp only [INJ_QBASE, ORD_STAT]; omega
  simp only [State.qCount, State.fld_congr (h.rd _ ha)]

include hn in
theorem rd_QD (q w : Nat) : t.rd (QD q w) = s.rd (QD q w) := by
  refine h.rd _ ?_
  simp only [QD, ORD_STAT]
  omega

include hn in
theorem qValid (j : Nat) : t.qValid n j = s.qValid n j := by
  rw [State.qValid, State.qValid, h.qDesc, h.qCount, State.rbit, State.rbit, State.fld, State.fld, h.rd_QD hn]

include hn in
theorem shareOk (j m : Nat) : t.shareOk n j m = s.shareOk n j m := by
  have hm (p : Nat) : t.member n p = s.member n p := by
    refine State.rbit_congr (h.rd _ ?_) _
    simp only [PART_NI0, ORD_STAT]
    omega
  have ha (j : Nat) : t.qAny n j = s.qAny n j := by simp only [State.qAny, State.rbit, h.qDesc, h.rd_QD hn]
  have hp (j : Nat) : t.qPart n j = s.qPart n j := by simp only [State.qPart, State.fld, h.qDesc, h.rd_QD hn]
  simp only [State.shareOk, ha, hp, hm, h.niOf, h.shRate]

include hn in
theorem eligible (j : Nat) : t.eligible n j = s.eligible n j := by
  simp only [State.eligible, h.headOf hn, h.ready hn, h.shareOk hn, h.niOf]

include hn in
theorem weight (j : Nat) : t.weight n j = s.weight n j := by
  simp only [State.weight, State.fld, h.qDesc, h.rd_QD hn]

end State.Marked

end Sys2Proof.Machine
end

section
/-! Injection of an answer and of the head of a queue (R188, R443, R445): what each leaves of the NI and of its Ledger. -/

namespace Sys2Proof.Machine

/-! A packet under its entry's tag (R443) -/

theorem hTag_setTag (h : BitVec 128) (t : BitVec 12) : hTag (setTag h t) = t := extract_putBits_self h t rfl (by decide)
theorem hSrc_setTag (h : BitVec 128) (t : BitVec 12) : hSrc (setTag h t) = hSrc h := extract_putBits_ne h _ (.inl (by decide))
theorem hDst_setTag (h : BitVec 128) (t : BitVec 12) : hDst (setTag h t) = hDst h := extract_putBits_ne h _ (.inl (by decide))
theorem hVn_setTag (h : BitVec 128) (t : BitVec 12) : hVn (setTag h t) = hVn h := getBits_putBits_ne h _ _ _ _ _ (.inl (by decide))

theorem passes_setTag (h : BitVec 128) (t : BitVec 12) (l : List (BitVec 128)) : passes (setTag h t) l = passes h l := by
  have hs : (fun g => sameStream g (setTag h t)) = fun g => sameStream g h := by
    funext g
    rw [sameStream, hSrc_setTag, hDst_setTag, hVn_setTag, sameStream]
  rw [passes, passes, hs, hVn_setTag]

theorem State.attVc_setTag (s : State) (n : Nat) (h : BitVec 128) (t : BitVec 12) (opc : BitVec 8) :
    s.attVc n (setTag h t) opc = s.attVc n h opc := by
  simp only [State.attVc, Ni.streamBusy, passes_setTag, hVn_setTag]

theorem Ni.nextSeq_setTag (x : Ni) (h : BitVec 128) (t : BitVec 12) : x.nextSeq (setTag h t) = x.nextSeq h := by
  rw [Ni.nextSeq, Ni.nextSeq, hDst_setTag, hVn_setTag]

/-! An answer (R188 item 3) -/

theorem State.ehFill_hdr (s : State) (a : AItem) : (s.ehFill a).2.hdr = a.pkt.hdr := by
  unfold State.ehFill
  split <;> rfl

/-- The packet of an answer takes its data from the reads of the LNI alone. -/
theorem State.ehFill_congr {s t : State} (h : t.lni = s.lni) (a : AItem) : (t.ehFill a).2 = (s.ehFill a).2 := by
  unfold State.ehFill
  rw [h]
  split <;> rfl

theorem State.ehFill_same (s : State) (a : AItem) : (s.ehFill a).1.ni = s.ni ∧ (s.ehFill a).1.links = s.links ∧ (s.ehFill a).1.fc = s.fc := by
  unfold State.ehFill
  split <;> exact ⟨rfl, rfl, rfl⟩

/-- An NI whose answer `a` leaves (R209). -/
def Ni.answerOut (x : Ni) (a : AItem) : Ni :=
  let x : Ni := { x with answers := eraseFirst (· = a) x.answers }
  if a.isReq then x.noteRoute a.pkt else x

theorem Ni.answerOut_same (x : Ni) (a : AItem) : (x.answerOut a).queues = x.queues ∧ (x.answerOut a).stream = x.stream ∧
    (x.answerOut a).answers = eraseFirst (· = a) x.answers := by
  unfold Ni.answerOut
  split <;> exact ⟨rfl, rfl, rfl⟩

/-- The state with the mark of a held route change (R209). -/
def State.markHeld (s : State) (n : Nat) : State := if (s.niOf n).reqHeld then s.setBit (ORD_STAT n) 1 else s

theorem State.markHeld_marked (s : State) (n : Nat) : Marked (· ≠ ORD_STAT n) s (s.markHeld n) :=
  .ite (.setBit (by simp) 1) (.refl s)

/-- With no packet under way an answer that may start leaves. -/
theorem State.dynInject_answer_eq {s : State} {n : Nat} (hc : (s.niOf n).cur.find? (fun c => 0 < (s.niOf n).attCredits c.vc) = none)
    {a : AItem} {vc : Nat} (ha : s.nextAnswer n = some (a, vc)) : s.dynInject n =
      ((((s.markHeld n).modNi n fun x => x.answerOut a).ehFill a).1.startPkt n vc none (((s.markHeld n).modNi n fun x => x.answerOut a).ehFill a).2) := by
  have ha' : (s.markHeld n).nextAnswer n = some (a, vc) := (s.markHeld_marked n).nextAnswer.trans ha
  unfold State.markHeld at ha' ⊢
  unfold State.dynInject
  simp only [hc, ha']
  rfl

theorem State.dynInject_answer {s : State} {n : Nat} (hn : n < 87)
    (hc : (s.niOf n).cur.find? (fun c => 0 < (s.niOf n).attCredits c.vc) = none)
    {a : AItem} {vc : Nat} (ha : s.nextAnswer n = some (a, vc)) {f : Flit} {rest : List Flit}
    (hf : ({ (s.ehFill a).2 with hdr := setSeq a.pkt.hdr ((s.niOf n).nextSeq a.pkt.hdr) } : Pkt).flits = f :: rest) :
    s.Left (s.dynInject n) n vc f ∧ ((s.dynInject n).niOf n).answers = eraseFirst (· = a) (s.niOf n).answers ∧
    ((s.dynInject n).niOf n).nextSeq a.pkt.hdr = (s.niOf n).nextSeq a.pkt.hdr + 1 ∧
    ((s.dynInject n).niOf n).queues = (s.niOf n).queues := by
  have hm := s.markHeld_marked n
  obtain ⟨hq, hst, han⟩ := Ni.answerOut_same (s.niOf n) a
  rw [State.dynInject_answer_eq hc ha]
  have hx : ((s.markHeld n).modNi n fun x => x.answerOut a).niOf n = (s.niOf n).answerOut a :=
    (State.niOf_modNi_self _ _ _).trans (congrArg (Ni.answerOut · a) (hm.niOf n))
  have hlni : ((s.markHeld n).modNi n fun x => x.answerOut a).lni = s.lni := hm.lni
  have hfc : ((s.markHeld n).modNi n fun x => x.answerOut a).fc = s.fc := hm.fc
  have hl : ((s.markHeld n).modNi n fun x => x.answerOut a).links = s.links := hm.links
  generalize (s.markHeld n).modNi n (fun x => x.answerOut a) = u at hx hlni hfc hl ⊢
  obtain ⟨heni, hel, hef⟩ := u.ehFill_same a
  have hxe : (u.ehFill a).1.niOf n = (s.niOf n).answerOut a := (congrArg (Tbl.get _ · n) heni).trans hx
  have hseq : ((s.niOf n).answerOut a).nextSeq a.pkt.hdr = (s.niOf n).nextSeq a.pkt.hdr := congrArg (Tbl.get _ · _) hst
  obtain ⟨hleft, hs⟩ := State.startPkt_sends (s := s) hn (hef.trans hfc) (hel.trans hl) vc none (p := (u.ehFill a).2) (f := f) (rest := rest)
    (by rw [hxe, State.ehFill_hdr, hseq, State.ehFill_congr hlni]; exact hf)
  rw [hxe, State.ehFill_hdr] at hs
  exact ⟨hleft, hs.answers.trans han, hs.seq.trans (by rw [hseq]), hs.queues.trans hq⟩

/-! A head leaves its queue -/

/-- An NI whose message `i` of queue `j` leaves with header `h` (R198). -/
def Ni.headOut (x : Ni) (j i : Nat) (h : BitVec 128) : Ni := (x.putItem j i []).noteArb h

theorem Ni.noteArb_same (x : Ni) (h : BitVec 128) : (x.noteArb h).queues = x.queues ∧ (x.noteArb h).ledger = x.ledger ∧
    (x.noteArb h).stream = x.stream := by
  unfold Ni.noteArb
  extract_lets
  split_ifs <;> exact ⟨rfl, rfl, rfl⟩

section
variable (x : Ni) (j i : Nat) (h : BitVec 128)

theorem Ni.queue_headOut : (x.headOut j i h).queue j = (x.queue j).take i ++ (x.queue j).drop (i + 1) := by
  obtain ⟨hq, -, -⟩ := (x.putItem j i []).noteArb_same h
  refine Eq.trans (congrArg (Tbl.get _ · j) hq) ?_
  rw [Ni.putItem, Ni.setQueue, Tbl.get_set_self, List.append_nil]

theorem Ni.led_headOut (k : Nat) : (x.headOut j i h).led k = x.led k := by
  obtain ⟨-, hl, -⟩ := (x.putItem j i []).noteArb_same h
  exact congrArg (Tbl.get _ · k) hl

theorem Ni.nextSeq_headOut (g : BitVec 128) : (x.headOut j i h).nextSeq g = x.nextSeq g := by
  obtain ⟨-, -, hs⟩ := (x.putItem j i []).noteArb_same h
  exact congrArg (Tbl.get _ · _) hs

end

/-- The entry of a transaction whose first packet is injected (R443, R445). -/
structure LEntry.Issues (e e' : LEntry) (timer : Nat) (d : NodeId) : Prop where
  st    : e'.st = .issued
  timer : e'.timer = some timer
  parts : ∃ q, e'.parts = e.parts ++ [q] ∧ q.dst = d

/-- The NI `y` after the head `i` of queue `j` of `x`, the first packet of entry `k`, has left. -/
structure Ni.HeadLeaves (x y : Ni) (j i k timer : Nat) (d : NodeId) : Prop where
  queue  : y.queue j = (x.queue j).take i ++ (x.queue j).drop (i + 1)
  entry  : (x.led k).Issues (y.led k) timer d
  others : ∀ k', k' ≠ k → y.led k' = x.led k'

/-- Its first packet makes an entry ISSUED and starts its timer; of the NI the count of what its answers need changes too. -/
theorem State.issue_entry (s : State) (n : Nat) (it : QItem) (p : Pkt) (hst : ((s.niOf n).led (tagKey (hTag p.hdr))).st = .notStarted)
    (hinj : ((s.niOf n).led (tagKey (hTag p.hdr))).injected = false) :
    ∃ e r, (s.issue n it p).niOf n = ({ s.niOf n with resv := r } : Ni).setLed (tagKey (hTag p.hdr)) e ∧
      ((s.niOf n).led (tagKey (hTag p.hdr))).Issues e (s.fc + 2 ^ min (max (s.fld (TXN_TMO n) 4 0) 10) 24) (hDst p.hdr) := by
  unfold State.issue
  extract_lets k x e part
  rw [State.niOf_setNi_self]
  refine ⟨_, _, rfl, ?_, ?_, _, rfl, rfl⟩
  · exact if_pos hst
  · exact if_neg (by simp [e, x, k, hinj])

/-- What is noted once the first flit of a head has left (R209, R221). -/
def State.headGone (s : State) (n : Nat) (it : QItem) (p : Pkt) : State :=
  let s := if it.sprayed || it.sheaf.isSome then s else s.modNi n fun x => x.noteRoute p
  if it.wcb then (s.modNi n fun x => x.dropLine it.tag).countN n 0x31 1 unfiltered else s

theorem State.headGone_same (s : State) {n : Nat} (hn : n < 87) (it : QItem) (p : Pkt) : (s.headGone n it p).links = s.links ∧
    ((s.headGone n it p).niOf n).sentFc = (s.niOf n).sentFc ∧ ((s.headGone n it p).niOf n).queues = (s.niOf n).queues ∧
    ((s.headGone n it p).niOf n).ledger = (s.niOf n).ledger := by
  unfold State.headGone
  extract_lets u
  have hu : u.links = s.links ∧ (u.niOf n).sentFc = (s.niOf n).sentFc ∧ (u.niOf n).queues = (s.niOf n).queues ∧
      (u.niOf n).ledger = (s.niOf n).ledger := by
    simp only [u]
    split
    · exact ⟨rfl, rfl, rfl, rfl⟩
    · rw [State.niOf_modNi_self]
      exact ⟨rfl, rfl, rfl, rfl⟩
  split
  · have hm := (u.modNi n fun x => x.dropLine it.tag).countN_marked hn 0x31 1 unfiltered
    have hx : ((u.modNi n fun x => x.dropLine it.tag).countN n 0x31 1 unfiltered).niOf n = (u.niOf n).dropLine it.tag :=
      (hm.niOf n).trans (State.niOf_modNi_self _ _ _)
    rw [hx]
    exact ⟨hm.links.trans hu.1, hu.2⟩
  · exact hu

/-- A head that keeps its tag and is no reserved operation. -/
theorem State.injectHead_eq {s : State} {n : Nat} (j i : Nat) {it : QItem} {p : Pkt} {vc : Nat} (htag : (s.niOf n).tagUsed p = false)
    (hres : isResvOp it.cls (sOpc (p.body.headD (0, 0)).1) = false)
    (hvc : s.attVc n p.hdr (sOpc (p.body.headD (0, 0)).1) = some vc) :
    s.injectHead n j i it p = ((((s.modNi n fun x => x.headOut j i (setTag p.hdr it.tag)).issue n it
      { p with hdr := setTag p.hdr it.tag }).startPkt n vc (some j) { p with hdr := setTag p.hdr it.tag }).headGone n it
      { p with hdr := setTag p.hdr it.tag }) := by
  rw [← State.attVc_setTag s n p.hdr it.tag] at hvc
  unfold State.injectHead State.headGone Ni.headOut
  simp only [htag, hres, hvc, Bool.false_eq_true, Bool.false_and, if_false]

/-- What follows once a head with the tag of its entry leaves queue `j` (R188, R443, R445). -/
theorem State.injectHead_sends {s : State} {n : Nat} (hn : n < 87) (j i : Nat) {it : QItem} {p : Pkt} {vc : Nat}
    (htag : (s.niOf n).tagUsed p = false) (hres : isResvOp it.cls (sOpc (p.body.headD (0, 0)).1) = false)
    (hvc : s.attVc n p.hdr (sOpc (p.body.headD (0, 0)).1) = some vc)
    (hst : ((s.niOf n).led (tagKey it.tag)).st = .notStarted) (hinj : ((s.niOf n).led (tagKey it.tag)).injected = false)
    {f : Flit} {rest : List Flit}
    (hf : ({ p with hdr := setSeq (setTag p.hdr it.tag) ((s.niOf n).nextSeq p.hdr) } : Pkt).flits = f :: rest) :
    s.Left (s.injectHead n j i it p) n vc f ∧ (s.niOf n).HeadLeaves ((s.injectHead n j i it p).niOf n) j i (tagKey it.tag)
      (s.fc + 2 ^ min (max (s.fld (TXN_TMO n) 4 0) 10) 24) (hDst p.hdr) := by
  rw [State.injectHead_eq j i htag hres hvc]
  have hkey : tagKey (hTag (setTag p.hdr it.tag)) = tagKey it.tag := by rw [hTag_setTag]
  have hx := State.niOf_modNi_self s n fun x => x.headOut j i (setTag p.hdr it.tag)
  obtain ⟨e, r, hw, he⟩ := (s.modNi n fun x => x.headOut j i (setTag p.hdr it.tag)).issue_entry n it { p with hdr := setTag p.hdr it.tag }
    (by rw [hkey, hx, Ni.led_headOut]; exact hst) (by rw [hkey, hx, Ni.led_headOut]; exact hinj)
  rw [hkey, hx] at hw he
  rw [Ni.led_headOut, hDst_setTag] at he
  have hwfc : ((s.modNi n fun x => x.headOut j i (setTag p.hdr it.tag)).issue n it { p with hdr := setTag p.hdr it.tag }).fc = s.fc := rfl
  have hwl : ((s.modNi n fun x => x.headOut j i (setTag p.hdr it.tag)).issue n it { p with hdr := setTag p.hdr it.tag }).links = s.links := rfl
  generalize (s.modNi n fun x => x.headOut j i (setTag p.hdr it.tag)).issue n it { p with hdr := setTag p.hdr it.tag } = w at hw hwfc hwl ⊢
  have hwseq : (w.niOf n).nextSeq (setTag p.hdr it.tag) = (s.niOf n).nextSeq p.hdr := by
    rw [hw]
    exact (Ni.nextSeq_headOut _ _ _ _ _).trans (Ni.nextSeq_setTag _ _ _)
  obtain ⟨hleft, hs⟩ := State.startPkt_sends (s := s) hn hwfc hwl vc (some j) (p := { p with hdr := setTag p.hdr it.tag })
    (f := f) (rest := rest) (by rw [hwseq]; exact hf)
  obtain ⟨hgl, hgs, hgq, hgled⟩ := (w.startPkt n vc (some j) { p with hdr := setTag p.hdr it.tag }).headGone_same hn it
    { p with hdr := setTag p.hdr it.tag }
  have hled (k : Nat) := congrArg (Tbl.get (fun _ => ({} : LEntry)) · k) (hgled.trans hs.ledger)
  refine ⟨hleft.mono hgs hgl, (congrArg (Tbl.get _ · j) (hgq.trans hs.queues)).trans ?_, ?_, fun k hk => (hled k).trans ?_⟩
  · rw [hw]
    exact Ni.queue_headOut _ _ _ _
  · have hk : (w.niOf n).led (tagKey it.tag) = e := by rw [hw, Ni.led_setLed_self]
    exact (congrArg (LEntry.Issues _ · _ _) ((hled _).trans hk)).mpr he
  · rw [hw]
    exact (Tbl.get_set_ne _ hk _ _).trans (Ni.led_headOut _ _ _ _ _)

/-- `v` is `s` when a head has been chosen: its NI but for the turns of the queues, its clock, its links. -/
structure State.Chosen (n : Nat) (s v : State) : Prop where
  ni    : ∃ a b c, v.niOf n = { s.niOf n with qcred := a, lastZero := b, lastServed := c }
  links : v.links = s.links
  fc    : v.fc = s.fc
  ring  : v.ring = s.ring
  tmo   : v.rd (TXN_TMO n) = s.rd (TXN_TMO n)
  waits : ∀ it, v.schedWaits n it = s.schedWaits n it

theorem State.Chosen.of_marked {n : Nat} (hn : n < 87) {s v : State} (h : Marked (· ≠ ORD_STAT n) s v) : s.Chosen n v :=
  ⟨⟨_, _, _, h.niOf n⟩, h.links, h.fc, h.ring, h.rd _ (by simp only [TXN_TMO, ORD_STAT]; omega), h.schedWaits hn⟩

theorem State.Chosen.modNi {n : Nat} (hn : n < 87) {s v : State} (h : Marked (· ≠ ORD_STAT n) s v) {g : Ni → Ni}
    (hg : ∀ x, ∃ a b c, g x = { x with qcred := a, lastZero := b, lastServed := c }) : s.Chosen n (v.modNi n g) := by
  have k := Chosen.of_marked hn h
  obtain ⟨a, b, c, hx⟩ := hg (s.niOf n)
  refine ⟨⟨a, b, c, ?_⟩, k.links, k.fc, k.ring, k.tmo, k.waits⟩
  rw [State.niOf_modNi_self, h.niOf, hx]

section
variable {n : Nat} {s v : State} (h : s.Chosen n v)
include h

theorem State.Chosen.headOf (j : Nat) : v.headOf n j = s.headOf n j := by
  obtain ⟨a, b, c, hx⟩ := h.ni
  simp only [State.headOf, h.waits, hx]
  rfl

theorem State.Chosen.attVc (hd : BitVec 128) (opc : BitVec 8) : v.attVc n hd opc = s.attVc n hd opc := by
  obtain ⟨a, b, c, hx⟩ := h.ni
  simp only [State.attVc, h.ring, hx]
  rfl

theorem State.Chosen.left {t : State} {vc : Nat} {f : Flit} (ht : v.Left t n vc f) : s.Left t n vc f := by
  have hl : v.linkOf = s.linkOf := congrArg (Tbl.get _) h.links
  unfold State.Left at ht ⊢
  rw [h.fc, hl] at ht
  exact ht

/-- The head of the chosen queue leaves. -/
theorem State.Chosen.injectFrom_sends (hn : n < 87) {j i : Nat} {it : QItem} {p : Pkt} {vc : Nat} (hh : s.headOf n j = some (i, it, p))
    (hvc : s.attVc n p.hdr (sOpc (p.body.headD (0, 0)).1) = some vc)
    (hres : isResvOp it.cls (sOpc (p.body.headD (0, 0)).1) = false) (htag : (s.niOf n).tagUsed p = false)
    (hst : ((s.niOf n).led (tagKey it.tag)).st = .notStarted) (hinj : ((s.niOf n).led (tagKey it.tag)).injected = false)
    {f : Flit} {rest : List Flit}
    (hf : ({ p with hdr := setSeq (setTag p.hdr it.tag) ((s.niOf n).nextSeq p.hdr) } : Pkt).flits = f :: rest) :
    s.Left (v.injectFrom n j) n vc f ∧ (s.niOf n).HeadLeaves ((v.injectFrom n j).niOf n) j i (tagKey it.tag)
      (s.fc + 2 ^ min (max (s.fld (TXN_TMO n) 4 0) 10) 24) (hDst p.hdr) := by
  obtain ⟨a, b, c, hx⟩ := h.ni
  have hfrom : v.injectFrom n j = v.injectHead n j i it p := by
    unfold State.injectFrom
    rw [h.headOf, hh]
  obtain ⟨hl, hs⟩ := State.injectHead_sends (s := v) hn j i (by rw [hx]; exact htag) hres ((h.attVc _ _).trans hvc)
    (by rw [hx]; exact hst) (by rw [hx]; exact hinj) (by rw [hx]; exact hf)
  rw [hx, h.fc, State.fld_congr h.tmo] at hs
  rw [hfrom]
  exact ⟨h.left hl, hs.queue, hs.entry, hs.others⟩

end

end Sys2Proof.Machine
end

section
/-! Which queue an NI serves (R184, R190, R192), and Obligations.Injection. -/

namespace Sys2Proof.Machine

/-! The weighted group (R190) -/

/-- The queue of the weighted group whose turn it is, and what its NI keeps of the turn. -/
def State.turn (s : State) (n strict : Nat) : Option (Nat × (Ni → Ni)) :=
  let group := (List.range (s.qCount n)).filter fun j => strict ≤ j && s.qValid n j
  let e := group.filter fun j => s.eligible n j
  let p := e.filter fun j => 0 < s.weight n j
  let x := s.niOf n
  if p.isEmpty then (afterRR x.lastZero e).map fun q => (q, fun x => { x with lastZero := q })
  else
    let c := refill (s.weight n) group p 64 x.qcred
    (afterRR x.lastServed (p.filter fun q => 0 < Tbl.get (fun _ => 0) c q)).map fun q =>
      let len : Int := ((s.headOf n q).map fun h => (h.2.2.body.length : Int)).getD 0
      (q, fun x => { x with qcred := Tbl.upd (fun _ => 0) q (· - len) c, lastServed := q })

theorem State.weighted_eq (s : State) (n strict : Nat) :
    s.weighted n strict = (s.turn n strict).elim (s, none) fun q => (s.modNi n q.2, some q.1) := by
  unfold State.weighted State.turn
  extract_lets group e p x c
  split
  · generalize afterRR x.lastZero e = o
    cases o <;> rfl
  · generalize afterRR x.lastServed (p.filter fun q => 0 < Tbl.get (fun _ => 0) c q) = o
    cases o with
    | none => rfl
    | some q =>
      dsimp only [Option.map_some, Option.elim_some]
      generalize s.headOf n q = o
      cases o <;> rfl

/-- Of the NI a turn changes what the turns of its queues go by. -/
theorem State.turn_same {s : State} {n strict j : Nat} {g : Ni → Ni} (h : s.turn n strict = some (j, g)) (x : Ni) :
    ∃ a b c, g x = { x with qcred := a, lastZero := b, lastServed := c } := by
  unfold State.turn at h
  extract_lets group e p y c at h
  split at h
  · obtain ⟨q, -, hq⟩ := Option.map_eq_some_iff.mp h
    obtain ⟨-, rfl⟩ := Prod.mk.inj hq
    exact ⟨_, _, _, rfl⟩
  · obtain ⟨q, -, hq⟩ := Option.map_eq_some_iff.mp h
    obtain ⟨-, rfl⟩ := Prod.mk.inj hq
    exact ⟨_, _, _, rfl⟩

theorem State.Marked.turn {n : Nat} {s t : State} (h : Marked (· ≠ ORD_STAT n) s t) (hn : n < 87) (strict : Nat) :
    t.turn n strict = s.turn n strict := by
  unfold State.turn
  rw [h.qCount, funext (h.qValid hn), funext (h.eligible hn), funext (h.weight hn), funext (h.headOf hn), h.niOf]

/-- A group with no eligible queue has no turn. -/
theorem State.turn_of_none_eligible {s : State} {n : Nat} (h : ∀ j, s.eligible n j = false) (strict : Nat) : s.turn n strict = none := by
  have hn (last : Nat) : afterRR last [] = none := List.find?_eq_none.mpr fun _ _ => Bool.false_ne_true
  have he (l : List Nat) : l.filter (fun j => s.eligible n j) = [] := List.filter_eq_nil_iff.mpr fun j _ => by simp [h j]
  unfold State.turn
  simp only [he, List.filter_nil, List.isEmpty_nil, if_true, hn, Option.map_none]

/-! The queue that is served (R188 items 4 and 5, log 17) -/

/-- The NI serves its own queue, a strict one or the weighted group. -/
def State.serveQueues (s : State) (n : Nat) : State :=
  if s.eligible n ownQueue then s.injectFrom n ownQueue
  else
    let strict := min (s.fld (INJ_CTRL n) 2 0) 4
    match (List.range strict).find? fun j => s.qValid n j && s.eligible n j with
    | some j => s.injectFrom n j
    | none =>
      match s.weighted n strict with
      | (s, some j) => s.injectFrom n j
      | (s, none) => s

/-- Queue `j` is the one that R188 and R190 choose at NI `n`. -/
def State.ChoosesQueue (s : State) (n j : Nat) : Prop :=
  (j = ownQueue ∧ s.eligible n j = true) ∨
  (s.eligible n ownQueue = false ∧
    (List.range (min (s.fld (INJ_CTRL n) 2 0) 4)).find? (fun j => s.qValid n j && s.eligible n j) = some j) ∨
  (s.eligible n ownQueue = false ∧
    (List.range (min (s.fld (INJ_CTRL n) 2 0) 4)).find? (fun j => s.qValid n j && s.eligible n j) = none ∧
    (s.weighted n (min (s.fld (INJ_CTRL n) 2 0) 4)).2 = some j)

/-- The marks of a held route change leave the choice as it is. -/
theorem State.serveQueues_chosen {n : Nat} (hn : n < 87) {s u : State} (h : Marked (· ≠ ORD_STAT n) s u) {j : Nat} (hj : s.ChoosesQueue n j) :
    ∃ v, s.Chosen n v ∧ u.serveQueues n = v.injectFrom n j := by
  have hc := Chosen.of_marked hn h
  have hctl : INJ_CTRL n ≠ ORD_STAT n := by simp only [INJ_CTRL, ORD_STAT]; omega
  have hv : (fun j => u.qValid n j && u.eligible n j) = fun j => s.qValid n j && s.eligible n j :=
    funext fun j => by rw [h.qValid hn, h.eligible hn]
  unfold State.serveQueues
  rw [h.eligible hn, hv, State.fld_congr (h.rd _ hctl)]
  obtain ⟨rfl, he⟩ | ⟨he, hf⟩ | ⟨he, hf, hw⟩ := hj
  · exact ⟨u, hc, if_pos he⟩
  · exact ⟨u, hc, by simp only [he, hf, Bool.false_eq_true, if_false]⟩
  · rw [State.weighted_eq] at hw
    cases ht : s.turn n (min (s.fld (INJ_CTRL n) 2 0) 4) with
    | none => rw [ht] at hw; cases hw
    | some q =>
      obtain ⟨k, g⟩ := q
      rw [ht] at hw
      obtain rfl : k = j := Option.some.inj hw
      refine ⟨u.modNi n g, .modNi hn h (State.turn_same ht), ?_⟩
      simp only [he, hf, Bool.false_eq_true, if_false, State.weighted_eq, h.turn hn, ht, Option.elim_some]

theorem State.serveQueues_idle {s : State} {n : Nat} (h : ∀ j, s.eligible n j = false) : s.serveQueues n = s := by
  have hf (l : List Nat) : l.find? (fun _ => false) = none := List.find?_eq_none.mpr fun _ _ => Bool.false_ne_true
  unfold State.serveQueues
  extract_lets strict
  rw [State.weighted_eq, State.turn_of_none_eligible h]
  simp only [h, Bool.and_false, Bool.false_eq_true, if_false, hf, Option.elim_none]

/-- With no packet under way and no answer that may start, the heads are looked at and a queue is served. -/
theorem State.dynInject_queues {s : State} {n : Nat} (hc : (s.niOf n).cur.find? (fun c => 0 < (s.niOf n).attCredits c.vc) = none)
    (ha : s.nextAnswer n = none) : s.dynInject n =
      (((s.niOf n).queues.map (·.1)).foldl (fun s j => (s.askRoom n j).holdMarks n j) (s.markHeld n)).serveQueues n := by
  have ha' : (s.markHeld n).nextAnswer n = none := (s.markHeld_marked n).nextAnswer.trans ha
  rw [← (s.markHeld_marked n).niOf n]
  unfold State.markHeld at ha' ⊢
  unfold State.dynInject
  simp only [hc, ha']
  rfl

/-- Outside the ring personality heads that neither a route change nor a throttle keeps back leave no mark. -/
theorem State.heads_unmarked {s : State} {n : Nat} (hr : s.ring = false) (h : ∀ j i it p, s.headOf n j = some (i, it, p) →
    (s.niOf n).routeHeld it p = false ∧ (s.ready n j it p = true → s.eligible n j = true)) (js : List Nat) :
    js.foldl (fun s j => (s.askRoom n j).holdMarks n j) s = s := by
  have hask (j : Nat) : s.askRoom n j = s := by
    unfold State.askRoom
    split
    · rfl
    · simp only [hr, Bool.false_and, Bool.false_eq_true, if_false]
  have hmark (j : Nat) : s.holdMarks n j = s := by
    unfold State.holdMarks
    split
    · rfl
    · next i it p hh =>
      obtain ⟨hroute, hel⟩ := h j i it p hh
      simp only [hroute, Bool.false_eq_true, if_false]
      refine if_neg fun hb => ?_
      simp only [Bool.and_eq_true, Bool.not_eq_true'] at hb
      exact absurd (hel hb.1) (by simp [hb.2])
  induction js with
  | nil => rfl
  | cons j js ih => rw [List.foldl_cons, hask, hmark, ih]

theorem State.dynInject_chosen {s : State} {n : Nat} (hn : n < 87) (hr : s.ring = false)
    (hc : (s.niOf n).cur.find? (fun c => 0 < (s.niOf n).attCredits c.vc) = none) (ha : s.nextAnswer n = none)
    (h : ∀ j i it p, s.headOf n j = some (i, it, p) →
      (s.niOf n).routeHeld it p = false ∧ (s.ready n j it p = true → s.eligible n j = true)) {j : Nat} (hj : s.ChoosesQueue n j) :
    ∃ v, s.Chosen n v ∧ s.dynInject n = v.injectFrom n j := by
  have hm := s.markHeld_marked n
  rw [State.dynInject_queues hc ha, State.heads_unmarked (hm.ring.trans hr) fun j i it p hh => ?_]
  · exact State.serveQueues_chosen hn hm hj
  · rw [hm.niOf, hm.ready hn, hm.eligible hn]
    exact h j i it p ((hm.headOf hn j).symm.trans hh)

theorem State.dynInject_idle {s : State} {n : Nat} (hc : (s.niOf n).cur = []) (ha : (s.niOf n).answers = [])
    (hq : (s.niOf n).queues = []) : s.dynInject n = s := by
  have he (j : Nat) : s.eligible n j = false := by
    simp only [State.eligible, State.headOf, Ni.queue, hq]
    rfl
  have hm : s.markHeld n = s := by simp only [State.markHeld, Ni.reqHeld, ha, List.any_nil, Bool.false_eq_true, if_false]
  rw [State.dynInject_queues (by rw [hc]; rfl) (by rw [State.nextAnswer, ha]; rfl), hq, hm]
  exact State.serveQueues_idle he

/-! A KNI (R192) -/

/-- The only number that satisfies `p` is found from any start. -/
theorem firstFrom_only {start n j : Nat} {p : Nat → Bool} (hj : j < n) (h : ∀ k, p k = true ↔ k = j) : firstFrom start n p = some j := by
  unfold firstFrom
  cases hf : ((List.range n).map fun i => (start + i) % n).find? p with
  | some k => exact congrArg some ((h k).mp (List.find?_some hf))
  | none =>
    refine absurd ((h j).mpr rfl) (List.find?_eq_none.mp hf j (List.mem_map.mpr ⟨(j + (n - start % n)) % n, ?_, ?_⟩))
    · exact List.mem_range.mpr (Nat.mod_lt _ (by omega))
    · have hs : start % n < n := Nat.mod_lt _ (by omega)
      have hd := Nat.div_add_mod start n
      have hsum : start + (j + (n - start % n)) = j + n * (start / n + 1) := by rw [Nat.mul_add]; omega
      rw [Nat.add_mod_mod, hsum, Nat.add_mul_mod_self_left, Nat.mod_eq_of_lt hj]

theorem firstFrom_none {start n : Nat} {p : Nat → Bool} (h : ∀ k, p k = false) : firstFrom start n p = none :=
  List.find?_eq_none.mpr fun k _ => by simp [h k]

theorem State.kniDyn_queues {s : State} {n : Nat} (hc : (s.niOf n).cur.find? (fun c => 0 < (s.niOf n).attCredits c.vc) = none)
    (ha : s.nextAnswer n = none) : s.kniDyn n = s.kniInject n := by
  unfold State.kniDyn
  simp only [hc, ha]

theorem State.kniInject_idle {s : State} {n : Nat} (hq : (s.niOf n).queues = []) : s.kniInject n = s := by
  unfold State.kniInject
  extract_lets x can
  rw [firstFrom_none fun k => ?_]
  simp only [can, Ni.queue, x, hq]
  rfl

/-- The head of a KNI's only queue leaves. -/
theorem State.kniInject_sends {s : State} {n : Nat} (hn : n < 87) {j : Nat} {it : QItem} {q : List QItem} {p : Pkt} {vc : Nat} {f : Flit}
    {rest : List Flit} (hq : (s.niOf n).queues = [(j, it :: q)]) (hj : j < 8) (hp : it.pkt = some p)
    (hvc : s.attVc n p.hdr (sOpc (p.body.headD (0, 0)).1) = some vc) (hfit : s.fits n p.body.length = true)
    (hr : s.ring = false ∨ isResponse (hCls p.hdr) (sOpc (p.body.headD (0, 0)).1) = true) (hf : p.flits = f :: rest) :
    s.Left (s.kniInject n) n vc f ∧ ((s.kniInject n).niOf n).queue j = q := by
  have hqj : (s.niOf n).queue j = it :: q := by rw [Ni.queue, hq]; exact if_pos rfl
  have hqk (k : Nat) (hk : k ≠ j) : (s.niOf n).queue k = [] := by rw [Ni.queue, hq]; exact if_neg hk.symm
  unfold State.kniInject
  extract_lets x can
  have hcan (k : Nat) : can k = true ↔ k = j := by
    refine ⟨fun h => ?_, fun h => ?_⟩
    · by_contra hk
      simp [can, x, hqk k hk] at h
    · subst h
      obtain hr | hr := hr <;> 
        simp only [can, x, hqj, hp, hvc, hfit, hr, Option.isSome_some, Bool.false_and, Bool.not_true, Bool.and_false, Bool.not_false,
          Bool.and_self]
  rw [firstFrom_only hj hcan]
  simp only [x, hqj, hp, hvc, hf]
  have hx1 := State.niOf_modNi_self s n fun x => { x.setQueue j q with lastServed := j }
  have hfc : (s.modNi n fun x => { x.setQueue j q with lastServed := j }).fc = s.fc := rfl
  have hl : (s.modNi n fun x => { x.setQueue j q with lastServed := j }).links = s.links := rfl
  generalize (s.modNi n fun x => { x.setQueue j q with lastServed := j }) = u at hx1 hfc hl ⊢
  obtain ⟨hx2, -, -⟩ := u.dynSend_sends hn vc f
  obtain ⟨hni, hpl⟩ := (u.dynSend n vc f).poolCredit_leaves n it.pool
  have hx3 : ((u.dynSend n vc f).poolCredit n it.pool).niOf n = (u.niOf n).sent vc f u.fc := (congrArg (Tbl.get _ · n) hni).trans hx2
  have hleft : s.Left ((u.dynSend n vc f).poolCredit n it.pool) n vc f :=
    (State.dynSend_left hn hfc hl vc f).mono (by rw [hx3, hx2]) hpl
  have hqu : (((u.dynSend n vc f).poolCredit n it.pool).niOf n).queue j = q := by
    rw [hx3, hx1]
    exact Tbl.get_set_self _ _ _ _
  generalize (u.dynSend n vc f).poolCredit n it.pool = w at hleft hqu ⊢
  split
  · exact ⟨hleft, hqu⟩
  · have hx := State.niOf_modNi_self w n fun x => { x with cur := x.cur ++ [{ flits := rest, vc := vc, q := some j, pool := it.pool }] }
    refine ⟨hleft.mono (by rw [hx]) rfl, ?_⟩
    rw [hx]
    exact hqu

/-! The obligation -/

/-- A KNI sends what is under way, and its answers, as another NI does (R188, R192). -/
theorem State.kniDyn_eq {s : State} {n : Nat} (h : (s.niOf n).cur.find? (fun c => 0 < (s.niOf n).attCredits c.vc) ≠ none ∨
    s.nextAnswer n ≠ none) : s.kniDyn n = s.dynInject n := by
  unfold State.kniDyn
  extract_lets x
  split
  · rfl
  · next hc =>
    split
    · rfl
    · next ha => exact absurd ha (h.resolve_left (not_not_intro hc))

theorem State.MaySend.exec_dynInject {s : State} {n : Fin 87} (h : s.MaySend n.val)
    (hw : (s.niOf n.val).cur.find? (fun c => 0 < (s.niOf n.val).attCredits c.vc) ≠ none ∨ s.nextAnswer n.val ≠ none) :
    exec (.injectPacket n) s = .next (s.dynInject n.val) := by
  rw [h.exec_inject rfl, State.kniDyn_eq hw, ite_self]

/-- Settles O46: scheduled injection leaves nothing to do, and the dynamic flit is taken by the first of the sources of R188 that
has one. -/
theorem injection : Obligations.Injection := by
  unfold Obligations.Injection
  refine ⟨fun s n h => ?_, fun s n c f rest h hc hf => ?_, fun s n a vc f rest h hc ha hf => ?_,
    fun s n j i it p vc f rest hn h hr hc ha hfree hj hh hvc hres htag hst hinj hf => ?_,
    fun s n j it q p vc f rest hn h hc ha hq hj hp hvc hfit hr hf => ?_, fun s n h hc ha hq => ?_⟩
  · refine congrArg Host.Outcome.next (if_pos ?_)
    obtain hr | hs := h
    · simp [hr]
    · simp [hs]
  · obtain ⟨hl, a, b, hx⟩ := State.dynInject_cur n.isLt hc hf
    refine ⟨_, h.exec_dynInject (.inl (by rw [hc]; exact Option.some_ne_none c)), hl, ?_, ?_, ?_, ?_⟩
    · rw [hx]
      simp only [← List.isEmpty_iff]
      rfl
    · have hpos : 0 < (s.niOf n.val).attCredits c.vc := by simpa using List.find?_some hc
      rw [hx, Ni.attCredits_sent]
      exact Nat.sub_add_cancel hpos
    · rw [hx]
      rfl
    · rw [hx]
      rfl
  · obtain ⟨hl, hans, hseq, hq⟩ := State.dynInject_answer n.isLt hc ha hf
    exact ⟨_, h.exec_dynInject (.inr (by rw [ha]; exact Option.some_ne_none _)), hl, hans, hseq, hq⟩
  · obtain ⟨v, hv, he⟩ := State.dynInject_chosen n.isLt hr hc ha hfree hj
    obtain ⟨hl, hs⟩ := hv.injectFrom_sends n.isLt hh hvc hres htag hst hinj hf
    refine ⟨v.injectFrom n.val j, ?_, hl, hs.queue, hs.entry.st, hs.entry.timer, hs.entry.parts, hs.others⟩
    rw [h.exec_inject rfl, if_neg (by omega), he]
  · obtain ⟨hl, hqj⟩ := State.kniInject_sends n.isLt hq hj hp hvc hfit hr hf
    refine ⟨_, ?_, hl, hqj⟩
    rw [h.exec_inject rfl, if_pos hn, State.kniDyn_queues hc ha]
  · have hi : s.kniDyn n.val = s := by
      rw [State.kniDyn_queues (by rw [hc]; rfl) (by rw [State.nextAnswer, ha]; rfl), State.kniInject_idle hq]
    rw [h.exec_inject rfl, hi, State.dynInject_idle hc ha hq, ite_self]

end Sys2Proof.Machine
end

section
/-! Obligations.StoredEntryReadsBack (R48, R49, R57): data bits pass the check of their own check byte, so that an entry stored
without inversion is read back. -/

namespace Sys2Proof.Machine

/-! The extended Hamming code -/

theorem parity_lt (x : Nat) : parity x < 2 := Nat.mod_lt _ (by decide)

theorem hamming_lt (d n : Nat) : hamming d n < 2 ^ n := by
  induction n with
  | zero => simp [hamming]
  | succ n ih =>
    have h : parity (d &&& checkMask n) * 2 ^ n ≤ 1 * 2 ^ n :=
      Nat.mul_le_mul_right _ (Nat.le_of_lt_succ (parity_lt _))
    rw [hamming, Nat.pow_succ]
    omega

/-- The check byte's top bit makes its parity that of the bits below it and itself. -/
theorem parity_topBit {c b : Nat} (hc : c < 128) (hb : b < 2) : parity (c + b * 2 ^ 7) = (parity c + b) % 2 := by
  have h : ∀ c < 128, ∀ b < 2, parity (c + b * 2 ^ 7) = (parity c + b) % 2 := by decide +kernel
  exact h c hc b hb

/-- The check byte of `d` is its Hamming bits and the parity of all. -/
theorem checkByte_eq (d : Nat) : checkByte 7 d < 256 ∧ checkByte 7 d % 2 ^ 7 = hamming d 7 ∧
    (parity d + parity (checkByte 7 d)) % 2 = 0 := by
  have hc : hamming d 7 < 128 := hamming_lt d 7
  have hb : (parity d + parity (hamming d 7)) % 2 < 2 := Nat.mod_lt _ (by decide)
  have hp := parity_topBit hc hb
  simp only [checkByte]
  refine ⟨by omega, by omega, ?_⟩
  rw [hp]
  omega

/-- Data bits are clean against their own check byte (R49). -/
theorem eccCheck_checkByte (last d : Nat) : eccCheck 7 last d (checkByte 7 d) = .clean := by
  obtain ⟨hlt, hham, hpar⟩ := checkByte_eq d
  have h8 : checkByte 7 d % 2 ^ (7 + 1) = checkByte 7 d := Nat.mod_eq_of_lt hlt
  simp only [eccCheck, hham, h8, hpar, Nat.xor_self, and_self, if_true]

/-! The stored entry -/

/-- The bits of an entry stored without inversion. -/
theorem toNat_storeEntry (x : BitVec 128) : (storeEntry x 0).toNat =
    x.toNat + (checkByte 7 (x.toNat % 2 ^ 64) + 256 * checkByte 7 (x.toNat / 2 ^ 64)) * 2 ^ 128 := by
  obtain ⟨hl, -, -⟩ := checkByte_eq (x.toNat % 2 ^ 64)
  obtain ⟨hh, -, -⟩ := checkByte_eq (x.toNat / 2 ^ 64)
  have hx := x.isLt
  rw [storeEntry, BitVec.ofNat_eq_ofNat, BitVec.xor_zero, BitVec.toNat_append, ← Nat.shiftLeft_add_eq_or_of_lt hx,
    Nat.shiftLeft_eq, entryChecks, BitVec.toNat_ofNat, Nat.mod_eq_of_lt (by omega), Nat.add_comm]

theorem extract_storeEntry (x : BitVec 128) (flip : BitVec 16) : (storeEntry x flip).extractLsb' 0 128 = x := by
  rw [storeEntry, BitVec.extractLsb'_append_eq_right]

/-- An entry stored without inversion is read without error and without correction (R57). -/
theorem readEntry_storeEntry (x : BitVec 128) : readEntry (storeEntry x 0) = (some x, false) := by
  obtain ⟨hl, -, -⟩ := checkByte_eq (x.toNat % 2 ^ 64)
  obtain ⟨hh, -, -⟩ := checkByte_eq (x.toNat / 2 ^ 64)
  have hx := x.isLt
  have hn := toNat_storeEntry x
  have low : (storeEntry x 0).toNat % 2 ^ 64 = x.toNat % 2 ^ 64 := by omega
  have high : (storeEntry x 0).toNat / 2 ^ 64 % 2 ^ 64 = x.toNat / 2 ^ 64 := by omega
  have lowByte : (storeEntry x 0).toNat / 2 ^ 128 % 256 = checkByte 7 (x.toNat % 2 ^ 64) := by omega
  have highByte : (storeEntry x 0).toNat / 2 ^ 136 = checkByte 7 (x.toNat / 2 ^ 64) := by omega
  simp only [readEntry, low, high, lowByte, highByte, eccCheck_checkByte, extract_storeEntry]

/-- Settles O28: the check finds both halves clean, and the words shown are those of the entry that was read. -/
theorem storedEntryReadsBack : Obligations.StoredEntryReadsBack := by
  intro x
  refine ⟨readEntry_storeEntry x, fun i hi => ?_⟩
  have hs : shownEntry (storeEntry x 0) = (storeEntry x 0).extractLsb' 128 16 ++ x := by
    simp only [shownEntry, readEntry_storeEntry]
  rw [hs, BitVec.extractLsb'_append_eq_of_add_le (by omega)]

end Sys2Proof.Machine
end

section
/-! Obligations.RouteStoreWindow (R89 to R91, R95): the window words of a route-store bank, and the registers of its page. -/

namespace Sys2Proof.Machine

/-! The window -/

/-- An address of the window says the bank, the entry and the word (R475). -/
theorem rse_place {c e w : Nat} (hc : c < 8) (he : e < 2 ^ 14) (hw : w < 8) :
    slaveOf (RSE c e w) = some (.window (.routeStore c e)) ∧ RSE c e w % 4 = 0 ∧ RSE c e w % 0x20 / 4 = w := by
  have hbank : (RSE c e w - 0x2000000) / 0x80000 = c := by simp only [RSE]; omega
  have hentry : (RSE c e w - 0x2000000) % 0x80000 / 0x20 = e := by simp only [RSE]; omega
  refine ⟨?_, by simp only [RSE]; omega, by simp only [RSE]; omega⟩
  rw [slaveOf_window (by simp only [RSE]; omega), windowOf, if_neg (by simp only [RSE]; omega),
    if_pos (by simp only [RSE]; omega), hbank, hentry]
  rfl

@[simp] theorem State.bankOf_served (s : State) (m : Master) (a : Nat) (t : HlSlave) (c : Nat) :
    (s.served m a t).bankOf c = s.bankOf c := by
  obtain ⟨k, hk⟩ := s.asked_eq_setMarks m.val a
  rw [State.served, hk]; rfl

@[simp] theorem State.bankOf_answered (s : State) (m : Master) (a : Nat) (t : HlSlave) (d : Word) (f : State → State) (c : Nat) :
    (s.answered m a t d f).bankOf c = (f (s.served m a t)).bankOf c := rfl

@[simp] theorem State.bankOf_seq (s : State) (p : Page) (c : Nat) : (s.seq p).bankOf c = s.bankOf c := rfl

theorem State.bankOf_setBank_ne (s : State) {c d : Nat} (h : d ≠ c) (x : Pool) : (s.setBank c x).bankOf d = s.bankOf d :=
  Tbl.get_set_ne _ h _ _

section
variable {s : State} {m : Master} {c : Fin 8} {e : BitVec 14}

/-- A served write of word `w` of an entry has the effect that the window gives the word. -/
theorem State.regWrite_routeStore {w : Nat} (hw : w < 8)
    (h : s.Serves m true (RSE c.val e.toNat w) (.window (.routeStore c.val e.toNat))) (v : Word) {f : State → State}
    (hf : (s.served m (RSE c.val e.toNat w) (.window (.routeStore c.val e.toNat))).windowWrite m.val (.routeStore c.val e.toNat)
      (RSE c.val e.toNat w) v = f (s.served m (RSE c.val e.toNat w) (.window (.routeStore c.val e.toNat)))) :
    s.regWrite m (RSE c.val e.toNat w) v =
      s.answered m (RSE c.val e.toNat w) (.window (.routeStore c.val e.toNat)) 0 f := by
  obtain ⟨hs, h4, -⟩ := rse_place c.isLt e.isLt hw
  exact (State.regWrite_window h hs h4 v).trans (State.answered_congr hf)

end

/-- A write of a word below word 3 is staged (R90). -/
theorem State.windowWrite_stage (s : State) (m : Nat) {c e w a : Nat} (ha : a % 0x20 / 4 = w) (hw : w < 3) (v : Word) :
    s.windowWrite m (.routeStore c e) a v =
      s.setBank c { s.bankOf c with stage := (s.bankOf c).stage.put e w v } := by
  subst ha
  simp only [State.windowWrite, hw, if_true]

/-- A write of word 3 is a commit (R90). -/
theorem State.windowWrite_commit (s : State) (m : Nat) {c e a : Nat} (ha : a % 0x20 / 4 = 3) (v : Word) :
    s.windowWrite m (.routeStore c e) a v = s.rsCommitBy m c e v := by
  simp only [State.windowWrite, ha, Nat.lt_irrefl, if_false, if_true]

/-! A commit -/

/-- Entry `e` of bank `c` refused with code `r`, recorded in RS_STAT and the bank's page (R91). -/
def State.rsRefused (s : State) (c : Fin 8) (e r : Nat) : State :=
  (((s.setFld (RS_STAT c.val) 13 0 e).setFld (RS_STAT c.val) 19 16 r).setBit (RS_STAT c.val) 24).pageErr (.cluster c) 0

section
variable {s : State} {m : Nat} {c : Fin 8} {e : Nat} {v : Word} {x : BitVec 128} (hx : (s.bankOf c.val).staged e v = (x, false))
include hx

/-- A commit that R91 accepts, or by which Gleaner poisons the entry, stores it. -/
theorem State.rsCommitBy_stores (h : commitRefusal c.val x = 0 ∨ m = 6 ∧ getBits v 31 30 = 3) :
    s.rsCommitBy m c.val e v =
      s.setBank c.val { (s.bankOf c.val).put e (storeEntry x (s.bankOf c.val).inj) with stage := {}, inj := 0 } := by
  by_cases hg : m = 6 ∧ getBits v 31 30 = 3
  · simp only [State.rsCommitBy, hx, hg, decide_true, Bool.and_self, if_true, Bool.false_eq_true, if_false]
  · have hb : (decide (m = 6) && decide (getBits v 31 30 = 3)) = false := by simpa using hg
    simp only [State.rsCommitBy, hb, State.rsCommit, hx, h.resolve_right hg, Bool.false_eq_true, if_false, if_true]

/-- The first commit that R91 refuses is recorded, and clears the staging. -/
theorem State.rsCommitBy_refused (hm : m = 6 → getBits v 31 30 ≠ 3) (hr : commitRefusal c.val x ≠ 0)
    (h24 : s.rbit (RS_STAT c.val) 24 = false) :
    s.rsCommitBy m c.val e v =
      (s.rsRefused c e (commitRefusal c.val x)).setBank c.val { s.bankOf c.val with stage := {} } := by
  have hb : (decide (m = 6) && decide (getBits v 31 30 = 3)) = false := by simpa using hm
  have hp : cluPage c.val = .cluster c := congrArg Page.cluster (Fin.ofNat_val_eq_self c)
  simp only [State.rsCommitBy, hb, State.rsCommit, hx, hr, h24, hp, Bool.false_eq_true, if_false, State.rsRefused]

end

theorem State.rd_setFld_self (s : State) (a hi lo v : Nat) : (s.setFld a hi lo v).rd a = putBits (s.rd a) hi lo v :=
  (State.rd_setFld s a a hi lo v).trans (if_pos rfl)

theorem State.rd_setBit_self (s : State) (a i : Nat) : (s.setBit a i).rd a = putBits (s.rd a) i i 1 :=
  s.rd_setFld_self a i i 1

theorem State.Marked.banks {K : Nat → Prop} {s t : State} (h : Marked K s t) : t.banks = s.banks := (congrArg State.banks h.bare :)

section
variable (s : State) (c : Fin 8) (e r : Nat)

theorem State.rd_rsRefused :
    (s.rsRefused c e r).rd (RS_STAT c.val) = putBits (putBits (putBits (s.rd (RS_STAT c.val)) 13 0 e) 19 16 r) 24 24 1 := by
  have he : RS_STAT c.val ≠ pageBase (.cluster c) + 0x18 := by simp only [pageBase, RS_STAT]; omega
  have hf : RS_STAT c.val ≠ pageBase (.cluster c) + 0x20 := by simp only [pageBase, RS_STAT]; omega
  have hp : RS_STAT c.val ∉ pulseRegs := not_mem_pulseRegs (by simp only [RS_STAT]; omega)
  rw [State.rsRefused, State.rd_pageErr _ he hf hp, State.rd_setBit_self, State.rd_setFld_self, State.rd_setFld_self]

/-- RS_STAT then tells the entry and the code. -/
theorem State.rsStat_rsRefused : (s.rsRefused c e r).fld (RS_STAT c.val) 13 0 = e % 2 ^ 14 ∧
    (s.rsRefused c e r).fld (RS_STAT c.val) 19 16 = r % 16 ∧ (s.rsRefused c e r).rbit (RS_STAT c.val) 24 = true := by
  simp only [State.fld, State.rbit, State.rd_rsRefused]
  refine ⟨?_, ?_, ?_⟩
  · rw [getBits_putBits_ne _ _ _ _ _ _ (by decide), getBits_putBits_ne _ _ _ _ _ _ (by decide),
      getBits_putBits_self _ _ _ _ (by decide) (by decide)]
  · rw [getBits_putBits_ne _ _ _ _ _ _ (by decide), getBits_putBits_self _ _ _ _ (by decide) (by decide)]
    simp only [Nat.reduceAdd, Nat.reduceSub, Nat.reducePow]
  · rw [bit_putBits_self _ _ _ _ _ (by decide) (by decide) (by decide)]
    rfl

theorem State.pageErr_rsRefused : (s.rsRefused c e r).rbit (pageBase (.cluster c) + 0x18) 0 = true :=
  State.rbit_pageErr_self _ _ (by decide) (not_mem_pulseRegs (by simp only [pageBase]; omega))

theorem State.bankOf_rsRefused (d : Nat) : (s.rsRefused c e r).bankOf d = s.bankOf d :=
  congrArg (Tbl.get _ · d) (((State.Marked.setFld id _ _ _).trans (.setFld id _ _ _)).trans
    (.setBit id _) |>.trans (State.pageErr_marked _ _ _)).banks

end

/-- A read of word 0 answers it and latches the entry for its master (R89). -/
theorem State.windowRead_latches (s : State) (m : Nat) {c e a : Nat} (ha : a % 0x20 / 4 = 0) :
    s.windowRead m (.routeStore c e) a = ((shownEntry ((s.bankOf c).at e)).extractLsb' 0 32, s.setBank c { s.bankOf c with
      latch := Tbl.set (fun _ => none) m (some { idx := e, val := shownEntry ((s.bankOf c).at e) }) (s.bankOf c).latch }) := by
  simp only [State.windowRead, ha, Pool.read, if_true]

/-! The page of the bank -/

theorem rsStat_eq (c : Fin 8) : RS_STAT c.val = pageBase (.cluster c) + 0x100 := by simp only [pageBase, RS_STAT]; omega
theorem rsErrinj_eq (c : Fin 8) : RS_ERRINJ c.val = pageBase (.cluster c) + 0x104 := by simp only [pageBase, RS_ERRINJ]; omega

/-- RS_ERRINJ has a field of sixteen bits that are written (R95). -/
theorem rsErrinj_row (c : Fin 8) : rowAt (.cluster c) 0x104 = some (reg1 0x104 0x0 [⟨.wo, 15, 0⟩]) := rfl

/-- A read of RS_STAT that is not latched answers the register. -/
theorem State.regGet_rsStat {s : State} {m : Master} {c : Fin 8}
    (h : s.Serves m false (RS_STAT c.val) (.page (.cluster c) 0x100)) (hl : s.latch m.val (RS_STAT c.val) = none) :
    s.regGet m (RS_STAT c.val) = s.answered m (RS_STAT c.val) (.page (.cluster c) 0x100) (s.rd (RS_STAT c.val)) id := by
  rw [rsStat_eq] at h hl ⊢
  have hp : pageBase (.cluster c) + 0x100 ≠ HL_PARK := by simp only [pageBase, HL_PARK]; omega
  rw [State.regGet_unlatched h (by decide) rfl hl rfl, State.regRead_active (by decide) rfl rfl,
    ← s.rd_served m (pageBase (.cluster c) + 0x100) (.page (.cluster c) 0x100) hp]
  rfl

/-- No field that Foreman may write is in the page (R358). -/
theorem State.managerWrote_cluster (s : State) (m : Nat) (c : Fin 8) {o : Nat} (ho : o < 0x1000) :
    s.managerWrote m (pageBase (.cluster c) + o) = s := by
  simp only [State.managerWrote, pageOf_base _ o ho, Bool.not_false, Bool.or_true, if_true]

theorem varTouched_cluster (c : Fin 8) (o : Nat) : varTouched (pageBase (.cluster c) + o) = false := by
  have h : ∀ b, b < 0x340000 → pageBase (.cluster c) + o ≠ b := by simp only [pageBase]; omega
  simp (disch := decide) only [varTouched, h, decide_false, Bool.or_self]

theorem State.writeEffect_rsErrinj (s : State) (m : Nat) (c : Fin 8) (v w : Word) :
    s.writeEffect m (.cluster c) 0x104 v w = s.setBank c.val { s.bankOf c.val with inj := v.extractLsb' 0 16 } := by
  simp only [State.writeEffect, State.clusterWrite, if_true]

/-- A write of RS_ERRINJ is what the next commit inverts (R95). -/
theorem State.regWrite_rsErrinj {s : State} {m : Master} {c : Fin 8} (h : s.Takes m (.cluster c) 0x104) (v : Word) :
    s.regWrite m (RS_ERRINJ c.val) v =
      s.wrote m (.cluster c) 0x104 fun u => u.setBank c.val { s.bankOf c.val with inj := v.extractLsb' 0 16 } := by
  have hp : pageBase (.cluster c) + 0x10 ≠ HL_PARK := pageBase_add_ne_hlPark _ (by decide)
  have hp' : pageBase (.cluster c) + 0x104 ≠ HL_PARK := by simp only [pageBase, HL_PARK]; omega
  have hv : varTouched (pageBase (.cluster c) + 0x104) = true → s.eng.varStep = 0 := by
    rw [varTouched_cluster]
    exact fun h => nomatch h
  have hopen (u : State) : BitVec.allOnes 32 = ~~~(u.inert (.cluster c) 0x104 ||| u.shut (.cluster c) 0x104) :=
    (by decide : BitVec.allOnes 32 = ~~~(0 ||| 0 : Word))
  have hstore : (0 : Word) = (RegRow.mask (reg1 0x104 0x0 [⟨.wo, 15, 0⟩]) .rw ||| (if s.rbit (pageBase (.cluster c) + 0x10) 2
      then 0 else RegRow.mask (reg1 0x104 0x0 [⟨.wo, 15, 0⟩]) .rwl)) &&& BitVec.allOnes 32 := by split <;> decide
  rw [rsErrinj_eq, State.regWrite_row h (by decide) (by decide) rfl (rsErrinj_row c) (by decide) (by decide) rfl
    (hopen _) hstore (by decide) hp hp' v rfl hv, BitVec.and_allOnes]
  refine State.answered_congr ?_
  refine (State.managerWrote_cluster _ m.val c (by decide)).trans ((State.writeEffect_rsErrinj _ _ _ _ _).trans ?_)
  rw [State.bankOf_seq, State.bankOf_served]

/-- Settles O27: the address gives the word of the entry, and the word decides between staging and a commit. -/
theorem routeStoreWindow : Obligations.RouteStoreWindow := by
  refine ⟨?stage, ?commit, ?refused, ?read, ?stat, ?errinj⟩
  case stage =>
    intro s m c e w v h
    refine congrArg _ (State.regWrite_routeStore (by omega) h v ?_)
    obtain ⟨-, -, hw⟩ := rse_place c.isLt e.isLt (w := w.val) (by omega)
    rw [State.windowWrite_stage _ _ hw w.isLt, State.bankOf_served]
  case commit =>
    intro s m c e v x h hx hr
    refine congrArg _ (State.regWrite_routeStore (by omega) h v ?_)
    obtain ⟨-, -, hw⟩ := rse_place c.isLt e.isLt (w := 3) (by omega)
    rw [State.windowWrite_commit _ _ hw, State.rsCommitBy_stores (by rwa [State.bankOf_served])
      (hr.imp_right fun ⟨hm, hv⟩ => ⟨congrArg Fin.val hm, hv⟩), State.bankOf_served]
  case refused =>
    intro s m c e v x h hm hx hr h24
    obtain ⟨-, -, hw⟩ := rse_place c.isLt e.isLt (w := 3) (by omega)
    have hp : RS_STAT c.val ≠ HL_PARK := by simp only [RS_STAT, HL_PARK]; omega
    have he : exec (.rsCommit m c e v) s = .next (s.answered m (RSE c.val e.toNat 3) (.window (.routeStore c.val e.toNat)) 0
        fun u => u.rsCommitBy m.val c.val e.toNat v) :=
      congrArg Host.Outcome.next (State.regWrite_routeStore (by omega) h v (State.windowWrite_commit _ _ hw v))
    refine ⟨_, he, ?_⟩
    generalize hu : s.served m (RSE c.val e.toNat 3) (.window (.routeStore c.val e.toNat)) = u
    have hbank (d : Nat) : u.bankOf d = s.bankOf d := by rw [← hu, State.bankOf_served]
    have hstat : u.rd (RS_STAT c.val) = s.rd (RS_STAT c.val) := by rw [← hu, s.rd_served m _ _ hp]
    have hcommit := State.rsCommitBy_refused (s := u) (m := m.val) (by rwa [hbank]) (fun h6 => hm (Fin.ext h6)) hr
      ((State.rbit_congr hstat 24).trans h24)
    obtain ⟨hidx, hcode, hset⟩ := u.rsStat_rsRefused c e.toNat (commitRefusal c.val x)
    have hrd (a : Nat) : (s.answered m (RSE c.val e.toNat 3) (.window (.routeStore c.val e.toNat)) 0
        fun u => u.rsCommitBy m.val c.val e.toNat v).rd a = (u.rsRefused c e.toNat (commitRefusal c.val x)).rd a := by
      rw [State.rd_answered, hu, hcommit]
      rfl
    refine ⟨(State.fld_congr (hrd _) 13 0).trans (hidx.trans (Nat.mod_eq_of_lt e.isLt)), (State.fld_congr (hrd _) 19 16).trans hcode,
      (State.rbit_congr (hrd _) 24).trans hset, (State.rbit_congr (hrd _) 0).trans (u.pageErr_rsRefused c _ _), ?_, fun d hd => ?_⟩
    · rw [State.bankOf_answered, hu, hcommit, State.bankOf_setBank_self, hbank]
    · rw [State.bankOf_answered, hu, hcommit, State.bankOf_setBank_ne _ hd, State.bankOf_rsRefused, hbank]
  case read =>
    intro s m c e h
    obtain ⟨hs, h4, hw⟩ := rse_place c.isLt e.isLt (w := 0) (by omega)
    have e1 := State.windowRead_latches (s.served m (RSE c.val e.toNat 0) (.window (.routeStore c.val e.toNat))) m.val (c := c.val) (e := e.toNat) hw
    rw [State.bankOf_served] at e1
    refine congrArg _ ((State.regGet_window h hs h4).trans ?_)
    rw [e1]
    refine State.answered_congr (congrArg Prod.snd e1)
  case stat => exact fun s m c h hl => congrArg _ (State.regGet_rsStat h hl)
  case errinj => exact fun s m c v h => congrArg _ (State.regWrite_rsErrinj h v)

end Sys2Proof.Machine
end

section
/-! The audit of a good Skidway frame (R303) comes before the frame is taken (R294, R296). Sealing a frame writes nothing but
its CRC (R289), so that a sealed frame is taken as the frame before sealing. -/

namespace Sys2Proof.Machine

theorem crcByte_lt {c : Nat} (h : c < 2 ^ 32) (b : BitVec 8) : crcByte c b < 2 ^ 32 := by
  have shift {x : Nat} (hx : x < 2 ^ 32) : (if x % 2 = 1 then (x / 2) ^^^ 0x82F63B78 else x / 2) < 2 ^ 32 := by
    split
    · exact Nat.xor_lt_two_pow (by omega) (by decide)
    · omega
  have hb : b.toNat < 2 ^ 32 := b.isLt.trans (by decide)
  exact shift (shift (shift (shift (shift (shift (shift (shift (Nat.xor_lt_two_pow h hb))))))))

theorem crc32c_lt (l : List (BitVec 8)) : crc32c l < 2 ^ 32 :=
  Nat.xor_lt_two_pow (List.foldlRecOn (motive := (· < 2 ^ 32)) l crcByte (by decide) fun _ hc b _ => crcByte_lt hc b) (by decide)

/-- A field below the CRC. -/
theorem sealed_field (f : Frame) {hi lo : Nat} (h : hi < 224) : getBits f.sealed.fcw hi lo = getBits f.fcw hi lo :=
  getBits_putBits_ne _ _ _ _ _ _ (.inl h)

theorem frameCrc_sealed (f : Frame) : frameCrc f.sealed = frameCrc f := by
  have low : f.sealed.fcw.toNat % 2 ^ 224 = f.fcw.toNat % 2 ^ 224 := sealed_field f (hi := 223) (lo := 0) (by decide)
  rw [frameCrc, frameBits, low]
  rfl

theorem sealed_good (f : Frame) : f.sealed.good = true := by
  have stored : getBits f.sealed.fcw 255 224 = frameCrc f :=
    (getBits_putBits_self _ _ _ _ (by decide) (by decide)).trans (Nat.mod_eq_of_lt (crc32c_lt _))
  exact decide_eq_true (stored.trans (frameCrc_sealed f).symm)

theorem sealed_slots (f : Frame) : f.sealed.slots = f.slots := rfl
theorem sealed_svalid (f : Frame) : f.sealed.svalid = f.svalid := sealed_field f (by decide)
theorem sealed_fseq (f : Frame) : f.sealed.fseq = f.fseq := sealed_field f (by decide)
theorem sealed_ctype (f : Frame) : f.sealed.ctype = f.ctype := sealed_field f (by decide)
theorem sealed_txpos (f : Frame) : f.sealed.txpos = f.txpos := sealed_field f (by decide)
theorem sealed_aval (f : Frame) : f.sealed.aval = f.aval := bit_putBits_ne _ _ _ _ 36 (.inl (by decide))
theorem sealed_nak (f : Frame) : f.sealed.nak = f.nak := bit_putBits_ne _ _ _ _ 37 (.inl (by decide))
theorem sealed_credit (f : Frame) {i : Nat} (h : i < 9) : f.sealed.credit i = f.credit i :=
  sealed_field f (by omega)

theorem sealed_loaded (f : Frame) : f.sealed.loaded = f.loaded := by
  rw [Frame.loaded, Frame.loaded, sealed_svalid, sealed_ctype, sealed_field f (by decide)]

theorem takeCred_sealed (x : Skw) (f : Frame) : x.takeCred f.sealed = x.takeCred f := by
  have grown (c : Tbl Nat) : (List.range 9).foldl (fun c i => Tbl.upd (fun _ => 0) i (· + f.sealed.credit i) c) c =
      (List.range 9).foldl (fun c i => Tbl.upd (fun _ => 0) i (· + f.credit i) c) c :=
    List.foldl_ext _ _ _ fun c i hi => by rw [sealed_credit f (List.mem_range.1 hi)]
  have full (peer cred : Tbl Nat) :
      ((List.range 9).any fun i => Tbl.get (fun _ => 0) peer i < Tbl.get (fun _ => 0) cred i && f.sealed.credit i ≠ 0) =
      (List.range 9).any fun i => Tbl.get (fun _ => 0) peer i < Tbl.get (fun _ => 0) cred i && f.credit i ≠ 0 := by
    rw [Bool.eq_iff_iff, List.any_eq_true, List.any_eq_true]
    exact exists_congr fun i => and_congr_right fun hi => by rw [sealed_credit f (List.mem_range.1 hi)]
  simp only [Skw.takeCred, grown, full]

theorem State.gotCtl_zero (s : State) (p : Nat) (d : BitVec 64) : s.gotCtl p 0 d = s := rfl

/-- Taking a frame without a control message does not look at its CRC. -/
theorem State.takeFrame_sealed (s : State) (p : Nat) {f : Frame} (h : f.ctype = 0) :
    s.takeFrame p f.sealed = s.takeFrame p f := by
  simp only [State.takeFrame, takeCred_sealed, sealed_slots, sealed_fseq, sealed_svalid, sealed_txpos, sealed_ctype, h, gotCtl_zero]

/-- An ACTIVE port after the count and the audit of a good frame that acknowledges nothing (R294, R301, R303). -/
def State.audited (s : State) (p : Nat) (f : Frame) : State :=
  let s := s.modSkw p fun y => { y with rxN := y.rxN + 1, rxApply := false }
  let hold := s.fld (SKW_CFG p) 8 4
  (s.modSkw p fun x => { x with raw := (s.rotPos + hold + 1024 - f.txpos) % 1024, txPos := f.txpos, stamp := s.stampFc 0 + hold,
                                nakGot := x.nakGot || f.nak, good := x.good + 1 }).oneWay p

theorem State.audited_sealed (s : State) (p : Nat) (f : Frame) : s.audited p f.sealed = s.audited p f := by
  rw [State.audited, sealed_txpos, sealed_nak]
  rfl

/-- The first loaded frame, when it is good, is taken after the audit. -/
theorem State.frameReceive_taken {s : State} {p : Nat} {f : Frame} (hruns : s.skwRuns p = true) (hst : s.skwState p = 5)
    (hstep : (s.skwOf p).stepRx = none) (hgood : f.good = true) (haval : f.aval = false) (hload : f.loaded = true)
    (hacc : ((s.audited p f).skwOf p).acc = none) (hseq : f.fseq = 0)
    (hend : ((s.audited p f).takeFrame p f).skwState p = 5) :
    s.frameReceive p f = (s.audited p f).takeFrame p f := by
  simp only [State.audited] at hacc hend ⊢
  simp [State.frameReceive, hruns, hst, hstep, hgood, haval, hload, hacc, hseq, hend]

/-- A flow number whose bit of FLOW_DEM lies in SKW_CFG of port 0, at bit 4: no type bounds the number of a flow context. -/
def farFlow : Nat := 32 * ((SKW_CFG 0 - FLOW_DEM 0) / 4) + 4

/-- An instance in DYNAMIC with port 0 ACTIVE and no hold set, and a valid flow that enters there under the number `farFlow`. -/
def farState : State :=
  { pwrOk := true, mode := .dynamic, fc := 100000, mc := 40000, regs := [(FEAT_ACTIVE_LO, 0x1010), (SKW_STAT 0, 5)],
    flows := [(farFlow, BitVec.ofNat 256 (2 ^ 24 + 2 ^ 26 + 81 * 2 ^ 16))] }

/-- A flit that is the whole packet of a request from MNI 0 to NI 5. -/
def soleFlit : Flit := mkFlit (mkHdr cREQ false 0 0 76 5 0 0 0) (setOpc 0 1) 0

/-- A loaded frame with `soleFlit` in slot 0, before it is sealed. -/
def plainFrame : Frame := { slots := some soleFlit :: List.replicate 11 none, fcw := 1 }

theorem credit_plainFrame {i : Nat} (h : i < 9) : plainFrame.credit i = 0 := by
  have all : ∀ i : Fin 9, plainFrame.credit i.val = 0 := by decide
  exact all ⟨i, h⟩

/-- After the audit the flit is held. -/
theorem farState_holds : (((farState.audited 0 plainFrame).takeFrame 0 plainFrame).skwOf 0).rxq.isEmpty = false := by decide +kernel

theorem farState_takes : farState.frameReceive 0 plainFrame.sealed = (farState.audited 0 plainFrame).takeFrame 0 plainFrame := by
  have taken := State.frameReceive_taken (s := farState) (p := 0) (by decide +kernel) (by decide +kernel) rfl (sealed_good plainFrame)
    ((sealed_aval _).trans (by decide)) ((sealed_loaded _).trans (by decide))
  rw [State.audited_sealed, State.takeFrame_sealed _ _ (by decide), sealed_fseq] at taken
  exact taken (by decide +kernel) (by decide) (by decide +kernel)

/-- Refutes O54, in the clause on a good loaded frame in order: the audit of the frame (R303) demotes the flows that enter at the port
before the frame is taken, and for the flow number `farFlow` that writes SKW_CFG, so that the flit is held, though no hold was set
when the frame came. -/
theorem not_skidwayFrames : ¬ Obligations.SkidwayFrames := by
  intro h
  obtain ⟨-, -, -, -, taken, -⟩ := h
  obtain ⟨t, ht, -, -, noHold, -⟩ := taken farState 0 plainFrame.sealed soleFlit (List.replicate 11 none) soleFlit
    (by decide +kernel) (by decide +kernel) (sealed_good _) ((sealed_aval _).trans (by decide)) ((sealed_fseq _).trans (by decide))
    ((sealed_svalid _).trans (by decide)) ((sealed_ctype _).trans (by decide)) rfl
    (fun i hi => (sealed_credit _ hi).trans (credit_plainFrame hi)) (by decide +kernel) (by decide +kernel) (by decide +kernel)
    (by decide +kernel) (by decide +kernel) rfl rfl
  obtain ⟨hrxq, -⟩ := noHold (by decide +kernel)
  rw [← Host.Outcome.next.inj ht] at hrxq
  have held := congrArg (fun t => (t.skwOf 0).rxq.isEmpty) farState_takes
  exact absurd ((congrArg List.isEmpty hrxq).symm.trans (held.trans farState_holds)) (by decide)

end Sys2Proof.Machine
end

section
/-! What errors, counters and the marks of a lookup leave (R57, R71, R94, R376, R456): the partitions too, and with them the
registers that belong to none of these. -/

namespace Sys2Proof.Machine

/-- A register that no error of a page, no flag of an overrun, no loss of the Journal and no counter is in. -/
def steady (a : Nat) : Prop :=
  (0x100 ≤ a % 0x1000 ∨ 0x2000000 ≤ a) ∧ a ≠ XING_OVR0 ∧ a ≠ XING_OVR1 ∧ a ≠ JRN_STAT ∧ offTally a

/-- From `s` to `t` there are marks that leave the partitions and the registers of `K`. -/
structure State.Noted (K : Nat → Prop) (s t : State) : Prop extends State.Marked K s t where
  parts : t.parts = s.parts

namespace State.Noted

variable {K : Nat → Prop} {s t u : State}

theorem refl (s : State) : Noted K s s := ⟨.refl s, rfl⟩

theorem trans (h : Noted K s t) (k : Noted K t u) : Noted K s u :=
  ⟨h.toMarked.trans k.toMarked, k.parts.trans h.parts⟩

theorem mono {L : Nat → Prop} (h : Noted K s t) (hL : ∀ a, L a → K a) : Noted L s t := ⟨h.toMarked.mono hL, h.parts⟩

theorem ite {a b : State} {c : Prop} [Decidable c] (ha : Noted K s a) (hb : Noted K s b) :
    Noted K s (if c then a else b) := by split <;> assumption

theorem forN {n : Nat} {f : Nat → State → State} (hf : ∀ i u, i < n → Noted K u (f i u)) (s : State) :
    Noted K s (forN n f s) := by
  induction n with
  | zero => exact refl s
  | succ n ih => exact (ih fun i u hi => hf i u (by omega)).trans (hf n _ (by omega))

theorem foldl {α : Type} {f : State → α → State} (l : List α) (hf : ∀ u x, Noted K u (f u x)) (s : State) :
    Noted K s (l.foldl f s) := by
  induction l generalizing s with
  | nil => exact refl s
  | cons x l ih => exact (hf s x).trans (ih _)

theorem same (h : t.bare = s.bare := by rfl) (hr : t.regs = s.regs := by rfl) (hp : t.parts = s.parts := by rfl) : Noted K s t :=
  ⟨.same h hr, hp⟩

theorem wr {a : Nat} (h : ¬ K a) (v : Word) : Noted K s (s.wr a v) := ⟨.wr h v, rfl⟩

theorem setFld {a : Nat} (h : ¬ K a) (hi lo v : Nat) : Noted K s (s.setFld a hi lo v) := wr h _

theorem satFld {a : Nat} (h : ¬ K a) (hi lo n : Nat) : Noted K s (s.satFld a hi lo n) := wr h _

theorem setBit {a : Nat} (h : ¬ K a) (i : Nat) : Noted K s (s.setBit a i) := (setFld h i i 1).trans same

end State.Noted

/-! Errors of pages and the Journal -/

theorem pageBase_lt (p : Page) : pageBase p < 0x2000000 := by
  cases p with
  | ni n => have := n.isLt; simp only [pageBase]; omega
  | router n => have := n.isLt; simp only [pageBase]; omega
  | skidway n => have := n.isLt; simp only [pageBase]; omega
  | cluster n => have := n.isLt; simp only [pageBase]; omega
  | partition n => have := n.isLt; simp only [pageBase]; omega
  | _ => simp only [pageBase]; omega

/-- A common register is not steady. -/
theorem not_steady_common (p : Page) {o : Nat} (ho : o < 0x100) : ¬ steady (pageBase p + o) := by
  have hm := pageBase_mod p
  have hl := pageBase_lt p
  rintro ⟨h, -⟩
  omega

/-- Tally's page and its counters are not steady. -/
theorem not_steady_tally {a : Nat} (h : ¬ offTally a) : ¬ steady a := fun hs => h hs.2.2.2.2

section
variable (s : State)

theorem State.errBit_noted (p : Page) (b : Nat) : Noted steady s (s.errBit p b) := by
  have h (o : Nat) (ho : o < 0x100) := not_steady_common p ho
  exact (Noted.ite (.wr (h 0x20 (by decide)) _) (.ite (.refl s) (.satFld (h 0x20 (by decide)) 7 5 1))).trans
    (.setBit (h 0x18 (by decide)) b)

theorem State.pulse_noted (p : Page) : Noted steady s (s.pulse p) := by
  unfold State.pulse
  extract_lets k last xing s1 a s2
  have h1 : Noted steady s s1 := .same
  have h2 : Noted steady s s2 := .ite h1 (h1.trans .same)
  have ha : ¬ steady a := by
    rintro ⟨-, h0, h1, -⟩
    simp only [a] at h0 h1
    split at h0
    · exact h0 rfl
    · next hk => exact h1 (if_neg hk)
  exact .ite (.refl s) (.ite h1 ((h2.trans (.setBit ha _)).trans (State.errBit_noted _ _ _)))

theorem State.pageErr_noted (p : Page) (b : Nat) : Noted steady s (s.pageErr p b) :=
  (s.errBit_noted p b).trans (State.pulse_noted _ p)

theorem State.niErr_noted (n b : Nat) : Noted steady s (s.niErr n b) := s.pageErr_noted _ b

theorem State.journal_noted (e : JEntry) : Noted steady s (s.journal e) :=
  .ite .same (((Noted.satFld (a := JRN_STAT) (fun h => h.2.2.2.1 rfl) 15 0 1).trans (State.pageErr_noted _ _ _)).trans .same)

/-! Counters -/

theorem State.setCnt_noted (i v : Nat) : Noted steady s (s.setCnt i v) :=
  (Noted.setFld (not_steady_tally (not_offTally_cnt i 0)) 31 0 v).trans
    (.setFld (not_steady_tally (not_offTally_cnt i 1)) 15 0 _)

theorem State.cntOvf_noted {i : Nat} (hi : i < 1272) : Noted steady s (s.cntOvf i) := by
  have ho : ¬ offTally (TLY_OVF (i / 32)) := by simp only [offTally, TLY_OVF]; omega
  have hirq (u : State) : Noted steady u (u.pageIrq .tally 0) :=
    (Noted.setBit (not_steady_common .tally (o := 0x24) (by decide)) 0).trans (State.pulse_noted _ _)
  exact ((Noted.trans .same (.setBit (not_steady_tally (not_offTally_cnt i 3)) 0)).trans (.setBit (not_steady_tally ho) _)).trans
    (.ite (hirq _) (.refl _))

theorem State.cntCarry_noted (i n : Nat) : Noted steady s (s.cntCarry i n) := .ite (.refl s) .same

theorem State.addCnt_noted {i : Nat} (hi : i < 1272) (add : Nat) : Noted steady s (s.addCnt i add) := by
  unfold State.addCnt
  extract_lets v w s1 s2
  have h1 : Noted steady s s1 :=
    ((s.setCnt_noted i _).trans (State.setCnt_noted _ (i + 1) _)).trans (State.cntCarry_noted _ i _)
  have h2 : Noted steady s s2 := s.setCnt_noted i _
  exact .ite (.refl s) (.ite (s.setCnt_noted i _) (.ite (.ite (h1.trans (State.cntOvf_noted _ hi)) h1)
    (.ite (h2.trans (State.cntOvf_noted _ hi)) h2)))

theorem State.countIn_noted {base n : Nat} (h : base + n ≤ 1272) (code port add : Nat) (hit : Nat → Bool) :
    Noted steady s (s.countIn base n code port add hit) :=
  .ite (.refl s) (.forN (fun j u hj => .ite (u.addCnt_noted (by omega) add) (.refl u)) s)

theorem State.countN_noted {n : Nat} (hn : n < 87) (code add : Nat) (hit : Nat → Bool) :
    Noted steady s (s.countN n code add hit) := s.countIn_noted (by omega) code 8 add hit

theorem State.countG_noted (code port add : Nat) : Noted steady s (s.countG code port add) :=
  .ite (.refl s) (s.countIn_noted (by decide) code port add unfiltered)

/-! The marks of a lookup -/

theorem State.lookMarks_noted (c : Nat) (f : Found) : Noted steady s (s.lookMarks c f) := by
  unfold State.lookMarks
  extract_lets s1
  have h1 : Noted steady s s1 := .ite (.refl s) (s.pageErr_noted _ _)
  refine h1.trans (.foldl _ (fun u i => ?_) _)
  exact (u.pageErr_noted _ _).trans (Noted.trans .same (.ite .same (State.pageErr_noted _ _ _)))

theorem State.lookCount_noted {n : Nat} (hn : n < 87) (f : Found) : Noted steady s (s.lookCount n f) :=
  (((s.lookMarks_noted _ f).trans (Noted.trans .same (State.countG_noted _ _ _ _))).trans
    (State.countN_noted _ hn _ _ _)).trans (State.countN_noted _ hn _ _ _)

end

end Sys2Proof.Machine
end

section
/-! What the end of lines at their source leaves (R246, R327, R442, R447): the links, the partitions, the other NIs, the NI's own
queues and the count of expired holds. -/

namespace Sys2Proof.Machine

/-- From `s` to `t` NI `n` does what changes no queue of it, no partition and no count of expired holds. -/
structure State.Aside (n : Nat) (s t : State) : Prop extends State.Local n s t where
  parts  : t.parts = s.parts
  queues : (t.niOf n).queues = (s.niOf n).queues
  cnt    : t.rd PWR_CNT = s.rd PWR_CNT

theorem steady_pwrCnt : steady PWR_CNT := by
  unfold steady offTally
  decide

/-- Marks that leave the steady registers leave the count of expired holds. -/
theorem State.Noted.cnt {s t : State} (h : Noted steady s t) : Noted (· = PWR_CNT) s t :=
  h.mono fun _ ha => ha ▸ steady_pwrCnt

namespace State.Aside

variable {n : Nat} {s t u : State}

theorem refl (s : State) : Aside n s s := ⟨.refl s, rfl, rfl, rfl⟩

theorem trans (h : Aside n s t) (k : Aside n t u) : Aside n s u :=
  ⟨h.toLocal.trans k.toLocal, k.parts.trans h.parts, k.queues.trans h.queues, k.cnt.trans h.cnt⟩

theorem ite {a b : State} {c : Prop} [Decidable c] (ha : Aside n s a) (hb : Aside n s b) :
    Aside n s (if c then a else b) := by split <;> assumption

theorem foldl {α : Type} {f : State → α → State} (l : List α) (hf : ∀ u x, Aside n u (f u x)) (s : State) :
    Aside n s (l.foldl f s) := by
  induction l generalizing s with
  | nil => exact refl s
  | cons x l ih => exact (hf s x).trans (ih _)

theorem modNi {f : Ni → Ni} (h : (f (s.niOf n)).queues = (s.niOf n).queues) : Aside n s (s.modNi n f) :=
  ⟨.modNi f, rfl, by rw [State.niOf_modNi_self, h], rfl⟩

theorem modLed (k : Nat) (f : LEntry → LEntry) : Aside n s (s.modLed n k f) := modNi rfl

theorem of_noted (h : Noted (· = PWR_CNT) s t) : Aside n s t :=
  ⟨.of_marked h.toMarked, h.parts, by rw [h.niOf], h.rd _ rfl⟩

end State.Aside

theorem Ni.queues_freeEntry (x : Ni) (k : Nat) : (x.freeEntry k).queues = x.queues := by
  have unreserved (l : List (LPart)) (x : Ni) :
      (l.foldl (fun x p => if p.open_ then x.unreserve p.rkey p.rn else x) x).queues = x.queues := by
    induction l generalizing x with
    | nil => rfl
    | cons p l ih => rw [List.foldl_cons, ih]; split <;> rfl
  exact unreserved _ x

theorem Ni.queues_barNote (x : Ni) (e : LEntry) (code : Code) : (x.barNote e code).queues = x.queues := by
  unfold Ni.barNote
  split <;> rfl

theorem Ni.ledger_barNote (x : Ni) (e : LEntry) (code : Code) : (x.barNote e code).ledger = x.ledger := by
  unfold Ni.barNote
  split <;> rfl

section
variable (s : State) {n : Nat}

theorem State.toUnit_aside (m : Msg) : Aside n s (s.toUnit n m) := .ite (.modNi rfl) (.refl s)

theorem State.answerUnit_aside (m : Msg) (load : Nat) : Aside n s (s.answerUnit n m load) := by
  have hd : DL_STAT n ≠ PWR_CNT := by simp only [DL_STAT, PWR_CNT]; omega
  exact .ite ((Aside.of_noted (.setFld (a := DL_STAT n) hd _ _ _)).trans (State.toUnit_aside _ _)) (s.toUnit_aside m)

theorem State.failUnitBy_aside (k : Nat) (lines : List Nat) (code : Code) (src : Option (BitVec 128)) (load : Nat) :
    Aside n s (s.failUnitBy n k lines code src load) := by
  unfold State.failUnitBy
  refine .ite (.refl s) (.foldl _ (fun u j => ?_) s)
  split
  · exact u.answerUnit_aside _ load
  · exact .refl u

theorem State.ownerDone_noted (o : Owner) (code : Code) : Noted (· = PWR_CNT) s (s.ownerDone o code) := by
  unfold State.ownerDone
  refine .ite (.refl s) ?_
  split
  case _ p =>
    have ha : PJ_STAT p ≠ PWR_CNT := by simp only [PJ_STAT, PWR_CNT]; omega
    exact (Noted.satFld (a := PJ_STAT p) ha _ _ _).trans (State.pageErr_noted _ _ _).cnt
  case _ => exact (Noted.satFld (by decide) _ _ _).trans (State.pageErr_noted _ _ _).cnt
  case _ j =>
    have ha : PRB_STAT j ≠ PWR_CNT := by simp only [PRB_STAT, PWR_CNT]; omega
    exact (Noted.setBit (a := PRB_STAT j) ha _).trans (State.pageErr_noted _ _ _).cnt
  case _ => exact .refl s

theorem State.countEnd_noted (hn : n < 87) (k : Nat) : Noted steady s (s.countEnd n k) := by
  unfold State.countEnd
  extract_lets e hit s1
  have h1 : Noted steady s s1 := .ite (s.countN_noted hn _ _ _) (.refl s)
  exact .ite (.ite h1 ((h1.trans (State.countN_noted _ hn _ _ _)).trans (State.countN_noted _ hn _ _ _)))
    (h1.trans (State.countN_noted _ hn _ _ _))

theorem State.endEntry_aside (hn : n < 87) (k : Nat) (st : LState) (code : Code) (split : Nat) (unk : Bool) :
    Aside n s (s.endEntry n k st code split unk) := by
  unfold State.endEntry
  extract_lets e s1 s2 s3
  have h1 : Aside n s s1 := .modLed k _
  have h2 : Aside n s s2 := (h1.trans (.modNi (by rw [Ni.queues_barNote, Ni.queues_freeEntry]))).trans
    (.of_noted (State.ownerDone_noted _ _ _))
  have h3 : Aside n s s3 := h2.trans (.of_noted (s2.countEnd_noted hn k).cnt)
  exact .ite (h3.trans (.of_noted (State.journal_noted _ _).cnt)) h3

/-- An ended entry has the state and the code given to it. -/
theorem State.led_endEntry (hn : n < 87) (k : Nat) (st : LState) (code : Code) (split : Nat) (unk : Bool) :
    (((s.endEntry n k st code split unk).niOf n).led k).st = st ∧
    (((s.endEntry n k st code split unk).niOf n).led k).code = code := by
  unfold State.endEntry
  extract_lets e s1 s2 s3
  have h3 : ((s3.niOf n).led k) = ((s1.niOf n).freeEntry k).led k := by
    rw [(s2.countEnd_noted hn k).niOf, (State.ownerDone_noted _ _ _).niOf, State.niOf_modNi_self]
    exact congrArg (Tbl.get _ · k) (Ni.ledger_barNote _ _ _)
  obtain ⟨hst, hcode⟩ := (s1.niOf n).led_freeEntry k
  have hled : ((s3.niOf n).led k).st = st ∧ ((s3.niOf n).led k).code = code := by
    rw [h3, hst, hcode, State.led_modLed_self]
    exact ⟨rfl, rfl⟩
  split
  · rw [State.ledgerJ, (State.journal_noted _ _).niOf]
    exact hled
  · exact hled

theorem State.finish_aside (hn : n < 87) (k : Nat) : Aside n s (s.finish n k) := by
  unfold State.finish
  extract_lets e
  split
  · exact s.endEntry_aside hn k _ _ _ _
  · exact .refl s

theorem State.failLinesBy_aside (hn : n < 87) (k : Nat) (lines : List Nat) (code : Code) (src : Option (BitVec 128)) (load : Nat) :
    Aside n s (s.failLinesBy n k lines code src load) := by
  unfold State.failLinesBy
  extract_lets e todo first s1
  have h1 : Aside n s s1 := s.failUnitBy_aside k _ code src load
  exact .ite (.refl s) (.ite (.modLed k _) ((h1.trans (.modLed k _)).trans (State.finish_aside _ hn k)))

theorem State.failLines_aside (hn : n < 87) (k : Nat) (lines : List Nat) (code : Code) :
    Aside n s (s.failLines n k lines code) := s.failLinesBy_aside hn k lines code none 0

end

end Sys2Proof.Machine
end

section
/-! An entry of which every line ends with one failure code is FAILED with it (R251, R327, R443). -/

namespace Sys2Proof.Machine

/-! The entry alone -/

theorem LEntry.awaited_fresh {e : LEntry} (hc : e.codes = []) : e.awaited = List.range e.lines := by
  simp [LEntry.awaited, hc]

/-- With every line ended by the same code. -/
def LEntry.allEnd (e : LEntry) (code : Code) : LEntry := e.take ((List.range e.lines).map fun j => (j, code))

theorem LEntry.codes_allEnd {e : LEntry} (hc : e.codes = []) (code : Code) :
    (e.allEnd code).codes = (List.range e.lines).map fun j => (j, code) := by
  simp only [LEntry.allEnd, LEntry.take, hc, LEntry.awaited_fresh hc, List.nil_append, List.filter_eq_self, List.mem_map]
  rintro _ ⟨j, hj, rfl⟩
  simpa using hj

theorem LEntry.awaited_allEnd {e : LEntry} (hc : e.codes = []) (code : Code) : (e.allEnd code).awaited = [] := by
  rw [LEntry.awaited, LEntry.codes_allEnd hc, List.filter_eq_nil_iff]
  intro j hj
  have hl : (e.allEnd code).lines = e.lines := rfl
  simpa [hl] using hj

theorem LEntry.outcome_allEnd {e : LEntry} (hc : e.codes = []) (hl : 0 < e.lines) {code : Code} (hok : code ≠ OK)
    (hp : code ≠ PARTIAL) : (e.allEnd code).outcome = (.failed, code, 0, false) := by
  have hcodes := LEntry.codes_allEnd hc code
  obtain ⟨m, hm⟩ : ∃ m, e.lines = m + 1 := ⟨_, (Nat.succ_pred_eq_of_pos hl).symm⟩
  have first : (e.allEnd code).codeOf 0 = some code := by
    simp [LEntry.codeOf, hcodes, hm, List.range_succ_eq_map]
  have found : ((List.range (e.allEnd code).lines).find? fun j => (e.allEnd code).codeOf j ≠ some OK) = some 0 := by
    have hl : (e.allEnd code).lines = m + 1 := hm
    rw [hl, List.range_succ_eq_map, List.find?_cons_of_pos]
    simpa [first] using hok
  have good : ((e.allEnd code).codes.any fun x => x.2 = OK || x.2 = PARTIAL) = false := by
    rw [hcodes, List.any_eq_false]
    simpa using fun _ _ => (⟨hok, hp⟩ : ¬code = 0#8 ∧ ¬code = 11#8)
  unfold LEntry.outcome
  rw [found]
  simp only [first, good, Option.getD_some, Bool.false_eq_true, if_false, ite_self]

/-! The state -/

section
variable (s : State) {n : Nat}

theorem State.ledger_failUnitBy (k : Nat) (lines : List Nat) (code : Code) (src : Option (BitVec 128)) (load : Nat) :
    ((s.failUnitBy n k lines code src load).niOf n).ledger = (s.niOf n).ledger := by
  unfold State.failUnitBy
  extract_lets e
  clear_value e
  split
  · rfl
  · induction lines generalizing s with
    | nil => rfl
    | cons j l ih =>
      rw [List.foldl_cons, ih]
      split
      · exact State.ledger_answerUnit _ _ _ _ _
      · rfl

/-- Failing every line of an open entry with no outcome yet. -/
theorem State.led_failAll (hn : n < 87) {k : Nat} (ho : ((s.niOf n).led k).isOpen = true) (hc : ((s.niOf n).led k).codes = [])
    (hl : 0 < ((s.niOf n).led k).lines) {code : Code} (hok : code ≠ OK) (hp : code ≠ PARTIAL) :
    (((s.failAll n k code).niOf n).led k).st = .failed ∧ (((s.failAll n k code).niOf n).led k).code = code := by
  generalize he : (s.niOf n).led k = e at ho hc hl
  have todo : (List.range e.lines).filter (fun j => (List.range e.lines).contains j) = List.range e.lines := by
    simp [List.filter_eq_self]
  have held : e.iocHeld ((List.range e.lines).headD 0) = false := by
    obtain ⟨m, hm⟩ : ∃ m, e.lines = m + 1 := ⟨_, (Nat.succ_pred_eq_of_pos hl).symm⟩
    simp [LEntry.iocHeld, LEntry.awaited_fresh hc, hm, List.range_succ_eq_map]
  let u := s.failUnitBy n k (List.range e.lines) code none 0
  let v := u.modLed n k fun e' => e'.take ((List.range e.lines).map fun j => (j, code))
  have hv : (v.niOf n).led k = e.allEnd code := by
    have hu : (u.niOf n).led k = e := (congrArg (Tbl.get _ · k) (s.ledger_failUnitBy k _ code none 0)).trans he
    rw [State.led_modLed_self, hu]
    rfl
  have ends : s.failAll n k code = v.endEntry n k .failed code 0 false := by
    have hf : v.finish n k = v.endEntry n k .failed code 0 false := by
      have ho' : (e.allEnd code).isOpen = true := ho
      simp [State.finish, hv, ho', LEntry.awaited_allEnd hc, LEntry.outcome_allEnd hc hl hok hp]
    rw [← hf, State.failAll, State.failLines, State.failLinesBy, he]
    simp only [ho, LEntry.awaited_fresh hc, todo, held, Bool.not_true, Bool.false_eq_true, if_false, u, v]
  rw [ends]
  exact v.led_endEntry hn k _ _ _ _

end

end Sys2Proof.Machine
end

section
/-! The packet of a message that is built whole (R70, R76, R250, R501). -/

namespace Sys2Proof.Machine

/-! What the marks of a lookup leave of the checks -/

theorem steady_far {a : Nat} (h : 0x2000000 ≤ a) (h' : a < 0x3000000) : steady a := by
  simp only [steady, XING_OVR0, XING_OVR1, JRN_STAT, offTally]
  omega

theorem steady_injQbase {n : Nat} (hn : n < 87) : steady (INJ_QBASE n) := by
  simp only [steady, INJ_QBASE, XING_OVR0, XING_OVR1, JRN_STAT, offTally]
  omega

theorem steady_fuseStat : steady FUSE_STAT := by
  unfold steady offTally
  decide

theorem steady_pwrHold : steady PWR_HOLD := by
  unfold steady offTally
  decide

/-- A message that passes has a found leaf, prefetchable for a read ahead, and the partition of its queue. -/
theorem State.resolvedCode_ok {s : State} {n j : Nat} {it : QItem} {f : Found} (h : s.resolvedCode n j it f = OK) :
    f.code = OK ∧ (it.ra && !f.pf) = false ∧
    (it.owner = .unit && j < 256 && !it.anyPart && it.cls ≠ cMGT && f.part.getD it.part ≠ s.qPart n j) = false := by
  unfold State.resolvedCode at h
  extract_lets part at h
  split_ifs at h with h1 h2 h3 h4 h5 h6 h7
  case pos => exact absurd h h1
  case neg => exact ⟨not_not.1 h1, by simpa using h2, by simpa using h4⟩
  all_goals exact absurd h (by decide)

namespace State.Noted

variable {s t : State} {n j : Nat}

theorem qPart (h : Noted steady s t) (hn : n < 87) (hj : j < 257) : t.qPart n j = s.qPart n j := by
  have hd : t.qDesc n j = s.qDesc n j := congrArg (· + j) (State.fld_congr (h.rd _ (steady_injQbase hn)) 13 0)
  have hlt : s.qDesc n j < 16641 := by
    have : s.fld (INJ_QBASE n) 13 0 < 2 ^ 14 := Nat.mod_lt _ (by decide)
    simp only [State.qDesc]
    omega
  rw [State.qPart, State.qPart, hd, State.fld_congr (h.rd _ (steady_far (by simp only [QD]; omega) (by simp only [QD]; omega)))]

theorem resolvedCode (h : Noted steady s t) (hn : n < 87) (hj : j < 257) (it : QItem) (f : Found) :
    t.resolvedCode n j it f = s.resolvedCode n j it f := by
  simp only [State.resolvedCode, h.qPart hn hj, h.niOf, State.fld_congr (h.rd _ steady_pwrHold)]

end State.Noted

/-- The lookup of a message that passes leaves its marks alone (R71, R379). -/
theorem State.resolvedMarks_noted {s : State} {n j : Nat} (hn : n < 87) (hj : j < 257) {it : QItem} {f : Found}
    (h : s.resolvedCode n j it f = OK) : Noted steady s (s.resolvedMarks n j it f) := by
  obtain ⟨hcode, hra, hpart⟩ := State.resolvedCode_ok h
  unfold State.resolvedMarks
  extract_lets u s1 s2
  have hu : Noted steady s u := s.lookCount_noted hn f
  have h1 : Noted steady s s1 := .ite (.refl s) (by rw [if_neg (not_not.2 hcode)]; exact hu)
  have h2 : s2 = s1 := if_neg (by rw [Bool.and_assoc, hra]; simp)
  have hpart' : ¬ (f.code = OK && it.owner = .unit && j < 256 && !it.anyPart && it.cls ≠ cMGT &&
      f.part.getD it.part ≠ s2.qPart n j) = true := by
    rw [h2, h1.qPart hn hj, hcode]
    simpa using hpart
  rw [if_neg hpart', h2]
  exact h1

/-! The packet -/

theorem Ni.queues_noteHold (x : Ni) (part : BitVec 9) (d : NodeId) (hold : Bool) (ord : Nat) :
    (x.noteHold part d hold ord).queues = x.queues := by
  unfold Ni.noteHold
  split <;> rfl

theorem Ni.queue_putItem (x : Ni) (j i : Nat) (new : List QItem) :
    (x.putItem j i new).queue j = (x.queue j).take i ++ new ++ (x.queue j).drop (i + 1) := Tbl.get_set_self _ _ _ _

theorem State.sprayed_aside (s : State) (n vn : Nat) (f : Found) : Aside n s (s.sprayed n vn f) := by
  unfold State.sprayed
  split
  · exact .modNi rfl
  · exact .refl s

theorem State.resolvedCode_modLed (s : State) (n k : Nat) (g : LEntry → LEntry) (j : Nat) (it : QItem) (f : Found) :
    (s.modLed n k g).resolvedCode n j it f = s.resolvedCode n j it f := by
  have own : ((s.modLed n k g).niOf n).own = (s.niOf n).own := by rw [State.modLed, State.niOf_modNi_self]; rfl
  have off : ((s.modLed n k g).niOf n).backoff = (s.niOf n).backoff := by rw [State.modLed, State.niOf_modNi_self]; rfl
  simp only [State.resolvedCode, Ni.backingOff, own, off]
  rfl

/-- A message that can be built whole has its packet in its place in the queue. -/
theorem State.buildAt_built {s : State} {n j i : Nat} (hn : n < 87) (hj : j < 257) {it : QItem} {f : Found}
    (h : s.Builds n j i it f) :
    s.Built (s.buildAt n j i) n j i it f ∧ Local n s (s.buildAt n j i) ∧ (s.buildAt n j i).parts = s.parts := by
  obtain ⟨hitem, hfresh, hfound, hwhole, hlines, hpass, htarget⟩ := h
  subst hfound
  generalize ht : s.buildAt n j i = t
  unfold State.buildAt at ht
  split at ht
  case _ hnone => rw [List.head?_drop, hitem] at hnone; cases hnone
  case _ it0 hsome =>
  obtain rfl : it = it0 := by rw [List.head?_drop, hitem] at hsome; exact Option.some.inj hsome
  rw [if_neg (by rw [hfresh]; decide)] at ht
  extract_lets f gran it' k tag body s1 code part hdr built s2 s3 s4 s5 at ht
  have hk : k = it.lines := hwhole
  have hmarks : Noted steady s (s.resolvedMarks n j it f) := State.resolvedMarks_noted hn hj hpass
  have hcode : code = OK := (State.resolvedCode_modLed _ n _ _ j it f).trans ((hmarks.resolvedCode hn hj it f).trans hpass)
  have hthere : ¬ (dataCls it'.cls && it'.body.length < min k it'.lines) = true := by
    rw [hk, Nat.min_self, Bool.and_eq_true, decide_eq_true_eq]
    exact fun ⟨hd, hl⟩ => absurd (hlines hd) (Nat.not_le.2 hl)
  have hlast : ¬ k < it'.lines := by rw [hk]; exact Nat.lt_irrefl _
  rw [if_neg hthere, if_neg (not_not.2 hcode), if_neg (by rw [htarget]; decide), if_neg hlast] at ht
  have h1 : Aside n s s1 := (Aside.of_noted hmarks.cnt).trans (.modLed _ _)
  have h4 : Aside n s3 s4 := .ite (.modNi (Ni.queues_noteHold _ _ _ _ _)) (.refl s3)
  have h5 : Aside n s3 s5 := (h4.trans (s4.sprayed_aside n _ f)).trans (.modLed _ _)
  have hend : Aside n s3 t := ht ▸ h5.trans (s5.failLines_aside hn _ _ _)
  have hq : (t.niOf n).queue j = ((s.niOf n).queue j).take i ++ [built] ++ ((s.niOf n).queue j).drop (i + 1) := by
    have q3 : (s3.niOf n).queue j = ((s1.niOf n).queue j).take i ++ [built] ++ ((s1.niOf n).queue j).drop (i + 1) := by
      rw [State.niOf_modNi_self, Ni.queue_putItem, if_neg hlast]
    have q1 : (s1.niOf n).queue j = (s.niOf n).queue j := congrArg (Tbl.get _ · j) h1.queues
    rw [q1] at q3
    exact (congrArg (Tbl.get _ · j) hend.queues).trans q3
  have hnode : s1.node n = s.node n := State.node_of_marked hmarks.toMarked steady_fuseStat n
  have hbody : body = it.cut it.lines := congrArg it.cut hk
  refine ⟨⟨built, _, hq, rfl, rfl, rfl, hbody, ?_⟩, (h1.toLocal.trans (.modNi _)).trans hend.toLocal, hend.parts.trans h1.parts⟩
  simp only [hdr, hnode, hbody]
  rfl

end Sys2Proof.Machine
end

section
/-! Lookups of waiting messages and answers, and heads that are held (R70, R398, R501, R503). -/

namespace Sys2Proof.Machine

/-! Answers -/

theorem modFirst_congr {α : Type} {p : α → Bool} {f g : α → α} (h : ∀ x, p x = true → f x = g x) (l : List α) :
    modFirst p f l = modFirst p g l := by
  induction l with
  | nil => rfl
  | cons x l ih =>
    rw [modFirst, modFirst, ih]
    split
    · next hx => rw [h x hx]
    · rfl

theorem State.niOf_sprayed (s : State) (n vn : Nat) (f : Found) :
    ∃ sp, (s.sprayed n vn f).niOf n = { s.niOf n with spray := sp } := by
  unfold State.sprayed
  split
  · exact ⟨_, State.niOf_modNi_self _ _ _⟩
  · exact ⟨_, rfl⟩

/-- An answer with the route that its lookup found. -/
def AItem.routeBy (a : AItem) (r : BitVec 36) : AItem :=
  { a with routed := true, pkt := { a.pkt with hdr := setRoute a.pkt.hdr r } }

/-- The oldest answer without a route takes the one that its lookup finds; of the NI the spray pointers may change too. -/
theorem State.niOf_routeAnswer {s : State} {n : Nat} (hn : n < 87) {a : AItem} {f : Found}
    (ha : (s.niOf n).answers.find? (fun a => !a.routed) = some a)
    (hf : f = s.look { n := n, key := .node (hDst a.pkt.hdr), vn := hVn a.pkt.hdr, cls := hCls a.pkt.hdr, isReq := false,
                       mask := s.fenceMask })
    (hcode : f.code = OK) (hopen : f.fenced = false) :
    ∃ sp, (s.routeAnswer n).niOf n =
      { s.niOf n with spray := sp, answers := modFirst (· = a) (·.routeBy f.route) (s.niOf n).answers } := by
  obtain ⟨sp, hsp⟩ := (s.lookCount n f).niOf_sprayed n (hVn a.pkt.hdr) f
  have route (x : Ni) : modFirst (· = a)
      (fun b => { b with routed := true, pkt := { b.pkt with hdr := setRoute a.pkt.hdr f.route } }) x.answers =
      modFirst (· = a) (·.routeBy f.route) x.answers := modFirst_congr (fun b hb => by rw [of_decide_eq_true hb]; rfl) _
  refine ⟨sp, ?_⟩
  simp only [State.routeAnswer, ha, ← hf, hcode, hopen, ne_eq, not_true_eq_false, Bool.false_eq_true, if_false, route]
  rw [State.niOf_modNi_self, hsp, (s.lookCount_noted hn f).niOf]

/-! Heads that are held -/

theorem State.relook_unchanged {s : State} {n j : Nat}
    (h : ∀ it, ((s.niOf n).queue j).head? = some it → it.held = none ∨ it.mask = s.fenceMask) : s.relook n j = s := by
  unfold State.relook
  split
  case _ it rest hq =>
    refine if_neg ?_
    rcases h it (by rw [hq]; rfl) with hh | hh <;> simp [hh]
  case _ => rfl

theorem State.relook_changed {s : State} {n j : Nat} {it : QItem} (hq : ((s.niOf n).queue j).head? = some it)
    (hheld : it.held.isSome = true) (hfresh : it.pkt = none) (hmask : it.mask ≠ s.fenceMask) :
    s.relook n j = s.buildAt n j 0 := by
  obtain ⟨rest, hq⟩ : ∃ rest, (s.niOf n).queue j = it :: rest := List.head?_eq_some_iff.1 hq
  simp [State.relook, hq, hheld, hfresh, hmask]

/-- A head that is not held, or whose hold lasts, stays. -/
theorem State.holdEnd_lasts {s : State} {n j : Nat}
    (h : ∀ it t, ((s.niOf n).queue j).head? = some it → it.held = some t → s.fc < t + s.fld PWR_HOLD 23 0) : s.holdEnd n j = s := by
  unfold State.holdEnd
  split
  case _ it rest hq =>
    split
    case _ t ht =>
      have := h it t (by rw [hq]; rfl) ht
      exact if_neg (by simp only [Bool.and_eq_true, decide_eq_true_eq]; omega)
    case _ => rfl
  case _ => rfl

/-- The state in which the head of queue `j` has left, and its write-combining line with it. -/
def State.unheld (s : State) (n j : Nat) (it : QItem) : State :=
  let s := s.modNi n fun x => x.putItem j 0 []
  if it.wcb then s.modNi n fun x => x.dropLine it.tag else s

/-- A hold that has lasted its time ends the whole message. -/
theorem State.holdEnd_expired {s : State} {n j t : Nat} {it : QItem} {rest : List QItem} (hruns : s.runs (niTile n) = true)
    (hq : (s.niOf n).queue j = it :: rest) (hheld : it.held = some t) (hfresh : it.pkt = none)
    (hdue : t + s.fld PWR_HOLD 23 0 ≤ s.fc) (hidx : it.lidx = 0) :
    s.holdEnd n j = ((s.unheld n j it).failAll n (tagKey it.tag) FENCED).satFld PWR_CNT 15 0 1 := by
  have hmode : s.mode ≠ .frozen := by
    simp only [State.runs, Bool.and_eq_true, bne_iff_ne] at hruns
    tauto
  simp [State.holdEnd, hq, hheld, hfresh, hdue, hmode, State.failRest, hidx, State.unheld]

/-- The rest of the queue, the Ledger and the other NIs as the head leaves. -/
theorem State.unheld_leaves (s : State) (n j : Nat) (it : QItem) :
    Local n s (s.unheld n j it) ∧ ((s.unheld n j it).niOf n).queue j = ((s.niOf n).queue j).drop 1 ∧
    ((s.unheld n j it).niOf n).ledger = (s.niOf n).ledger ∧ (s.unheld n j it).rd PWR_CNT = s.rd PWR_CNT := by
  have hput : (((s.niOf n).putItem j 0 []).queue j) = ((s.niOf n).queue j).drop 1 := Ni.queue_putItem _ _ _ _
  unfold State.unheld
  extract_lets u
  have hu : u.niOf n = (s.niOf n).putItem j 0 [] := State.niOf_modNi_self _ _ _
  split
  · refine ⟨(Local.modNi _).trans (.modNi _), ?_, ?_, rfl⟩
    · rw [State.niOf_modNi_self, hu]; exact hput
    · rw [State.niOf_modNi_self, hu]; rfl
  · exact ⟨.modNi _, by rw [hu]; exact hput, by rw [hu]; rfl, rfl⟩

theorem State.fld_satFld_pwrCnt (s : State) : (s.satFld PWR_CNT 15 0 1).fld PWR_CNT 15 0 = min (s.fld PWR_CNT 15 0 + 1) 0xFFFF := by
  have h : (s.satFld PWR_CNT 15 0 1).rd PWR_CNT = putBits (s.rd PWR_CNT) 15 0 (min (s.fld PWR_CNT 15 0 + 1) 0xFFFF) :=
    State.rd_wr_self _ _ _
  rw [State.fld, h, getBits_putBits_self _ _ _ _ (by decide) (by decide)]
  exact Nat.mod_eq_of_lt (by omega)

/-- The message of an expired hold leaves the queue, and its entry, with no outcome before, is FAILED with FENCED. -/
theorem State.holdEnd_fails {s : State} {n j t : Nat} (hn : n < 87) {it : QItem} {rest : List QItem}
    (hruns : s.runs (niTile n) = true) (hq : (s.niOf n).queue j = it :: rest) (hheld : it.held = some t) (hfresh : it.pkt = none)
    (hdue : t + s.fld PWR_HOLD 23 0 ≤ s.fc) (hidx : it.lidx = 0) (hopen : ((s.niOf n).led (tagKey it.tag)).isOpen = true)
    (hcodes : ((s.niOf n).led (tagKey it.tag)).codes = []) (hlines : 0 < ((s.niOf n).led (tagKey it.tag)).lines) :
    Local n s (s.holdEnd n j) ∧ ((s.holdEnd n j).niOf n).queue j = rest ∧
    (((s.holdEnd n j).niOf n).led (tagKey it.tag)).st = .failed ∧ (((s.holdEnd n j).niOf n).led (tagKey it.tag)).code = FENCED ∧
    (s.holdEnd n j).fld PWR_CNT 15 0 = min (s.fld PWR_CNT 15 0 + 1) 0xFFFF := by
  rw [State.holdEnd_expired hruns hq hheld hfresh hdue hidx]
  obtain ⟨hlocal, hrest, hledger, hcnt⟩ := s.unheld_leaves n j it
  have hled : ((s.unheld n j it).niOf n).led (tagKey it.tag) = (s.niOf n).led (tagKey it.tag) := congrArg (Tbl.get _ · _) hledger
  obtain ⟨hst, hcode⟩ := (s.unheld n j it).led_failAll hn (hled ▸ hopen) (hled ▸ hcodes) (hled ▸ hlines)
    (code := FENCED) (by decide) (by decide)
  have hfail : Aside n (s.unheld n j it) ((s.unheld n j it).failAll n (tagKey it.tag) FENCED) :=
    State.failLines_aside _ hn _ _ _
  refine ⟨(hlocal.trans hfail.toLocal).trans .same, ?_, hst, hcode, ?_⟩
  · exact (congrArg (Tbl.get _ · _) hfail.queues).trans (hrest.trans (by rw [hq]; rfl))
  · rw [State.fld_satFld_pwrCnt, State.fld_congr (hfail.cnt.trans hcnt)]

/-! The obligation -/

/-- Settles O45: a lookup that passes builds the packet in its place in the queue (`State.buildAt_built`) or routes the answer
(`State.niOf_routeAnswer`); an expired hold ends every line of the entry (`State.holdEnd_fails`). -/
theorem lookupsBuildPackets : Obligations.LookupsBuildPackets := by
  refine ⟨?builds, ?idle, ?answer, ?relook, ?unchanged, ?expires, ?lasts⟩
  case builds =>
    intro s n j i it f hruns hun hheld hb
    obtain ⟨built, hlocal, hparts⟩ := State.buildAt_built (n := n.val) (by omega) (by omega) hb
    refine ⟨s.buildAt n.val j.toNat i, congrArg Host.Outcome.next ?_, built, hlocal.other, hlocal.links, hparts⟩
    simp [State.lookupAt, hruns, State.buildQueue, hun, List.head?_drop, hb.item, hheld]
  case idle =>
    intro s n j hun
    refine congrArg Host.Outcome.next ?_
    simp [State.lookupAt, State.buildQueue, hun]
  case answer =>
    intro s n a f hruns ha hf hcode hopen
    have hany : (s.niOf n.val).answers.any (fun a => !a.routed) = true :=
      List.any_eq_true.2 ⟨a, List.mem_of_find?_eq_some ha, (List.find?_some ha :)⟩
    obtain ⟨sp, hni⟩ := State.niOf_routeAnswer (n := n.val) (by omega) ha hf hcode hopen
    refine ⟨s.routeAnswer n.val, congrArg Host.Outcome.next ?_, congrArg Ni.answers hni, (congrArg Ni.queues hni :),
      (congrArg Ni.ledger hni :), (s.routeAnswer_local (by omega)).other⟩
    simp [State.lookupAt, hruns, hany]
  case relook =>
    intro s n j it f hruns hheld hmask hb
    obtain ⟨built, hlocal, -⟩ := State.buildAt_built (n := n.val) (by omega) j.isLt hb
    have hq : ((s.niOf n.val).queue j.val).head? = some it := by rw [List.head?_eq_getElem?]; exact hb.item
    refine ⟨s.buildAt n.val j.val 0, congrArg Host.Outcome.next ?_, built, hlocal.other⟩
    exact (if_pos hruns).trans (State.relook_changed hq hheld hb.fresh hmask)
  case unchanged =>
    intro s n j h
    refine congrArg Host.Outcome.next ?_
    simp only [State.atTile, State.relook_unchanged h, ite_self]
  case expires =>
    intro s n j it rest h hruns hq hheld hfresh hmask hdue hidx hopen hcodes hlines
    have hstay : s.relook n.val j.val = s := State.relook_unchanged fun it' hit => by
      rw [hq] at hit
      exact .inr (Option.some.inj hit ▸ hmask)
    obtain ⟨hlocal, hrest, hst, hcode, hcnt⟩ :=
      State.holdEnd_fails (by omega) hruns hq hheld hfresh hdue hidx hopen hcodes hlines
    refine ⟨s.holdEnd n.val j.val, congrArg Host.Outcome.next ((if_pos hruns).trans ?_), hrest, hst, hcode, hcnt, hlocal.other⟩
    exact congrArg (State.holdEnd · n.val j.val) hstay
  case lasts =>
    intro s n j h
    have hstay : s.relook n.val j.val = s := State.relook_unchanged fun it hit => by
      cases hh : it.held with
      | none => exact .inl rfl
      | some t => exact .inr (h it t hit hh).1
    refine congrArg Host.Outcome.next ?_
    simp only [State.atTile, hstay, State.holdEnd_lasts fun it t hit ht => (h it t hit ht).2, ite_self]

end Sys2Proof.Machine
end

section
/-! What a write of a page leaves: fields and bits of the registers it names, the other registers, and the state around the
registers. A page that no tile has marks errors and interrupts in its own registers alone (R406). -/

namespace Sys2Proof.Machine

/-! Fields and bits of a register that is written -/

section
variable (s : State) (a : Nat) {hi lo hi' lo' i : Nat} (v : Nat)

theorem State.fld_setFld_self (h : lo ≤ hi) (hw : hi < 32) : (s.setFld a hi lo v).fld a hi lo = v % 2 ^ (hi + 1 - lo) := by
  rw [State.fld, State.rd_setFld_self, getBits_putBits_self _ _ _ _ h hw]

/-- Of a field that is written, a part. -/
theorem State.fld_setFld_apart (h : hi' < lo ∨ hi < lo') : (s.setFld a hi lo v).fld a hi' lo' = s.fld a hi' lo' := by
  rw [State.fld, State.rd_setFld_self, getBits_putBits_ne _ _ _ _ _ _ h, State.fld]

theorem State.fld_setFld_ne {b : Nat} (h : b ≠ a) : (s.setFld a hi lo v).fld b hi' lo' = s.fld b hi' lo' :=
  State.fld_congr (s.rd_setFld_ne h hi lo v) hi' lo'

theorem State.fld_setBit_apart (h : hi' < i ∨ i < lo') : (s.setBit a i).fld a hi' lo' = s.fld a hi' lo' :=
  s.fld_setFld_apart a 1 h

theorem State.fld_setBit_ne {b : Nat} (h : b ≠ a) : (s.setBit a i).fld b hi' lo' = s.fld b hi' lo' :=
  State.fld_congr (s.rd_setBit_ne h i) hi' lo'

theorem State.rbit_setFld_ne {b : Nat} (h : b ≠ a) : (s.setFld a hi lo v).rbit b i = s.rbit b i :=
  State.rbit_congr (s.rd_setFld_ne h hi lo v) i

/-- A field of the whole word. -/
theorem putBits_word (x : Word) : putBits x 31 0 v = BitVec.ofNat 32 v := by
  refine BitVec.eq_of_getLsbD_eq fun j hj => ?_
  rw [putBits_getLsbD _ _ _ _ _ hj, if_pos (by omega), BitVec.getLsbD_ofNat]
  simp [hj]

theorem State.rd_setFld_word : (s.setFld a 31 0 v).rd a = BitVec.ofNat 32 v :=
  (s.rd_setFld_self a 31 0 v).trans (putBits_word v _)

end

/-- A signed field reads the number written, when it fits. -/
theorem State.sfld_setSfld_self (s : State) (a : Nat) {hi : Nat} (hw : hi < 32) {v : Int} (hl : -(2 ^ hi : Int) ≤ v)
    (hu : v < (2 ^ hi : Int)) : (s.setSfld a hi 0 v).sfld a hi 0 = v := by
  have hf : (s.setSfld a hi 0 v).fld a hi 0 = (BitVec.ofInt (hi + 1) v).toNat :=
    (s.fld_setFld_self a _ (Nat.zero_le hi) hw).trans (Nat.mod_eq_of_lt (BitVec.ofInt (hi + 1) v).isLt)
  rw [State.sfld, hf, Nat.sub_zero, BitVec.ofNat_toNat, BitVec.setWidth_eq]
  exact BitVec.toInt_ofInt_eq_self (Nat.succ_pos hi) (by simpa using hl) (by simpa using hu)

/-! What the bits of a stored word are (R10) -/

section
variable (x v m : Word)

/-- A bit that is stored. -/
theorem bit_stored {i : Nat} (h : bit m i = true) : bit ((x &&& ~~~ m) ||| (v &&& m)) i = bit v i := by
  simp only [bit] at h
  have hi : i < 32 := BitVec.lt_of_getLsbD h
  simp only [bit, BitVec.getLsbD_or, BitVec.getLsbD_and, BitVec.getLsbD_not, h, hi, decide_true, Bool.not_true, Bool.and_false,
    Bool.false_or, Bool.and_true]

/-- A field all of whose bits are stored. -/
theorem getBits_stored {hi lo : Nat} (h : ∀ i, lo ≤ i → i ≤ hi → bit m i = true) :
    getBits ((x &&& ~~~ m) ||| (v &&& m)) hi lo = getBits v hi lo := by
  refine Nat.eq_of_testBit_eq fun i => ?_
  rw [getBits_testBit, getBits_testBit]
  by_cases hi' : i < hi + 1 - lo
  · have hb := bit_stored x v m (h (lo + i) (by omega) (by omega))
    simp only [bit] at hb
    rw [hb]
  · simp only [hi', decide_false, Bool.false_and]

/-- The bits that a command sets are none of those stored. -/
theorem withBits_and {b : Nat} (h : BitVec.ofNat 32 b &&& m = 0) : withBits v b &&& m = v &&& m := by
  refine BitVec.eq_of_getLsbD_eq fun i _ => ?_
  have hi : ((BitVec.ofNat 32 b) &&& m).getLsbD i = false := by rw [h]; simp
  rw [BitVec.getLsbD_and] at hi
  rw [BitVec.getLsbD_and, BitVec.getLsbD_or, BitVec.getLsbD_and, Bool.and_or_distrib_right, hi, Bool.or_false]

/-- A field below the bits that a command sets, or above them. -/
theorem getBits_withBits {b hi lo : Nat} (hw : hi < 32) (h : ∀ i, lo ≤ i → i ≤ hi → b.testBit i = false) :
    getBits (withBits v b) hi lo = getBits v hi lo := by
  refine Nat.eq_of_testBit_eq fun i => ?_
  rw [getBits_testBit, getBits_testBit]
  by_cases hi' : i < hi + 1 - lo
  · have hb := bit_withBits_other v (b := b) (i := lo + i) (by omega) (h _ (by omega) (by omega))
    simp only [bit] at hb
    rw [hb]
  · simp only [hi', decide_false, Bool.false_and]

end

/-! Pages without a tile -/

theorem State.pulse_untiled (s : State) {p : Page} (h : 56 ≤ pageDomain p) : s.pulse p = s := if_pos h

theorem State.pageErr_untiled (s : State) {p : Page} (h : 56 ≤ pageDomain p) (b : Nat) : s.pageErr p b = s.errBit p b :=
  State.pulse_untiled _ h

theorem State.pageIrq_untiled (s : State) {p : Page} (h : 56 ≤ pageDomain p) (b : Nat) :
    s.pageIrq p b = s.setBit (pageBase p + 0x24) b := State.pulse_untiled _ h

theorem State.rbit_errBit_self (s : State) (p : Page) {b : Nat} (hb : b < 32) :
    (s.errBit p b).rbit (pageBase p + 0x18) b = true := State.rbit_setBit_self _ _ hb

/-! Registers and marks alone -/

/-- From `s` to `t` registers and marks alone change. -/
def State.RegsOnly (s t : State) : Prop := ∃ r n, t = { s with regs := r, notes := n }

namespace State.RegsOnly

variable {s t u : State}

theorem refl (s : State) : RegsOnly s s := ⟨s.regs, s.notes, rfl⟩

theorem trans (h : RegsOnly s t) (k : RegsOnly t u) : RegsOnly s u := by
  obtain ⟨_, _, rfl⟩ := h
  obtain ⟨r, n, rfl⟩ := k
  exact ⟨r, n, rfl⟩

theorem wr (s : State) (a : Nat) (v : Word) : RegsOnly s (s.wr a v) := ⟨_, s.notes, rfl⟩
theorem setFld (s : State) (a hi lo v : Nat) : RegsOnly s (s.setFld a hi lo v) := wr s a _
theorem setBit (s : State) (a i : Nat) : RegsOnly s (s.setBit a i) := ⟨_, _, rfl⟩

theorem ite {a b : State} {c : Prop} [Decidable c] (ha : RegsOnly s a) (hb : RegsOnly s b) :
    RegsOnly s (if c then a else b) := by split <;> assumption

theorem errBit (s : State) (p : Page) (b : Nat) : RegsOnly s (s.errBit p b) :=
  (ite (wr s _ _) (ite (refl s) (setFld s _ 7 5 _))).trans (setBit _ _ _)

theorem seq (s : State) (p : Page) : RegsOnly s (s.seq p) := setFld s _ _ _ _

theorem served (s : State) (m : Master) (a : Nat) (t : HlSlave) : RegsOnly s (s.served m a t) := by
  obtain ⟨n, hn⟩ := s.asked_eq m.val a
  rw [State.served, hn]
  exact ⟨_, n, rfl⟩

/-- The rest of the state stands as it was. -/
theorem rest (h : RegsOnly s t) : { t with regs := s.regs, notes := s.notes } = s := by
  obtain ⟨_, _, rfl⟩ := h
  rfl

theorem time (h : RegsOnly s t) : t.time = s.time := by obtain ⟨_, _, rfl⟩ := h; rfl
theorem mode (h : RegsOnly s t) : t.mode = s.mode := by obtain ⟨_, _, rfl⟩ := h; rfl
theorem change (h : RegsOnly s t) : t.change = s.change := by obtain ⟨_, _, rfl⟩ := h; rfl
theorem sw (h : RegsOnly s t) : t.sw = s.sw := by obtain ⟨_, _, rfl⟩ := h; rfl

end State.RegsOnly

/-! The write of a register -/

/-- The state that the effect of a counted write acts on (R280, R471). -/
def State.counted (s : State) (m : Master) (p : Page) (o : Nat) : State := (s.served m (pageBase p + o) (.page p o)).seq p

theorem State.counted_regsOnly (s : State) (m : Master) (p : Page) (o : Nat) : RegsOnly s (s.counted m p o) :=
  (RegsOnly.served s m _ _).trans (.seq _ p)

theorem State.rd_counted (s : State) (m : Master) {p : Page} (o : Nat) {a : Nat} (h : a ≠ HL_PARK) (h' : a ≠ pageBase p + 0x30) :
    (s.counted m p o).rd a = s.rd a := (State.rd_seq _ h').trans (s.rd_served m _ _ h)

/-- Effects that agree on that state leave the same. -/
theorem State.wrote_congr {s : State} {m : Master} {p : Page} {o : Nat} {f g : State → State}
    (h : f (s.counted m p o) = g (s.counted m p o)) : s.wrote m p o f = s.wrote m p o g :=
  State.answered_congr (f := fun u => f (u.seq p)) (g := fun u => g (u.seq p)) h

/-- What a write leaves but its effect: the answer. -/
theorem State.wrote_eq (s : State) (m : Master) (p : Page) (o : Nat) (f : State → State) :
    ∃ h, s.wrote m p o f = { f (s.counted m p o) with hlAns := h } := ⟨_, rfl⟩

/-- Foreman may write registers of NI pages alone (R358). -/
theorem State.managerWrote_page (s : State) (m : Nat) {p : Page} (hp : ∀ n, p ≠ .ni n) {o : Nat} (ho : o < 0x1000) :
    s.managerWrote m (pageBase p + o) = s := by
  rw [State.managerWrote, pageOf_base p o ho]
  cases p with
  | ni n => exact absurd rfl (hp n)
  | _ => simp only [Bool.not_false, Bool.or_true, if_true]

/-- Offset `o` of page `p`, which is no NI page, is that of a register with the row `r`, which a write reaches and which has no field
of type W1C or RWL. -/
structure StoreReg (p : Page) (o : Nat) (r : RegRow) : Prop where
  page : ∀ n, p ≠ .ni n
  low  : 0x100 ≤ o
  high : o < 0x1000
  word : o % 4 = 0
  park : pageBase p + o ≠ HL_PARK
  row  : rowAt p o = some r
  w1c  : r.mask .w1c = 0
  rwl  : r.mask .rwl = 0
  open_ : r.writable ≠ 0

section
variable {s u : State} {m : Master} {p : Page} {o : Nat} {r : RegRow} (hr : StoreReg p o r) (h : s.Takes m p o)
  (hu : s.served m (pageBase p + o) (.page p o) = u) (hopen : u.inert p o ||| u.shut p o = 0) {v : Word}
include hr h hu hopen

/-- A write that reaches such a register, all of whose bits are open, and which its state does not refuse: the effect takes the word
that the RW bits leave. -/
theorem State.regWrite_open (hsr : u.stateRefused p o v = none) (hva : varTouched (pageBase p + o) = true → s.eng.varStep = 0) :
    s.regWrite m (pageBase p + o) v = s.wrote m p o fun u =>
      u.writeEffect m.val p o v ((s.rd (pageBase p + o) &&& ~~~ (r.mask .rw)) ||| (v &&& r.mask .rw)) := by
  have hw := hr.open_
  have hall : BitVec.allOnes 32 = ~~~ (u.inert p o ||| u.shut p o) := by rw [hopen]; decide
  have hstore : r.mask .rw = (r.mask .rw ||| (if s.rbit (pageBase p + 0x10) 2 then 0 else r.mask .rwl)) &&& BitVec.allOnes 32 := by
    rw [hr.rwl, ite_self, BitVec.and_allOnes]
    exact BitVec.or_zero.symm
  have hne : r.mask .rw ||| (r.mask .wo &&& BitVec.allOnes 32) ≠ 0 := by
    rw [RegRow.writable, hr.rwl] at hw
    rwa [BitVec.and_allOnes, ← BitVec.or_zero (x := r.mask .rw)]
  rw [State.regWrite_row h hr.low hr.high hr.word hr.row hr.w1c hw hu.symm hall hstore hne
    (pageBase_add_ne_hlPark p (by decide)) hr.park v (by rwa [BitVec.and_allOnes]) hva, BitVec.and_allOnes]
  exact State.answered_congr (State.managerWrote_page _ m.val hr.page hr.high)

/-- A write that the state of the register refuses (R142, R146). -/
theorem State.regWrite_refused {f : State → State} (hsr : u.stateRefused p o v = some (f u)) :
    s.regWrite m (pageBase p + o) v = s.answered m (pageBase p + o) (.page p o) 0 f := by
  have hw := hr.open_
  have hen : u.rbit (pageBase p + 0x10) 0 = true := by
    rw [← hu, State.rbit_congr (s.rd_served m _ _ (pageBase_add_ne_hlPark p (by decide)))]
    exact h.enabled
  have hall : ~~~ (u.inert p o ||| u.shut p o) = BitVec.allOnes 32 := by rw [hopen]; decide
  have hne : (r.mask .rw ||| (0 : Word)) ||| r.mask .wo ≠ 0 := by rwa [RegRow.writable, hr.rwl] at hw
  refine State.regWrite_page_ok h.serves hr.high hr.word ?_
  rw [hu, State.pageWrite, if_neg (Nat.not_lt.mpr hr.low), hr.row]
  simp only [State.rowWrite, hr.w1c, hr.rwl, hall, hen, ite_self, if_true, if_neg hw, BitVec.and_allOnes, if_neg hne, hsr,
    Bool.not_true, Bool.false_and, Bool.false_eq_true, if_false]

end

end Sys2Proof.Machine
end

section
/-! Obligations.SwitchoverEvents (R147, R148, R176, R439): the commit of an armed switchover, the switch at B and its end. -/

namespace Sys2Proof.Machine

/-! Mode changes -/

/-- The end of a mode change is noted in MODE_STAT and on the GLOBAL page (R416, R439). -/
theorem State.modeDone_eq (s : State) (prev : Mode) :
    s.modeDone prev = (s.setFld MODE_STAT 7 4 prev.code).setBit 0x024 0 := State.pageIrq_untiled _ (by decide) 0

/-- Foreman's variant sequence has nothing to abandon when it does not run (R361). -/
theorem State.varLeave_idle {s : State} (h : s.mode = .scheduled → s.eng.varStep = 0) : s.varLeave = s := by
  unfold State.varLeave
  split
  · next hm => exact if_pos (h hm)
  · rfl

/-- The state with a mode in force, the rules of a mode change having acted at every NI (R419). -/
def State.inMode (s : State) (g : Mode) : State :=
  { s with mode := g, ni := Tbl.mapWith (fun _ => {}) (fun _ x => x.modeChange) s.ni }

theorem State.toMode_idle {s : State} (h : s.mode = .scheduled → s.eng.varStep = 0) (g : Mode) : s.toMode g = s.inMode g := by
  simp only [State.toMode, State.varLeave_idle h, State.inMode]

@[simp] theorem State.rd_inMode (s : State) (g : Mode) (a : Nat) : (s.inMode g).rd a = s.rd a := rfl

/-- The boundary B of a switchover that changes the mode to `g` (R148). -/
def State.switched (s : State) (g : Mode) : State := ((s.setFld SW_STAT 2 0 4).toMode g).modeDone s.mode

theorem State.switched_eq {s : State} (h : s.mode = .scheduled → s.eng.varStep = 0) (g : Mode) :
    s.switched g = (((s.setFld SW_STAT 2 0 4).inMode g).setFld MODE_STAT 7 4 s.mode.code).setBit 0x024 0 := by
  rw [State.switched, State.modeDone_eq, State.toMode_idle (s := s.setFld SW_STAT 2 0 4) h]

/-- A switch of the mode names the mode left and changes the mode and the NIs alone. -/
theorem State.switched_facts {s : State} {l : Mode} (hl : s.mode = l) (h : l = .scheduled → s.eng.varStep = 0) (g : Mode) :
    (s.switched g).mode = g ∧ (s.switched g).swState = 4 ∧ (s.switched g).fld MODE_STAT 7 4 = l.code % 2 ^ 4 ∧
    (s.switched g).rbit 0x024 0 = true ∧
    (∀ a, a ≠ SW_STAT → a ≠ MODE_STAT → a ≠ 0x024 → (s.switched g).rd a = s.rd a) ∧
    { s.switched g with regs := s.regs, mode := s.mode, ni := s.ni, notes := s.notes } = s := by
  rw [State.switched_eq (hl ▸ h)]
  obtain ⟨r, n, e⟩ := (RegsOnly.setFld ((s.setFld SW_STAT 2 0 4).inMode g) MODE_STAT 7 4 s.mode.code).trans (.setBit _ 0x024 0)
  refine ⟨by rw [e]; rfl, ?_, ?_, State.rbit_setBit_self _ _ (by decide), fun a h1 h2 h3 => ?_, by rw [e]; rfl⟩
  · rw [State.swState, State.fld_setBit_ne _ _ (by decide), State.fld_setFld_ne _ _ _ (by decide), State.fld, State.rd_inMode]
    exact s.fld_setFld_self SW_STAT 4 (by decide) (by decide)
  · rw [State.fld_setBit_ne _ _ (by decide), State.fld_setFld_self _ _ _ (by decide) (by decide), hl]
  · rw [State.rd_setBit_ne _ h3, State.rd_setFld_ne _ h2, State.rd_inMode, s.rd_setFld_ne h1]

/-! The commit (R147) and the boundary B (R148) -/

theorem State.swCommitStep_commits {s : State} {d : Nat} (h : s.swState = 2)
    (hd : s.fcUntil ((s.rd SW_SEC_HI).toNat * 2 ^ 32 + (s.rd SW_SEC_LO).toNat) (s.fld SW_IDX 21 0) = some d) (hle : d ≤ 1024) :
    s.swCommitStep = { s.setFld SW_STAT 2 0 3 with sw := { s.sw with b := s.fc + d, fixed := true } } := by
  simp only [State.swCommitStep, h, hd, hle, ne_eq, not_true_eq_false, if_true, if_false]

theorem State.swCommitStep_other {s : State} (h : s.swState ≠ 2) : s.swCommitStep = s := if_pos h

section
variable {s : State} (h : s.swState = 3) (hb : s.sw.b ≤ s.fc)
include h hb

/-- At B a SWAP changes no mode. -/
theorem State.swSwitch_swap (hk : s.sw.kind = 0) : s.swSwitch = s.setFld SW_STAT 2 0 4 := by
  have hk' : (s.setFld SW_STAT 2 0 4).sw.kind = 0 := hk
  simp only [State.swSwitch, h, hk', Nat.not_lt.mpr hb, ne_eq, not_true_eq_false, decide_false, Bool.or_self, Bool.false_eq_true,
    if_false, OfNat.zero_ne_ofNat, zero_ne_one, Bool.false_and]

/-- At B an ENTER from DYNAMIC puts SCHEDULED in force. -/
theorem State.swSwitch_enter (hk : s.sw.kind = 1) (hm : s.mode = .dynamic) : s.swSwitch = s.switched .scheduled := by
  have hk' : (s.setFld SW_STAT 2 0 4).sw.kind = 1 := hk
  have hm' : (s.setFld SW_STAT 2 0 4).mode = .dynamic := hm
  simp only [State.swSwitch, h, hk', hm', Nat.not_lt.mpr hb]
  rw [State.switched, hm]
  rfl

/-- At B a LEAVE from SCHEDULED puts DYNAMIC in force. -/
theorem State.swSwitch_leave (hk : s.sw.kind = 2) (hm : s.mode = .scheduled) : s.swSwitch = s.switched .dynamic := by
  have hk' : (s.setFld SW_STAT 2 0 4).sw.kind = 2 := hk
  have hm' : (s.setFld SW_STAT 2 0 4).mode = .scheduled := hm
  simp only [State.swSwitch, h, hk', hm', Nat.not_lt.mpr hb]
  rw [State.switched, hm]
  rfl

end

theorem State.swSwitch_other {s : State} (h : s.swState ≠ 3) : s.swSwitch = s := by
  simp only [State.swSwitch, h, ne_eq, not_false_eq_true, decide_true, Bool.true_or, if_true]

/-! The end (R148, R176) -/

/-- The Granaries of the first `k` NIs take the reservations of the image that becomes active. -/
def State.resvTaken (s : State) (k : Nat) : State := forN k (fun n s => s.setFld (GRAN_LIM4 n) 26 16 (s.resvOf n)) s

theorem State.RegsOnly.bankImg {s t : State} (h : RegsOnly s t) (b : Nat) : t.bankImg b = s.bankImg b := by
  obtain ⟨_, _, rfl⟩ := h
  rfl

theorem State.resvTaken_succ (s : State) (k : Nat) :
    s.resvTaken (k + 1) = (s.resvTaken k).setFld (GRAN_LIM4 k) 26 16 ((s.resvTaken k).resvOf k) := rfl

theorem State.resvTaken_regsOnly (s : State) (k : Nat) : RegsOnly s (s.resvTaken k) := by
  induction k with
  | zero => exact .refl s
  | succ k ih => exact ih.trans (.setFld _ _ _ _ _)

theorem State.rd_resvTaken_ne (s : State) {a k : Nat} (h : ∀ n, n < k → a ≠ GRAN_LIM4 n) : (s.resvTaken k).rd a = s.rd a := by
  induction k with
  | zero => rfl
  | succ k ih => rw [State.resvTaken_succ, State.rd_setFld_ne _ (h k (by omega)), ih fun n hn => h n (by omega)]

/-- The registers of the SCHED page are none of them. -/
theorem ne_granLim4 {a : Nat} (h : a < 0x100000) (n : Nat) : a ≠ GRAN_LIM4 n := by simp only [GRAN_LIM4]; omega

/-- The reservation of an NI is that of the image, whatever the Granaries hold. -/
theorem State.resvOf_resvTaken (s : State) (k n : Nat) : (s.resvTaken k).resvOf n = s.resvOf n := by
  have hact : (s.resvTaken k).activeBank = s.activeBank :=
    State.fld_congr (s.rd_resvTaken_ne fun n _ => ne_granLim4 (by decide) n) 3 3
  have hsw : (s.resvTaken k).sw = s.sw := (s.resvTaken_regsOnly k).sw
  rw [State.resvOf, State.resvOf, hsw, hact, (s.resvTaken_regsOnly k).bankImg]

theorem State.fld_resvTaken (s : State) {k n : Nat} (h : n < k) :
    (s.resvTaken k).fld (GRAN_LIM4 n) 26 16 = s.resvOf n % 2048 := by
  induction k with
  | zero => exact absurd h (Nat.not_lt_zero n)
  | succ k ih =>
    rw [State.resvTaken_succ]
    by_cases hn : n = k
    · rw [hn, State.fld_setFld_self _ _ _ (by decide) (by decide), State.resvOf_resvTaken]
      rfl
    · have hne : GRAN_LIM4 n ≠ GRAN_LIM4 k := by simp only [GRAN_LIM4]; omega
      rw [State.fld_setFld_ne _ _ _ hne, ih (by omega)]

/-- The other bank becomes the active one, and the active and next variants change places (R148, R176). -/
def State.bankSwapped (s : State) : State :=
  ((s.setFld SW_STAT 3 3 (1 - s.activeBank)).setFld VAR_STAT 3 0 (getBits (s.rd VAR_STAT) 7 4)).setFld VAR_STAT 7 4
    (getBits (s.rd VAR_STAT) 3 0)

/-- Then to_mask is taken from the image in the bank now active (R176). -/
def State.bankTaken (s : State) : State :=
  s.bankSwapped.setFld VAR_STAT 15 8 (if bit (s.rd VAR_STAT) 7 then (s.bankSwapped.bankImg s.bankSwapped.activeBank).mask else 0)

section
variable (s : State)

theorem State.bankSwapped_regsOnly : RegsOnly s s.bankSwapped :=
  ((RegsOnly.setFld s _ _ _ _).trans (.setFld _ _ _ _ _)).trans (.setFld _ _ _ _ _)

theorem State.bankTaken_regsOnly : RegsOnly s s.bankTaken := s.bankSwapped_regsOnly.trans (.setFld _ _ _ _ _)

theorem State.rd_bankTaken_ne {a : Nat} (h : a ≠ SW_STAT) (h' : a ≠ VAR_STAT) : s.bankTaken.rd a = s.rd a := by
  rw [State.bankTaken, State.bankSwapped, State.rd_setFld_ne _ h', State.rd_setFld_ne _ h', State.rd_setFld_ne _ h',
    State.rd_setFld_ne _ h]

theorem State.activeBank_bankSwapped : s.bankSwapped.activeBank = 1 - s.activeBank := by
  rw [State.activeBank, State.bankSwapped, State.fld_setFld_ne _ _ _ (by decide), State.fld_setFld_ne _ _ _ (by decide),
    State.fld_setFld_self _ _ _ (by decide) (by decide)]
  exact Nat.mod_eq_of_lt (Nat.lt_succ_of_le (Nat.sub_le 1 _))

theorem State.activeBank_bankTaken : s.bankTaken.activeBank = 1 - s.activeBank := by
  rw [← s.activeBank_bankSwapped, State.activeBank, State.bankTaken, State.fld_setFld_ne _ _ _ (by decide), State.activeBank]

/-- The active and the next variant have changed places. -/
theorem State.variants_bankTaken :
    s.bankTaken.fld VAR_STAT 3 0 = s.fld VAR_STAT 7 4 ∧ s.bankTaken.fld VAR_STAT 7 4 = s.fld VAR_STAT 3 0 := by
  rw [State.bankTaken, State.fld_setFld_apart _ _ _ (by decide), State.fld_setFld_apart _ _ _ (by decide), State.bankSwapped,
    State.fld_setFld_apart _ _ _ (by decide), State.fld_setFld_self _ _ _ (by decide) (by decide),
    State.fld_setFld_self _ _ _ (by decide) (by decide)]
  exact ⟨Nat.mod_mod _ _, Nat.mod_mod _ _⟩

/-- to_mask is that of the image in the bank that has become active. -/
theorem State.mask_bankTaken :
    s.bankTaken.fld VAR_STAT 15 8 = (if s.rbit VAR_STAT 7 then (s.bankImg (1 - s.activeBank)).mask else 0) % 256 := by
  rw [State.bankTaken, State.fld_setFld_self _ _ _ (by decide) (by decide), s.activeBank_bankSwapped, s.bankSwapped_regsOnly.bankImg]
  rfl

end

/-- 256 fc after B a switch that is no LEAVE ends. -/
theorem State.swEnd_due {s : State} (h : s.swState = 4) (hb : s.sw.b + 256 ≤ s.fc) (hk : s.sw.kind ≠ 2) :
    s.swEnd = ((s.resvTaken 87).bankTaken.setFld SW_STAT 2 0 0).setBit (pageBase .sched + 0x24) 1 := by
  have ht : forN 87 (fun n s => s.setFld (GRAN_LIM4 n) 26 16 (s.resvOf n)) s = s.resvTaken 87 := rfl
  unfold State.swEnd
  rw [if_neg (by simp [h, hb]), ← State.pageIrq_untiled _ (p := .sched) (by decide), ht]
  generalize s.resvTaken 87 = t
  extract_lets leave t' v w x u
  have hu : u = t.bankTaken := if_neg hk
  rw [hu]

theorem State.swEnd_other {s : State} (h : s.swState ≠ 4) : s.swEnd = s := by
  simp only [State.swEnd, h, ne_eq, not_false_eq_true, decide_true, Bool.true_or, if_true]

/-- No change waits for the end. -/
theorem State.deferredDrain_none {s : State} (h : s.change = none) : s.deferredDrain = s := by
  simp only [State.deferredDrain, h]

/-- What the end of a switch that is no LEAVE leaves. -/
theorem State.swEnd_facts {s : State} (h : s.swState = 4) (hb : s.sw.b + 256 ≤ s.fc) (hk : s.sw.kind ≠ 2) :
    s.swEnd.swState = 0 ∧ s.swEnd.activeBank = 1 - s.activeBank ∧ s.swEnd.rbit 0x7024 1 = true ∧
    (∀ a, a ≠ SW_STAT → a ≠ 0x7024 → s.swEnd.rd a = (s.resvTaken 87).bankTaken.rd a) ∧ RegsOnly s s.swEnd := by
  have hact : (s.resvTaken 87).activeBank = s.activeBank :=
    State.fld_congr (s.rd_resvTaken_ne fun n _ => ne_granLim4 (by decide) n) 3 3
  rw [State.swEnd_due h hb hk]
  refine ⟨?_, ?_, State.rbit_setBit_self _ _ (by decide), fun a h1 (h2 : a ≠ pageBase .sched + 0x24) => ?_, ?_⟩
  · rw [State.swState, State.fld_setBit_ne _ _ (by decide), State.fld_setFld_self _ _ _ (by decide) (by decide), Nat.zero_mod]
  · rw [State.activeBank, State.fld_setBit_ne _ _ (by decide), State.fld_setFld_apart _ _ _ (by decide), ← hact]
    exact State.activeBank_bankTaken _
  · rw [State.rd_setBit_ne _ h2, State.rd_setFld_ne _ h1]
  · exact (((s.resvTaken_regsOnly 87).trans (State.bankTaken_regsOnly _)).trans (.setFld _ _ _ _ _)).trans (.setBit _ _ _)

/-- Settles O19: the commit and B by the kind of the switchover, the end by what each of its steps leaves. -/
theorem switchoverEvents : Obligations.SwitchoverEvents := by
  refine ⟨?commit, ?noCommit, ?swap, ?enter, ?leave, ?noSwitch, ?ends, ?noEnd⟩
  case commit => exact fun s d h hd hle => congrArg _ (State.swCommitStep_commits h hd hle)
  case noCommit => exact fun s h => congrArg _ (State.swCommitStep_other h)
  case swap => exact fun s h hb hk => congrArg _ (State.swSwitch_swap h hb hk)
  case enter =>
    intro s h hb hk hm
    exact ⟨_, congrArg Host.Outcome.next (State.swSwitch_enter h hb hk hm), State.switched_facts hm (fun h' => nomatch h') _⟩
  case leave =>
    intro s h hb hk hm hv
    exact ⟨_, congrArg Host.Outcome.next (State.swSwitch_leave h hb hk hm), State.switched_facts hm (fun _ => hv) _⟩
  case noSwitch => exact fun s h => congrArg _ (State.swSwitch_other h)
  case ends =>
    intro s h hb hk hc
    obtain ⟨hstate, hbank, hirq, hrd, hrest⟩ := State.swEnd_facts h hb hk
    have hend : s.swEnd.change = none := hrest.change.trans hc
    have hvar : (s.resvTaken 87).rd VAR_STAT = s.rd VAR_STAT := s.rd_resvTaken_ne fun n _ => ne_granLim4 (by decide) n
    have hact : (s.resvTaken 87).activeBank = s.activeBank :=
      State.fld_congr (s.rd_resvTaken_ne fun n _ => ne_granLim4 (by decide) n) 3 3
    obtain ⟨hactive, hnext⟩ := (s.resvTaken 87).variants_bankTaken
    have hmask := (s.resvTaken 87).mask_bankTaken
    rw [hact, (s.resvTaken_regsOnly 87).bankImg, State.rbit_congr hvar] at hmask
    have hst := hrd VAR_STAT (by decide) (by decide)
    refine ⟨_, congrArg Host.Outcome.next (State.deferredDrain_none hend), hstate, hbank, hirq, ?_, ?_, ?_, fun n hn => ?_, hrest.rest⟩
    · rw [State.fld_congr hst, hactive, State.fld_congr hvar]
    · rw [State.fld_congr hst, hnext, State.fld_congr hvar]
    · rw [State.fld_congr hst, hmask]
    · rw [State.fld_congr (hrd _ (ne_granLim4 (by decide) n).symm (ne_granLim4 (by decide) n).symm),
        State.fld_congr (State.rd_bankTaken_ne _ (ne_granLim4 (by decide) n).symm (ne_granLim4 (by decide) n).symm),
        s.fld_resvTaken hn, State.resvOf, if_neg hk]
  case noEnd =>
    intro s h hc
    refine congrArg Host.Outcome.next ?_
    rw [State.swEnd_other h, State.deferredDrain_none hc]

end Sys2Proof.Machine
end

section
/-! Obligations.SwitchoverCommands (R144 to R147, R155): what a write of SW_CTRL with one action bit does. -/

namespace Sys2Proof.Machine

/-! The causes of R146 -/

/-- The code of R146 by what it looks at: the kind, SW_STAT's state, the phase lock, the fc up to the switch rotation, fabric time and
the target in units of 2^-16 ns, and the mode. -/
def armCode (k st phase : Nat) (ahead : Option Nat) (now tgt : Nat) (mode : Mode) : Option Nat :=
  if 2 ≤ st then some 7
  else if (k = 0 || k = 1) && st ≠ 1 then some 1
  else if phase ≠ 2 then some 2
  else if ahead.all (· < 2048) then some 3
  else if now + 3600 * 1000000000 * 65536 < tgt then some 4
  else if k = 3 || (k = 1 && mode ≠ .dynamic) || ((k = 0 || k = 2) && mode ≠ .scheduled) then some 5
  else none

/-- The target of a switchover in units of 2^-16 ns (R145). -/
def State.swTarget (s : State) : Nat := ((s.rd SW_TGT_HI).toNat * 2 ^ 32 + (s.rd SW_TGT_LO).toNat) * 65536 + s.fld SW_TGT_SUB 15 0

theorem State.armRefusal_eq (s : State) (k : Nat) : s.armRefusal k = armCode k s.swState (s.fld TIME_STAT 3 2)
    (s.fcUntil s.swStamp.1 s.swStamp.2) (s.time.now.toNat / 65536) s.swTarget s.mode := rfl

theorem State.armRefusal_pastLoaded {s : State} (h : 2 ≤ s.swState) (k : Nat) : s.armRefusal k = some 7 := if_pos h

theorem State.armRefusal_idle {s : State} {k : Nat} (h : s.swState = 0) (hk : k < 2) : s.armRefusal k = some 1 := by
  have hk' : k = 0 ∨ k = 1 := by omega
  simp [State.armRefusal_eq, armCode, h, hk']

theorem State.armRefusal_unlocked {s : State} {k : Nat} (h : s.swState < 2) (hk : s.swState = 0 → 2 ≤ k)
    (hp : s.fld TIME_STAT 3 2 ≠ 2) : s.armRefusal k = some 2 := by
  have hs : ¬ ((k = 0 ∨ k = 1) ∧ s.swState ≠ 1) := by omega
  simp only [State.armRefusal_eq, armCode, if_neg (Nat.not_le.mpr h), Bool.and_eq_true, Bool.or_eq_true, decide_eq_true_eq, if_neg hs,
    if_pos hp]

/-- What an arm of kind `k` needs so that no cause of R146 holds, with the switch rotation `(sec, r)` (R145). -/
structure State.Arms (s : State) (k sec r : Nat) : Prop where
  state : s.swState < 2
  kind  : s.swState = 1 ∧ k = 0 ∧ s.mode = .scheduled ∨ s.swState = 1 ∧ k = 1 ∧ s.mode = .dynamic ∨
    k = 2 ∧ s.mode = .scheduled
  phase : s.fld TIME_STAT 3 2 = 2
  stamp : s.swStamp = (sec, r)
  ahead : ∃ d, s.fcUntil sec r = some d ∧ 2048 ≤ d
  near  : s.swTarget ≤ s.time.now.toNat / 65536 + 3600 * 1000000000 * 65536

theorem State.Arms.notRefused {s : State} {k sec r : Nat} (h : s.Arms k sec r) : s.armRefusal k = none := by
  obtain ⟨hst, hk, hp, hr, ⟨d, hd, hle⟩, hn⟩ := h
  have h0 : ¬ 2 ≤ s.swState := Nat.not_le.mpr hst
  have h1 : ¬ ((k = 0 ∨ k = 1) ∧ s.swState ≠ 1) := by omega
  have h3 : ((s.fcUntil sec r).all (· < 2048)) = false := by simp [hd, hle]
  have h5 : ¬ ((k = 3 ∨ k = 1 ∧ s.mode ≠ .dynamic) ∨ (k = 0 ∨ k = 2) ∧ s.mode ≠ .scheduled) := by
    obtain ⟨-, rfl, hm⟩ | ⟨-, rfl, hm⟩ | ⟨rfl, hm⟩ := hk <;> simp [hm]
  simp only [State.armRefusal_eq, armCode, hr, hp, h3, Bool.and_eq_true, Bool.or_eq_true, decide_eq_true_eq, if_neg h0, if_neg h1,
    if_neg h5, if_neg (Nat.not_lt.mpr hn), ne_eq, not_true_eq_false, if_false, Bool.false_eq_true]

theorem State.fcUntil_congr {s t : State} (h : t.time = s.time) (sec r : Nat) : t.fcUntil sec r = s.fcUntil sec r := by
  rw [State.fcUntil, h, State.fcUntil]

section
variable {s t : State} (hrd : ∀ a, a ≠ SW_CTRL → a ≠ HL_PARK → a ≠ 0x7030 → t.rd a = s.rd a) (ht : t.time = s.time)
include hrd

theorem State.swTarget_congr : t.swTarget = s.swTarget := by
  rw [State.swTarget, hrd SW_TGT_HI (by decide) (by decide) (by decide), hrd SW_TGT_LO (by decide) (by decide) (by decide),
    State.fld_congr (hrd SW_TGT_SUB (by decide) (by decide) (by decide)), State.swTarget]

include ht

/-- The switch rotation is that of the target and of the rotations in a second. -/
theorem State.swStamp_congr : t.swStamp = s.swStamp := by
  have htgt : ((t.rd SW_TGT_HI).toNat * 2 ^ 32 + (t.rd SW_TGT_LO).toNat) * 65536 + t.fld SW_TGT_SUB 15 0 = s.swTarget :=
    State.swTarget_congr hrd
  rw [State.swStamp, htgt, ht]
  rfl

/-- The registers that a write of SW_CTRL finds decide as those before the access. -/
theorem State.armRefusal_congr (hm : t.mode = s.mode) (k : Nat) : t.armRefusal k = s.armRefusal k := by
  have hst : t.swState = s.swState := State.fld_congr (hrd _ (by decide) (by decide) (by decide)) 2 0
  rw [State.armRefusal_eq, State.armRefusal_eq, hst, State.fld_congr (hrd TIME_STAT (by decide) (by decide) (by decide)),
    State.swStamp_congr hrd ht, State.fcUntil_congr ht, State.swTarget_congr hrd, ht, hm]

end

/-! The write of SW_CTRL -/

/-- The fields of SW_CTRL (R155). -/
theorem swCtrl_reg : StoreReg .sched 0x100 (reg1 0x100 0x0 [⟨.wo, 0, 0⟩, ⟨.wo, 1, 1⟩, ⟨.rw, 3, 2⟩, ⟨.wo, 4, 4⟩]) where
  page _ := nofun
  low   := by decide
  high  := by decide
  word  := rfl
  park  := by decide
  row   := rfl
  w1c   := by decide
  rwl   := by decide
  open_ := by decide

/-- The word that SW_CTRL holds after a write of `v`: the kind is stored. -/
def State.swCtrlWord (s : State) (v : Word) : Word := (s.rd SW_CTRL &&& ~~~ 0xC) ||| (v &&& 0xC)

theorem State.kind_swCtrlWord (s : State) (v : Word) : getBits (s.swCtrlWord v) 3 2 = getBits v 3 2 :=
  getBits_stored _ v _ fun i h h' => by
    obtain rfl | rfl : i = 2 ∨ i = 3 := by omega
    all_goals decide

/-- The state that a served write of SW_CTRL acts on. -/
def State.atSwCtrl (s : State) (m : Master) : State := s.served m (pageBase .sched + 0x100) (.page .sched 0x100)

theorem State.armRefusal_atSwCtrl (s : State) (m : Master) (k : Nat) : (s.atSwCtrl m).armRefusal k = s.armRefusal k :=
  State.armRefusal_congr (fun _ _ h _ => s.rd_served m _ _ h) (RegsOnly.served s m _ _).time (RegsOnly.served s m _ _).mode k

theorem State.swState_atSwCtrl (s : State) (m : Master) : (s.atSwCtrl m).swState = s.swState := s.swState_served m _ _

theorem State.stateRefused_swCtrl (s : State) (v : Word) : s.stateRefused .sched 0x100 v = (s.swRefusal v).map s.swErr := rfl

/-- With SCHEDULED active no bit of SW_CTRL is inert or shut. -/
theorem State.swCtrl_open {s : State} (hf : s.feat fSCHEDULED = true) (m : Master) :
    (s.atSwCtrl m).inert .sched 0x100 ||| (s.atSwCtrl m).shut .sched 0x100 = 0 := by
  simp [State.atSwCtrl, State.inert, State.shut, State.feat_served, hf]

section
variable {s : State} {m : Master} (h : s.Takes m .sched 0x100) (hf : s.feat fSCHEDULED = true) {v : Word}
include h hf

/-- A write of SW_CTRL that R146 refuses. -/
theorem State.regWrite_swCtrl_refused {e : Nat} (hr : (s.atSwCtrl m).swRefusal v = some e) :
    s.regWrite m SW_CTRL v = s.answered m SW_CTRL (.page .sched 0x100) 0 fun u => u.swErr e := by
  refine State.regWrite_refused swCtrl_reg h rfl (State.swCtrl_open hf m) ?_
  exact (State.stateRefused_swCtrl (s.atSwCtrl m) v).trans (by rw [hr]; rfl)

/-- A write of SW_CTRL that nothing refuses: the kind is stored and the action bits act. -/
theorem State.regWrite_swCtrl (hv : s.eng.varStep = 0) (hr : (s.atSwCtrl m).swRefusal v = none) :
    s.regWrite m SW_CTRL v = s.wrote m .sched 0x100 fun u => (u.wr SW_CTRL (s.swCtrlWord v)).swCtrl m.val v := by
  refine (State.regWrite_open swCtrl_reg h rfl (State.swCtrl_open hf m) ?_ fun _ => hv).trans (State.wrote_congr rfl)
  exact (State.stateRefused_swCtrl (s.atSwCtrl m) v).trans (by rw [hr]; rfl)

end

/-! The action bits (R155) -/

theorem State.swRefusal_noArm {s : State} {v : Word} (h : bit v 0 = false) (hc : bit v 1 = true → s.swState < 3) :
    s.swRefusal v = none := by
  have hn : ¬ (bit v 1 = true ∧ 3 ≤ s.swState) := fun hb => Nat.not_le.mpr (hc hb.1) hb.2
  simp only [State.swRefusal, h, Bool.false_eq_true, if_false, Bool.and_eq_true, decide_eq_true_eq, if_neg hn]

theorem State.swRefusal_cancel {s : State} {v : Word} (h : bit v 0 = false) (hc : bit v 1 = true) (hs : 3 ≤ s.swState) :
    s.swRefusal v = some 6 := by
  simp only [State.swRefusal, h, hc, hs, Bool.false_eq_true, if_false, decide_true, Bool.and_self, if_true]

theorem State.swRefusal_arm {s : State} {v : Word} {e : Nat} (h : bit v 0 = true) (hr : s.armRefusal (getBits v 3 2) = some e) :
    s.swRefusal v = some e := by simp only [State.swRefusal, h, if_true, hr]

theorem State.swRefusal_armed {s : State} {v : Word} (h : bit v 0 = true) (h' : bit v 1 = false)
    (hr : s.armRefusal (getBits v 3 2) = none) : s.swRefusal v = none := by
  simp only [State.swRefusal, h, h', if_true, hr, Bool.false_and, Bool.false_eq_true, if_false]

section
variable {s : State} {m : Master} (h : s.Takes m .sched 0x100) (hf : s.feat fSCHEDULED = true) {v : Word}
include h hf

/-- arm alone. -/
theorem exec_swArm (hv : s.eng.varStep = 0) (h1 : bit v 1 = false) (h4 : bit v 4 = false) (ha : s.armRefusal (getBits v 3 2) = none) :
    exec (.swArm m v) s = .next (s.wrote m .sched 0x100 fun u => (u.wr SW_CTRL (s.swCtrlWord v)).swArm m.val) := by
  have hk : getBits (withBits v 1) 3 2 = getBits v 3 2 := getBits_withBits v (by decide) fun i hl hh => by
    obtain rfl | rfl : i = 2 ∨ i = 3 := by omega
    all_goals rfl
  have b0 : bit (withBits v 1) 0 = true := bit_withBits_set v (by decide) rfl
  have b1 : bit (withBits v 1) 1 = false := (bit_withBits_other v (by decide) rfl).trans h1
  have b4 : bit (withBits v 1) 4 = false := (bit_withBits_other v (by decide) rfl).trans h4
  have hw : s.swCtrlWord (withBits v 1) = s.swCtrlWord v := by rw [State.swCtrlWord, withBits_and _ _ (by decide), State.swCtrlWord]
  have hr : (s.atSwCtrl m).swRefusal (withBits v 1) = none :=
    State.swRefusal_armed b0 b1 (by rw [hk, State.armRefusal_atSwCtrl, ha])
  refine congrArg Host.Outcome.next ((State.regWrite_swCtrl h hf hv hr).trans ?_)
  simp only [State.swCtrl, b0, b1, b4, hw, if_true, Bool.false_eq_true, if_false]

/-- An arm that a cause of R146 refuses. -/
theorem exec_swArm_refused {e : Nat} (ha : s.armRefusal (getBits v 3 2) = some e) :
    exec (.swArm m v) s = .next (s.answered m SW_CTRL (.page .sched 0x100) 0 fun u => u.swErr e) := by
  have hk : getBits (withBits v 1) 3 2 = getBits v 3 2 := getBits_withBits v (by decide) fun i hl hh => by
    obtain rfl | rfl : i = 2 ∨ i = 3 := by omega
    all_goals rfl
  exact congrArg Host.Outcome.next (State.regWrite_swCtrl_refused h hf
    (State.swRefusal_arm (bit_withBits_set v (by decide) rfl) (by rw [hk, State.armRefusal_atSwCtrl, ha])))

/-- cancel alone, before COMMITTED. -/
theorem exec_swCancel (hv : s.eng.varStep = 0) (h0 : bit v 0 = false) (h4 : bit v 4 = false) (hs : s.swState < 3) :
    exec (.swCancel m v) s = .next (s.wrote m .sched 0x100 fun u => (u.wr SW_CTRL (s.swCtrlWord v)).swCancel m.val) := by
  have b0 : bit (withBits v 2) 0 = false := (bit_withBits_other v (by decide) rfl).trans h0
  have b1 : bit (withBits v 2) 1 = true := bit_withBits_set v (by decide) rfl
  have b4 : bit (withBits v 2) 4 = false := (bit_withBits_other v (by decide) rfl).trans h4
  have hw : s.swCtrlWord (withBits v 2) = s.swCtrlWord v := by rw [State.swCtrlWord, withBits_and _ _ (by decide), State.swCtrlWord]
  have hr : (s.atSwCtrl m).swRefusal (withBits v 2) = none := State.swRefusal_noArm b0 fun _ => by rwa [State.swState_atSwCtrl]
  refine congrArg Host.Outcome.next ((State.regWrite_swCtrl h hf hv hr).trans ?_)
  simp only [State.swCtrl, b0, b1, b4, hw, if_true, Bool.false_eq_true, if_false]

/-- cancel in COMMITTED or SWITCHING. -/
theorem exec_swCancel_refused (h0 : bit v 0 = false) (hs : 3 ≤ s.swState) :
    exec (.swCancel m v) s = .next (s.answered m SW_CTRL (.page .sched 0x100) 0 fun u => u.swErr 6) :=
  congrArg Host.Outcome.next (State.regWrite_swCtrl_refused h hf (State.swRefusal_cancel
    ((bit_withBits_other v (by decide) rfl).trans h0) (bit_withBits_set v (by decide) rfl) (by rwa [State.swState_atSwCtrl])))

/-- mark_loaded alone. -/
theorem exec_swMarkLoaded (hv : s.eng.varStep = 0) (h0 : bit v 0 = false) (h1 : bit v 1 = false) :
    exec (.swMarkLoaded m v) s = .next (s.wrote m .sched 0x100 fun u => (u.wr SW_CTRL (s.swCtrlWord v)).swMark) := by
  have b0 : bit (withBits v 16) 0 = false := (bit_withBits_other v (by decide) rfl).trans h0
  have b1 : bit (withBits v 16) 1 = false := (bit_withBits_other v (by decide) rfl).trans h1
  have b4 : bit (withBits v 16) 4 = true := bit_withBits_set v (by decide) rfl
  have hw : s.swCtrlWord (withBits v 16) = s.swCtrlWord v := by rw [State.swCtrlWord, withBits_and _ _ (by decide), State.swCtrlWord]
  have hr : (s.atSwCtrl m).swRefusal (withBits v 16) = none := State.swRefusal_noArm b0 fun hb => nomatch b1.symm.trans hb
  refine congrArg Host.Outcome.next ((State.regWrite_swCtrl h hf hv hr).trans ?_)
  simp only [State.swCtrl, b0, b1, b4, hw, if_true, Bool.false_eq_true, if_false]

end

/-! What an arm leaves (R145) -/

/-- The registers of an armed switchover: ARMED with its master, and the switch rotation. -/
def State.armed (s : State) (m sec r : Nat) : State :=
  ((((s.setFld SW_STAT 2 0 2).setFld SW_STAT 11 9 m).setFld SW_IDX 21 0 r).setFld SW_SEC_LO 31 0 sec).setFld SW_SEC_HI 31 0
    (sec / 2 ^ 32)

theorem State.swArm_eq {s : State} {sec r : Nat} (h : s.swStamp = (sec, r)) (m : Nat) :
    s.swArm m = { s.armed m sec r with sw := { s.sw with kind := (s.armed m sec r).fld SW_CTRL 3 2, fixed := false } } := by
  simp only [State.swArm, h]
  rfl

section
variable (s : State) (m sec r : Nat)

theorem State.armed_regsOnly : RegsOnly s (s.armed m sec r) :=
  ((((RegsOnly.setFld s _ _ _ _).trans (.setFld _ _ _ _ _)).trans (.setFld _ _ _ _ _)).trans (.setFld _ _ _ _ _)).trans
    (.setFld _ _ _ _ _)

theorem State.rd_armed_ne {a : Nat} (h1 : a ≠ SW_STAT) (h2 : a ≠ SW_IDX) (h3 : a ≠ SW_SEC_LO) (h4 : a ≠ SW_SEC_HI) :
    (s.armed m sec r).rd a = s.rd a := by
  rw [State.armed, State.rd_setFld_ne _ h4, State.rd_setFld_ne _ h3, State.rd_setFld_ne _ h2, State.rd_setFld_ne _ h1,
    State.rd_setFld_ne _ h1]

theorem State.fld_armed_state : (s.armed m sec r).fld SW_STAT 2 0 = 2 ∧ (s.armed m sec r).fld SW_STAT 11 9 = m % 8 := by
  refine ⟨?_, ?_⟩
  · rw [State.armed, State.fld_setFld_ne _ _ _ (by decide), State.fld_setFld_ne _ _ _ (by decide), State.fld_setFld_ne _ _ _ (by decide),
      State.fld_setFld_apart _ _ _ (by decide), State.fld_setFld_self _ _ _ (by decide) (by decide)]
    rfl
  · rw [State.armed, State.fld_setFld_ne _ _ _ (by decide), State.fld_setFld_ne _ _ _ (by decide), State.fld_setFld_ne _ _ _ (by decide),
      State.fld_setFld_self _ _ _ (by decide) (by decide)]
    rfl

/-- The switch rotation is shown. -/
theorem State.rd_armed_stamp : (s.armed m sec r).fld SW_IDX 21 0 = r % 2 ^ 22 ∧ (s.armed m sec r).rd SW_SEC_LO = BitVec.ofNat 32 sec ∧
    (s.armed m sec r).rd SW_SEC_HI = BitVec.ofNat 32 (sec / 2 ^ 32) := by
  rw [State.armed, State.rd_setFld_word]
  refine ⟨?_, ?_, rfl⟩
  · rw [State.fld_setFld_ne _ _ _ (by decide), State.fld_setFld_ne _ _ _ (by decide)]
    exact State.fld_setFld_self _ _ _ (by decide) (by decide)
  · rw [State.rd_setFld_ne _ (by decide), State.rd_setFld_word]

end

/-! The obligation -/

/-- The state in which the action bits of a counted write of SW_CTRL act. -/
def State.kindStored (s : State) (m : Master) (v : Word) : State := (s.counted m .sched 0x100).wr SW_CTRL (s.swCtrlWord v)

section
variable (s : State) (m : Master) (v : Word)

theorem State.kindStored_regsOnly : RegsOnly s (s.kindStored m v) := (s.counted_regsOnly m _ _).trans (.wr _ _ _)

theorem State.rd_kindStored_ne {a : Nat} (h1 : a ≠ SW_CTRL) (h2 : a ≠ HL_PARK) (h3 : a ≠ 0x7030) :
    (s.kindStored m v).rd a = s.rd a := (State.rd_wr_ne _ h1 _).trans (s.rd_counted m 0x100 h2 h3)

theorem State.swState_kindStored : (s.kindStored m v).swState = s.swState :=
  State.fld_congr (s.rd_kindStored_ne m v (by decide) (by decide) (by decide)) 2 0

end

theorem State.RegsOnly.restSw {s t : State} (h : RegsOnly s t) (w x) :
    { ({ t with sw := w, hlAns := x } : State) with regs := s.regs, sw := s.sw, hlAns := s.hlAns, notes := s.notes } = s := by
  obtain ⟨r, n, e⟩ := h
  rw [e]

theorem State.RegsOnly.restAns {s t : State} (h : RegsOnly s t) (x) :
    { ({ t with hlAns := x } : State) with regs := s.regs, hlAns := s.hlAns, notes := s.notes } = s := by
  obtain ⟨r, n, e⟩ := h
  rw [e]

/-- The state that a write leaves, for an effect whose result is known. -/
theorem State.wrote_of (s : State) (m : Master) (p : Page) (o : Nat) {f : State → State} {u : State} (h : f (s.counted m p o) = u) :
    ∃ x, s.wrote m p o f = { u with hlAns := x } := by
  obtain ⟨x, hx⟩ := s.wrote_eq m p o f
  exact ⟨x, hx.trans (by rw [h])⟩

section
variable {s : State} {m : Master} {v : Word} {sec r : Nat}

theorem State.kind_armed_kindStored : ((s.kindStored m v).armed m.val sec r).fld SW_CTRL 3 2 = getBits v 3 2 := by
  rw [State.fld, State.rd_armed_ne _ _ _ _ (by decide) (by decide) (by decide) (by decide), State.kindStored, State.rd_wr_self,
    State.kind_swCtrlWord]

/-- What arm does after a counted write of SW_CTRL. -/
theorem State.swArm_kindStored (h : s.swStamp = (sec, r)) : (s.kindStored m v).swArm m.val =
    { (s.kindStored m v).armed m.val sec r with sw := { s.sw with kind := getBits v 3 2, fixed := false } } := by
  have hr : (s.kindStored m v).swStamp = (sec, r) :=
    (State.swStamp_congr (fun _ => s.rd_kindStored_ne m v) (s.kindStored_regsOnly m v).time).trans h
  rw [State.swArm_eq hr, State.kind_armed_kindStored, (s.kindStored_regsOnly m v).sw]

/-- mark_loaded takes IDLE to LOADED and leaves the rest of SW_STAT. -/
theorem State.swMark_idle {s : State} (h : s.swState = 0) : s.swMark = s.setFld SW_STAT 2 0 1 := if_pos h

theorem State.swMark_kept {s : State} (h : s.swState ≠ 0) : s.swMark = s := if_neg h

theorem State.swState_swMark (s : State) : s.swMark.swState = if s.swState = 0 then 1 else s.swState := by
  by_cases h : s.swState = 0
  · rw [State.swMark_idle h, if_pos h]
    exact State.fld_setFld_self _ _ _ (by decide) (by decide)
  · rw [State.swMark_kept h, if_neg h]

theorem State.fld_swMark_rest (s : State) : s.swMark.fld SW_STAT 11 3 = s.fld SW_STAT 11 3 := by
  by_cases h : s.swState = 0
  · rw [State.swMark_idle h, State.fld_setFld_apart _ _ _ (by decide)]
  · rw [State.swMark_kept h]

theorem State.rd_swMark_ne (s : State) {a : Nat} (h : a ≠ SW_STAT) : s.swMark.rd a = s.rd a := by
  by_cases hs : s.swState = 0
  · rw [State.swMark_idle hs, State.rd_setFld_ne _ h]
  · rw [State.swMark_kept hs]

theorem State.swMark_regsOnly (s : State) : RegsOnly s s.swMark := by
  by_cases hs : s.swState = 0
  · exact State.swMark_idle hs ▸ .setFld _ _ _ _ _
  · exact (State.swMark_kept hs).symm ▸ .refl _

end

/-- Settles O18: the causes of R146 decide whether the write is refused, and one action bit acts when it is not. -/
theorem switchoverCommands : Obligations.SwitchoverCommands := by
  refine ⟨?arm, fun s m v e h hf ha => exec_swArm_refused h hf ha, fun s k h => State.armRefusal_pastLoaded h k,
    fun s k h hk => State.armRefusal_idle h hk, fun s k h hk hp => State.armRefusal_unlocked h hk hp, ?cancel,
    fun s m v h hf h0 hs => exec_swCancel_refused h hf h0 hs, ?noEffect, ?mark⟩
  case arm =>
    intro s m v sec r d h hf hv h1 h4 hs hk hp hr hd hle hn
    have arms : s.Arms (getBits v 3 2) sec r := ⟨hs, hk, hp, hr, ⟨d, hd, hle⟩, hn⟩
    obtain ⟨x, hx⟩ := s.wrote_of m .sched 0x100 (f := fun u => (u.wr SW_CTRL (s.swCtrlWord v)).swArm m.val) (State.swArm_kindStored hr)
    have hkind : ((s.kindStored m v).armed m.val sec r).fld SW_CTRL 3 2 = getBits v 3 2 := State.kind_armed_kindStored
    have hne (a : Nat) (a1 : a ≠ SW_STAT) (a2 : a ≠ SW_IDX) (a3 : a ≠ SW_SEC_LO) (a4 : a ≠ SW_SEC_HI) :=
      (s.kindStored m v).rd_armed_ne m.val sec r a1 a2 a3 a4
    obtain ⟨hst, hm⟩ := (s.kindStored m v).fld_armed_state m.val sec r
    obtain ⟨hidx, hlo, hhi⟩ := (s.kindStored m v).rd_armed_stamp m.val sec r
    have hrest := (s.kindStored_regsOnly m v).trans ((s.kindStored m v).armed_regsOnly m.val sec r)
    have hstored (a : Nat) (a1 : a ≠ SW_CTRL) (a2 : a ≠ HL_PARK) (a3 : a ≠ 0x7030) := s.rd_kindStored_ne m v a1 a2 a3
    generalize (s.kindStored m v).armed m.val sec r = u at *
    refine ⟨_, (exec_swArm h hf hv h1 h4 arms.notRefused).trans (congrArg Host.Outcome.next hx), hst,
      hm.trans (Nat.mod_eq_of_lt m.isLt), hidx, hlo, hhi, rfl, hkind, fun a a1 a2 a3 a4 a5 a6 a7 =>
      (hne a a2 a3 a4 a5).trans (hstored a a1 a6 a7), hrest.restSw _ x⟩
  case cancel =>
    intro s m v h hf hv h0 h4 hs
    refine (exec_swCancel h hf hv h0 h4 (by omega)).trans (congrArg Host.Outcome.next (State.wrote_congr ?_))
    exact if_pos ((s.swState_kindStored m v).trans hs)
  case noEffect =>
    intro s m v h hf hv h0 h4 hs
    have hn : (s.kindStored m v).swState ≠ 2 := by
      rw [State.swState_kindStored]
      omega
    refine (exec_swCancel h hf hv h0 h4 (by omega)).trans (congrArg Host.Outcome.next (State.wrote_congr ?_))
    exact if_neg hn
  case mark =>
    intro s m v h hf hv h0 h1
    obtain ⟨x, hx⟩ := s.wrote_of m .sched 0x100 (f := fun u => (u.wr SW_CTRL (s.swCtrlWord v)).swMark)
      (u := (s.kindStored m v).swMark) rfl
    have hst := ((s.kindStored m v).swState_swMark).trans (by rw [State.swState_kindStored])
    have hfld : (s.kindStored m v).swMark.fld SW_STAT 11 3 = s.fld SW_STAT 11 3 :=
      (s.kindStored m v).fld_swMark_rest.trans (State.fld_congr (s.rd_kindStored_ne m v (by decide) (by decide) (by decide)) 11 3)
    have hctrl : (s.kindStored m v).swMark.rd SW_CTRL = s.swCtrlWord v := by
      rw [State.rd_swMark_ne _ (by decide), State.kindStored, State.rd_wr_self]
    have hne (a : Nat) (a1 : a ≠ SW_CTRL) (a2 : a ≠ SW_STAT) (a3 : a ≠ HL_PARK) (a4 : a ≠ 0x7030) :
        (s.kindStored m v).swMark.rd a = s.rd a := by rw [State.rd_swMark_ne _ a2, s.rd_kindStored_ne m v a1 a3 a4]
    have hrest := (s.kindStored_regsOnly m v).trans (s.kindStored m v).swMark_regsOnly
    generalize (s.kindStored m v).swMark = u at *
    exact ⟨_, (exec_swMarkLoaded h hf hv h0 h1).trans (congrArg Host.Outcome.next hx), hst, hfld, hctrl, hne, hrest.restAns x⟩

end Sys2Proof.Machine
end

section
/-! Obligations.ServoRegisters (R130, R132, R133, R136, R146): the writes of TIME_CTRL and FREQ, and steps of fabric time. -/

namespace Sys2Proof.Machine

/-! RATE (R132, R133) -/

theorem State.rd_setTime (s : State) (t : FTime) (a : Nat) : (s.setTime t).rd a = s.rd a := rfl
theorem State.fld_setTime (s : State) (t : FTime) (a hi lo : Nat) : (s.setTime t).fld a hi lo = s.fld a hi lo := rfl

theorem State.sfld_congr {s t : State} {a : Nat} (h : t.rd a = s.rd a) (hi lo : Nat) : t.sfld a hi lo = s.sfld a hi lo := by
  rw [State.sfld, State.fld_congr h, State.sfld]

/-- A rate that is shown as it is: 200 ppm fit the field. -/
theorem State.sfld_setRate (s : State) (a : Nat) (v : Int) :
    (s.setSfld a 18 0 (clampI v (-200000) 200000)).sfld a 18 0 = clampI v (-200000) 200000 := by
  have hb : -200000 ≤ clampI v (-200000) 200000 ∧ clampI v (-200000) 200000 ≤ 200000 := by
    simp only [clampI]
    omega
  exact s.sfld_setSfld_self a (by decide) (by omega) (by omega)

/-- The rate by the servo's state. -/
theorem State.newRate_eq (s : State) : s.newRate = s.setSfld RATE 18 0 (clampI
    (if s.fld TIME_STAT 1 0 = 1 ∨ s.fld TIME_STAT 1 0 = 2 then s.sfld FREQ 18 0 + s.time.p else s.sfld FREQ 18 0) (-200000) 200000) := by
  simp only [State.newRate, Bool.or_eq_true, decide_eq_true_eq]

theorem State.sfld_newRate (s : State) : s.newRate.sfld RATE 18 0 = clampI
    (if s.fld TIME_STAT 1 0 = 1 ∨ s.fld TIME_STAT 1 0 = 2 then s.sfld FREQ 18 0 + s.time.p else s.sfld FREQ 18 0) (-200000) 200000 := by
  rw [State.newRate_eq, State.sfld_setRate]

theorem State.rd_newRate_ne (s : State) {a : Nat} (h : a ≠ RATE) : s.newRate.rd a = s.rd a := s.rd_setFld_ne h _ _ _

theorem State.RegsOnly.newRate (s : State) : RegsOnly s s.newRate := .setFld s _ _ _ _

/-! Registers, marks and the counter alone -/

theorem State.RegsOnly.setTime {s t : State} (h : RegsOnly s t) (f : FTime) : RegsOnly (s.setTime f) (t.setTime f) := by
  obtain ⟨r, n, rfl⟩ := h
  exact ⟨r, n, rfl⟩

theorem State.RegsOnly.restTime {s t : State} {f : FTime} (h : RegsOnly (s.setTime f) t) (x) :
    { ({ t with hlAns := x } : State) with regs := s.regs, time := s.time, hlAns := s.hlAns, notes := s.notes } = s := by
  obtain ⟨r, n, rfl⟩ := h
  rfl

/-! A write of TIME_CTRL -/

/-- The fields of TIME_CTRL (R130, R132, R133, R136). -/
theorem timeCtrl_reg : StoreReg .time 0x100
    (reg1 0x100 0x6420 [⟨.rw, 0, 0⟩, ⟨.wo, 1, 1⟩, ⟨.wo, 2, 2⟩, ⟨.rw, 7, 4⟩, ⟨.rw, 15, 8⟩]) where
  page _ := nofun
  low   := by decide
  high  := by decide
  word  := rfl
  park  := by decide
  row   := rfl
  w1c   := by decide
  rwl   := by decide
  open_ := by decide

/-- The field of FREQ (R133). -/
theorem freq_reg : StoreReg .time 0x134 (reg1 0x134 0x0 [⟨.rw, 18, 0⟩]) where
  page _ := nofun
  low   := by decide
  high  := by decide
  word  := rfl
  park  := by decide
  row   := rfl
  w1c   := by decide
  rwl   := by decide
  open_ := by decide

/-- Every bit of the TIME page is open. -/
theorem State.time_open (s : State) (o : Nat) : s.inert .time o ||| s.shut .time o = 0 := by simp [State.inert, State.shut]

/-- The word that TIME_CTRL holds after a write of `v`. -/
def State.timeCtrlWord (s : State) (v : Word) : Word := (s.rd TIME_CTRL &&& ~~~ 0xFFF1) ||| (v &&& 0xFFF1)

/-- The word that FREQ holds after a write of `v`. -/
def State.freqWord (s : State) (v : Word) : Word := (s.rd FREQ &&& ~~~ 0x7FFFF) ||| (v &&& 0x7FFFF)

/-- The state in which a counted write of TIME_CTRL acts. -/
def State.ctrlStored (s : State) (m : Master) (w : Word) : State := (s.counted m .time 0x100).wr TIME_CTRL w

/-- The state in which a counted write of FREQ acts. -/
def State.freqStored (s : State) (m : Master) (w : Word) : State := (s.counted m .time 0x134).wr FREQ w

section
variable (s : State) (m : Master) (w : Word)

theorem State.ctrlStored_regsOnly : RegsOnly s (s.ctrlStored m w) := (s.counted_regsOnly m _ _).trans (.wr _ _ _)

theorem State.rd_ctrlStored_ne {a : Nat} (h1 : a ≠ TIME_CTRL) (h2 : a ≠ HL_PARK) (h3 : a ≠ 0x1030) :
    (s.ctrlStored m w).rd a = s.rd a := (State.rd_wr_ne _ h1 _).trans (s.rd_counted m 0x100 h2 h3)

theorem State.freqStored_regsOnly : RegsOnly s (s.freqStored m w) := (s.counted_regsOnly m _ _).trans (.wr _ _ _)

theorem State.rd_freqStored_ne {a : Nat} (h1 : a ≠ FREQ) (h2 : a ≠ HL_PARK) (h3 : a ≠ 0x1030) :
    (s.freqStored m w).rd a = s.rd a := (State.rd_wr_ne _ h1 _).trans (s.rd_counted m 0x134 h2 h3)

end

/-- The servo switched on or off (R132): the edges accepted so far do not count, the phase correction goes on. -/
def State.servoSwitched (s : State) (on : Bool) : State :=
  ((s.setTime { s.time with consec := 0 }).setFld TIME_STAT 1 0 (flag on)).setSfld RATE 18 0
    (clampI (if on then s.sfld FREQ 18 0 + s.time.p else s.sfld FREQ 18 0) (-200000) 200000)

section
variable (s : State) (on : Bool)

theorem flag_lt (b : Bool) : flag b < 2 := by cases b <;> decide

theorem State.servoWritten_eq : s.servoWritten = s.servoSwitched (s.rbit TIME_CTRL 0) := by
  have hst : ((s.setTime { s.time with consec := 0 }).setFld TIME_STAT 1 0 (flag (s.rbit TIME_CTRL 0))).fld TIME_STAT 1 0 =
      flag (s.rbit TIME_CTRL 0) :=
    (State.fld_setFld_self _ _ _ (by decide) (by decide)).trans (Nat.mod_eq_of_lt (Nat.lt_trans (flag_lt _) (by decide)))
  have hf : ((s.setTime { s.time with consec := 0 }).setFld TIME_STAT 1 0 (flag (s.rbit TIME_CTRL 0))).sfld FREQ 18 0 =
      s.sfld FREQ 18 0 := State.sfld_congr (State.rd_setFld_ne _ (by decide) _ _ _) 18 0
  have heq : s.servoWritten = ((s.setTime { s.time with consec := 0 }).setFld TIME_STAT 1 0 (flag (s.rbit TIME_CTRL 0))).newRate := rfl
  rw [heq, State.newRate_eq, hst, hf, State.servoSwitched]
  cases s.rbit TIME_CTRL 0 <;> rfl

theorem State.servoSwitched_regsOnly : RegsOnly (s.setTime { s.time with consec := 0 }) (s.servoSwitched on) :=
  (RegsOnly.setFld _ _ _ _ _).trans (.setFld _ _ _ _ _)

theorem State.rd_servoSwitched_ne {a : Nat} (h1 : a ≠ TIME_STAT) (h2 : a ≠ RATE) : (s.servoSwitched on).rd a = s.rd a := by
  rw [State.servoSwitched, State.setSfld, State.rd_setFld_ne _ h2, State.rd_setFld_ne _ h1, State.rd_setTime]

theorem State.fld_servoSwitched_state : (s.servoSwitched on).fld TIME_STAT 1 0 = flag on := by
  rw [State.servoSwitched, State.setSfld, State.fld_setFld_ne _ _ _ (by decide), State.fld_setFld_self _ _ _ (by decide) (by decide)]
  exact Nat.mod_eq_of_lt (Nat.lt_trans (flag_lt _) (by decide))

/-- The other fields of TIME_STAT. -/
theorem State.fld_servoSwitched_apart {hi lo : Nat} (h : 1 < lo) : (s.servoSwitched on).fld TIME_STAT hi lo = s.fld TIME_STAT hi lo := by
  rw [State.servoSwitched, State.setSfld, State.fld_setFld_ne _ _ _ (by decide), State.fld_setFld_apart _ _ _ (.inr h), State.fld_setTime]

/-- rot_acq where it has an effect, and elsewhere (R136). -/
theorem State.rotAcq_eq : s.rotAcq = if s.mode = .scheduled ∨ s.swState = 2 ∨ s.swState = 3 then s else s.setFld TIME_STAT 3 2 1 := by
  simp only [State.rotAcq, Bool.or_eq_true, decide_eq_true_eq, or_assoc]

theorem State.rotAcq_regsOnly : RegsOnly s s.rotAcq := by
  rw [State.rotAcq_eq]
  exact .ite (.refl _) (.setFld _ _ _ _ _)

theorem State.rd_rotAcq_ne {a : Nat} (h : a ≠ TIME_STAT) : s.rotAcq.rd a = s.rd a := by
  rw [State.rotAcq_eq]
  split
  · rfl
  · exact State.rd_setFld_ne _ h _ _ _

theorem State.fld_rotAcq_state : s.rotAcq.fld TIME_STAT 1 0 = s.fld TIME_STAT 1 0 := by
  rw [State.rotAcq_eq]
  split
  · rfl
  · exact State.fld_setFld_apart _ _ _ (by decide)

theorem State.fld_rotAcq_phase : s.rotAcq.fld TIME_STAT 3 2 =
    if s.mode = .scheduled ∨ s.swState = 2 ∨ s.swState = 3 then s.fld TIME_STAT 3 2 else 1 := by
  rw [State.rotAcq_eq]
  split
  · rfl
  · exact State.fld_setFld_self _ _ _ (by decide) (by decide)

end

/-! A step of fabric time (R133, R146) -/

/-- The counter's part of a step: the correction ends, and the last capture moves by it. -/
def FTime.stepped (t : FTime) (e : Int) : FTime :=
  { t with p := 0, pEnd := none, consec := 0, lastC := t.lastC.map fun c => BitVec.ofInt 96 ((c.toNat : Int) - e) }

/-- A step counted and flagged, with ACQUIRING. -/
def State.stepTaken (s : State) (e : Int) : State :=
  (((s.errBit .time 0).satFld TIME_STAT 31 16 1).setTime (s.time.stepped e)).setFld TIME_STAT 1 0 1

/-- A step of half a second or more cancels an armed switchover with code 8. -/
def State.stepCancel (s : State) (e : Int) : State :=
  if s.swState = 2 ∧ secSub / 2 ≤ e.natAbs then ((s.setFld SW_STAT 2 0 1).setFld SW_STAT 7 4 8).setBit SW_STAT 8 else s

section
variable (s : State) (e : Int)

theorem State.stepped_eq : s.stepped e = ((s.stepTaken e).stepCancel e).newRate := by
  have ht : ((s.errBit .time 0).satFld TIME_STAT 31 16 1).time = s.time :=
    ((RegsOnly.errBit s .time 0).trans (.setFld _ _ _ _ _)).time
  rw [State.stepTaken, ← ht, ← State.pageErr_untiled _ (p := .time) (by decide)]
  simp only [State.stepped, State.stepCancel, Bool.and_eq_true, decide_eq_true_eq]
  rfl

theorem State.stepTaken_regsOnly : RegsOnly (s.setTime (s.time.stepped e)) (s.stepTaken e) :=
  (((RegsOnly.errBit s .time 0).trans (.setFld _ _ _ _ _)).setTime _).trans (.setFld _ _ _ _ _)

theorem State.rd_stepTaken_ne {a : Nat} (h1 : a ≠ TIME_STAT) (h2 : a ≠ 0x1018) (h3 : a ≠ 0x1020) : (s.stepTaken e).rd a = s.rd a := by
  rw [State.stepTaken, State.rd_setFld_ne _ h1, State.rd_setTime, State.satFld, State.rd_setFld_ne _ h1,
    State.rd_errBit s (p := .time) h2 h3]

theorem State.stepCancel_regsOnly : RegsOnly s (s.stepCancel e) :=
  .ite (((RegsOnly.setFld _ _ _ _ _).trans (.setFld _ _ _ _ _)).trans (.setBit _ _ _)) (.refl _)

theorem State.rd_stepCancel_ne {a : Nat} (h : a ≠ SW_STAT) : (s.stepCancel e).rd a = s.rd a := by
  rw [State.stepCancel]
  split
  · rw [State.rd_setBit_ne _ h, State.rd_setFld_ne _ h, State.rd_setFld_ne _ h]
  · rfl

/-- SW_STAT of a cancelled switchover. -/
theorem State.stepCancel_armed (h : s.swState = 2 ∧ secSub / 2 ≤ e.natAbs) :
    (s.stepCancel e).swState = 1 ∧ (s.stepCancel e).fld SW_STAT 7 4 = 8 ∧ (s.stepCancel e).rbit SW_STAT 8 = true := by
  rw [State.stepCancel, if_pos h]
  refine ⟨?_, ?_, State.rbit_setBit_self _ _ (by decide)⟩
  · rw [State.swState, State.fld_setBit_apart _ _ (by decide), State.fld_setFld_apart _ _ _ (by decide)]
    exact State.fld_setFld_self _ _ _ (by decide) (by decide)
  · rw [State.fld_setBit_apart _ _ (by decide)]
    exact State.fld_setFld_self _ _ _ (by decide) (by decide)

theorem State.stepped_regsOnly : RegsOnly (s.setTime (s.time.stepped e)) (s.stepped e) := by
  rw [State.stepped_eq]
  exact ((s.stepTaken_regsOnly e).trans (State.stepCancel_regsOnly _ _)).trans (.newRate _)

theorem State.rd_stepped_ne {a : Nat} (h1 : a ≠ TIME_STAT) (h2 : a ≠ RATE) (h3 : a ≠ SW_STAT) (h4 : a ≠ 0x1018)
    (h5 : a ≠ 0x1020) : (s.stepped e).rd a = s.rd a := by
  rw [State.stepped_eq, State.rd_newRate_ne _ h2, State.rd_stepCancel_ne _ _ h3, s.rd_stepTaken_ne e h1 h4 h5]

/-- What stands after the cancelling is that of the step, SW_STAT apart. -/
theorem State.rd_stepped_taken {a : Nat} (h2 : a ≠ RATE) (h3 : a ≠ SW_STAT) : (s.stepped e).rd a = (s.stepTaken e).rd a := by
  rw [State.stepped_eq, State.rd_newRate_ne _ h2, State.rd_stepCancel_ne _ _ h3]

theorem State.fld_stepTaken_state : (s.stepTaken e).fld TIME_STAT 1 0 = 1 := State.fld_setFld_self _ _ _ (by decide) (by decide)

/-- The step is counted. -/
theorem State.fld_stepped_count : (s.stepped e).fld TIME_STAT 31 16 = min (s.fld TIME_STAT 31 16 + 1) 65535 := by
  rw [State.fld_congr (s.rd_stepped_taken e (by decide) (by decide)), State.stepTaken, State.fld_setFld_apart _ _ _ (by decide),
    State.fld_setTime, State.satFld, State.fld_setFld_self _ _ _ (by decide) (by decide),
    State.fld_congr (s.rd_errBit (p := .time) (by decide) (by decide) 0)]
  exact Nat.mod_eq_of_lt (Nat.lt_succ_of_le (Nat.min_le_right _ _))

theorem State.fld_stepped_state : (s.stepped e).fld TIME_STAT 1 0 = 1 :=
  (State.fld_congr (s.rd_stepped_taken e (by decide) (by decide)) 1 0).trans (s.fld_stepTaken_state e)

/-- The step is flagged. -/
theorem State.rbit_stepped : (s.stepped e).rbit 0x1018 0 = true := by
  rw [State.rbit_congr (s.rd_stepped_taken e (by decide) (by decide)), State.stepTaken, State.rbit_setFld_ne _ _ _ (by decide)]
  exact (State.rbit_setFld_ne _ _ _ (by decide)).trans (s.rbit_errBit_self .time (by decide))

/-- RATE is F alone: the correction has ended. -/
theorem State.sfld_stepped_rate : (s.stepped e).sfld RATE 18 0 = clampI (s.sfld FREQ 18 0) (-200000) 200000 := by
  have hst : ((s.stepTaken e).stepCancel e).fld TIME_STAT 1 0 = 1 :=
    (State.fld_congr (State.rd_stepCancel_ne _ _ (by decide)) 1 0).trans (s.fld_stepTaken_state e)
  have hf : ((s.stepTaken e).stepCancel e).sfld FREQ 18 0 = s.sfld FREQ 18 0 :=
    State.sfld_congr ((State.rd_stepCancel_ne _ _ (by decide)).trans (s.rd_stepTaken_ne e (by decide) (by decide) (by decide))) 18 0
  have hp : ((s.stepTaken e).stepCancel e).time.p = 0 :=
    congrArg FTime.p ((s.stepTaken_regsOnly e).trans (State.stepCancel_regsOnly _ e)).time
  rw [State.stepped_eq, State.sfld_newRate, hst, hf, hp, if_pos (.inl rfl), Int.add_zero]

/-- Whether an armed switchover is cancelled. -/
theorem State.stepped_switch : if s.swState = 2 ∧ secSub / 2 ≤ e.natAbs
    then (s.stepped e).swState = 1 ∧ (s.stepped e).fld SW_STAT 7 4 = 8 ∧ (s.stepped e).rbit SW_STAT 8 = true
    else (s.stepped e).rd SW_STAT = s.rd SW_STAT := by
  have hsw : (s.stepTaken e).rd SW_STAT = s.rd SW_STAT := s.rd_stepTaken_ne e (by decide) (by decide) (by decide)
  have hrd : (s.stepped e).rd SW_STAT = ((s.stepTaken e).stepCancel e).rd SW_STAT := by
    rw [State.stepped_eq, State.rd_newRate_ne _ (by decide)]
  have hst : (s.stepTaken e).swState = s.swState := State.fld_congr hsw 2 0
  split
  · next hc =>
    rw [← hst] at hc
    obtain ⟨h1, h2, h3⟩ := (s.stepTaken e).stepCancel_armed e hc
    exact ⟨(State.fld_congr hrd 2 0).trans h1, (State.fld_congr hrd 7 4).trans h2, (State.rbit_congr hrd 8).trans h3⟩
  · next hc =>
    rw [← hst] at hc
    exact hrd.trans ((congrArg (State.rd · SW_STAT) (if_neg hc)).trans hsw)

end

/-- The value of SET (R130). -/
def State.setValue (s : State) : BitVec 96 :=
  BitVec.ofNat 96 ((s.rd SET_HI).toNat * 2 ^ 64 + (s.rd SET_LO).toNat * 2 ^ 32 + s.fld SET_SUB 15 0 * 2 ^ 16)

/-- The counter's part of set_now: SET is taken at the next TCLK edge. -/
def FTime.setNow (t : FTime) (v : BitVec 96) : FTime :=
  { t.stepped ((t.now.toNat : Int) - v.toNat) with load := some v, stepBy := 0 }

section
variable (s : State)

/-- set_now is a step, and SET waits for the next TCLK edge. -/
theorem State.setNow_eq : s.setNow =
    (s.stepped ((s.time.now.toNat : Int) - s.setValue.toNat)).setTime (s.time.setNow s.setValue) := by
  have hv : BitVec.ofNat 96 (((s.rd SET_HI).toNat * 2 ^ 32 + (s.rd SET_LO).toNat) * 2 ^ 32 + s.fld SET_SUB 15 0 * 2 ^ 16) = s.setValue := by
    rw [State.setValue, Nat.add_mul, Nat.mul_assoc, ← Nat.pow_add]
  have ht := (s.stepped_regsOnly ((s.time.now.toNat : Int) - s.setValue.toNat)).time
  simp only [State.setNow, hv]
  rw [ht]
  rfl

theorem State.setNow_regsOnly : RegsOnly (s.setTime (s.time.setNow s.setValue)) s.setNow := by
  rw [State.setNow_eq]
  exact (s.stepped_regsOnly _).setTime _

theorem State.rd_setNow_ne {a : Nat} (h1 : a ≠ TIME_STAT) (h2 : a ≠ RATE) (h3 : a ≠ SW_STAT) (h4 : a ≠ 0x1018) (h5 : a ≠ 0x1020) :
    s.setNow.rd a = s.rd a := by
  rw [State.setNow_eq, State.rd_setTime, State.rd_stepped_ne _ _ h1 h2 h3 h4 h5]

/-- set_now leaves the page as a step does: the step is counted and flagged, with ACQUIRING and F as the rate. -/
theorem State.setNow_page : s.setNow.fld TIME_STAT 31 16 = min (s.fld TIME_STAT 31 16 + 1) 65535 ∧ s.setNow.fld TIME_STAT 1 0 = 1 ∧
    s.setNow.rbit 0x1018 0 = true ∧ s.setNow.sfld RATE 18 0 = clampI (s.sfld FREQ 18 0) (-200000) 200000 := by
  rw [State.setNow_eq]
  exact ⟨s.fld_stepped_count _, s.fld_stepped_state _, s.rbit_stepped _, s.sfld_stepped_rate _⟩

/-- The switchover after set_now. -/
theorem State.setNow_switch : if s.swState = 2 ∧ secSub / 2 ≤ ((s.time.now.toNat : Int) - s.setValue.toNat).natAbs
    then s.setNow.swState = 1 ∧ s.setNow.fld SW_STAT 7 4 = 8 ∧ s.setNow.rbit SW_STAT 8 = true
    else s.setNow.rd SW_STAT = s.rd SW_STAT := by
  rw [State.setNow_eq]
  exact s.stepped_switch _

end

/-! The writes -/

section
variable {s : State} {m : Master} {v : Word}

/-- A write of TIME_CTRL: its bits are stored, the servo is switched, and the action bits act. -/
theorem State.regWrite_timeCtrl (h : s.Takes m .time 0x100) : s.regWrite m TIME_CTRL v = s.wrote m .time 0x100 fun u =>
    let u := (u.wr TIME_CTRL (s.timeCtrlWord v)).servoWritten
    let u := if bit v 1 then u.rotAcq else u
    if bit v 2 then u.setNow else u :=
  (State.regWrite_open timeCtrl_reg h rfl (State.time_open _ _) rfl (fun hv => nomatch hv)).trans (State.wrote_congr rfl)

/-- A write of FREQ: F is stored, and RATE follows. -/
theorem exec_freqWrite (h : s.Takes m .time 0x134) :
    exec (.freqWrite m v) s = .next (s.wrote m .time 0x134 fun u => (u.wr FREQ (s.freqWord v)).newRate) :=
  congrArg Host.Outcome.next ((State.regWrite_open freq_reg h rfl (State.time_open _ _) rfl (fun hv => nomatch hv)).trans
    (State.wrote_congr rfl))

/-- The servo_en that a write of `v` stores. -/
theorem State.servoEn_ctrlStored (s : State) (m : Master) (v : Word) :
    (s.ctrlStored m (s.timeCtrlWord v)).rbit TIME_CTRL 0 = bit v 0 := by
  rw [State.rbit, State.ctrlStored, State.rd_wr_self]
  exact bit_stored _ v _ (by decide)

/-- The servo as a counted write of TIME_CTRL leaves it. -/
def State.servoSet (s : State) (m : Master) (v : Word) : State := (s.ctrlStored m (s.timeCtrlWord v)).servoSwitched (bit v 0)

theorem State.servoWritten_counted (s : State) (m : Master) (v : Word) :
    ((s.counted m .time 0x100).wr TIME_CTRL (s.timeCtrlWord v)).servoWritten = s.servoSet m v := by
  rw [State.servoWritten_eq, State.servoSet, ← State.servoEn_ctrlStored s m v]
  rfl

theorem State.timeCtrlWord_withBits (s : State) (v : Word) {b : Nat} (hb : BitVec.ofNat 32 b &&& (0xFFF1 : Word) = 0) :
    s.timeCtrlWord (withBits v b) = s.timeCtrlWord v := by rw [State.timeCtrlWord, withBits_and _ _ hb, State.timeCtrlWord]

theorem State.servoSet_withBits (s : State) (m : Master) (v : Word) {b : Nat} (hb : BitVec.ofNat 32 b &&& (0xFFF1 : Word) = 0)
    (h0 : b.testBit 0 = false) : s.servoSet m (withBits v b) = s.servoSet m v := by
  rw [State.servoSet, s.timeCtrlWord_withBits v hb, bit_withBits_other v (by decide) h0, State.servoSet]

end

/-! What the servo is, as a counted write leaves it -/

section
variable (s : State) (m : Master) (v : Word)

theorem State.servoSet_regsOnly : RegsOnly (s.setTime { s.time with consec := 0 }) (s.servoSet m v) := by
  have h := (s.ctrlStored m (s.timeCtrlWord v)).servoSwitched_regsOnly (bit v 0)
  rw [(s.ctrlStored_regsOnly m _).time] at h
  exact ((s.ctrlStored_regsOnly m _).setTime _).trans h

theorem State.rd_servoSet_ne {a : Nat} (h1 : a ≠ TIME_CTRL) (h2 : a ≠ TIME_STAT) (h3 : a ≠ RATE) (h4 : a ≠ HL_PARK)
    (h5 : a ≠ 0x1030) : (s.servoSet m v).rd a = s.rd a := by
  rw [State.servoSet, State.rd_servoSwitched_ne _ _ h2 h3, s.rd_ctrlStored_ne m _ h1 h4 h5]

theorem State.rd_servoSet_ctrl : (s.servoSet m v).rd TIME_CTRL = s.timeCtrlWord v := by
  rw [State.servoSet, State.rd_servoSwitched_ne _ _ (by decide) (by decide), State.ctrlStored, State.rd_wr_self]

/-- The fields of TIME_STAT but time_state stand. -/
theorem State.fld_servoSet_apart {hi lo : Nat} (h : 1 < lo) : (s.servoSet m v).fld TIME_STAT hi lo = s.fld TIME_STAT hi lo := by
  rw [State.servoSet, State.fld_servoSwitched_apart _ _ h,
    State.fld_congr (s.rd_ctrlStored_ne m _ (by decide) (by decide) (by decide))]

theorem State.swState_servoSet : (s.servoSet m v).swState = s.swState :=
  State.fld_congr (s.rd_servoSet_ne m v (by decide) (by decide) (by decide) (by decide) (by decide)) 2 0

theorem State.sfld_servoSet_freq : (s.servoSet m v).sfld FREQ 18 0 = s.sfld FREQ 18 0 :=
  State.sfld_congr (s.rd_servoSet_ne m v (by decide) (by decide) (by decide) (by decide) (by decide)) 18 0

/-- The F and the P that RATE takes are those before the write. -/
theorem State.sfld_ctrlStored_freq (w : Word) : (s.ctrlStored m w).sfld FREQ 18 0 = s.sfld FREQ 18 0 :=
  State.sfld_congr (s.rd_ctrlStored_ne m w (by decide) (by decide) (by decide)) 18 0

theorem State.servoSet_eq : s.servoSet m v =
    ((((s.counted m .time 0x100).wr TIME_CTRL (s.timeCtrlWord v)).setTime { s.time with consec := 0 }).setFld
      TIME_STAT 1 0 (flag (bit v 0))).setSfld RATE 18 0
        (clampI (if bit v 0 then s.sfld FREQ 18 0 + s.time.p else s.sfld FREQ 18 0) (-200000) 200000) := by
  rw [State.servoSet, State.servoSwitched, s.sfld_ctrlStored_freq, (s.ctrlStored_regsOnly m _).time]
  rfl

theorem State.sfld_servoSet_rate : (s.servoSet m v).sfld RATE 18 0 =
    clampI (if bit v 0 then s.sfld FREQ 18 0 + s.time.p else s.sfld FREQ 18 0) (-200000) 200000 := by
  rw [State.servoSet_eq, State.sfld_setRate]

/-- SET is that before the write. -/
theorem State.setValue_servoSet : (s.servoSet m v).setValue = s.setValue := by
  rw [State.setValue, s.rd_servoSet_ne m v (by decide) (by decide) (by decide) (by decide) (by decide),
    s.rd_servoSet_ne m v (by decide) (by decide) (by decide) (by decide) (by decide),
    State.fld_congr (s.rd_servoSet_ne m v (by decide) (by decide) (by decide) (by decide) (by decide)), State.setValue]

end

/-! The commands -/

section
variable {s : State} {m : Master} {v : Word} (h : s.Takes m .time 0x100)
include h

theorem exec_servoEnWrite (h1 : bit v 1 = false) (h2 : bit v 2 = false) : exec (.servoEnWrite m v) s =
    .next (s.wrote m .time 0x100 fun u => (u.wr TIME_CTRL (s.timeCtrlWord v)).servoWritten) := by
  refine congrArg Host.Outcome.next ((State.regWrite_timeCtrl h).trans ?_)
  simp only [h1, h2, Bool.false_eq_true, if_false]

theorem exec_rotAcq (h2 : bit v 2 = false) :
    ∃ x, exec (.rotAcq m v) s = .next { (s.servoSet m v).rotAcq with hlAns := x } := by
  have b1 : bit (withBits v 2) 1 = true := bit_withBits_set v (by decide) rfl
  have b2 : bit (withBits v 2) 2 = false := (bit_withBits_other v (by decide) rfl).trans h2
  obtain ⟨x, hx⟩ := State.wrote_of s m .time 0x100 (u := (s.servoSet m v).rotAcq)
    (f := fun u => ((u.wr TIME_CTRL (s.timeCtrlWord (withBits v 2))).servoWritten).rotAcq)
    (by rw [State.servoWritten_counted, s.servoSet_withBits m v (by decide) rfl])
  refine ⟨x, congrArg Host.Outcome.next ((State.regWrite_timeCtrl h).trans (Eq.trans ?_ hx))⟩
  simp only [b1, b2, if_true, Bool.false_eq_true, if_false]

theorem exec_setNow (h1 : bit v 1 = false) :
    ∃ x, exec (.setNow m v) s = .next { (s.servoSet m v).setNow with hlAns := x } := by
  have b1 : bit (withBits v 4) 1 = false := (bit_withBits_other v (by decide) rfl).trans h1
  have b2 : bit (withBits v 4) 2 = true := bit_withBits_set v (by decide) rfl
  obtain ⟨x, hx⟩ := State.wrote_of s m .time 0x100 (u := (s.servoSet m v).setNow)
    (f := fun u => ((u.wr TIME_CTRL (s.timeCtrlWord (withBits v 4))).servoWritten).setNow)
    (by rw [State.servoWritten_counted, s.servoSet_withBits m v (by decide) rfl])
  refine ⟨x, congrArg Host.Outcome.next ((State.regWrite_timeCtrl h).trans (Eq.trans ?_ hx))⟩
  simp only [b1, b2, if_true, Bool.false_eq_true, if_false]

end

/-- Settles O14: the servo switched by a write of TIME_CTRL, then what the action bits add; and RATE after a write of FREQ. -/
theorem servoRegisters : Obligations.ServoRegisters := by
  refine ⟨?servo, ?acquire, ?set, ?freq⟩
  case servo =>
    intro s m v h h1 h2
    refine (exec_servoEnWrite h h1 h2).trans (congrArg Host.Outcome.next (State.wrote_congr ?_))
    exact (s.servoWritten_counted m v).trans (s.servoSet_eq m v)
  case acquire =>
    intro s m v h h2
    obtain ⟨x, hx⟩ := exec_rotAcq h h2
    have hphase := (s.servoSet m v).fld_rotAcq_phase
    rw [s.swState_servoSet, s.fld_servoSet_apart m v (by decide),
      show (s.servoSet m v).mode = s.mode from (s.servoSet_regsOnly m v).mode] at hphase
    have hstate := (s.servoSet m v).fld_rotAcq_state.trans (State.fld_servoSwitched_state _ _)
    have hctrl := ((s.servoSet m v).rd_rotAcq_ne (by decide)).trans (s.rd_servoSet_ctrl m v)
    have hrate := (State.sfld_congr ((s.servoSet m v).rd_rotAcq_ne (by decide)) 18 0).trans (s.sfld_servoSet_rate m v)
    have hne (a : Nat) (a1 : a ≠ TIME_CTRL) (a2 : a ≠ TIME_STAT) (a3 : a ≠ RATE) (a4 : a ≠ HL_PARK) (a5 : a ≠ 0x1030) :=
      ((s.servoSet m v).rd_rotAcq_ne a2).trans (s.rd_servoSet_ne m v a1 a2 a3 a4 a5)
    have hrest := (s.servoSet_regsOnly m v).trans (s.servoSet m v).rotAcq_regsOnly
    generalize (s.servoSet m v).rotAcq = u at *
    exact ⟨_, hx, hphase, hstate, hctrl, hrate, hne, hrest.time, hrest.restTime x⟩
  case set =>
    intro s m v h h1
    obtain ⟨x, hx⟩ := exec_setNow h h1
    have htime : (s.servoSet m v).time = { s.time with consec := 0 } := (s.servoSet_regsOnly m v).time
    have hnow : (s.servoSet m v).time.now = s.time.now := (congrArg FTime.now htime :)
    obtain ⟨hcount, hstate, hflag, hrate⟩ := (s.servoSet m v).setNow_page
    rw [s.fld_servoSet_apart m v (by decide)] at hcount
    rw [s.sfld_servoSet_freq] at hrate
    have hsw := (s.servoSet m v).setNow_switch
    rw [s.swState_servoSet, s.rd_servoSet_ne m v (by decide) (by decide) (by decide) (by decide) (by decide), s.setValue_servoSet,
      hnow] at hsw
    have hne (a : Nat) (a1 : a ≠ TIME_CTRL) (a2 : a ≠ TIME_STAT) (a3 : a ≠ RATE) (a4 : a ≠ SW_STAT) (a5 : a ≠ 0x1018)
        (a6 : a ≠ 0x1020) (a7 : a ≠ HL_PARK) (a8 : a ≠ 0x1030) :=
      ((s.servoSet m v).rd_setNow_ne a2 a3 a4 a5 a6).trans (s.rd_servoSet_ne m v a1 a2 a3 a7 a8)
    have hrest := ((s.servoSet_regsOnly m v).setTime _).trans (s.servoSet m v).setNow_regsOnly
    rw [s.setValue_servoSet, htime] at hrest
    generalize (s.servoSet m v).setNow = u at *
    exact ⟨_, s.setValue, hx, rfl, hrest.time, hcount, hstate, hflag, hrate, hsw, hne,
      State.RegsOnly.restTime (s := s) (f := FTime.setNow { s.time with consec := 0 } s.setValue) hrest x⟩
  case freq =>
    intro s m v h
    obtain ⟨x, hx⟩ := State.wrote_of s m .time 0x134 (u := (s.freqStored m (s.freqWord v)).newRate)
      (f := fun u => (u.wr FREQ (s.freqWord v)).newRate) rfl
    have hword : (s.freqStored m (s.freqWord v)).fld FREQ 18 0 = getBits v 18 0 := by
      rw [State.fld, State.freqStored, State.rd_wr_self]
      exact getBits_stored _ v _ fun i _ hi => by interval_cases i <;> decide
    have hf := (State.fld_congr ((s.freqStored m (s.freqWord v)).rd_newRate_ne (a := FREQ) (by decide)) 18 0).trans hword
    have hrate := (s.freqStored m (s.freqWord v)).sfld_newRate
    have hfreq : (s.freqStored m (s.freqWord v)).sfld FREQ 18 0 = (v.extractLsb' 0 19).toInt := by
      rw [State.sfld, hword, getBits]
      exact congrArg BitVec.toInt (BitVec.eq_of_toNat_eq (by simp))
    rw [hfreq, (s.freqStored_regsOnly m _).time,
      State.fld_congr (s.rd_freqStored_ne m _ (a := TIME_STAT) (by decide) (by decide) (by decide))] at hrate
    have hne (a : Nat) (a1 : a ≠ FREQ) (a2 : a ≠ RATE) (a3 : a ≠ HL_PARK) (a4 : a ≠ 0x1030) :=
      ((s.freqStored m (s.freqWord v)).rd_newRate_ne a2).trans (s.rd_freqStored_ne m (s.freqWord v) a1 a3 a4)
    have hrest := (s.freqStored_regsOnly m (s.freqWord v)).trans (.newRate _)
    generalize (s.freqStored m (s.freqWord v)).newRate = u at *
    exact ⟨_, (exec_freqWrite h).trans (congrArg Host.Outcome.next hx), hf, hrate, hne, hrest.restAns x⟩

end Sys2Proof.Machine
end

section
/-! Obligations.FabricTimeEvents (R131 to R133, R411): PPS edges, the end of a phase correction, and HOLDOVER. -/

namespace Sys2Proof.Machine

/-! Edges that are not accepted, and what an accepted one captures (R131) -/

/-- An accepted edge is captured with its error. -/
def State.captured (s : State) : State :=
  ((((s.setFld PPS_CAP_SUB 15 0 (getBits s.capture 31 16)).wr PPS_CAP_LO (s.capture.extractLsb' 32 32)).wr PPS_CAP_HI
    (s.capture.extractLsb' 64 32)).setSfld PPS_ERR 31 0 (capErr s.capture)).setTime { s.time with lastC := some s.capture }

/-- The registers that hold the capture of an edge. -/
def capRegs : List Nat := [PPS_CAP_SUB, PPS_CAP_LO, PPS_CAP_HI, PPS_ERR]

theorem State.captured_regs (s : State) : s.captured.fld PPS_CAP_SUB 15 0 = getBits s.capture 31 16 ∧
    s.captured.rd PPS_CAP_LO = s.capture.extractLsb' 32 32 ∧ s.captured.rd PPS_CAP_HI = s.capture.extractLsb' 64 32 ∧
    s.captured.rd PPS_ERR = BitVec.ofInt 32 (capErr s.capture) := by
  rw [State.captured, State.fld_setTime, State.rd_setTime, State.rd_setTime, State.rd_setTime, State.setSfld]
  refine ⟨?_, ?_, ?_, ?_⟩
  · rw [State.fld_setFld_ne _ _ _ (by decide), State.fld_congr (State.rd_wr_ne _ (by decide) _),
      State.fld_congr (State.rd_wr_ne _ (by decide) _), State.fld_setFld_self _ _ _ (by decide) (by decide)]
    exact Nat.mod_eq_of_lt (Nat.mod_lt _ (by decide))
  · rw [State.rd_setFld_ne _ (by decide), State.rd_wr_ne _ (by decide), State.rd_wr_self]
  · rw [State.rd_setFld_ne _ (by decide), State.rd_wr_self]
  · rw [State.rd_setFld_word, BitVec.ofNat_toNat, BitVec.setWidth_eq]

/-! What keeps the capture -/

/-- From `s` to `t` the capture stands. -/
def State.CapKept (s t : State) : Prop := ∀ a ∈ capRegs, t.rd a = s.rd a

theorem steady_of_capRegs {a : Nat} (h : a ∈ capRegs) : steady a := by
  simp only [capRegs, List.mem_cons, List.not_mem_nil, or_false] at h
  obtain rfl | rfl | rfl | rfl := h <;> simp only [steady, offTally] <;> decide

theorem lt_of_capRegs {a : Nat} (h : a ∈ capRegs) : a < 0x2000 := (by decide : ∀ a ∈ capRegs, a < 0x2000) a h

namespace State.CapKept

variable {s t u : State}

theorem refl (s : State) : CapKept s s := fun _ _ => rfl

theorem trans (h : CapKept s t) (k : CapKept t u) : CapKept s u := fun a ha => (k a ha).trans (h a ha)

theorem same (h : t.regs = s.regs := by rfl) : CapKept s t := fun _ _ => by simp only [State.rd, h]

theorem setFld {a : Nat} (h : a ∉ capRegs) (hi lo v : Nat) : CapKept s (s.setFld a hi lo v) :=
  fun _ hb => s.rd_setFld_ne (ne_of_mem_of_not_mem hb h) hi lo v

theorem setBit {a : Nat} (h : a ∉ capRegs) (i : Nat) : CapKept s (s.setBit a i) :=
  fun _ hb => s.rd_setBit_ne (ne_of_mem_of_not_mem hb h) i

theorem noted (h : Noted steady s t) : CapKept s t := fun a ha => h.rd a (steady_of_capRegs ha)

theorem ite {a b : State} {c : Prop} [Decidable c] (ha : CapKept s a) (hb : CapKept s b) :
    CapKept s (if c then a else b) := by split <;> assumption

theorem foldl {α : Type} {f : State → α → State} (l : List α) (hf : ∀ u x, CapKept u (f u x)) (s : State) :
    CapKept s (l.foldl f s) := by
  induction l generalizing s with
  | nil => exact refl s
  | cons x l ih => exact (hf s x).trans (ih _)

theorem forN {n : Nat} {f : Nat → State → State} (hf : ∀ i u, CapKept u (f i u)) (s : State) : CapKept s (forN n f s) := by
  induction n with
  | zero => exact refl s
  | succ n ih => exact ih.trans (hf n _)

end State.CapKept

section
variable (s : State)

/-- A demotion marks FLOW_DEM, wherever the flow's number puts its bit. -/
theorem State.demote_capKept (det f : Nat) : CapKept s (s.demote det f) := by
  have hd : FLOW_DEM (f / 32) ∉ capRegs := fun h => by
    have hl : 0x7800 + 0x4 * (f / 32) < 0x2000 := lt_of_capRegs h
    omega
  have hc : DEM_CNT ∉ capRegs := by decide
  exact ((((CapKept.setBit hd _).trans (.setFld hc 15 0 _)).trans (.setFld hc 27 16 f)).trans
    (.noted (State.countG_noted _ _ _ _))).trans (.ite (.refl _) .same)

theorem State.violation_capKept (det : Nat) (w : BitVec 16) (flows : List Nat) : CapKept s (s.violation det w flows) :=
  ((CapKept.foldl _ (fun u f => u.demote_capKept det f) s).trans (.noted (State.pageErr_noted _ _ _))).trans
    (.noted (State.journal_noted _ _))

/-- The measurement (R137). -/
theorem State.measure_capKept : CapKept s s.measure := by
  unfold State.measure
  extract_lets err s1 s2 s3
  have hp : PHASE_ERR ∉ capRegs := by decide
  have h1 : CapKept s s1 := .ite (.setFld hp _ _ _) ((CapKept.setFld hp _ _ _).trans .same)
  have h2 : CapKept s s2 := h1.trans (.setBit (by decide) _)
  have h3 : CapKept s s3 := (h2.trans (.setFld (by decide) _ _ _)).trans (.noted (State.pageErr_noted _ _ _))
  exact .ite ((h3.trans (State.violation_capKept _ _ _ _)).trans .same) h2

/-- The acquisition (R136). -/
theorem State.acquire_capKept (near : Nat) : CapKept s (s.acquire near) := by
  unfold State.acquire
  extract_lets dly s1
  have h1 : CapKept s s1 := .setFld (by decide) _ _ _
  exact .ite (h1.trans .same) (h1.trans .same)

theorem State.newRate_capKept : CapKept s s.newRate := .setFld (by decide) _ _ _

theorem State.stepped_capKept (e : Int) : CapKept s (s.stepped e) := fun a ha =>
  s.rd_stepped_ne e (ne_of_mem_of_not_mem ha (by decide)) (ne_of_mem_of_not_mem ha (by decide)) (ne_of_mem_of_not_mem ha (by decide))
    (ne_of_mem_of_not_mem ha (by decide)) (ne_of_mem_of_not_mem ha (by decide))

/-- The servo (R133). -/
theorem State.servo_capKept (e : Int) : CapKept s (s.servo e) := by
  unfold State.servo
  extract_lets s1 _ w f p s2 _ s3 st s4
  have h1 : CapKept s s1 := s.stepped_capKept _
  have h3 : CapKept s s3 := (CapKept.setFld (a := FREQ) (by decide) _ _ _).trans .same
  have h4 : CapKept s s4 := .ite (h3.trans (.setFld (by decide) _ _ _)) h3
  exact .ite (h1.trans .same) (h4.trans (State.newRate_capKept _))

/-- A port that takes the edge has messages to say. -/
theorem State.skwPps_capKept (p sec : Nat) : CapKept s (s.skwPps p sec) := by
  have hlane (u : State) : CapKept u (u.laneStep p) := .ite (.refl u) .same
  exact .ite (.refl s) (.ite ((CapKept.same (t := s.saySync p)).trans (hlane _)) .same)

end

/-! A PPS edge -/

section
variable {s : State}

theorem State.ppsTime_rejected (h : s.edgeOk s.capture = false) :
    s.ppsTime = ((s.satFld TIME_STAT 15 8 1).pageErr .time 3, false) := by
  rw [State.ppsTime, h]
  rfl

/-- What the rotation counter and its label do at an accepted edge, by phase_state (R136, R137). -/
def State.rotated (s : State) (near : Nat) : State :=
  if s.fld TIME_STAT 3 2 = 1 then s.acquire near else if s.fld TIME_STAT 3 2 = 2 then s.measure.relabel near
  else if s.fld TIME_STAT 3 2 = 3 then s.relabel near else s

theorem State.rotated_capKept (s : State) (near : Nat) : CapKept s (s.rotated near) :=
  .ite (s.acquire_capKept near) (.ite (s.measure_capKept.trans .same) (.ite .same (.refl s)))

theorem State.ppsTime_accepted (h : s.edgeOk s.capture = true) : s.ppsTime =
    (if (s.captured.rotated (nearSec s.capture)).rbit TIME_CTRL 0 then (s.captured.rotated (nearSec s.capture)).servo (capErr s.capture)
     else s.captured.rotated (nearSec s.capture), true) := by
  rw [State.ppsTime, h]
  rfl

/-- The capture stands while the TIME block takes the edge. -/
theorem State.ppsTime_capKept (h : s.edgeOk s.capture = true) : CapKept s.captured s.ppsTime.1 := by
  rw [State.ppsTime_accepted h]
  exact .ite ((State.rotated_capKept _ _).trans (State.servo_capKept _ _)) (State.rotated_capKept _ _)

variable (hh : s.held ≠ some .cold) (hoff : s.mode ≠ .off) (hfuse : s.mode ≠ .fuse) (hclk : s.rbit CLK_STAT 2 = false)
include hh hoff hfuse hclk

/-- While TCLK runs the TIME block takes the edge. -/
theorem State.pps_eq : s.pps = if s.ppsTime.2 then
    Machine.forN 6 (fun p u => u.skwPps p ((s.ppsTime.1.time.lastC.map nearSec).getD 0)) (s.ppsTime.1.countG 0x68 8 1)
    else s.ppsTime.1 := by
  simp only [State.pps, hh, hoff, hfuse, hclk, decide_false, Bool.or_self, Bool.false_eq_true, if_false]
  cases s.ppsTime.2 <;> rfl

theorem State.pps_accepted (h : s.edgeOk s.capture = true) : CapKept s.captured s.pps := by
  have hok : s.ppsTime.2 = true := congrArg Prod.snd (State.ppsTime_accepted h)
  rw [State.pps_eq hh hoff hfuse hclk, if_pos hok]
  exact ((State.ppsTime_capKept h).trans (.noted (State.countG_noted _ _ _ _))).trans (.forN (fun p u => u.skwPps_capKept p _) _)

end

/-! HOLDOVER (R132) -/

section
variable (s : State)

theorem State.enterHoldover_eq : s.enterHoldover = ((s.setFld TIME_STAT 1 0 3).errBit .time 1).newRate := by
  rw [← State.pageErr_untiled _ (p := .time) (by decide), State.enterHoldover]

theorem State.enterHoldover_regsOnly : RegsOnly s s.enterHoldover := by
  rw [State.enterHoldover_eq]
  exact ((RegsOnly.setFld _ _ _ _ _).trans (.errBit _ _ _)).trans (.newRate _)

theorem State.rd_enterHoldover_ne {a : Nat} (h1 : a ≠ TIME_STAT) (h2 : a ≠ RATE) (h3 : a ≠ 0x1018) (h4 : a ≠ 0x1020) :
    s.enterHoldover.rd a = s.rd a := by
  rw [State.enterHoldover_eq, State.rd_newRate_ne _ h2, State.rd_errBit _ (p := .time) h3 h4, State.rd_setFld_ne _ h1]

theorem State.fld_holdover_marked : ((s.setFld TIME_STAT 1 0 3).errBit .time 1).fld TIME_STAT 1 0 = 3 :=
  (State.fld_congr (State.rd_errBit _ (p := .time) (by decide) (by decide) 1) 1 0).trans
    (State.fld_setFld_self _ _ _ (by decide) (by decide))

theorem State.fld_enterHoldover : s.enterHoldover.fld TIME_STAT 1 0 = 3 := by
  rw [State.enterHoldover_eq, State.fld_congr (State.rd_newRate_ne _ (by decide)), State.fld_holdover_marked]

theorem State.rbit_enterHoldover : s.enterHoldover.rbit 0x1018 1 = true := by
  rw [State.enterHoldover_eq, State.rbit_congr (State.rd_newRate_ne _ (by decide))]
  exact State.rbit_errBit_self _ .time (by decide)

/-- In HOLDOVER the rate is F alone. -/
theorem State.sfld_enterHoldover : s.enterHoldover.sfld RATE 18 0 = clampI (s.sfld FREQ 18 0) (-200000) 200000 := by
  have hf : ((s.setFld TIME_STAT 1 0 3).errBit .time 1).sfld FREQ 18 0 = s.sfld FREQ 18 0 :=
    State.sfld_congr ((State.rd_errBit _ (p := .time) (by decide) (by decide) 1).trans (s.rd_setFld_ne (by decide) _ _ _)) 18 0
  rw [State.enterHoldover_eq, State.sfld_newRate, State.fld_holdover_marked, hf, if_neg (by decide)]

end

/-! The end of a phase correction (R133) -/

/-- Without a correction RATE is F, whatever the servo's state. -/
theorem State.newRate_uncorrected {s : State} (h : s.time.p = 0) :
    s.newRate = s.setSfld RATE 18 0 (clampI (s.sfld FREQ 18 0) (-200000) 200000) := by
  rw [State.newRate_eq, h, Int.add_zero, ite_self]

theorem State.phaseEnd_due {s : State} {e : BitVec 96} (h : s.time.pEnd = some e) (hd : e.toNat ≤ s.time.now.toNat) :
    s.phaseEnd = (s.setTime { s.time with p := 0, pEnd := none }).newRate := by
  simp only [State.phaseEnd, h, hd, if_true]

theorem State.phaseEnd_early {s : State} (h : ∀ e, s.time.pEnd = some e → s.time.now.toNat < e.toNat) : s.phaseEnd = s := by
  unfold State.phaseEnd
  split
  · next e he => exact if_neg (Nat.not_le.mpr (h e he))
  · rfl

theorem State.holdover_due {s : State} {c : BitVec 96} (h : s.time.lastC = some c) (hst : s.fld TIME_STAT 1 0 = 2)
    (hd : (nearSec c + s.fld PPS_CFG 27 24) * secSub + s.fld PPS_CFG 23 16 * 1000 * 2 ^ 32 ≤ s.time.now.toNat) :
    s.holdover = s.enterHoldover := by
  simp only [State.holdover, h, hst, decide_true, Bool.true_and, decide_eq_true_eq, if_pos hd]

theorem State.holdover_other {s : State} (h : s.fld TIME_STAT 1 0 ≠ 2) : s.holdover = s := by
  unfold State.holdover
  split
  · exact if_neg (by simp [h])
  · rfl

/-- Settles O15: what an edge, the end of the W ms and the missed seconds leave. -/
theorem fabricTimeEvents : Obligations.FabricTimeEvents := by
  refine ⟨?rejected, ?accepted, ?ends, fun s h => congrArg Host.Outcome.next (State.phaseEnd_early h), ?holdover,
    fun s h => congrArg Host.Outcome.next (State.holdover_other h)⟩
  case rejected =>
    intro s hh hoff hfuse hclk h
    refine congrArg Host.Outcome.next ?_
    rw [State.pps_eq hh hoff hfuse hclk, State.ppsTime_rejected h]
    rfl
  case accepted =>
    intro s hh hoff hfuse hclk h
    have hk := State.pps_accepted hh hoff hfuse hclk h
    obtain ⟨hsub, hlo, hhi, herr⟩ := s.captured_regs
    exact ⟨_, rfl, (State.fld_congr (hk _ (by decide)) 15 0).trans hsub, (hk _ (by decide)).trans hlo, (hk _ (by decide)).trans hhi,
      (hk _ (by decide)).trans herr⟩
  case ends =>
    intro s e h hd
    exact congrArg Host.Outcome.next ((State.phaseEnd_due h hd).trans (State.newRate_uncorrected rfl))
  case holdover =>
    intro s c h hst hd
    exact ⟨_, congrArg Host.Outcome.next (State.holdover_due h hst hd), s.fld_enterHoldover, s.rbit_enterHoldover,
      s.sfld_enterHoldover, fun a h1 h2 h3 h4 => s.rd_enterHoldover_ne h1 h2 h3 h4, s.enterHoldover_regsOnly.rest⟩

end Sys2Proof.Machine
end

section
/-! Obligations.ScheduledInjection (R160, R161, R180, R191, R336): scheduled injection at an NI, and throttle frames. -/

namespace Sys2Proof.Machine

/-! What the marks of an injection word leave of the schedule (R143, R159) -/

theorem State.injMarks_noted (s : State) (n : Nat) : Noted steady s (s.injMarks n) := by
  unfold State.injMarks
  split
  · exact .refl s
  · split
    · exact s.pageErr_noted _ _
    · exact s.pageErr_noted _ _
    · exact .refl s

theorem State.injMarks_unbanked {s : State} {n : Nat} (h : s.niBank n = none) : s.injMarks n = s := by
  simp only [State.injMarks, h]

theorem State.activeBank_lt (s : State) : s.activeBank < 2 := Nat.mod_lt _ (by decide)

/-- There are two banks. -/
theorem State.bankAt_lt {s : State} {a t b : Nat} (h : s.bankAt a t = some b) : b < 2 := by
  have ha := s.activeBank_lt
  unfold State.bankAt at h
  extract_lets act inc src moved at h
  split at h
  · have hm : b = act ∨ b = inc := by
      split at h
      all_goals split at h <;> simp_all
    omega
  · split at h
    · obtain rfl := Option.some.inj h
      exact ha
    · cases h

namespace State.Noted

variable {n : Nat} {s t : State} (h : Noted steady s t)
include h

theorem swState : t.swState = s.swState := State.fld_congr (h.rd _ (by unfold steady offTally; decide)) 2 0

theorem activeBank : t.activeBank = s.activeBank := State.fld_congr (h.rd _ (by unfold steady offTally; decide)) 3 3

variable (hn : n < 87)
include hn

/-- The bank in force at an NI (R148). -/
theorem niBank : t.niBank n = s.niBank n := by
  have ho : steady (NI_OFF n) := by simp only [steady, offTally, NI_OFF, XING_OVR0, XING_OVR1, JRN_STAT]; omega
  have hm : t.serviceMode = s.serviceMode := by simp only [State.serviceMode, h.mode, h.change]
  have hsw : t.sw = s.sw := h.toMarked.sw
  simp only [State.niBank, State.bankAt, h.activeBank, h.swState, hsw, State.fld_congr (h.rd _ ho), hm, h.fc]

/-- The flow that an injection entry names (R159). -/
theorem injFlow {b p : Nat} (hb : b < 2) (hp : p < 1024) : t.injFlow n b p = s.injFlow n b p := by
  have h1 : steady (INJE n b p) := by simp only [steady, offTally, INJE, XING_OVR0, XING_OVR1, JRN_STAT]; omega
  have h2 : steady (INJE n b p + 0x2000) := by simp only [steady, offTally, INJE, XING_OVR0, XING_OVR1, JRN_STAT]; omega
  simp only [State.injFlow, State.injWord, h.rd _ h1, h.rd _ h2]

theorem hasInjIn {b : Nat} (hb : b < 2) (f : Nat) : t.hasInjIn n b f = s.hasInjIn n b f := by
  rw [Bool.eq_iff_iff]
  simp only [State.hasInjIn, List.any_eq_true]
  refine exists_congr fun p => and_congr_right fun hp => ?_
  rw [h.injFlow hn hb (List.mem_range.mp hp)]

theorem hasInj (f : Nat) : t.hasInj n f = s.hasInj n f := by
  unfold State.hasInj
  rw [h.niBank hn]
  cases hb : s.niBank n with
  | none => simp only [Option.any_none]
  | some b => simp only [Option.any_some, h.hasInjIn hn (State.bankAt_lt hb)]

theorem schedWaits (it : QItem) : t.schedWaits n it = s.schedWaits n it := by
  have hd (f : BitVec 12) : t.demoted f.toNat = s.demoted f.toNat := by
    refine State.rbit_congr (h.rd _ ?_) _
    have := f.isLt
    simp only [steady, offTally, FLOW_DEM, XING_OVR0, XING_OVR1, JRN_STAT]
    omega
  simp only [State.schedWaits, State.flowSched, hd, h.mode, h.swState, h.niBank hn, h.hasInj hn]

/-- Room for an answer (R111). -/
theorem canReserve {key : Nat} (hk : key ≤ 8) (m : Nat) : t.canReserve n key m = s.canReserve n key m := by
  have ha : steady (GRAN_LIM0 n + 4 * (key / 2)) := by
    simp only [steady, offTally, GRAN_LIM0, XING_OVR0, XING_OVR1, JRN_STAT]
    omega
  rw [State.canReserve, State.canReserve, State.granLimit, State.granLimit, h.niOf, State.fld_congr (h.rd _ ha)]

end State.Noted

/-! A packet in scheduled form -/

theorem hSch_setSch (h : BitVec 128) (b : Bool) : hSch (setSch h b) = b := by
  rw [hSch, setSch, bit_putBits_self _ _ _ _ _ (Nat.le_refl _) (Nat.le_refl _) (by decide)]
  cases b <;> rfl
theorem hTag_setSch (h : BitVec 128) (b : Bool) : hTag (setSch h b) = hTag h := extract_putBits_ne h _ (.inr (by decide))
theorem hDst_setSch (h : BitVec 128) (b : Bool) : hDst (setSch h b) = hDst h := extract_putBits_ne h _ (.inr (by decide))
theorem hVn_setSch (h : BitVec 128) (b : Bool) : hVn (setSch h b) = hVn h := getBits_putBits_ne h _ _ _ _ _ (.inl (by decide))

theorem Ni.nextSeq_setSch (x : Ni) (h : BitVec 128) (b : Bool) : x.nextSeq (setSch h b) = x.nextSeq h := by
  rw [Ni.nextSeq, Ni.nextSeq, hDst_setSch, hVn_setSch]

/-! A scheduled flit leaves (R160, R162) -/

/-- A flit sent in a state with the clock and the links of `s` has left `s`; of its NI the last fc changes. -/
theorem State.niSend_left {s u : State} {n : Nat} (hn : n < 87) (hfc : u.fc = s.fc) (hl : u.links = s.links) (vc : Nat) (f : Flit) :
    s.Left (u.niSend n vc f) n vc f ∧ (u.niSend n vc f).niOf n = { u.niOf n with sentFc := u.fc + 1 } := by
  obtain ⟨hx, -, y, hy, h1, h2, h3⟩ := u.niSend_sends hn vc f
  refine ⟨⟨(congrArg Ni.sentFc hx).trans (congrArg (· + 1) hfc), y, ?_, h1, h2, h3.trans (congrArg (· + 1) hfc)⟩, hx⟩
  exact hy.trans (congrArg (· ++ [y]) (congrArg (Tbl.get _ · _) hl))

/-- A flit of a queue is counted in its descriptor (R184). -/
theorem State.servedFlit_marked (s : State) (n j : Nat) : Marked noReg s (s.servedFlit n j) := .setFld id _ _ _

/-- The flit of a scheduled packet that came from queue `q`, if it came from one, is counted. -/
def State.schServed (s : State) (n : Nat) (q : Option Nat) : State := match q with | some j => s.servedFlit n j | none => s

theorem State.schServed_marked (s : State) (n : Nat) (q : Option Nat) : Marked noReg s (s.schServed n q) := by
  cases q with
  | none => exact .refl s
  | some j => exact s.servedFlit_marked n j

/-- An NI whose scheduled packet has the flits `rest` still to leave. -/
def Ni.schLeft (x : Ni) (rest : List Flit) : Ni := { x with schRest := rest, schQ := if rest.isEmpty then none else x.schQ }

/-- The next flit of a scheduled packet leaves on the bypass. -/
theorem State.schedInject_next {s : State} {n : Nat} (hr : s.runs (niTile n) = true) (hfree : (s.niOf n).sentFc ≠ s.fc + 1) {f : Flit}
    {rest : List Flit} (hf : (s.niOf n).schRest = f :: rest) : s.schedInject n =
      (((s.injMarks n).schServed n (s.niOf n).schQ).modNi n fun x => x.schLeft rest).niSend n bypVc f := by
  unfold State.schedInject State.schServed Ni.schLeft
  simp only [hr, hfree, hf, Bool.not_true, Bool.false_or, decide_false, Bool.false_eq_true, if_false] <;> rfl

theorem State.schedInject_next_sends {s : State} {n : Nat} (hn : n < 87) (hr : s.runs (niTile n) = true)
    (hfree : (s.niOf n).sentFc ≠ s.fc + 1) {f : Flit} {rest : List Flit} (hf : (s.niOf n).schRest = f :: rest) :
    s.Left (s.schedInject n) n bypVc f ∧
    (s.schedInject n).niOf n = { (s.niOf n).schLeft rest with sentFc := s.fc + 1 } := by
  rw [State.schedInject_next hr hfree hf]
  have hm := (s.injMarks_noted n).toMarked.all.trans ((s.injMarks n).schServed_marked n (s.niOf n).schQ)
  generalize (s.injMarks n).schServed n (s.niOf n).schQ = u at hm ⊢
  obtain ⟨hleft, hx⟩ := State.niSend_left (s := s) (u := u.modNi n fun x => x.schLeft rest) hn hm.fc hm.links bypVc f
  refine ⟨hleft, hx.trans ?_⟩
  rw [State.niOf_modNi_self, hm.niOf]
  exact congrArg (fun c => { (s.niOf n).schLeft rest with sentFc := c + 1 }) hm.fc

/-- The flow that holds this position, once the marks of its word are made. -/
theorem State.injMarks_flow {s : State} {n : Nat} (hn : n < 87) {b fl : Nat} (hb : s.niBank n = some b)
    (hfl : s.injFlow n b s.rotPos = some fl) :
    (s.injMarks n).niBank n = some b ∧ (s.injMarks n).injFlow n b (s.injMarks n).rotPos = some fl := by
  have hm := s.injMarks_noted n
  have hpos : (s.injMarks n).rotPos = s.rotPos := by rw [State.rotPos, hm.time, State.rotPos]
  have hlt : s.rotPos < 1024 := Nat.mod_lt _ (by decide)
  rw [hm.niBank hn, hpos, hm.injFlow hn (State.bankAt_lt hb) hlt]
  exact ⟨hb, hfl⟩

/-! The message of a flow leaves (R160) -/

/-- What R160 asks of the message `it` of flow `fl` at queue `j` of NI `n`, with the packet `p`. -/
structure State.SchedMay (s : State) (n j : Nat) (it : QItem) (p : Pkt) (fl : BitVec 12) : Prop where
  waits  : s.schedWaits n it = true
  taken  : it.taken + 4 ≤ s.fc
  room   : s.canReserve n (answerSpace p 0).1 (answerSpace p 0).2 = true
  unans  : (s.niOf n).unansTo (hDst p.hdr) < 128
  flow   : (s.niOf n).flowBusy fl false = false
  barred : (s.niOf n).barred j it.ord = false
  hazard : (s.niOf n).hazardHeld it p = false
  lines  : ∀ h ∈ it.hazard, ∀ l ∈ (s.niOf n).wcb, l.ord ≠ h

/-- Marks leave what R160 looks at. -/
theorem State.SchedMay.of_noted {s t : State} {n j : Nat} {it : QItem} {p : Pkt} {fl : BitVec 12} (h : s.SchedMay n j it p fl)
    (hm : Noted steady s t) (hn : n < 87) : t.SchedMay n j it p fl where
  waits  := (hm.schedWaits hn it).trans h.waits
  taken  := hm.fc ▸ h.taken
  room   := (hm.canReserve hn (answerSpace_key_le p 0) _).trans h.room
  unans  := by rw [hm.niOf]; exact h.unans
  flow   := by rw [hm.niOf]; exact h.flow
  barred := by rw [hm.niOf]; exact h.barred
  hazard := by rw [hm.niOf]; exact h.hazard
  lines  := by rw [hm.niOf]; exact h.lines

/-- Message `i` of queue `j` leaves as a packet with SCH set: its entry is ISSUED, and its first flit goes onto the bypass. -/
def State.schStart (s : State) (n j i : Nat) (it : QItem) (p : Pkt) : State :=
  let p := { p with hdr := setSch p.hdr true }
  let s := (s.modNi n fun x => x.putItem j i []).issue n it p
  let (seq, s) := s.takeSeq n (hDst p.hdr) (hVn p.hdr)
  match ({ p with hdr := setSeq p.hdr seq } : Pkt).flits with
  | [] => s
  | f :: rest => ((s.servedFlit n j).modNi n fun x => { x with schRest := rest, schQ := some j }).niSend n bypVc f

/-- At a position that a flow holds, its message in the only queue with messages leaves when R160 allows. -/
theorem State.schedInject_start {s : State} {n : Nat} (hn : n < 87) (hr : s.runs (niTile n) = true) (hfree : (s.niOf n).sentFc ≠ s.fc + 1)
    (hs : (s.niOf n).schRest = []) {b fl : Nat} (hb : s.niBank n = some b) (hfl : s.injFlow n b s.rotPos = some fl) {j i : Nat}
    {q : List QItem} {it : QItem} {p : Pkt} (hq : (s.niOf n).queues = [(j, q)])
    (hi : q.findIdx? (fun it => it.flow = some (BitVec.ofNat 12 fl)) = some i) (hit : q[i]? = some it) (hp : it.pkt = some p)
    (h : s.SchedMay n j it p (BitVec.ofNat 12 fl)) : s.schedInject n = (s.injMarks n).schStart n j i it p := by
  have hm := s.injMarks_noted n
  obtain ⟨hb', hfl'⟩ := State.injMarks_flow hn hb hfl
  have hhead : (q.drop i).head? = some it := by rw [List.head?_drop, hit]
  have hh : (it.hazard.any fun h => (s.niOf n).wcb.any fun l => l.ord = h) = false := by
    simp only [List.any_eq_false, List.any_eq_true, decide_eq_true_eq, not_exists, not_and]
    exact h.lines
  obtain ⟨hw, ht, hroom, -, -, -, -, -⟩ := h.of_noted hm hn
  unfold State.schedInject State.schStart
  simp only [hr, hfree, hs, hb', hfl', hq, List.filterMap_cons, List.filterMap_nil, hi, hhead, Option.bind_some, Option.map_some,
    List.foldl_cons, List.foldl_nil, hp, hw, hroom, h.flow, h.barred, h.hazard, hh, Nat.not_lt.mpr ht, Nat.not_le.mpr h.unans,
    Bool.not_true, decide_false, Bool.false_eq_true, if_false, Bool.or_false] <;> rfl

/-- The entry `k` of an NI is ISSUED with its packet injected in scheduled form. -/
theorem State.issue_scheduled (s : State) (n : Nat) (it : QItem) {p : Pkt} (hst : ((s.niOf n).led (tagKey (hTag p.hdr))).st = .notStarted)
    (hsch : hSch p.hdr = true) :
    ∃ e r, (s.issue n it p).niOf n = ({ s.niOf n with resv := r } : Ni).setLed (tagKey (hTag p.hdr)) e ∧ e.st = .issued ∧ e.injSch = true := by
  unfold State.issue
  extract_lets k x e part
  rw [State.niOf_setNi_self]
  exact ⟨_, _, rfl, if_pos hst, hsch⟩

/-- An injected request changes its NI alone. -/
theorem State.issue_same (s : State) (n : Nat) (it : QItem) (p : Pkt) :
    (s.issue n it p).fc = s.fc ∧ (s.issue n it p).links = s.links := ⟨rfl, rfl⟩

/-- The NI `y` after message `i` of queue `j` of `x`, the packet of entry `k`, has begun to leave in scheduled form. -/
structure Ni.SchedStarts (x y : Ni) (j i k : Nat) (rest : List Flit) : Prop where
  rest  : y.schRest = rest
  queue : y.queue j = (x.queue j).take i ++ (x.queue j).drop (i + 1)
  st    : (y.led k).st = .issued
  sch   : (y.led k).injSch = true

theorem State.schStart_sends {s u : State} {n : Nat} (hn : n < 87) (hfc : u.fc = s.fc) (hl : u.links = s.links) (j i : Nat) (it : QItem)
    {p : Pkt} (hst : ((u.niOf n).led (tagKey (hTag p.hdr))).st = .notStarted) {f : Flit} {rest : List Flit}
    (hf : ({ p with hdr := setSeq (setSch p.hdr true) ((u.niOf n).nextSeq p.hdr) } : Pkt).flits = f :: rest) :
    s.Left (u.schStart n j i it p) n bypVc f ∧
    (u.niOf n).SchedStarts ((u.schStart n j i it p).niOf n) j i (tagKey (hTag p.hdr)) rest := by
  have hx := State.niOf_modNi_self u n fun x => x.putItem j i []
  obtain ⟨e, r, hw, he, hsch⟩ := (u.modNi n fun x => x.putItem j i []).issue_scheduled n it (p := { p with hdr := setSch p.hdr true })
    (by rw [hTag_setSch, hx]; exact hst) (hSch_setSch _ _)
  rw [hTag_setSch, hx] at hw
  unfold State.schStart
  obtain ⟨hwfc, hwl⟩ := (u.modNi n fun x => x.putItem j i []).issue_same n it { p with hdr := setSch p.hdr true }
  replace hwfc := hwfc.trans ((u.setNi_fc n _).trans hfc)
  replace hwl := hwl.trans ((u.setNi_links n _).trans hl)
  dsimp only
  generalize (u.modNi n fun x => x.putItem j i []).issue n it { p with hdr := setSch p.hdr true } = w at hw hwfc hwl ⊢
  obtain ⟨hseq, hstarts⟩ := w.takeSeq_starts n (setSch p.hdr true)
  have hnext : (w.niOf n).nextSeq (setSch p.hdr true) = (u.niOf n).nextSeq p.hdr := by
    rw [Ni.nextSeq_setSch, hw]
    rfl
  have hvfc : (w.takeSeq n (hDst (setSch p.hdr true)) (hVn (setSch p.hdr true))).2.fc = s.fc := hwfc
  have hvl : (w.takeSeq n (hDst (setSch p.hdr true)) (hVn (setSch p.hdr true))).2.links = s.links := hwl
  rw [← hnext, ← hseq] at hf
  generalize w.takeSeq n (hDst (setSch p.hdr true)) (hVn (setSch p.hdr true)) = z at *
  obtain ⟨seq, v⟩ := z
  dsimp only at *
  rw [hf]
  dsimp only
  have hm := v.servedFlit_marked n j
  obtain ⟨hleft, hy⟩ := State.niSend_left (s := s) (u := (v.servedFlit n j).modNi n fun x => { x with schRest := rest, schQ := some j })
    hn hvfc hvl bypVc f
  rw [State.niOf_modNi_self, hm.niOf] at hy
  have hled : (v.niOf n).led (tagKey (hTag p.hdr)) = e := by
    rw [Ni.led, hstarts.ledger, hw]
    exact Ni.led_setLed_self _ _ _
  have hqueue : (v.niOf n).queue j = ((u.niOf n).putItem j i []).queue j := by
    rw [Ni.queue, hstarts.queues, hw]
    rfl
  refine ⟨hleft, ?_⟩
  rw [hy]
  refine ⟨rfl, hqueue.trans ?_, (congrArg LEntry.st hled).trans he, (congrArg LEntry.injSch hled).trans hsch⟩
  rw [Ni.putItem, Ni.setQueue, Ni.queue, Tbl.get_set_self, List.append_nil]

/-- With no message of the flow that holds this position nothing leaves: Tally counts (R379). -/
theorem State.schedInject_miss {s : State} {n : Nat} (hn : n < 87) (hs : (s.niOf n).schRest = []) {b fl : Nat} (hb : s.niBank n = some b)
    (hfl : s.injFlow n b s.rotPos = some fl) (hq : ∀ e ∈ (s.niOf n).queues, ∀ it ∈ e.2, it.flow ≠ some (BitVec.ofNat 12 fl)) :
    Marked noReg s (s.schedInject n) := by
  obtain ⟨hb', hfl'⟩ := State.injMarks_flow hn hb hfl
  have hm : Marked noReg s (s.injMarks n) := (s.injMarks_noted n).toMarked.all
  have hnone : ((s.niOf n).queues.filterMap fun e => (e.2.findIdx? fun it => it.flow = some (BitVec.ofNat 12 fl)).bind fun i =>
      (e.2.drop i).head?.map fun it => (e.1, i, it)) = [] := by
    refine List.filterMap_eq_nil_iff.mpr fun e he => ?_
    rw [List.findIdx?_eq_none_iff.mpr fun it hit => decide_eq_false (hq e he it hit), Option.bind_none]
  unfold State.schedInject
  simp only [hs, hb', hfl', hnone, List.foldl_nil, Option.bind_none]
  exact .ite (.refl s) (hm.trans (State.countOnce_marked _ hn _).all)

/-- Nothing is injected without a bank. -/
theorem State.schedInject_unbanked {s : State} {n : Nat} (hs : (s.niOf n).schRest = []) (hb : s.niBank n = none) : s.schedInject n = s := by
  simp only [State.schedInject, State.injMarks_unbanked hb, hs, hb, ite_self]

/-! Throttle frames (R191, R336) -/

/-- The first `k` NIs have begun a frame. -/
def State.niFrames (s : State) (k : Nat) : State :=
  forN k (fun n s => s.modNi n fun x => { x with thrRate := s.fld (INJ_THR n) 8 0, thrUsed := 0, shUsed := [] }) s

/-- The shares of the first `m` partitions, those of 256 left out. -/
def State.shares (s : State) (m : Nat) : Tbl Nat :=
  (List.range m).foldl (fun t p => let r := s.fld (PART_SHARE p) 24 16; if r = 256 then t else t ++ [(p, r)]) []

theorem State.frame_due {s : State} (h : s.fc % 256 = 0) (hm : s.mode ≠ .frozen) (hd : s.fclkDead = false) :
    s.frame = { s.niFrames 87 with shRate := (s.niFrames 87).shares 512 } := by
  unfold State.frame
  rw [if_neg (by simp [h, hm, hd])]
  rfl

theorem State.frame_other {s : State} (h : s.fc % 256 ≠ 0 ∨ s.mode = .frozen) : s.frame = s := by
  refine if_pos ?_
  obtain h | h := h <;> simp [h]

/-- Of the state the NIs change. -/
theorem State.niFrames_rest (s : State) (k : Nat) : { s.niFrames k with ni := s.ni } = s := by
  induction k with
  | zero => rfl
  | succ k ih => exact ih

theorem State.rd_niFrames (s : State) (k a : Nat) : (s.niFrames k).rd a = s.rd a := by
  have h : (s.niFrames k).regs = s.regs := (congrArg State.regs (s.niFrames_rest k) :)
  rw [State.rd, h, State.rd]

theorem State.niOf_niFrames (s : State) (k n : Nat) : (s.niFrames k).niOf n =
    if n < k then { s.niOf n with thrRate := s.fld (INJ_THR n) 8 0, thrUsed := 0, shUsed := [] } else s.niOf n := by
  induction k with
  | zero => rfl
  | succ k ih =>
    have hstep : s.niFrames (k + 1) = (s.niFrames k).modNi k fun x =>
      { x with thrRate := (s.niFrames k).fld (INJ_THR k) 8 0, thrUsed := 0, shUsed := [] } := rfl
    rw [hstep]
    by_cases hn : n = k
    · subst hn
      rw [State.niOf_modNi_self, ih, if_neg (Nat.lt_irrefl n), if_pos (Nat.lt_succ_self n), State.fld_congr (s.rd_niFrames n _)]
    · rw [State.niOf_modNi_ne _ hn, ih]
      simp only [Nat.lt_succ_iff_lt_or_eq, hn, or_false]

theorem State.shares_succ (s : State) (m : Nat) : s.shares (m + 1) =
    if s.fld (PART_SHARE m) 24 16 = 256 then s.shares m else s.shares m ++ [(m, s.fld (PART_SHARE m) 24 16)] := by
  rw [State.shares, List.range_succ, List.foldl_append]
  rfl

theorem Tbl.get_append {α : Type} (d : Nat → α) (t u : Tbl α) (k : Nat) : Tbl.get d (t ++ u) k = Tbl.get (Tbl.get d u) t k := by
  induction t with
  | nil => rfl
  | cons x t ih =>
    obtain ⟨a, v⟩ := x
    simp only [List.cons_append, Tbl.get, ih]

theorem State.shares_below (s : State) (m : Nat) : ∀ x ∈ s.shares m, x.1 < m := by
  induction m with
  | zero => exact fun x hx => nomatch hx
  | succ m ih =>
    intro x hx
    rw [State.shares_succ] at hx
    split at hx
    · exact Nat.lt_succ_of_lt (ih x hx)
    · obtain hx | hx := List.mem_append.mp hx
      · exact Nat.lt_succ_of_lt (ih x hx)
      · rw [List.mem_singleton.mp hx]
        exact Nat.lt_succ_self m

/-- Of the default function a key sees its own value. -/
theorem Tbl.get_default_congr {α : Type} {d d' : Nat → α} {k : Nat} (h : d k = d' k) (t : Tbl α) : Tbl.get d t k = Tbl.get d' t k := by
  induction t with
  | nil => exact h
  | cons x t ih =>
    obtain ⟨a, v⟩ := x
    simp only [Tbl.get, ih]

/-- A partition that is left out has the share 256. -/
theorem State.get_shares (s : State) {m p : Nat} (hp : p < m) :
    Tbl.get (fun _ => 256) (s.shares m) p = s.fld (PART_SHARE p) 24 16 := by
  have hnew (d : Nat → Nat) (m : Nat) : Tbl.get d (s.shares m) m = d m :=
    Tbl.get_of_lacks d fun x hx => Nat.ne_of_lt (s.shares_below m x hx)
  induction m with
  | zero => exact absurd hp (Nat.not_lt_zero p)
  | succ m ih =>
    rw [State.shares_succ]
    obtain hlt | rfl := Nat.lt_succ_iff_lt_or_eq.mp hp
    · split
      · exact ih hlt
      · rw [Tbl.get_append, ← ih hlt]
        exact Tbl.get_default_congr (if_neg (Nat.ne_of_gt hlt)) _
    · split
      · next h => rw [hnew, h]
      · rw [Tbl.get_append, hnew]
        exact if_pos rfl

/-- At the first fc of a frame the NIs and the shares change alone. -/
theorem State.frame_begins {s : State} (h : s.fc % 256 = 0) (hm : s.mode ≠ .frozen) (hd : s.fclkDead = false) :
    ∃ x l, s.frame = { s with ni := x, shRate := l } ∧
      (∀ n, n < 87 → Tbl.get (fun _ => {}) x n = { s.niOf n with thrRate := s.fld (INJ_THR n) 8 0, thrUsed := 0, shUsed := [] }) ∧
      ∀ p, p < 512 → Tbl.get (fun _ => 256) l p = s.fld (PART_SHARE p) 24 16 := by
  have hrest := s.niFrames_rest 87
  have hni (n : Nat) (hn : n < 87) := (s.niOf_niFrames 87 n).trans (if_pos hn)
  have hsh (p : Nat) (hp : p < 512) := ((s.niFrames 87).get_shares hp).trans (State.fld_congr (s.rd_niFrames 87 _) 24 16)
  rw [State.frame_due h hm hd]
  generalize (s.niFrames 87).shares 512 = l at hsh ⊢
  generalize s.niFrames 87 = u at hrest hni ⊢
  exact ⟨u.ni, l, congrArg (fun v : State => { v with ni := u.ni, shRate := l }) hrest, hni, hsh⟩

/-- Settles O47: the marks of the injection word leave what the schedule and R160 look at, so that the flit of a scheduled packet, or the
message of the flow that holds the position, leaves as it would without them. -/
theorem scheduledInjection : Obligations.ScheduledInjection := by
  refine ⟨?next, ?start, ?miss, fun s n hs hb => congrArg Host.Outcome.next (State.schedInject_unbanked hs hb), ?frame,
    fun s h => congrArg Host.Outcome.next (State.frame_other h)⟩
  case next =>
    intro s n f rest hr hfree hf
    obtain ⟨hleft, hx⟩ := State.schedInject_next_sends (Nat.lt_trans n.isLt (by decide)) hr hfree hf
    refine ⟨_, rfl, hleft, ?_⟩
    rw [hx]
    exact ⟨rfl, rfl, rfl⟩
  case start =>
    intro s n b fl j q i it p f rest hr hfree hs hb hfl hq hi hit hp hw ht hroom hun hflow hbar hhaz hlines hst hf
    have hn : n.val < 87 := Nat.lt_trans n.isLt (by decide)
    have hm := s.injMarks_noted n.val
    rw [← hm.niOf] at hst hf
    obtain ⟨hleft, hx⟩ := State.schStart_sends (s := s) hn hm.fc hm.links j i it hst hf
    rw [← State.schedInject_start hn hr hfree hs hb hfl hq hi hit hp ⟨hw, ht, hroom, hun, hflow, hbar, hhaz, hlines⟩, hm.niOf] at *
    refine ⟨_, rfl, hleft, hx.rest, ?_, hx.st, hx.sch⟩
    rw [hx.queue, Ni.queue, hq, Tbl.get, if_pos rfl]
  case miss =>
    intro s n b fl hs hb hfl hq
    have hm := State.schedInject_miss (Nat.lt_trans n.isLt (by decide)) hs hb hfl hq
    exact ⟨_, rfl, hm.ni, hm.links⟩
  case frame =>
    intro s h hm hd
    obtain ⟨x, l, he, hni, hsh⟩ := State.frame_begins h hm hd
    exact ⟨_, congrArg Host.Outcome.next he, hni, hsh, rfl⟩

end Sys2Proof.Machine
end

section
/-! Obligations.ScheduleLoad (R173, R174, R376, R442): its clauses on the end of a fetch take the MNI of the load in progress from
the loader unbounded. Past the four MNIs the counters of "NI `76 + mni`" lie outside Tally, and the overflow bit of one of
them is a bit of a register of another block. -/

namespace Sys2Proof.Machine

/-- The index of an MNI that does not exist, such that the overflow bits of the counters of "its" NI lie in SW_STAT. -/
def strayMni : Nat := 7820

/-- The second counter of that NI: `TLY_OVF (strayCnt / 32)` is SW_STAT, and its bit `strayCnt % 32` is bit 1, in the state. -/
def strayCnt : Nat := 448 + 8 * (76 + strayMni) + 1

/-- In DRAIN with SW_STAT IDLE, a load whose fetch is through that MNI and holds an open Ledger entry there; the counter counts
completions (code 0x32) and is at its last value. -/
def strayLoad : State where
  pwrOk  := true
  mode   := .drain
  fc     := 100000
  mc     := 40000
  regs   := [(CNT strayCnt 0, 0xFFFFFFFF), (CNT strayCnt 1, 0xFFFF), (CNT strayCnt 2, 0x80032)]
  loader := { busy := some (0, 0, strayMni, 0), entry := some 0 }
  ni     := [(76 + strayMni, { ledger := [(0, { st := .issued, owner := .loader })] })]

/-- Its mode permits no load, and no switchover is under way. -/
theorem strayLoad_idle : strayLoad.loadMay = false ∧ strayLoad.swState = 0 := by decide +kernel

/-- The initiator check passes an empty image. -/
theorem strayLoad_memCheck : strayLoad.memCheck (76 + strayMni) false 0 0 = (strayLoad, 0, OK) := by decide +kernel

/-- The end of its fetch counts a completion, whose overflow makes SW_STAT ARMED. -/
theorem swState_strayLoad_loadEnded : (strayLoad.loadEnded [] OK).swState = 2 := by decide +kernel

/-- Refutes O20: a load that ends where its mode permits none is to leave IDLE in SW_STAT; where the loader names MNI 7820, the
completion counted there overflows into SW_STAT, which becomes ARMED. -/
theorem not_scheduleLoad : ¬ Obligations.ScheduleLoad := by
  unfold Obligations.ScheduleLoad
  rintro ⟨-, -, -, -, -, notPermitted, -⟩
  obtain ⟨hmay, hidle⟩ := strayLoad_idle
  obtain ⟨t, hexec, -, hsw, -⟩ := notPermitted strayLoad [] (0, 0, strayMni, 0) rfl (by decide) nofun (by decide +kernel) hmay
    strayLoad_memCheck
  have ht : strayLoad.loadEnded [] OK = t := Host.Outcome.next.inj hexec
  rw [← ht, swState_strayLoad_loadEnded, hidle] at hsw
  exact absurd hsw (by decide)

end Sys2Proof.Machine
end


section
/-! Obligations.TenureEnds (R199 to R201), and what an operation of a tile does: nothing while the tile's traffic stands. -/

namespace Sys2Proof.Machine

theorem State.atTile_of_runs {s : State} {k : Nat} (h : s.runs k = true) (f : State → State) : s.atTile k f = f s := if_pos h

/-- An operation that would change nothing changes nothing, whether the tile's traffic runs or not. -/
theorem State.atTile_of_stays {s : State} {k : Nat} {f : State → State} (h : f s = s) : s.atTile k f = s := by
  unfold State.atTile
  rw [h, ite_self]

theorem State.not_frozen_of_runs {s : State} {k : Nat} (h : s.runs k = true) : s.mode ≠ .frozen := by
  simp only [State.runs, Bool.and_eq_true, bne_iff_ne] at h
  tauto

/-- No answer is taken where none has arrived. -/
theorem Ni.takeIn_of_answersIn_nil {x : Ni} (h : x.answersIn = []) (p : BitVec 128 → BitVec 128 → Bool) : x.takeIn p = none := by
  unfold Ni.takeIn
  rw [h, List.find?_nil, Option.map_none]

theorem State.arbRelArrive_of_takeIn {s : State} {n : Nat} {p : HPkt} {x : Ni}
    (h : (s.niOf n).takeIn (fun h sc => hCls h = cNDR && sOpc sc = opARB_REL) = some (p, x)) :
    s.arbRelArrive n = s.setNi n (if (x.arb.st = .held ∨ x.arb.st = .yielding) ∧ p.req = x.arb.holder ∧ x.arb.htagSet = true ∧
      hTag p.hdr = x.arb.htag then { x with arb := x.arb.release } else x) := by
  unfold State.arbRelArrive
  simp only [h, Bool.and_eq_true, Bool.or_eq_true, decide_eq_true_eq, and_assoc]

theorem State.arbRelArrive_of_none {s : State} {n : Nat}
    (h : (s.niOf n).takeIn (fun h sc => hCls h = cNDR && sOpc sc = opARB_REL) = none) : s.arbRelArrive n = s := by
  unfold State.arbRelArrive
  simp only [h]

/-- Only a holder yields. -/
theorem State.arbYield_of_not_held {s : State} {n : Nat} (h : (s.niOf n).arb.st ≠ .held) : s.arbYield n = s := by
  unfold State.arbYield
  simp only [decide_eq_false h, Bool.false_and, Bool.false_eq_true, if_false]

theorem State.arbBreak_of_not_held {s : State} {n : Nat} (h : (s.niOf n).arb.st ≠ .held) :
    s.arbBreak n = if (s.niOf n).arb.st = .yielding ∧ (s.niOf n).holds_ (s.niOf n).arb.holder = false
      then s.setArb n (s.niOf n).arb.endTenure else s := by
  unfold State.arbBreak
  simp only [State.arbYield_of_not_held h, Bool.and_eq_true, decide_eq_true_eq, Bool.not_eq_true']

/-- Settles O33: an arrived ARB_REL and the break point each act on the arbiter of the one NI, and a yielding holder has no further
cause to yield. -/
theorem tenureEnds : Obligations.TenureEnds := by
  unfold Obligations.TenureEnds
  refine ⟨?_, ?_, ?_, ?_, ?_⟩
  · intro s n p x hruns hin hst hreq hset htag
    refine congrArg Host.Outcome.next ((State.atTile_of_runs hruns _).trans ?_)
    rw [State.arbRelArrive_of_takeIn hin, if_pos ⟨hst, hreq, hset, htag⟩]
    rfl
  · intro s n p x hruns hin hother
    refine congrArg Host.Outcome.next ((State.atTile_of_runs hruns _).trans ?_)
    rw [State.arbRelArrive_of_takeIn hin, if_neg]
    rintro ⟨hst, hreq, hset, htag⟩
    rcases hother with h | h | h | h | h
    · exact h hreq
    · exact absurd (hset.symm.trans h) (by decide)
    · exact h htag
    · simp [h] at hst
    · simp [h] at hst
  · intro s n hin
    exact congrArg Host.Outcome.next (State.atTile_of_stays (State.arbRelArrive_of_none (Ni.takeIn_of_answersIn_nil hin _)))
  · intro s n hruns hst hbreak
    refine congrArg Host.Outcome.next ((State.atTile_of_runs hruns _).trans ?_)
    rw [State.arbBreak_of_not_held (by rw [hst]; decide), if_pos ⟨hst, hbreak⟩]
    rfl
  · intro s n hst
    refine congrArg Host.Outcome.next (State.atTile_of_stays ?_)
    rw [State.arbBreak_of_not_held (by rcases hst with h | h <;> rw [h] <;> decide), if_neg]
    rintro ⟨hy, -⟩
    rcases hst with h | h <;> exact absurd (hy.symm.trans h) (by decide)

end Sys2Proof.Machine
end

section
/-! Obligations.TransactionTimers (R204, R274, R445): the entry of an expired timer, the end of a back-off, the repeated EH_RD. -/

namespace Sys2Proof.Machine

/-- An entry that becomes STUCK has the code TIMEOUT and no timer (R445). -/
theorem State.led_stickEntry (s : State) {n : Nat} (hn : n < 87) (k : Nat) : ((s.stickEntry n k).niOf n).led k =
    { (s.niOf n).led k with st := .stuck, code := TIMEOUT, timer := none, retryAt := none } := by
  unfold State.stickEntry
  extract_lets e s1 s2
  have h2 : (s2.niOf n).led k = (s1.niOf n).led k := by
    have hm : s2.niOf n = s1.niOf n :=
      (State.countN_marked _ hn _ _ _).niOf n |>.trans (((State.niErr_noted _ n 6).niOf n).trans ((s1.ownerDone_noted _ _).niOf n))
    rw [hm]
  have hj : (s2.ledgerJ n k kENDED TIMEOUT ((s2.niOf n).led k).ok).niOf n = s2.niOf n := (State.journal_noted _ _).niOf n
  rw [hj, h2]
  have h1 : s1.niOf n = ((s.niOf n).modLed k fun e =>
      { e with st := .stuck, code := TIMEOUT, timer := none, retryAt := none }).barNote e TIMEOUT := State.niOf_modNi_self _ _ _
  rw [h1]
  unfold Ni.led
  rw [Ni.ledger_barNote]
  exact Ni.led_setLed_self _ _ _

/-- A timer that has not expired, or does not run, changes nothing. -/
theorem State.txnTimeout_early {s : State} {n k : Nat} (h : ∀ d, ((s.niOf n).led k).timer = some d → s.fc < d) :
    s.txnTimeout n k = s := by
  unfold State.txnTimeout
  extract_lets e
  split
  · rfl
  · next t ht => rw [if_pos]; simp [h t ht]

/-- An open entry whose timer has expired becomes STUCK. -/
theorem State.led_txnTimeout {s : State} {n k d : Nat} (hn : n < 87) (ht : ((s.niOf n).led k).timer = some d) (hd : d ≤ s.fc)
    (hm : s.mode ≠ .frozen) (hr : ((s.niOf n).led k).retained = false) (ho : ((s.niOf n).led k).isOpen = true) :
    (((s.txnTimeout n k).niOf n).led k).st = .stuck ∧ (((s.txnTimeout n k).niOf n).led k).code = TIMEOUT ∧
      (((s.txnTimeout n k).niOf n).led k).timer = none := by
  have hlate : ¬(decide (s.fc < d) || decide (s.mode = .frozen)) = true := by simp [hm]; omega
  have hstuck := State.led_stickEntry ((s.modNi n fun x => x.dropItems k).endUnit n k TIMEOUT) hn k
  have hend : (s.txnTimeout n k).ni = (((s.modNi n fun x => x.dropItems k).endUnit n k TIMEOUT).stickEntry n k).ni := by
    unfold State.txnTimeout
    simp only [ht, if_neg hlate, hr, ho, Bool.false_eq_true, if_false, if_true]
    split <;> rfl
  have hni := congrArg (fun t => (Tbl.get (fun _ => {}) t n).led k) hend
  unfold State.niOf at hstuck ⊢
  rw [hni, hstuck]
  exact ⟨rfl, rfl, rfl⟩

theorem State.backoffEnd_of_due {s : State} {n i : Nat} {b : Backoff} (hm : s.mode ≠ .frozen)
    (hb : ((s.niOf n).backoff.drop i).head? = some b) (hw : b.waiting = true) (hd : b.until_ ≤ s.fc) :
    s.backoffEnd n i = s.modNi n fun x =>
      { x with backoff := x.backoff.take i ++ (if b.k = 0 then [] else [{ b with waiting := false }]) ++ x.backoff.drop (i + 1) } := by
  unfold State.backoffEnd
  simp only [hb]
  rw [if_pos]
  simp [hw, hd, hm]

theorem State.backoffEnd_early {s : State} {n i : Nat} {b : Backoff} (hb : ((s.niOf n).backoff.drop i).head? = some b)
    (hd : s.fc < b.until_) : s.backoffEnd n i = s := by
  unfold State.backoffEnd
  simp only [hb]
  rw [if_neg]
  simp only [Bool.and_eq_true, decide_eq_true_eq]
  omega

/-- The EH_RD that entry `e` of key `k` sends again (R274). -/
def LEntry.retryItem (e : LEntry) (k fc : Nat) : QItem :=
  { tag := keyTag k, cls := cMGT, opc := e.opc, key := .node e.dst, part := e.part, anyPart := true, ord := e.ord,
    addr := e.addr.setWidth 64, body := [(setOpc (putBits e.hdr 47 40 e.mid.toNat) e.opc, 0)], owner := e.owner, qsel := e.qsel,
    taken := fc, retry := true }

theorem State.ehRetry_of_due {s : State} {n k d : Nat} (hm : s.mode ≠ .frozen) (ht : ((s.niOf n).led k).retryAt = some d)
    (hd : d ≤ s.fc) (ho : ((s.niOf n).led k).isOpen = true) (hmute : ((s.niOf n).led k).mute = false) :
    s.ehRetry n k = s.setNi n (((s.niOf n).setLed k { (s.niOf n).led k with retryAt := none }).setQueue ownQueue
      ((s.niOf n).queue ownQueue ++ [((s.niOf n).led k).retryItem k s.fc])) := by
  unfold State.ehRetry
  simp only [ht]
  rw [if_neg]
  · rfl
  · simp [ho, hmute, hm]; omega

theorem State.ehRetry_of_none {s : State} {n k : Nat} (h : ((s.niOf n).led k).retryAt = none) : s.ehRetry n k = s := by
  unfold State.ehRetry
  simp only [h]

/-- Settles O37: the entry of an expired timer becomes STUCK whatever its end at the source did before, and the other two events act on
the one NI. -/
theorem transactionTimers : Obligations.TransactionTimers := by
  have hex (s : State) (n : Fin 80) (posted : Bool) (i : Fin 512) (h : posted = true ∨ i.val < 256) :
      exec (.txnTimeout n posted i) s = .next (s.txnTimeout n (if posted then 256 + i.val else i.val)) := by
    refine congrArg Host.Outcome.next ?_
    cases posted
    · exact if_pos (h.resolve_left (by decide))
    · rfl
  unfold Obligations.TransactionTimers
  refine ⟨?_, ?_, ?_, ?_, ?_, ?_⟩
  · intro s n posted i d hi ht hd hm hr ho
    exact ⟨_, hex s n posted i hi, State.led_txnTimeout (by omega) ht hd hm hr ho⟩
  · intro s n posted i h
    by_cases hi : posted = true ∨ i.val < 256
    · rw [hex s n posted i hi, State.txnTimeout_early h]
    · rw [not_or, Bool.not_eq_true] at hi
      obtain ⟨rfl, hi⟩ := hi
      exact congrArg Host.Outcome.next (if_neg hi)
  · intro s n i b hruns hb hw hd
    refine congrArg Host.Outcome.next ((State.atTile_of_runs hruns _).trans ?_)
    exact State.backoffEnd_of_due (State.not_frozen_of_runs hruns) hb hw hd
  · intro s n i b hb hd
    exact congrArg Host.Outcome.next (State.atTile_of_stays (State.backoffEnd_early hb hd))
  · intro s n k d hruns ht hd ho hmute
    have hex : exec (.ehRdRetry n k) s = .next (s.ehRetry n.val k.val) :=
      congrArg Host.Outcome.next (State.atTile_of_runs hruns _)
    rw [State.ehRetry_of_due (State.not_frozen_of_runs hruns) ht hd ho hmute] at hex
    refine ⟨_, hex, ?_, ⟨((s.niOf n.val).led k.val).retryItem k.val s.fc, ?_, rfl, rfl, rfl, rfl, rfl, rfl, rfl, rfl⟩, ?_, ?_, rfl⟩
    · rw [State.niOf_setNi_self]
      exact Ni.led_setLed_self _ _ _
    · rw [State.niOf_setNi_self]
      exact Tbl.get_set_self _ _ _ _
    · intro j hj
      rw [State.niOf_setNi_self]
      exact Tbl.get_set_ne _ hj _ _
    · intro j hj
      exact State.niOf_setNi_ne s hj _
  · intro s n k h
    exact congrArg Host.Outcome.next (State.atTile_of_stays (State.ehRetry_of_none h))

end Sys2Proof.Machine
end


section
/-! Obligations.ArbiterRegisters (R196, R197, R200, R228, R230): writes that reach the arbiter's registers of an NI page. -/

namespace Sys2Proof.Machine

/-! A register of an NI page whose write Foreman does not follow -/

/-- Offset `o` of the page of NI `n` is that of a register with the row `r`, all of whose fields are RW and which Foreman may not
write. -/
structure NiReg (n : Fin 87) (o : Nat) (r : RegRow) : Prop where
  low   : 0x2C0 ≤ o
  high  : o < 0x380
  word  : o % 4 = 0
  row   : rowAt (.ni n) o = some r
  w1c   : r.mask .w1c = 0
  rwl   : r.mask .rwl = 0
  wo    : r.mask .wo = 0
  open_ : r.mask .rw ≠ 0

theorem arbCtrl_eq (n : Fin 87) : ARB_CTRL n.val = pageBase (.ni n) + 0x2C0 := by simp only [pageBase, ARB_CTRL]; omega
theorem arbWin_eq (n : Fin 87) : ARB_WIN n.val = pageBase (.ni n) + 0x2C4 := by simp only [pageBase, ARB_WIN]; omega
theorem arbSeed_eq (n : Fin 87) : ARB_SEED n.val = pageBase (.ni n) + 0x2C8 := by simp only [pageBase, ARB_SEED]; omega
theorem rsvCtrl_eq (n : Fin 87) : RSV_CTRL n.val = pageBase (.ni n) + 0x310 := by simp only [pageBase, RSV_CTRL]; omega

theorem niPage_val (n : Fin 87) : niPage n.val = .ni n := congrArg Page.ni (Fin.ofNat_val_eq_self n)

theorem varTouched_ni (n : Fin 87) (o : Nat) : varTouched (pageBase (.ni n) + o) = false := by
  have h : ∀ b, b < 0x100000 → pageBase (.ni n) + o ≠ b := by simp only [pageBase]; omega
  simp (disch := decide) only [varTouched, h, decide_false, Bool.or_self]

/-- Foreman writes INJ_THR, DL_RAISE and the arbiter's tables of an NI page, no register between (R358). -/
theorem State.managerWrote_ni (s : State) (m : Nat) (n : Fin 87) {o : Nat} (hlow : 0x2C0 ≤ o) (hhigh : o < 0x380) :
    s.managerWrote m (pageBase (.ni n) + o) = s := by
  have hother : (decide (o = 0x28C) || decide (o = 0x38C) || (decide (0x804 ≤ o) && decide (o < 0xA00) && decide (o % 8 = 4))) = false := by
    simp only [Bool.or_eq_false_iff, Bool.and_eq_false_iff, decide_eq_false_iff_not]
    omega
  simp only [State.managerWrote, pageOf_base (.ni n) o (by omega), hother, Bool.not_false, Bool.or_true, if_true]

section
variable {s : State} {m : Master} {n : Fin 87} {o : Nat} {r : RegRow}

/-- A write that reaches such a register: its effect takes the word that the RW bits leave. -/
theorem State.regWrite_ni (hr : NiReg n o r) (h : s.Takes m (.ni n) o)
    (hin : (s.served m (pageBase (.ni n) + o) (.page (.ni n) o)).inert (.ni n) o = 0) (v : Word) :
    s.regWrite m (pageBase (.ni n) + o) v = s.wrote m (.ni n) o fun u =>
      u.niWrite n.val o v ((s.rd (pageBase (.ni n) + o) &&& ~~~ (r.mask .rw)) ||| (v &&& r.mask .rw)) := by
  have hlow := hr.low
  have hhigh := hr.high
  have hpark : pageBase (.ni n) + o ≠ HL_PARK := by simp only [pageBase, HL_PARK]; omega
  have hva : varTouched (pageBase (.ni n) + o) = true → s.eng.varStep = 0 := by
    rw [varTouched_ni]
    exact fun h => nomatch h
  have hopen : BitVec.allOnes 32 = ~~~((s.served m (pageBase (.ni n) + o) (.page (.ni n) o)).inert (.ni n) o |||
      (s.served m (pageBase (.ni n) + o) (.page (.ni n) o)).shut (.ni n) o) := by
    rw [hin]
    exact (by decide : BitVec.allOnes 32 = ~~~(0 ||| 0 : Word))
  have hstore : r.mask .rw = (r.mask .rw ||| (if s.rbit (pageBase (.ni n) + 0x10) 2 then 0 else r.mask .rwl)) &&&
      BitVec.allOnes 32 := by
    rw [hr.rwl, ite_self, BitVec.and_allOnes]
    exact BitVec.or_zero.symm
  have hwr : r.writable ≠ 0 := by
    simpa only [RegRow.writable, hr.rwl, hr.wo, BitVec.ofNat_eq_ofNat, BitVec.or_zero] using hr.open_
  have hne : r.mask .rw ||| (r.mask .wo &&& BitVec.allOnes 32) ≠ 0 := by
    simpa only [hr.wo, BitVec.ofNat_eq_ofNat, BitVec.zero_and, BitVec.or_zero] using hr.open_
  rw [State.regWrite_row h (by omega) (by omega) hr.word hr.row hr.w1c hwr rfl hopen hstore hne
    (pageBase_add_ne_hlPark _ (by decide)) hpark v rfl hva, BitVec.and_allOnes]
  exact State.answered_congr (State.managerWrote_ni _ m.val n hlow hhigh)

end

/-! The rows -/

theorem niReg_arbCtrl (n : Fin 87) : NiReg n 0x2C0 (reg1 0x2C0 0x101000 [⟨.rw, 0, 0⟩, ⟨.rw, 1, 1⟩, ⟨.rw, 15, 8⟩, ⟨.rw, 23, 16⟩]) :=
  ⟨by decide, by decide, rfl, rfl, by decide, by decide, by decide, by decide⟩

theorem niReg_arbWin (n : Fin 87) : NiReg n 0x2C4 (reg1 0x2C4 0x10000 [⟨.rw, 23, 0⟩]) :=
  ⟨by decide, by decide, rfl, rfl, by decide, by decide, by decide, by decide⟩

theorem niReg_arbSeed (n : Fin 87) : NiReg n 0x2C8 (reg1 0x2C8 0x6A090000 [⟨.rw, 31, 0⟩]) :=
  ⟨by decide, by decide, rfl, rfl, by decide, by decide, by decide, by decide⟩

theorem niReg_rsvCtrl {n : Fin 87} (hl : Config.hasLedger n.val = true) : NiReg n 0x310 (reg1 0x310 0x1 [⟨.rw, 2, 0⟩]) := by
  refine ⟨by decide, by decide, rfl, ?_, by decide, by decide, by decide, by decide⟩
  have hpresent : niAbsent n.val 0x310 = false := by simp [niAbsent, hl]
  rw [rowAt, if_neg (by decide)]
  simp only [hpresent]
  rfl

/-! What the arbiter reads of the state that the effect acts on -/

section
variable {s t : State}

theorem State.RegsOnly.niOf (h : RegsOnly s t) (k : Nat) : t.niOf k = s.niOf k := by obtain ⟨_, _, rfl⟩ := h; rfl
theorem State.RegsOnly.fc (h : RegsOnly s t) : t.fc = s.fc := by obtain ⟨_, _, rfl⟩ := h; rfl

theorem State.lfsr_congr {n : Nat} (hn : t.niOf n = s.niOf n) (hr : t.rd FUSE_STAT = s.rd FUSE_STAT) : t.lfsr n = s.lfsr n := by
  rw [State.lfsr, State.lfsr, hn, State.node, State.node, State.die, State.die, State.fld_congr hr]

theorem State.drawState_congr {n : Nat} (hn : t.niOf n = s.niOf n) (hf : t.fc = s.fc) (hr : t.rd FUSE_STAT = s.rd FUSE_STAT) :
    t.drawState n = s.drawState n := by
  simp only [State.drawState, hn, hf, State.lfsr_congr hn hr]

theorem State.modNi_of_niOf {n : Nat} {x : Ni} (h : s.niOf n = x) (f : Ni → Ni) : s.modNi n f = s.setNi n (f x) := by
  rw [State.modNi, h]

theorem State.niOf_wr (s : State) (a k : Nat) (v : Word) : (s.wr a v).niOf k = s.niOf k := rfl
theorem State.niOf_keepWas (s : State) (a k : Nat) : (s.keepWas a).niOf k = s.niOf k := rfl

/-- A holder yields while the freeze bit of ARB_CTRL is set (R200). -/
theorem State.arbYield_of_freeze {n : Nat} (h : s.rbit (ARB_CTRL n) 1 = true) :
    s.arbYield n = if (s.niOf n).arb.st = .held then s.setArb n { (s.niOf n).arb with st := .yielding } else s := by
  have hcause : s.yieldCause n = true := by simp only [State.yieldCause, State.frozenNi, h, Bool.true_or]
  simp only [State.arbYield, hcause, Bool.and_true, decide_eq_true_eq]

end

/-- The fields of ARB_CTRL as ARB_FREEZE writes them have the freeze bit set. -/
theorem bit_arbFreeze (x v : Word) : bit ((x &&& ~~~ 0xFFFF03) ||| ((v ||| 2) &&& 0xFFFF03)) 1 = true := by
  rw [bit_stored _ _ _ (by decide)]
  exact bit_withBits_set v (by decide) (by decide)

/-- Settles O31: each of the four writes has the one effect that its register gives the arbiter, in the state that PAGE_SEQ's count
leaves. -/
theorem arbiterRegisters : Obligations.ArbiterRegisters := by
  unfold Obligations.ArbiterRegisters
  refine ⟨?freeze, ?seed, ?window, ?monitors⟩
  case freeze =>
    intro s m n v h
    have hrow : RegRow.mask (reg1 0x2C0 0x101000 [⟨.rw, 0, 0⟩, ⟨.rw, 1, 1⟩, ⟨.rw, 15, 8⟩, ⟨.rw, 23, 16⟩]) .rw = 0xFFFF03 := by decide
    refine congrArg Host.Outcome.next ?_
    have hv : withBits v 2 = v ||| 2 := rfl
    rw [arbCtrl_eq, State.regWrite_ni (niReg_arbCtrl n) h (by simp [State.inert]), hrow, hv]
    refine State.wrote_congr ?_
    have hc := (s.counted_regsOnly m (.ni n) 0x2C0).niOf n.val
    simp only [State.niWrite, niPage_val]
    generalize hu : ((s.counted m (.ni n) 0x2C0).keepWas (pageBase (.ni n) + 0x2C0)).wr (pageBase (.ni n) + 0x2C0) _ = u
    have hn : u.niOf n.val = s.niOf n.val := by
      rw [← hu, State.niOf_wr, State.niOf_keepWas, hc]
    have hbit : u.rbit (ARB_CTRL n.val) 1 = true := by
      rw [arbCtrl_eq, ← hu, State.rbit, State.rd_wr_self]
      exact bit_arbFreeze _ v
    rw [State.arbYield_of_freeze hbit, State.setArb, State.modNi, hn]
  case seed =>
    intro s m n v h
    refine congrArg Host.Outcome.next ?_
    rw [arbSeed_eq, State.regWrite_ni (niReg_arbSeed n) h (by simp [State.inert])]
    refine State.wrote_congr ?_
    have hc := s.counted_regsOnly m (.ni n) 0x2C8
    have hfuse : (s.counted m (.ni n) 0x2C8).rd FUSE_STAT = s.rd FUSE_STAT :=
      s.rd_counted m _ (by decide) (by simp only [pageBase, FUSE_STAT]; omega)
    simp only [State.niWrite, State.modNi, hc.niOf, hc.fc, State.drawState_congr (hc.niOf n.val) hc.fc hfuse]
  case window =>
    intro s m n v h
    have hrow : RegRow.mask (reg1 0x2C4 0x10000 [⟨.rw, 23, 0⟩]) .rw = 0xFFFFFF := by decide
    refine congrArg Host.Outcome.next ?_
    rw [arbWin_eq, State.regWrite_ni (niReg_arbWin n) h (by simp [State.inert]), hrow]
    refine State.wrote_congr ?_
    have hc := s.counted_regsOnly m (.ni n) 0x2C4
    simp only [State.niWrite, niPage_val]
    rw [State.modNi_of_niOf ((State.niOf_wr _ _ _ _).trans (hc.niOf n.val)), hc.fc]
  case monitors =>
    intro s m n v h hl hf
    have hrow : RegRow.mask (reg1 0x310 0x1 [⟨.rw, 2, 0⟩]) .rw = 7 := by decide
    refine congrArg Host.Outcome.next ?_
    rw [rsvCtrl_eq, State.regWrite_ni (niReg_rsvCtrl hl) h (by simp [State.inert, hf]), hrow]
    refine State.wrote_congr ?_
    have hc := s.counted_regsOnly m (.ni n) 0x310
    simp only [State.niWrite, niPage_val]
    rw [State.modNi_of_niOf ((State.niOf_wr _ _ _ _).trans (hc.niOf n.val))]

end Sys2Proof.Machine
end


section
/-! Obligations.QueueDescriptors (R184, R190, R337): writes of the words of a descriptor, and the refusal of a weight. -/

namespace Sys2Proof.Machine

/-! What an error of a page leaves -/

/-- From `s` to `t` nothing changes but registers, their notes and the faults that are due. -/
def State.ErrsOnly (s t : State) : Prop := ∃ r d n, t = { s with regs := r, due := d, notes := n }

namespace State.ErrsOnly

variable {s t u : State}

theorem refl (s : State) : ErrsOnly s s := ⟨s.regs, s.due, s.notes, rfl⟩

theorem trans (h : ErrsOnly s t) (k : ErrsOnly t u) : ErrsOnly s u := by
  obtain ⟨_, _, _, rfl⟩ := h
  obtain ⟨r, d, n, rfl⟩ := k
  exact ⟨r, d, n, rfl⟩

theorem ite {a b : State} {c : Prop} [Decidable c] (ha : ErrsOnly s a) (hb : ErrsOnly s b) :
    ErrsOnly s (if c then a else b) := by split <;> assumption

theorem of_regsOnly (h : RegsOnly s t) : ErrsOnly s t := by
  obtain ⟨r, n, rfl⟩ := h
  exact ⟨r, s.due, n, rfl⟩

theorem pulse (s : State) (p : Page) : ErrsOnly s (s.pulse p) := by
  unfold State.pulse
  extract_lets k last xing s1 a s2
  have h1 : ErrsOnly s s1 := ⟨s.regs, s.due, _, rfl⟩
  have h2 : ErrsOnly s s2 := .ite h1 (h1.trans ⟨_, _, _, rfl⟩)
  exact .ite (refl s) (.ite h1 ((h2.trans (of_regsOnly (.setBit _ _ _))).trans (of_regsOnly (.errBit _ _ _))))

theorem pageErr (s : State) (p : Page) (b : Nat) : ErrsOnly s (s.pageErr p b) :=
  (of_regsOnly (.errBit s p b)).trans (pulse _ p)

theorem injErr (s : State) (n b : Nat) : ErrsOnly s (s.injErr n b) := (of_regsOnly (.setBit s _ b)).trans (pageErr _ _ 4)

theorem restAns (h : ErrsOnly s t) (x) :
    { ({ t with hlAns := x } : State) with regs := s.regs, due := s.due, hlAns := s.hlAns, notes := s.notes } = s := by
  obtain ⟨_, _, _, rfl⟩ := h
  rfl

end State.ErrsOnly

/-! An injection error of NIs -/

theorem pageBase_niPage {n : Nat} (hn : n < 87) : pageBase (niPage n) = 0x100000 + 0x1000 * n := by
  simp only [niPage, pageBase, Fin.val_ofNat, Nat.mod_eq_of_lt hn]

/-- NI `n` shows wsum_err and inj_err (R190). -/
def State.WsumErr (s : State) (n : Nat) : Prop := s.rbit (INJ_STAT n) 0 = true ∧ s.rbit (pageBase (niPage n) + 0x18) 4 = true

section
variable (s : State) {n k : Nat}

/-- An injection error of NI `k` writes INJ_STAT, PAGE_ERR and PAGE_ERR_FIRST of its page, and may flag an overrun. -/
theorem State.rd_injErr (hk : k < 87) {a : Nat} (h : 0x7000 ≤ a) (hs : a ≠ INJ_STAT k) (he : a ≠ 0x100018 + 0x1000 * k)
    (hf : a ≠ 0x100020 + 0x1000 * k) (b : Nat) : (s.injErr k b).rd a = s.rd a := by
  have hbase := pageBase_niPage hk
  exact (State.rd_pageErr _ (by omega) (by omega) (not_mem_pulseRegs h) 4).trans (State.rd_setBit_ne _ hs b)

/-- An injection error shows in the NI's INJ_STAT. -/
theorem State.rbit_injErr_self (hn : n < 87) {b : Nat} (hb : b < 32) : (s.injErr n b).rbit (INJ_STAT n) b = true := by
  have hbase := pageBase_niPage hn
  have hrd : (s.injErr n b).rd (INJ_STAT n) = (s.setBit (INJ_STAT n) b).rd (INJ_STAT n) :=
    State.rd_pageErr _ (by simp only [INJ_STAT]; omega) (by simp only [INJ_STAT]; omega)
      (not_mem_pulseRegs (by simp only [INJ_STAT]; omega)) 4
  rw [State.rbit_congr hrd, State.rbit_setBit_self _ _ hb]

theorem State.wsumErr_injErr_self (hn : n < 87) : (s.injErr n 0).WsumErr n := by
  have hbase := pageBase_niPage hn
  exact ⟨s.rbit_injErr_self hn (by decide), State.rbit_pageErr_self _ _ (by decide) (not_mem_pulseRegs (by omega))⟩

theorem State.WsumErr.injErr {s : State} (h : s.WsumErr n) (hn : n < 87) (hk : k < 87) : (s.injErr k 0).WsumErr n := by
  by_cases hkn : k = n
  · exact hkn ▸ s.wsumErr_injErr_self hk
  · have hbase := pageBase_niPage hn
    have hstat : (s.injErr k 0).rd (INJ_STAT n) = s.rd (INJ_STAT n) := by
      apply State.rd_injErr s hk <;> simp only [INJ_STAT] <;> omega
    have herr : (s.injErr k 0).rd (pageBase (niPage n) + 0x18) = s.rd (pageBase (niPage n) + 0x18) :=
      s.rd_injErr hk (by omega) (by simp only [INJ_STAT]; omega) (by omega) (by omega) 0
    exact ⟨(State.rbit_congr hstat 0).trans h.1, (State.rbit_congr herr 4).trans h.2⟩

/-- The injection errors of a list of NIs: each of them shows its own. -/
theorem State.wsumErr_injErrs {l : List Nat} (hl : ∀ k ∈ l, k < 87) (hn : n < 87) (h : n ∈ l ∨ s.WsumErr n) :
    (l.foldl (fun u k => u.injErr k 0) s).WsumErr n := by
  induction l generalizing s with
  | nil => exact h.resolve_left (List.not_mem_nil)
  | cons k l ih =>
    have hk := hl k (List.mem_cons_self ..)
    refine ih _ (fun j hj => hl j (List.mem_cons_of_mem _ hj)) ?_
    rcases h with h | h
    · rcases List.mem_cons.mp h with rfl | h
      · exact .inr (s.wsumErr_injErr_self hk)
      · exact .inl h
    · exact .inr (h.injErr hn hk)

theorem State.rd_injErrs {l : List Nat} (hl : ∀ k ∈ l, k < 87) {a : Nat} (ha : 0x2000000 ≤ a) :
    (l.foldl (fun u k => u.injErr k 0) s).rd a = s.rd a := by
  induction l generalizing s with
  | nil => rfl
  | cons k l ih =>
    have hk := hl k (List.mem_cons_self ..)
    have hrd : (s.injErr k 0).rd a = s.rd a :=
      s.rd_injErr hk (by omega) (by simp only [INJ_STAT]; omega) (by omega) (by omega) 0
    exact (ih _ fun j hj => hl j (List.mem_cons_of_mem _ hj)).trans hrd

theorem State.injErrs_errsOnly (l : List Nat) : ErrsOnly s (l.foldl (fun u k => u.injErr k 0) s) := by
  induction l generalizing s with
  | nil => exact .refl s
  | cons k l ih => exact (ErrsOnly.injErr s k 0).trans (ih _)

end

/-! The groups' weights -/

theorem State.groupSum_congr {s t : State} (h : ∀ a, a ≠ HL_PARK → t.rd a = s.rd a) (n q w : Nat) :
    t.groupSum n q w = s.groupSum n q w := by
  have hbase : t.rd (INJ_QBASE n) = s.rd (INJ_QBASE n) := h _ (by simp only [INJ_QBASE, HL_PARK]; omega)
  have hctrl : t.fld (INJ_CTRL n) 2 0 = s.fld (INJ_CTRL n) 2 0 := State.fld_congr (h _ (by simp only [INJ_CTRL, HL_PARK]; omega)) 2 0
  have hdesc (j : Nat) : t.qDesc n j = s.qDesc n j := congrArg (· + j) (State.fld_congr hbase 13 0)
  have hweight (j : Nat) : t.weight n j = s.weight n j := by
    rw [State.weight, State.weight, hdesc]
    exact State.fld_congr (h _ (by simp only [QD, HL_PARK]; omega)) 8 0
  have hcount : t.qCount n = s.qCount n := congrArg (min · 256) (State.fld_congr hbase 24 16)
  simp only [State.groupSum, hctrl, hcount, hdesc, hweight]

/-- A group's sum grows with the weight of the descriptor. -/
theorem State.groupSum_mono (s : State) (n q : Nat) {w w' : Nat} (h : w ≤ w') : s.groupSum n q w ≤ s.groupSum n q w' := by
  refine List.sum_le_sum fun j _ => ?_
  split
  · exact Nat.le_refl 0
  · split
    · exact h
    · exact Nat.le_refl _

/-- With the weight `wt`, NI `n` has a group that the write raises past 256 (R190). -/
def State.pastSum (s : State) (q wt n : Nat) : Bool :=
  decide (s.groupSum n q (s.fld (QD q 1) 8 0) < s.groupSum n q wt) && decide (256 < s.groupSum n q wt)

theorem State.pastSum_congr {s t : State} (h : ∀ a, a ≠ HL_PARK → t.rd a = s.rd a) (q wt n : Nat) :
    t.pastSum q wt n = s.pastSum q wt n := by
  have hqd : QD q 1 ≠ HL_PARK := by simp only [QD, HL_PARK]; omega
  simp only [State.pastSum, State.groupSum_congr h, State.fld_congr (h _ hqd)]

/-- The errors of the NIs whose group the write would raise past 256. -/
def State.wsumErrs (s : State) (q wt : Nat) : State :=
  ((List.range 81).filter (s.pastSum q wt)).foldl (fun u k => u.injErr k 0) s

theorem State.queueWrite_weight (s : State) (q : Nat) (v : Word) : s.queueWrite q 1 v =
    if (List.range 81).filter (s.pastSum q (getBits v 8 0)) = [] then s.wr (QD q 1) (v &&& 0x03FF01FF)
    else s.wsumErrs q (getBits v 8 0) := by
  unfold State.queueWrite
  split
  · contradiction
  · extract_lets wt past
    have hpast : past = s.pastSum q (getBits v 8 0) := rfl
    rw [hpast]
    split
    · next hnil => rw [if_pos hnil]
    · next hsome => rw [if_neg hsome, State.wsumErrs]
  · contradiction

theorem State.queueWrite_kept (s : State) (q : Nat) (v : Word) (h : ∀ n, n < 81 → s.pastSum q (getBits v 8 0) n = false) :
    s.queueWrite q 1 v = s.wr (QD q 1) (v &&& 0x03FF01FF) := by
  rw [State.queueWrite_weight, if_pos]
  rw [List.filter_eq_nil_iff]
  intro n hn
  rw [h n (List.mem_range.mp hn)]
  decide

theorem State.queueWrite_past (s : State) (q : Nat) (v : Word) {n : Nat} (hn : n < 81) (h : s.pastSum q (getBits v 8 0) n = true) :
    s.queueWrite q 1 v = s.wsumErrs q (getBits v 8 0) := by
  rw [State.queueWrite_weight, if_neg]
  exact List.ne_nil_of_mem (List.mem_filter.mpr ⟨List.mem_range.mpr hn, h⟩)

/-! The window -/

/-- What a served access leaves but its effect: the answer. -/
theorem State.answered_leaves (s : State) (m : Master) (a : Nat) (t : HlSlave) (d : Word) (f : State → State) :
    ∃ x, s.answered m a t d f = { f (s.served m a t) with hlAns := x } := ⟨_, rfl⟩

/-- An address of the window says the descriptor and the word (R475). -/
theorem qd_place (q : BitVec 14) {w : Nat} (hw : w < 4) :
    slaveOf (QD q.toNat w) = some (.window (.queue q.toNat)) ∧ QD q.toNat w % 4 = 0 ∧ QD q.toNat w % 16 / 4 = w := by
  have hq := q.isLt
  have hdesc : (QD q.toNat w - 0x2C00000) / 16 = q.toNat := by simp only [QD]; omega
  refine ⟨?_, by simp only [QD]; omega, by simp only [QD]; omega⟩
  rw [slaveOf_window (by simp only [QD]; omega)]
  simp (disch := simp only [QD]; omega) only [windowOf, if_neg, if_pos, hdesc]
  rfl

/-- A served write of word `w` of a descriptor has the effect that the window gives the word. -/
theorem State.regWrite_queue {s : State} {m : Master} {q : BitVec 14} {w : Nat} (hw : w < 4)
    (h : s.Serves m true (QD q.toNat w) (.window (.queue q.toNat))) (v : Word) {f : State → State}
    (hf : (s.served m (QD q.toNat w) (.window (.queue q.toNat))).queueWrite q.toNat w v =
      f (s.served m (QD q.toNat w) (.window (.queue q.toNat)))) :
    s.regWrite m (QD q.toNat w) v = s.answered m (QD q.toNat w) (.window (.queue q.toNat)) 0 f := by
  obtain ⟨hs, h4, hplace⟩ := qd_place q hw
  refine (State.regWrite_window h hs h4 v).trans (State.answered_congr (Eq.trans ?_ hf))
  rw [State.windowWrite, hplace]

/-- Settles O30: the window gives each word its effect, and the sums that decide on a weight are those before the write. -/
theorem queueDescriptors : Obligations.QueueDescriptors := by
  unfold Obligations.QueueDescriptors
  refine ⟨?fields, ?kept, ?mono, ?past, ?readOnly⟩
  case fields => exact fun s m q v h => congrArg Host.Outcome.next (State.regWrite_queue (by decide) h v rfl)
  case kept =>
    intro s m q v h hsum
    have hserved := fun a (ha : a ≠ HL_PARK) => s.rd_served m (QD q.toNat 1) (.window (.queue q.toNat)) (b := a) ha
    refine congrArg Host.Outcome.next (State.regWrite_queue (by decide) h v (State.queueWrite_kept _ _ _ fun n hn => ?_))
    rw [State.pastSum_congr hserved, State.pastSum, Bool.and_eq_false_iff, decide_eq_false_iff_not, decide_eq_false_iff_not,
      Nat.not_lt, Nat.not_lt]
    exact hsum n hn
  case mono => exact fun s q w w' n h => s.groupSum_mono n q h
  case past =>
    intro s m q v n h hn hraise hpast
    have hserved := fun a (ha : a ≠ HL_PARK) => s.rd_served m (QD q.toNat 1) (.window (.queue q.toNat)) (b := a) ha
    have hqd : QD q.toNat 1 ≠ HL_PARK := by simp only [QD, HL_PARK]; omega
    have hp : s.pastSum q.toNat (getBits v 8 0) n = true := by
      rw [State.pastSum, Bool.and_eq_true, decide_eq_true_eq, decide_eq_true_eq]
      exact ⟨hraise, hpast⟩
    have hex : exec (.queueDescWrite m q 1 v) s = .next (s.answered m (QD q.toNat 1) (.window (.queue q.toNat)) 0
        fun u => u.wsumErrs q.toNat (getBits v 8 0)) := congrArg Host.Outcome.next (State.regWrite_queue (by decide) h v
      (State.queueWrite_past _ _ v hn ((State.pastSum_congr hserved _ _ _).trans hp)))
    refine ⟨_, hex, ?_⟩
    generalize hu : s.served m (QD q.toNat 1) (.window (.queue q.toNat)) = u at hserved
    have hl : ∀ k ∈ (List.range 81).filter (u.pastSum q.toNat (getBits v 8 0)), k < 87 := fun k hk => by
      have := List.mem_range.mp (List.mem_filter.mp hk).1
      omega
    have hpu : u.pastSum q.toNat (getBits v 8 0) n = true := (State.pastSum_congr hserved _ _ _).trans hp
    have hin : n ∈ (List.range 81).filter (u.pastSum q.toNat (getBits v 8 0)) := List.mem_filter.mpr ⟨List.mem_range.mpr hn, hpu⟩
    obtain ⟨hstat, herr⟩ := u.wsumErr_injErrs hl (by omega) (.inl hin)
    have hkeeps := u.rd_injErrs hl (a := QD q.toNat 1) (by simp only [QD]; omega)
    have hrd (a : Nat) : (s.answered m (QD q.toNat 1) (.window (.queue q.toNat)) 0 fun u => u.wsumErrs q.toNat (getBits v 8 0)).rd a =
        (u.wsumErrs q.toNat (getBits v 8 0)).rd a := by rw [State.rd_answered, hu]
    have hrest : State.ErrsOnly s (u.wsumErrs q.toNat (getBits v 8 0)) :=
      (State.ErrsOnly.of_regsOnly (hu ▸ State.RegsOnly.served s m _ _)).trans (u.injErrs_errsOnly _)
    refine ⟨(hrd _).trans (hkeeps.trans (hserved _ hqd)), (State.rbit_congr (hrd _) 0).trans hstat,
      (State.rbit_congr (hrd _) 4).trans herr, ?_⟩
    obtain ⟨x, hx⟩ := s.answered_leaves m (QD q.toNat 1) (.window (.queue q.toNat)) 0 fun u => u.wsumErrs q.toNat (getBits v 8 0)
    rw [hx, hu]
    exact hrest.restAns x
  case readOnly =>
    intro s m q w v h hw
    refine congrArg Host.Outcome.next (State.regWrite_queue w.isLt h v ?_)
    unfold State.queueWrite
    split
    · omega
    · omega
    · rfl

end Sys2Proof.Machine
end


section
/-! Obligations.ArbiterDraw (R195 to R197): the draw of a window among normal contenders, and the end of a quota window. -/

namespace Sys2Proof.Machine

/-! What a draw reads: the arbiter's entries as they were before this fc -/

section
variable {s t : State} {n : Nat} (h : ∀ a, a ≠ ARB_STAT n → t.rdFc a = s.rdFc a)
include h

theorem State.arbCtrl_congr (hi lo : Nat) : t.arbFld (ARB_CTRL n) hi lo = s.arbFld (ARB_CTRL n) hi lo := by
  rw [State.arbFld, State.arbFld, h _ (by simp only [ARB_CTRL, ARB_STAT]; omega)]

theorem State.arbReqW0_congr (i : Nat) : t.rdFc (ARB_REQ_W0 n i) = s.rdFc (ARB_REQ_W0 n i) :=
  h _ (by simp only [ARB_REQ_W0, ARB_STAT]; omega)

theorem State.arbReqW1_congr (i hi lo : Nat) : t.arbFld (ARB_REQ_W1 n i) hi lo = s.arbFld (ARB_REQ_W1 n i) hi lo := by
  rw [State.arbFld, State.arbFld, h _ (by simp only [ARB_REQ_W1, ARB_STAT]; omega)]

theorem State.reqEntry_congr (r : Requester) : t.reqEntry n r = s.reqEntry n r := by
  simp only [State.reqEntry, State.arbReqW0_congr h]

theorem State.tickets_congr : t.tickets n = s.tickets n := by
  funext r
  simp only [State.tickets, State.reqEntry_congr h, State.arbReqW1_congr h, State.arbCtrl_congr h]

theorem State.hiEntry_congr (r : Requester) : t.hiEntry n r = s.hiEntry n r := by
  simp only [State.hiEntry, State.reqEntry_congr h, State.arbReqW0_congr h]

end

/-- The LFSR steps 32 times, but keeps a seed written in this fc (R196, R202). -/
theorem State.lfsrNext_eq (s : State) (n : Nat) : s.lfsrNext n =
    if (s.niOf n).arb.seedWas.map (·.1) = some s.fc then (s.niOf n).arb.lfsr else some (BitVec.ofNat 32 (lfsr32 (s.lfsr n))) := by
  unfold State.lfsrNext
  split
  · next f v hs => simp only [hs, Option.map_some, Option.some.injEq]
  · next hs => simp only [hs, Option.map_none, reduceCtorEq, if_false]

theorem State.lfsrNext_congr {s t : State} {n : Nat} (hn : t.niOf n = s.niOf n) (hf : t.fc = s.fc)
    (hr : t.rd FUSE_STAT = s.rd FUSE_STAT) : t.lfsrNext n = s.lfsrNext n := by
  rw [State.lfsrNext_eq, State.lfsrNext_eq, hn, hf, State.lfsr_congr hn hr]

theorem mem_sortReq {r : Requester} {l : List Requester} : r ∈ sortReq l ↔ r ∈ l := (List.mergeSort_perm _ _).mem_iff

theorem mem_of_runningSum {tix : Requester → Nat} {v acc : Nat} {l : List Requester} {w : Requester}
    (h : runningSum tix v acc l = some w) : w ∈ l := by
  induction l generalizing acc with
  | nil => simp [runningSum] at h
  | cons r l ih =>
    rw [runningSum] at h
    split at h
    · exact List.mem_cons.mpr (.inl (Option.some.inj h).symm)
    · exact List.mem_cons_of_mem _ (ih h)

/-- The winner of a draw is a candidate (R195). -/
theorem mem_of_drawWinner {tix : Requester → Nat} {v : Nat} {l : List Requester} {w : Requester} (h : drawWinner tix v l = some w) :
    w ∈ l := by
  unfold drawWinner at h
  extract_lets t at h
  split at h
  · exact List.mem_of_mem_head? h
  · exact mem_of_runningSum h

/-! The waiting packets of the winner -/

/-- The packets of `l` are accepted under their requester's tenure. -/
def State.acceptAll (s : State) (n : Nat) (l : List HPkt) : State := l.foldl (fun u h => u.accept n h true) s

/-- An accepted packet waits no more. -/
theorem State.mem_waiting_accept {s : State} {n : Nat} {g h : HPkt} {tenure : Bool} (hw : h ∈ ((s.accept n g tenure).niOf n).waiting) :
    h ∈ (s.niOf n).waiting ∧ g.pid ≠ h.pid := by
  have hgran : ((s.accept n g tenure).niOf n).gran =
      (s.niOf n).gran.map fun p => if p.pid = g.pid then { p with arb := 2 } else p := by
    rw [State.accept, State.niOf_modNi_self]
    split <;> rfl
  rw [Ni.waiting, hgran, List.mem_filter, List.mem_map] at hw
  obtain ⟨⟨p, hp, rfl⟩, harb⟩ := hw
  by_cases hpid : p.pid = g.pid
  · simp [hpid] at harb
  · rw [if_neg hpid] at harb ⊢
    exact ⟨List.mem_filter.mpr ⟨hp, harb⟩, Ne.symm hpid⟩

theorem State.waiting_acceptAll_self (s : State) (n : Nat) : ((s.acceptAll n (s.niOf n).waiting).niOf n).waiting = [] := by
  have waits (l : List HPkt) : ∀ (u : State) (h : HPkt), h ∈ ((u.acceptAll n l).niOf n).waiting →
      h ∈ (u.niOf n).waiting ∧ ∀ g ∈ l, g.pid ≠ h.pid := by
    induction l with
    | nil => exact fun u h hw => ⟨hw, fun g hg => nomatch hg⟩
    | cons p l ih =>
      intro u h hw
      obtain ⟨hu, hl⟩ := ih (u.accept n p true) h hw
      obtain ⟨hu, hp⟩ := State.mem_waiting_accept hu
      exact ⟨hu, List.forall_mem_cons.mpr ⟨hp, hl⟩⟩
  refine List.eq_nil_iff_forall_not_mem.mpr fun h hw => ?_
  obtain ⟨hs, hpid⟩ := waits _ s h hw
  exact hpid h hs rfl

/-- Beside the packets, what is accepted changes the last accepted TAG alone. -/
theorem State.acceptAll_leaves (s : State) (n : Nat) (l : List HPkt) : (∃ tag set,
    ((s.acceptAll n l).niOf n).arb = { (s.niOf n).arb with htag := tag, htagSet := set }) ∧
    (∀ k, k ≠ n → (s.acceptAll n l).niOf k = s.niOf k) ∧ ∀ a, (s.acceptAll n l).rd a = s.rd a := by
  induction l generalizing s with
  | nil => exact ⟨⟨_, _, rfl⟩, fun _ _ => rfl, fun _ => rfl⟩
  | cons h l ih =>
    obtain ⟨⟨tag, set, harb⟩, hother, hrd⟩ := ih (s.accept n h true)
    refine ⟨⟨tag, set, harb.trans ?_⟩, fun k hk => (hother k hk).trans (State.niOf_modNi_ne s hk _), fun a => hrd a⟩
    rw [State.accept, State.niOf_modNi_self]
    rfl

/-! The draw -/

/-- The arbiter of NI `n` once requester `w`, which no high-priority entry names, has won. -/
def State.wonArb (s : State) (n : Nat) (w : Requester) : Arb :=
  { (s.niOf n).arb with st := .held, conts := [], holder := w, htagSet := false, boGiven := false, quota := none, lfsr := s.lfsrNext n }

/-- The state in which the winner's packets are accepted: the number of contenders is noted, the arbiter is held, and the draw is
counted. -/
def State.won (s : State) (n : Nat) (w : Requester) : State :=
  ((s.setFld (ARB_STAT n) 13 8 (s.niOf n).arb.conts.length).setArb n (s.wonArb n w)).countN n 0x2E 1 unfiltered

theorem State.quotaEnd_early {s : State} {n : Nat} (h : s.fc < (s.niOf n).arb.winStart + max (s.fld (ARB_WIN n) 23 0) 256) :
    s.quotaEnd n = s := by
  refine if_neg ?_
  simp only [Bool.and_eq_true, decide_eq_true_eq]
  omega

theorem State.quotaEnd_due {s : State} {n : Nat} (hm : s.mode ≠ .frozen)
    (h : (s.niOf n).arb.winStart + max (s.fld (ARB_WIN n) 23 0) 256 ≤ s.fc) :
    s.quotaEnd n = s.setArb n { (s.niOf n).arb with
      counts := [], winStart := (s.niOf n).arb.winStart + (s.fc - (s.niOf n).arb.winStart) /
        max (s.fld (ARB_WIN n) 23 0) 256 * max (s.fld (ARB_WIN n) 23 0) 256 } := by
  refine if_pos ?_
  simp only [Bool.and_eq_true, decide_eq_true_eq]
  exact ⟨h, hm⟩

theorem State.draw_stays {s : State} {n : Nat} (h : (s.niOf n).arb.st ≠ .window ∨ s.arbOn n = false ∨
    s.fc < (s.niOf n).arb.openFc + s.arbFld (ARB_CTRL n) 15 8) : s.draw n = s := by
  refine if_pos ?_
  simp only [Bool.or_eq_true, decide_eq_true_eq, Bool.not_eq_true']
  tauto

section
variable {s : State} {n : Nat} {w : Requester} (hst : (s.niOf n).arb.st = .window) (hon : s.arbOn n = true)
  (hopen : (s.niOf n).arb.openFc + s.arbFld (ARB_CTRL n) 15 8 ≤ s.fc)
  (hquota : s.fc < (s.niOf n).arb.winStart + max (s.fld (ARB_WIN n) 23 0) 256) (hfrozen : s.frozenNi n = false)
  (hconts : ∀ r ∈ (s.niOf n).arb.conts, s.masked r = false ∧ s.hiEntry n r = none)
  (hwin : drawWinner (s.tickets n) (s.drawState n) (sortReq (s.niOf n).arb.conts) = some w)
    (hwaits : ∀ h ∈ (s.niOf n).waiting, h.req = w)
include hst hon hopen hquota hfrozen hconts hwin hwaits

/-- A window that closes among normal contenders, none masked, whose packets are the winner's. -/
theorem State.draw_won : s.draw n = (s.won n w).acceptAll n (s.niOf n).waiting := by
  have hw : w ∈ (s.niOf n).arb.conts := mem_sortReq.mp (mem_of_drawWinner hwin)
  have hpass : (decide ((s.niOf n).arb.st ≠ .window) || decide (s.fc < (s.niOf n).arb.openFc + s.arbFld (ARB_CTRL n) 15 8) ||
      !s.arbOn n) = false := by
    simp only [hst, hon, Bool.or_eq_false_iff, decide_eq_false_iff_not, ne_eq, not_true_eq_false, not_false_eq_true, true_and,
      Bool.not_true, and_true]
    omega
  have hm : Marked (· ≠ ARB_STAT n) s (s.setFld (ARB_STAT n) 13 8 (s.niOf n).arb.conts.length) := .setFld (fun h => h rfl) _ _ _
  have hfc (a : Nat) (ha : a ≠ ARB_STAT n) : (s.setFld (ARB_STAT n) 13 8 (s.niOf n).arb.conts.length).rdFc a = s.rdFc a :=
    State.rdFc_congr hm.was hm.fc (hm.rd a ha)
  have hfuse : (s.setFld (ARB_STAT n) 13 8 (s.niOf n).arb.conts.length).rd FUSE_STAT = s.rd FUSE_STAT :=
    hm.rd _ (by simp only [FUSE_STAT, ARB_STAT]; omega)
  have hhi : (sortReq (s.niOf n).arb.conts).filter (fun r => (s.hiEntry n r).isSome) = [] :=
    List.filter_eq_nil_iff.mpr fun r hr => by rw [(hconts r (mem_sortReq.mp hr)).2]; decide
  unfold State.draw
  simp only [hpass, State.quotaEnd_early hquota, hfrozen, Bool.false_eq_true, if_false]
  rw [(List.filter_eq_self (l := (s.niOf n).arb.conts)).mpr fun r hr => by rw [(hconts r hr).1, (hconts r hr).2]; rfl]
  simp only [hhi, List.isEmpty_nil, if_true, State.tickets_congr hfc, State.drawState_congr (hm.niOf n) hm.fc hfuse, hwin,
    State.hiEntry_congr hfc, (hconts w hw).2, Option.map_none, State.lfsrNext_congr (hm.niOf n) hm.fc hfuse]
  exact List.foldl_ext _ _ _ fun u h hh => if_pos (hwaits h hh)

end

/-- Settles O32: no contender is masked or of high priority, so all are candidates, and the winner's packets are all that wait. -/
theorem arbiterDraw : Obligations.ArbiterDraw := by
  unfold Obligations.ArbiterDraw
  refine ⟨?winner, ?none, ?quotaDue, ?quotaEarly⟩
  case winner =>
    intro s n w hruns hon hst hopen hquota hfrozen hconts hwin hwaits
    have hex : exec (.arbDraw n) s = .next ((s.won n.val w).acceptAll n.val (s.niOf n.val).waiting) :=
      congrArg Host.Outcome.next ((State.atTile_of_runs hruns _).trans
        (State.draw_won hst hon hopen hquota hfrozen hconts hwin hwaits))
    have hcount := ((s.setFld (ARB_STAT n.val) 13 8 (s.niOf n.val).arb.conts.length).setArb n.val (s.wonArb n.val w)).countN_marked
      (n := n.val) (by omega) 0x2E 1 unfiltered
    have hwon : (s.won n.val w).niOf n.val = { s.niOf n.val with arb := s.wonArb n.val w } :=
      (hcount.niOf n.val).trans (State.niOf_modNi_self _ _ _)
    obtain ⟨⟨tag, set, harb⟩, hother, hrd⟩ := (s.won n.val w).acceptAll_leaves n.val (s.niOf n.val).waiting
    rw [hwon] at harb
    refine ⟨_, hex, by rw [harb]; rfl, by rw [harb]; rfl, by rw [harb]; rfl, by rw [harb]; rfl, by rw [harb]; exact s.lfsrNext_eq n.val,
      ?_, ?_, fun k hk => ?_⟩
    · have hstat := (hrd (ARB_STAT n.val)).trans (hcount.rd _ (by simp only [offTally, ARB_STAT]; omega))
      exact (State.fld_congr hstat 13 8).trans (s.fld_setFld_self _ _ (by decide) (by decide))
    · have hsame : (s.niOf n.val).waiting = ((s.won n.val w).niOf n.val).waiting := by rw [hwon]; rfl
      rw [hsame]
      exact (s.won n.val w).waiting_acceptAll_self n.val
    · exact (hother k hk).trans ((hcount.niOf k).trans (State.niOf_modNi_ne _ hk _))
  case none => exact fun s n h => congrArg Host.Outcome.next (State.atTile_of_stays (State.draw_stays h))
  case quotaDue =>
    intro s n hruns h
    refine congrArg Host.Outcome.next ((State.atTile_of_runs hruns _).trans ?_)
    exact State.quotaEnd_due (State.not_frozen_of_runs hruns) h
  case quotaEarly => exact fun s n h => congrArg Host.Outcome.next (State.atTile_of_stays (State.quotaEnd_early h))

end Sys2Proof.Machine
end


section
/-! What the initiator check does to a request that passes it, as its lines are taken (R318, R320). -/

namespace Sys2Proof.Machine

/-! What the counters of Tally leave -/

/-- From `s` to `t` nothing changes but registers, Tally and notes. -/
def State.Tallied (s t : State) : Prop := ∃ r y o, t = { s with regs := r, tally := y, notes := o }

namespace State.Tallied

variable {s t u : State}

theorem refl (s : State) : Tallied s s := ⟨s.regs, s.tally, s.notes, rfl⟩

theorem trans (h : Tallied s t) (k : Tallied t u) : Tallied s u := by
  obtain ⟨_, _, _, rfl⟩ := h
  obtain ⟨r, y, o, rfl⟩ := k
  exact ⟨r, y, o, rfl⟩

theorem ite {a b : State} {c : Prop} [Decidable c] (ha : Tallied s a) (hb : Tallied s b) : Tallied s (if c then a else b) := by
  split <;> assumption

theorem of_regsOnly (h : RegsOnly s t) : Tallied s t := by
  obtain ⟨r, o, rfl⟩ := h
  exact ⟨r, s.tally, o, rfl⟩

theorem setFld (s : State) (a hi lo v : Nat) : Tallied s (s.setFld a hi lo v) := of_regsOnly (.setFld s a hi lo v)
theorem setBit (s : State) (a i : Nat) : Tallied s (s.setBit a i) := of_regsOnly (.setBit s a i)
theorem setWrap (s : State) (i : Nat) (w : Wrap) : Tallied s (s.setWrap i w) := ⟨s.regs, _, s.notes, rfl⟩

theorem setCnt (s : State) (i v : Nat) : Tallied s (s.setCnt i v) := (setFld s _ _ _ _).trans (setFld _ _ _ _ _)

/-- The interrupt of an overflow is no pulse: Tally's page has no tile. -/
theorem cntOvf (s : State) (i : Nat) : Tallied s (s.cntOvf i) :=
  (((setWrap s i _).trans (setBit _ _ _)).trans (setBit _ _ _)).trans (ite (setBit _ _ _) (refl _))

theorem addCnt (s : State) (i add : Nat) : Tallied s (s.addCnt i add) := by
  unfold State.addCnt
  extract_lets v w s1 s2
  have hpair : Tallied s s1 := ((setCnt s i _).trans (setCnt _ _ _)).trans (ite (refl _) (setWrap _ _ _))
  have hone : Tallied s s2 := setCnt s i _
  exact ite (refl s) (ite (setCnt s i _) (ite (ite (hpair.trans (cntOvf _ i)) hpair) (ite (hone.trans (cntOvf _ i)) hone)))

theorem forN {n : Nat} {f : Nat → State → State} (hf : ∀ i u, Tallied u (f i u)) (s : State) : Tallied s (forN n f s) := by
  induction n with
  | zero => exact refl s
  | succ n ih => exact ih.trans (hf n _)

theorem countN (s : State) (n code add : Nat) (hit : Nat → Bool) : Tallied s (s.countN n code add hit) :=
  ite (refl s) (forN (fun _ u => ite (addCnt u _ add) (refl u)) s)

theorem niOf (h : Tallied s t) (k : Nat) : t.niOf k = s.niOf k := by
  obtain ⟨_, _, _, rfl⟩ := h
  rfl

end State.Tallied

/-! One NI -/

/-- From `s` to `t` NI `n` becomes `x`, and nothing else changes. -/
structure State.Turns (n : Nat) (x : Ni) (s t : State) : Prop where
  own   : t.niOf n = x
  other : ∀ k, k ≠ n → t.niOf k = s.niOf k
  rest  : { t with ni := s.ni } = s

/-- From `s` to `t` NI `n` becomes `x`, and nothing else changes but registers, Tally and notes. -/
structure State.Becomes (n : Nat) (x : Ni) (s t : State) : Prop where
  own   : t.niOf n = x
  other : ∀ k, k ≠ n → t.niOf k = s.niOf k
  rest  : { t with ni := s.ni, regs := s.regs, tally := s.tally, notes := s.notes } = s

section
variable {n : Nat} {x y : Ni} {s t u : State}

theorem State.Turns.setNi (s : State) (n : Nat) (x : Ni) : Turns n x s (s.setNi n x) :=
  ⟨State.niOf_setNi_self s n x, fun _ hk => State.niOf_setNi_ne s hk x, rfl⟩

theorem State.Turns.modNi (h : Turns n x s t) (f : Ni → Ni) : Turns n (f x) s (t.modNi n f) where
  own := by rw [State.niOf_modNi_self, h.own]
  other k hk := (State.niOf_modNi_ne t hk f).trans (h.other k hk)
  rest := h.rest

/-- What a check of NI `n` reads of the NI is its shadow. -/
theorem State.Turns.check (h : Turns n x s t) (hx : x.shadow = (s.niOf n).shadow) (tgt anyOnly : Bool) (part : BitVec 9)
    (src : NodeId) (a : Access) : t.check n tgt anyOnly part src a = s.check n tgt anyOnly part src a := by
  have hs : t = { s with ni := t.ni } := by rw [← h.rest]
  have hrules : t.shadowRules n tgt = s.shadowRules n tgt := by
    simp only [State.shadowRules, h.own, hx]
    rw [hs]
    rfl
  rw [State.check, State.check, hrules, hs]
  rfl

theorem State.Turns.fc (h : Turns n x s t) : t.fc = s.fc := (congrArg State.fc h.rest :)

theorem State.Turns.node (h : Turns n x s t) (k : Nat) : t.node k = s.node k := by
  have hs : t = { s with ni := t.ni } := by rw [← h.rest]
  rw [hs]
  rfl

theorem State.Turns.becomes (h : Turns n x s t) : Becomes n x s t := by
  refine ⟨h.own, h.other, ?_⟩
  have hs : t = { s with ni := t.ni } := by rw [← h.rest]
  rw [hs]

theorem State.Becomes.refl (s : State) (n : Nat) : Becomes n (s.niOf n) s s := ⟨rfl, fun _ _ => rfl, rfl⟩

theorem State.Becomes.trans (h : Becomes n x s t) (k : Becomes n y t u) : Becomes n y s u := by
  refine ⟨k.own, fun i hi => (k.other i hi).trans (h.other i hi), ?_⟩
  have ht : t = { s with ni := t.ni, regs := t.regs, tally := t.tally, notes := t.notes } := by rw [← h.rest]
  have hu : u = { t with ni := u.ni, regs := u.regs, tally := u.tally, notes := u.notes } := by rw [← k.rest]
  rw [hu, ht]

theorem State.Becomes.modNi (h : Becomes n x s t) (f : Ni → Ni) : Becomes n (f x) s (t.modNi n f) where
  own := by rw [State.niOf_modNi_self, h.own]
  other k hk := (State.niOf_modNi_ne t hk f).trans (h.other k hk)
  rest := h.rest

theorem State.Becomes.tallied (h : Becomes n x s t) (k : Tallied t u) : Becomes n x s u := by
  refine ⟨(k.niOf n).trans h.own, fun i hi => (k.niOf i).trans (h.other i hi), ?_⟩
  obtain ⟨_, _, _, rfl⟩ := k
  exact h.rest

end

/-! The check as lines are taken -/

theorem Ni.led_setLed_ne (x : Ni) {i k : Nat} (h : i ≠ k) (e : LEntry) : (x.setLed k e).led i = x.led i := Tbl.get_set_ne _ h _ _

theorem Ni.queue_setQueue_self (x : Ni) (j : Nat) (q : List QItem) : (x.setQueue j q).queue j = q := Tbl.get_set_self _ _ _ _

theorem Ni.queue_setQueue_ne (x : Ni) {i j : Nat} (h : i ≠ j) (q : List QItem) : (x.setQueue j q).queue i = x.queue i :=
  Tbl.get_set_ne _ h _ _

/-- The NI with another shadow. -/
def Ni.withShadow (x : Ni) (sh : Tbl (Option (BitVec 144))) : Ni := { x with shadow := sh }

/-- The NI after a line of the message of entry `k` has passed its check: the entry notes the first address. -/
def Ni.passed (x : Ni) (k : Nat) (sh : Tbl (Option (BitVec 144))) (first : Option Nat) : Ni :=
  (x.withShadow sh).setLed k { x.led k with first := first }

@[simp] theorem Ni.led_passed_self (x : Ni) (k : Nat) (sh : Tbl (Option (BitVec 144))) (first : Option Nat) :
    (x.passed k sh first).led k = { x.led k with first := first } := Ni.led_setLed_self _ _ _

theorem Ni.led_passed_ne (x : Ni) {i k : Nat} (h : i ≠ k) (sh : Tbl (Option (BitVec 144))) (first : Option Nat) :
    (x.passed k sh first).led i = x.led i := Ni.led_setLed_ne _ h _

@[simp] theorem Ni.queue_passed (x : Ni) (k : Nat) (sh : Tbl (Option (BitVec 144))) (first : Option Nat) (j : Nat) :
    (x.passed k sh first).queue j = x.queue j := rfl

/-- A message that joins a queue and passes its check leaves the order of presentation, the answers, the credits and the bursts. -/
theorem Ni.setQueue_passed_keeps (x : Ni) (j : Nat) (q : List QItem) (k : Nat) (sh : Tbl (Option (BitVec 144))) (first : Option Nat) :
    ((x.setQueue j q).passed k sh first).ordN = x.ordN ∧ ((x.setQueue j q).passed k sh first).outq = x.outq ∧
    (∀ c, ((x.setQueue j q).passed k sh first).inCredit c = x.inCredit c) ∧
    ((x.setQueue j q).passed k sh first).inRet = x.inRet ∧
    ∀ c, ((x.setQueue j q).passed k sh first).burstOf c = x.burstOf c := ⟨rfl, rfl, fun _ => rfl, rfl, fun _ => rfl⟩

/-- A check may drop rules from the shadow, and counts those it corrects. -/
theorem State.readShadow_becomes (s : State) (n : Nat) (tgt : Bool) : ∃ sh, Becomes n ((s.niOf n).withShadow sh) s (s.readShadow n tgt) :=
  ⟨_, ((Becomes.refl s n).tallied (.countN s n 0x2B (s.ruleFixes n tgt) unfiltered)).modNi
    (fun x => x.withShadow (x.shadow.filter fun e => !((s.ruleRange n tgt).1 ≤ e.1 && e.1 < (s.ruleRange n tgt).1 + (s.ruleRange n tgt).2) ||
      (match e.2 with | some w => (readEntry w).1.isSome | none => true)))⟩

/-- A line that passes its check: its message keeps its place, and its Ledger entry notes its first address. -/
theorem State.checkLines_passes {s : State} {n j i l : Nat} {it : QItem} (hit : (((s.niOf n).queue j).drop i).head? = some it)
    (ho : it.owner = .unit) (hok : ∀ a, it.accessAt l (it.body.getD (l - it.lidx) (0, 0)).1 = some a →
      (s.check n false it.anyPart it.part (s.node n) a).code = OK) :
    ∃ sh first, Becomes n ((s.niOf n).passed (tagKey it.tag) sh first) s (s.checkLines n j i [l]) := by
  unfold State.checkLines
  split
  · next hnone => rw [hit] at hnone; contradiction
  · next it' hit' =>
    obtain rfl : it' = it := Option.some.inj (hit'.symm.trans hit)
    extract_lets access verdict s1 at_ s2
    have hverdict : (verdict l).code = OK := by
      simp only [verdict, access]
      split
      · next a ha => rw [if_pos ho]; exact hok a ha
      · rfl
    have hpass : [l].find? (fun l => (verdict l).code ≠ OK) = none := by simp [hverdict]
    rw [hpass]
    have hread : ∃ sh, Becomes n ((s.niOf n).withShadow sh) s s1 := by
      simp only [s1]
      split
      · exact s.readShadow_becomes n false
      · exact ⟨(s.niOf n).shadow, .refl s n⟩
    obtain ⟨sh, hread⟩ := hread
    have hfirst (e : LEntry) : ∃ first, (if e.first.isSome then e else { e with first := at_ }) = { e with first := first } := by
      split
      · exact ⟨e.first, rfl⟩
      · exact ⟨at_, rfl⟩
    obtain ⟨first, hfirst⟩ := hfirst ((s.niOf n).led (tagKey it'.tag))
    refine ⟨sh, first, ?_⟩
    have hled := hread.modNi fun x => x.modLed (tagKey it'.tag) fun e => if e.first.isSome then e else { e with first := at_ }
    rw [Ni.passed, ← hfirst]
    exact hled

end Sys2Proof.Machine
end


section
/-! Obligations.RequestsFromUnits (R186, R240, R442, R501): a request that joins its queue, and one that waits. -/

namespace Sys2Proof.Machine

/-! Ledger keys and tags -/

/-- The tag of an entry names it (R31). -/
theorem tagKey_keyTag {k : Nat} (hk : k < 768) : tagKey (keyTag k) = k := by
  have hposted (v : Nat) (hv : v < 4096) : tagPosted (BitVec.ofNat 12 v) = decide (2048 ≤ v) := by
    simp only [tagPosted, bit, BitVec.getLsbD_ofNat, Nat.testBit_eq_decide_div_mod_eq]
    simp
    omega
  unfold tagKey keyTag
  split
  · rw [hposted _ (by omega), if_neg (by simp; omega)]
    simp [getBits]
    omega
  · rw [hposted _ (by omega), if_pos (by simp)]
    simp [getBits]
    omega

/-- The entry that became free first, of those of a list and one found before. -/
def oldestFree (b : Option (Nat × Nat)) (l : List (Nat × LEntry)) : Option (Nat × Nat) :=
  l.foldl (fun (b : Option (Nat × Nat)) (k, e) =>
    match b with | some (f, _) => if e.freed < f then some (e.freed, k) else b | none => some (e.freed, k)) b

theorem mem_of_oldestFree {l : List (Nat × LEntry)} {b : Option (Nat × Nat)} {r : Nat × Nat} (h : oldestFree b l = some r) :
    b = some r ∨ ∃ e ∈ l, e.1 = r.2 := by
  induction l generalizing b with
  | nil => exact .inl h
  | cons a l ih =>
    rcases ih h with hstep | ⟨e, he, hr⟩
    · have hhead : b = some r ∨ a.1 = r.2 := by
        cases b with
        | none => exact .inr (congrArg Prod.snd (Option.some.inj hstep))
        | some f =>
          replace hstep : (if a.2.freed < f.1 then some (a.2.freed, a.1) else some f) = some r := hstep
          split at hstep
          · exact .inr (congrArg Prod.snd (Option.some.inj hstep))
          · exact .inl hstep
      exact hhead.imp_right fun hk => ⟨a, List.mem_cons_self .., hk⟩
    · exact .inr ⟨e, List.mem_cons_of_mem _ he, hr⟩

/-- The entry that the next allocation takes is one of the 768 (R442). -/
theorem Ni.freeKey_lt {x : Ni} {posted : Bool} {k : Nat} (h : x.freeKey posted = some k) : k < 768 := by
  have hrange : (if posted then 256 else 0) + (if posted then 512 else 256) ≤ 768 := by cases posted <;> decide
  unfold Ni.freeKey at h
  extract_lets lo n c at h
  split at h
  · next i hi =>
    have hmem := List.mem_range.mp (List.mem_of_find?_eq_some hi)
    have hk : lo + i = k := Option.some.inj h
    omega
  · obtain ⟨r, hr, rfl⟩ := Option.map_eq_some_iff.mp h
    rcases mem_of_oldestFree hr with hnone | ⟨e, he, hk⟩
    · contradiction
    · have hin := (List.mem_filter.mp he).2
      simp only [Bool.and_eq_true, decide_eq_true_eq] at hin
      omega

theorem Ni.alloc_of_freeKey {x : Ni} {posted : Bool} {k : Nat} (h : x.freeKey posted = some k) (e : LEntry) :
    x.alloc posted e = some (k, x.setLed k { e with st := .notStarted }) := by
  rw [Ni.alloc, h, Option.map_some]

theorem Ni.alloc_of_none {x : Ni} {posted : Bool} (h : x.freeKey posted = none) (e : LEntry) : x.alloc posted e = none := by
  rw [Ni.alloc, h, Option.map_none]

/-! A request message at the channel -/

theorem State.inCredit_of_handshake {s : State} {n : Nat} {m : Msg} (h : s.handshake n m = []) : 0 < (s.niOf n).inCredit m.cls := by
  refine Nat.pos_of_ne_zero fun hzero => ?_
  rw [State.handshake, if_pos hzero] at h
  contradiction

/-- A request message without handshake errors, of a request class or an MGT request. -/
theorem State.inbound_request {s : State} {n : Nat} {m : Msg} (hh : s.handshake n m = [])
    (hc : chanRequest m.cls = true ∨ (m.cls = 0xF ∧ m.sub = 3)) : s.inbound n m = if s.iTake n m then s.takeRequest n m else s := by
  unfold State.inbound
  by_cases ht : s.iTake n m = true
  · simp only [ht, hh, Bool.not_true, Bool.false_eq_true, if_false, if_true]
    rcases hc with hc | ⟨hcls, hsub⟩
    · have hcls : m.cls ≠ 0xF := by
        intro hcls
        rw [hcls] at hc
        exact absurd hc (by decide)
      rw [if_neg hcls, if_pos hc]
    · simp only [hcls, if_true, hsub]
  · simp only [ht, Bool.not_false, if_true, if_false, Bool.false_eq_true]

theorem State.inbound_taken {s : State} {n : Nat} {m : Msg} (hu : s.unitUp n = true) (hr : s.runs (niTile n) = true)
    (ht : s.takesNow n m = true) (hh : s.handshake n m = []) (hc : chanRequest m.cls = true ∨ (m.cls = 0xF ∧ m.sub = 3)) :
    s.inbound n m = s.takeRequest n m := by
  rw [State.inbound_request hh hc, if_pos]
  simp only [State.iTake, hu, hr, ht, Bool.and_true]

/-- A request that the NI would not take changes nothing, taken now or not. -/
theorem State.inbound_stays {s : State} {n : Nat} {m : Msg} (hh : s.handshake n m = [])
    (hc : chanRequest m.cls = true ∨ (m.cls = 0xF ∧ m.sub = 3)) (hs : s.takeRequest n m = s) : s.inbound n m = s := by
  rw [State.inbound_request hh hc, hs, ite_self]

/-! The NI of a request that joins its queue -/

/-- NI `n` once entry `k` is allocated for a message of queue `j`, its burst is begun and its credit is used. -/
def State.niJoined (s : State) (n j : Nat) (m : Msg) (part : BitVec 9) (k : Nat) : Ni :=
  let x := s.niOf n
  let x := { x.setLed k { s.entryOf n j m part x.ordN with st := .notStarted } with ordN := x.ordN + 1 }
  (if dataCls (chanCls m.cls) && 1 < m.lines then x.setBurst m.cls (some (keyTag k, j), m.lines - 1) else x).useCredit m.cls

/-- The item of that message, whose lookup gives the granularity `gran`. -/
def State.itemJoined (s : State) (n j : Nat) (m : Msg) (part : BitVec 9) (k : Nat) (gran : Option Nat) : QItem :=
  { msgItem m n s.fc j (keyTag k) part (s.qAny n j) (s.niOf n).ordN (s.asks n m) [] with gran := gran }

section
variable (s : State) (n j : Nat) (m : Msg) (part : BitVec 9) (k : Nat)

theorem Ni.burstOf_setBurst (x : Ni) (c : BitVec 4) (b : Option (BitVec 12 × Nat) × Nat) : (x.setBurst c b).burstOf c = b :=
  Tbl.get_set_self _ _ _ _

theorem Ni.inCredit_useCredit (x : Ni) (c : BitVec 4) : (x.useCredit c).inCredit c = x.inCredit c - 1 := Tbl.get_set_self _ _ _ _

theorem State.niJoined_keeps : (s.niJoined n j m part k).ledger = ((s.niOf n).setLed k { s.entryOf n j m part (s.niOf n).ordN with
      st := .notStarted }).ledger ∧ (s.niJoined n j m part k).queues = (s.niOf n).queues ∧
    (s.niJoined n j m part k).outq = (s.niOf n).outq ∧ (s.niJoined n j m part k).wcb = (s.niOf n).wcb ∧
    (s.niJoined n j m part k).shadow = (s.niOf n).shadow := by
  unfold State.niJoined
  split <;> exact ⟨rfl, rfl, rfl, rfl, rfl⟩

theorem State.ordN_niJoined : (s.niJoined n j m part k).ordN = (s.niOf n).ordN + 1 := by
  unfold State.niJoined
  split <;> rfl

theorem State.burstOf_niJoined : (s.niJoined n j m part k).burstOf m.cls =
    if dataCls (chanCls m.cls) && decide (1 < m.lines) then (some (keyTag k, j), m.lines - 1) else (s.niOf n).burstOf m.cls := by
  unfold State.niJoined
  split
  · exact Ni.burstOf_setBurst ({ (s.niOf n).setLed k { s.entryOf n j m part (s.niOf n).ordN with st := .notStarted } with
      ordN := (s.niOf n).ordN + 1 }) m.cls (some (keyTag k, j), m.lines - 1)
  · rfl

theorem State.credits_niJoined (hcred : 0 < (s.niOf n).inCredit m.cls) :
    (s.niJoined n j m part k).inCredit m.cls = (s.niOf n).inCredit m.cls - 1 ∧
    (s.niJoined n j m part k).inRet = (s.niOf n).inRet ++ [m.cls.toNat] := by
  have hret (x : Ni) (hin : x.inCred = (s.niOf n).inCred) (hx : x.inRet = (s.niOf n).inRet) :
      (x.useCredit m.cls).inRet = (s.niOf n).inRet ++ [m.cls.toNat] := by
    have hpos : 0 < x.inCredit m.cls := by rwa [Ni.inCredit, hin]
    rw [Ni.useCredit, if_pos hpos, hx]
  unfold State.niJoined
  split
  · exact ⟨Ni.inCredit_useCredit _ _, hret _ rfl rfl⟩
  · exact ⟨Ni.inCredit_useCredit _ _, hret _ rfl rfl⟩

end

/-! The way of a request to its queue -/

section
variable {s : State} {n j : Nat} {m : Msg}

/-- A store that is not combined goes to no line. -/
theorem State.toWcb_of_comb (h : m.comb = false) : s.toWcb n j m = false := by
  simp only [State.toWcb, State.combines, h, Bool.and_false, Bool.false_and]

theorem State.stateCode_ok (hp : privileged (s.node n) = true ∨ s.qAny n j = true ∨
    (s.partState (s.qPart n j).toNat = 2 ∧ s.member n (s.qPart n j).toNat = true)) (hf : s.fenced (niTile n) = false) :
    s.stateCode n j = OK := by
  unfold State.stateCode
  extract_lets qp
  split
  · rw [hf]; rfl
  · next hpriv =>
    rw [Bool.or_eq_true, not_or] at hpriv
    obtain ⟨h2, hm⟩ := (hp.resolve_left hpriv.1).resolve_left hpriv.2
    simp only [qp, h2, hm, hf, Bool.not_true, Bool.false_eq_true, if_false, ne_eq, not_true_eq_false]

/-- A message of an active partition, or one that needs none, is held back for room alone. -/
theorem State.heldBack_eq (hcomb : m.comb = false) (hp : privileged (s.node n) = true ∨ s.qAny n j = true ∨
    (s.partState (s.qPart n j).toNat = 2 ∧ s.member n (s.qPart n j).toNat = true)) :
    s.heldBack n j m = !s.roomFor n j (s.asks n m) := by
  have hpart : (!privileged (s.node n) && !s.qAny n j && decide (3 ≤ s.partState (s.qPart n j).toNat)) = false := by
    rcases hp with h | h | ⟨h, -⟩ <;> simp [h]
  simp only [State.heldBack, hpart, State.toWcb_of_comb hcomb, Bool.false_and, Bool.not_false, Bool.true_and, Bool.false_or]

/-- A message at an NI with no write-combining line in use closes none and waits for none (R220). -/
theorem State.hazards_none (h : (s.niOf n).wcb = []) (part : BitVec 9) (a k : Nat) :
    s.hazards n part a k = (s.modNi n id, []) := by
  have hnone : (s.niOf n).overlaps part a k = [] := by rw [Ni.overlaps, h, List.filter_nil]
  have hclose (p : WLine → Bool) : (s.niOf n).closeLines s.fc p = s.niOf n := by
    unfold Ni.closeLines
    rw [h]
    rfl
  simp only [State.hazards, hnone, State.modNi, hclose]
  rfl

/-- A message of no flow and no Sheaf group that passes steps 2 to 5 of R501 takes entry `k` and joins its queue, where its first
line is checked (step 6). -/
theorem State.enqueue_joins {k : Nat} {f : Found} {part : BitVec 9} (hflow : m.flowOf = none) (hgroup : m.group = none)
    (hcomb : m.comb = false) (hcode : s.stateCode n j = OK) (hf : s.lookFor n m = f)
    (hpart : part = if s.qAny n j then f.part.getD (s.qPart n j) else s.qPart n j)
    (hk : (s.niOf n).freeKey m.posted = some k) (hlines : (s.niOf n).wcb = []) :
    ∃ u, Turns n ((s.niJoined n j m part k).setQueue j ((s.niOf n).queue j ++ [s.itemJoined n j m part k f.gran])) s u ∧
      s.enqueue n j m = u.checkLines n j ((s.niOf n).queue j).length [0] := by
  unfold State.enqueue
  extract_lets any qp f0 part0 code3 x part1 bad need
  have hpart1 : part1 = part := by rw [hpart, ← hf]
  have hbad : ¬ bad := not_not.mpr hcode
  rw [if_neg (by rw [State.toWcb_of_comb hcomb]; decide), hpart1]
  split
  · next hnone => rw [Ni.alloc_of_freeKey hk] at hnone; contradiction
  · next k' x' halloc =>
    obtain ⟨rfl, rfl⟩ := Prod.mk.inj (Option.some.inj ((Ni.alloc_of_freeKey hk _).symm.trans halloc))
    extract_lets x1 x2 u
    have hord : x2.ordN - 1 = (s.niOf n).ordN := by
      simp only [x2]
      split <;> rfl
    have hx2 : x2.useCredit m.cls = s.niJoined n j m part k := by
      simp only [x2, if_neg hbad]
      rfl
    have hu : Turns n (s.niJoined n j m part k) s u := hx2 ▸ (Turns.setNi s n x2).modNi fun x => x.useCredit m.cls
    obtain ⟨-, hqueues, -, hwcb, -⟩ := s.niJoined_keeps n j m part k
    obtain ⟨w, hw, hclose⟩ : ∃ w, Turns n (s.niJoined n j m part k) s w ∧
        (if m.hazardous then u.hazards n part m.addr.toNat m.lines else (u, [])) = (w, []) := by
      split
      · exact ⟨_, hu.modNi id, State.hazards_none (by rw [hu.own, hwcb, hlines]) _ _ _⟩
      · exact ⟨u, hu, rfl⟩
    rw [if_neg hbad, hclose]
    dsimp -zeta only
    extract_lets src it i v
    have hi : i = ((s.niOf n).queue j).length := by
      simp only [i, hw.own, Ni.queue, hqueues]
    have hit : it = s.itemJoined n j m part k f.gran := by
      simp only [it, src, State.itemJoined, hord, hw.fc, hflow, ← hf, Option.isSome_none, Bool.false_eq_true, if_false]
      rfl
    have hplain : (it.flow.isSome || it.sheaf.isSome) = false := by
      rw [hit]
      simp only [State.itemJoined, msgItem, hflow, hgroup, Option.isSome_none, Bool.or_self]
    rw [hplain, if_neg (by decide), ← hi]
    have hqueue : (s.niJoined n j m part k).queue j = (s.niOf n).queue j := congrArg (Tbl.get _ · j) hqueues
    refine ⟨_, ?_, rfl⟩
    rw [hit, ← hqueue]
    exact hw.modNi fun x => x.setQueue j (x.queue j ++ [s.itemJoined n j m part k f.gran])

/-- A message waits while no entry is free for it. -/
theorem State.enqueue_waits (hcomb : m.comb = false) (hk : (s.niOf n).freeKey m.posted = none) : s.enqueue n j m = s := by
  unfold State.enqueue
  extract_lets any qp f part code3 x part1 bad need
  rw [if_neg (by rw [State.toWcb_of_comb hcomb]; decide), Ni.alloc_of_none hk]

/-- A message of a valid queue that begins and passes step 2 of R501. -/
theorem State.takeRequest_begins (hcont : (s.niOf n).continues m = false) (hvalid : s.qValid n m.qsel.toNat = true)
    (hstep : s.step2 n m = OK) : s.takeRequest n m =
      if s.heldBack n m.qsel.toNat m then s else s.enqueue n m.qsel.toNat m := by
  unfold State.takeRequest
  simp only [hcont, hvalid, hstep, Bool.not_true, Bool.false_eq_true, if_false, ne_eq, not_true_eq_false]

/-- The message of `enqueue_joins` whose first line passes its check: what its NI becomes (R320, R501 step 6). -/
theorem State.enqueue_becomes {k : Nat} {f : Found} {part : BitVec 9} (hflow : m.flowOf = none) (hgroup : m.group = none)
    (hcomb : m.comb = false) (hcode : s.stateCode n j = OK) (hf : s.lookFor n m = f)
    (hpart : part = if s.qAny n j then f.part.getD (s.qPart n j) else s.qPart n j)
    (hcheck : ∀ a, (msgItem m n s.fc j 0 part (s.qAny n j) 0 0 []).accessAt 0 m.sidecar = some a →
      (s.check n false (s.qAny n j) part (s.node n) a).code = OK)
    (hk : (s.niOf n).freeKey m.posted = some k) (hlines : (s.niOf n).wcb = []) :
    ∃ sh first, Becomes n (((s.niJoined n j m part k).setQueue j ((s.niOf n).queue j ++ [s.itemJoined n j m part k f.gran])).passed
      k sh first) s (s.enqueue n j m) := by
  obtain ⟨u, hu, henq⟩ := State.enqueue_joins hflow hgroup hcomb hcode hf hpart hk hlines
  obtain ⟨-, -, -, -, hshadow⟩ := s.niJoined_keeps n j m part k
  have hit : (((u.niOf n).queue j).drop ((s.niOf n).queue j).length).head? = some (s.itemJoined n j m part k f.gran) := by
    have hq : (u.niOf n).queue j = (s.niOf n).queue j ++ [s.itemJoined n j m part k f.gran] := by
      rw [hu.own, Ni.queue_setQueue_self]
    rw [hq, List.drop_left]
    rfl
  obtain ⟨sh, first, hpass⟩ := State.checkLines_passes (l := 0) hit rfl fun a ha => by
    rw [hu.check hshadow, hu.node]
    exact hcheck a ha
  refine ⟨sh, first, ?_⟩
  have htag : tagKey (s.itemJoined n j m part k f.gran).tag = k := tagKey_keyTag (Ni.freeKey_lt hk)
  rw [hu.own, htag] at hpass
  rw [henq]
  exact hu.becomes.trans hpass

end

/-- Settles O39: the message is held back for room alone, its entry is the next free one, and the check of its first line leaves the
queue, and of the entry all but its first address. -/
theorem requestsFromUnits : Obligations.RequestsFromUnits := by
  unfold Obligations.RequestsFromUnits
  intro s n m j f part hup hruns htakes hhand hcls hcont hj hvalid hstep hflow hgroup hcomb hmember hfence hf hpart hcheck
  subst hj
  have hlook : s.lookFor n.val m = f := by
    simp only [State.lookFor, hflow]
    exact hf.symm
  have hasks : s.asks n.val m = s.need n.val m f.gran := by
    simp only [State.asks, hflow, hlook, Option.isSome_none, Bool.false_eq_true, if_false]
  have hheld := State.heldBack_eq (m := m) hcomb hmember
  have htake := State.takeRequest_begins hcont hvalid hstep
  refine ⟨fun k hroom hk hlines => ?joins, fun hwait => ?waits⟩
  case joins =>
    have hin : s.inbound n.val m = s.enqueue n.val m.qsel.toNat m := by
      rw [State.inbound_taken hup hruns htakes hhand hcls, htake, hheld, hasks, hroom]
      rfl
    obtain ⟨sh, first, hown, hother, hrest⟩ :=
      State.enqueue_becomes hflow hgroup hcomb (State.stateCode_ok hmember hfence) hlook hpart hcheck hk hlines
    obtain ⟨hledger, hqueues, houtq, -, -⟩ := s.niJoined_keeps n.val m.qsel.toNat m part k
    obtain ⟨hcredit, hret⟩ := s.credits_niJoined n.val m.qsel.toNat m part k (State.inCredit_of_handshake hhand)
    have hled (i : Nat) : (s.niJoined n.val m.qsel.toNat m part k).led i =
        ((s.niOf n.val).setLed k { s.entryOf n.val m.qsel.toNat m part (s.niOf n.val).ordN with st := .notStarted }).led i :=
      congrArg (Tbl.get _ · i) hledger
    have hentry : ((s.enqueue n.val m.qsel.toNat m).niOf n.val).led k =
        { s.entryOf n.val m.qsel.toNat m part (s.niOf n.val).ordN with st := .notStarted, first := first } := by
      rw [hown, Ni.led_passed_self]
      exact congrArg (fun e : LEntry => { e with first := first }) ((hled k).trans (Ni.led_setLed_self _ _ _))
    obtain ⟨hordN, houtq', hcredits, hret', hburst⟩ := (s.niJoined n.val m.qsel.toNat m part k).setQueue_passed_keeps m.qsel.toNat
      ((s.niOf n.val).queue m.qsel.toNat ++ [s.itemJoined n.val m.qsel.toNat m part k f.gran]) k sh first
    refine ⟨_, s.itemJoined n.val m.qsel.toNat m part k f.gran, congrArg Host.Outcome.next hin, congrArg Host.Outcome.next hin, ?_,
      rfl, rfl, rfl, rfl, rfl, rfl, rfl, rfl, by rw [hentry], by rw [hentry]; rfl, by rw [hentry]; rfl, by rw [hentry]; rfl,
      fun i hi => ?_, fun i hi => ?_, ?_, ?_, ?_, ?_, ?_, hother, hrest⟩
    · rw [hown, Ni.queue_passed, Ni.queue_setQueue_self]
    · rw [hown, Ni.led_passed_ne _ hi]
      exact (hled i).trans (Ni.led_setLed_ne _ hi _)
    · rw [hown, Ni.queue_passed, Ni.queue_setQueue_ne _ hi]
      exact congrArg (Tbl.get _ · i) hqueues
    · rw [hown, hordN, State.ordN_niJoined]
    · rw [hown, houtq', houtq]
    · rw [hown, hcredits, hcredit]
    · rw [hown, hret', hret]
    · rw [hown, hburst, State.burstOf_niJoined]
  case waits =>
    have hstay : s.takeRequest n.val m = s := by
      rw [htake, hheld, hasks]
      rcases hwait with hroom | hk
      · rw [hroom]; rfl
      · rw [State.enqueue_waits hcomb hk, ite_self]
    have hin := State.inbound_stays hhand hcls hstay
    exact ⟨congrArg Host.Outcome.next hin, congrArg Host.Outcome.next hin⟩

end Sys2Proof.Machine
end


section
/-! Obligations.RequestsRefused (R186, R238, R240, R246, R250, R499, R501): requests that take no entry, and the next line of a
burst. -/

namespace Sys2Proof.Machine

/-! Messages that an NI offers its unit -/

/-- From `s` to `t` NI `n` offers its unit the messages `l`; its INJ_STAT and the other NIs stay. -/
structure State.Offers (n : Nat) (l : List OMsg) (s t : State) : Prop where
  own   : t.niOf n = { s.niOf n with outq := (s.niOf n).outq ++ l }
  other : ∀ k, k ≠ n → t.niOf k = s.niOf k
  stat  : t.rd (INJ_STAT n) = s.rd (INJ_STAT n)
  alive : t.niAlive = s.niAlive

section
variable {n : Nat} {s t u : State}

theorem State.Offers.refl (s : State) : Offers n [] s s := ⟨by rw [List.append_nil], fun _ _ => rfl, rfl, rfl⟩

theorem State.Offers.trans {l k : List OMsg} (h : Offers n l s t) (hk : Offers n k t u) : Offers n (l ++ k) s u :=
  ⟨by rw [hk.own, h.own, List.append_assoc], fun i hi => (hk.other i hi).trans (h.other i hi), hk.stat.trans h.stat,
    hk.alive.trans h.alive⟩

theorem State.Offers.unitUp {l : List OMsg} (h : Offers n l s t) : t.unitUp n = s.unitUp n := by
  rw [State.unitUp, State.unitUp, h.own, h.alive]

theorem steady_injStat {n : Nat} (hn : n < 87) : steady (INJ_STAT n) := by
  simp only [steady, offTally, INJ_STAT, XING_OVR0, XING_OVR1, JRN_STAT]
  omega

theorem State.Offers.of_noted (hn : n < 87) (h : Noted steady s t) : Offers n [] s t :=
  ⟨by rw [h.niOf, List.append_nil], fun k _ => h.niOf k, h.rd _ (steady_injStat hn), h.niAlive⟩

theorem State.toUnit_offers (h : s.unitUp n = true) (m : Msg) : Offers n [{ msg := m }] s (s.toUnit n m) := by
  rw [State.toUnit, if_pos h]
  exact ⟨State.niOf_modNi_self _ _ _, fun _ hk => State.niOf_modNi_ne s hk _, rfl, rfl⟩

/-- An answer for the unit: a PNI gives it its DEVLOAD (R258). -/
theorem State.answerUnit_offers (h : s.unitUp n = true) (m : Msg) (load : Nat) :
    ∃ d, Offers n [{ msg := { m with devload := d } }] s (s.answerUnit n m load) := by
  unfold State.answerUnit
  split
  · refine ⟨BitVec.ofNat 2 (s.devload n load), ?_⟩
    have hfld : Offers n [] s (s.setFld (DL_STAT n) 19 18 (s.devload n load)) :=
      ⟨by rw [List.append_nil]; rfl, fun _ _ => rfl, State.rd_setFld_ne _ (by simp only [INJ_STAT, DL_STAT]; omega) _ _ _, rfl⟩
    exact hfld.trans (State.toUnit_offers (hfld.unitUp.trans h) _)
  · exact ⟨m.devload, State.toUnit_offers h m⟩

/-- The messages for the lines `l` of a request refused before it took an entry, that `e` stands for (R246). -/
def State.failLinesOf (s : State) (n : Nat) (e : LEntry) (code : Code) (l : List Nat) : State :=
  l.foldl (fun s j =>
    match failMsg e j code with
    | some a => s.answerUnit n { a with src := s.node n } 0
    | none => s) s

theorem State.refuse_eq (s : State) (n : Nat) (m : Msg) (part : BitVec 9) (code : Code) : s.refuse n m part code =
    if m.posted || m.cls = 8 || noCompletion (chanCls m.cls) m.opc then s.sourceJ n m (some part) code
    else s.failLinesOf n (msgGhost m part) code (List.range m.ledLines) := rfl

/-- Each message stands for a line, and there is one for each line where every line draws one. -/
theorem State.failLinesOf_offers (h : s.unitUp n = true) (e : LEntry) (code : Code) (l : List Nat) : ∃ out,
    Offers n out s (s.failLinesOf n e code l) ∧
    (∀ o ∈ out, ∃ j a, failMsg e j code = some a ∧ o.msg.cls = a.cls ∧ o.msg.etag = a.etag ∧ o.msg.status = a.status) ∧
    ((∀ j, (failMsg e j code).isSome = true) → out.length = l.length) := by
  induction l generalizing s with
  | nil => exact ⟨[], .refl s, fun o ho => (nomatch ho), fun _ => rfl⟩
  | cons j l ih =>
    cases hj : failMsg e j code with
    | none =>
      have hstep : s.failLinesOf n e code (j :: l) = s.failLinesOf n e code l := by
        rw [State.failLinesOf, List.foldl_cons, hj]
        rfl
      obtain ⟨out, hout, hall, -⟩ := ih h
      rw [hstep]
      exact ⟨out, hout, hall, fun hsome => absurd (hsome j) (by rw [hj]; decide)⟩
    | some a =>
      have hstep : s.failLinesOf n e code (j :: l) = (s.answerUnit n { a with src := s.node n } 0).failLinesOf n e code l := by
        rw [State.failLinesOf, List.foldl_cons, hj]
        rfl
      obtain ⟨d, hd⟩ := State.answerUnit_offers h { a with src := s.node n } 0
      obtain ⟨out, hout, hall, hlen⟩ := ih (hd.unitUp.trans h)
      rw [hstep]
      exact ⟨_, hd.trans hout, List.forall_mem_cons.mpr ⟨⟨j, a, hj, rfl, rfl, rfl⟩, hall⟩, fun hsome => congrArg (· + 1) (hlen hsome)⟩

/-- A refused request joins no queue and takes no entry (R501). -/
theorem State.refuse_offers (hn : n < 87) (h : s.unitUp n = true) (m : Msg) (part : BitVec 9) (code : Code) :
    ∃ out, Offers n out s (s.refuse n m part code) := by
  rw [State.refuse_eq]
  split
  · exact ⟨[], .of_noted hn (s.journal_noted _)⟩
  · obtain ⟨out, hout, -⟩ := State.failLinesOf_offers h (msgGhost m part) code (List.range m.ledLines)
    exact ⟨out, hout⟩

/-- A CXL.mem write is answered with an NDR for each of its lines (R246). -/
theorem State.refuse_write (h : s.unitUp n = true) {m : Msg} (hm : m.cls = 1) (part : BitVec 9) (code : Code) :
    ∃ out, Offers n out s (s.refuse n m part code) ∧ out.length = m.lines ∧
      ∀ o ∈ out, o.msg.cls = 3 ∧ o.msg.etag = m.etag ∧ o.msg.status = code := by
  have hsilent : (m.posted || decide (m.cls = 8) || noCompletion (chanCls m.cls) m.opc) = false := by
    simp [Msg.posted, hm, chanCls, noCompletion, isSpecRd, cRWD, cREQ]
  have hfail (j : Nat) : ∃ a, failMsg (msgGhost m part) j code = some a ∧ a.cls = 3 ∧ a.etag = m.etag ∧ a.status = code := by
    unfold failMsg
    simp only [msgGhost, hm]
    exact ⟨_, rfl, rfl, rfl, rfl⟩
  obtain ⟨out, hout, hall, hlen⟩ := State.failLinesOf_offers h (msgGhost m part) code (List.range m.ledLines)
  rw [State.refuse_eq, hsilent, if_neg (by decide)]
  refine ⟨out, hout, ?_, fun o ho => ?_⟩
  · rw [hlen fun j => let ⟨_, ha, _⟩ := hfail j; ha ▸ rfl, List.length_range, Msg.ledLines, hm]
    exact if_neg (by decide)
  · obtain ⟨j, a, ha, hc, he, hst⟩ := hall o ho
    obtain ⟨a', ha', hc', he', hst'⟩ := hfail j
    obtain rfl := Option.some.inj (ha.symm.trans ha')
    exact ⟨hc.trans hc', he.trans he', hst.trans hst'⟩

/-- The credit of a refused request is used, and the lines of its burst that follow are dropped as they come. -/
def State.restDropped (s : State) (n : Nat) (m : Msg) : State :=
  if dataCls (chanCls m.cls) && 1 < m.lines then (s.credUse n m.cls).modNi n fun x => x.setBurst m.cls (none, m.lines - 1)
  else s.credUse n m.cls

theorem State.restDropped_leaves (s : State) (n : Nat) (m : Msg) : ((s.restDropped n m).niOf n).ledger = (s.niOf n).ledger ∧
    ((s.restDropped n m).niOf n).queues = (s.niOf n).queues ∧ ((s.restDropped n m).niOf n).outq = (s.niOf n).outq ∧
    ((s.restDropped n m).niOf n).inCredit m.cls = (s.niOf n).inCredit m.cls - 1 ∧
    (∀ k, k ≠ n → (s.restDropped n m).niOf k = s.niOf k) ∧ (s.restDropped n m).jq = s.jq ∧
    ∀ a, (s.restDropped n m).rd a = s.rd a := by
  have hcred : (s.credUse n m.cls).niOf n = (s.niOf n).useCredit m.cls := State.niOf_modNi_self _ _ _
  have hother (k : Nat) (hk : k ≠ n) : (s.credUse n m.cls).niOf k = s.niOf k := State.niOf_modNi_ne s hk _
  unfold State.restDropped
  split
  · rw [State.niOf_modNi_self, hcred]
    exact ⟨rfl, rfl, rfl, Ni.inCredit_useCredit _ _, fun k hk => (State.niOf_modNi_ne _ hk _).trans (hother k hk), rfl, fun _ => rfl⟩
  · rw [hcred]
    exact ⟨rfl, rfl, rfl, Ni.inCredit_useCredit _ _, hother, rfl, fun _ => rfl⟩

/-- What a refused request leaves: the Ledger, the queues and the other NIs; its credit is used (R501). -/
theorem State.refuse_leaves (hn : n < 87) (h : s.unitUp n = true) (m : Msg) (part : BitVec 9) (code : Code) :
    (((s.refuse n m part code).restDropped n m).niOf n).ledger = (s.niOf n).ledger ∧
    (((s.refuse n m part code).restDropped n m).niOf n).queues = (s.niOf n).queues ∧
    (((s.refuse n m part code).restDropped n m).niOf n).inCredit m.cls = (s.niOf n).inCredit m.cls - 1 ∧
    (∀ k, k ≠ n → ((s.refuse n m part code).restDropped n m).niOf k = s.niOf k) ∧
    ((s.refuse n m part code).restDropped n m).rd (INJ_STAT n) = s.rd (INJ_STAT n) := by
  obtain ⟨out, hout⟩ := State.refuse_offers hn h m part code
  obtain ⟨hledger, hqueues, -, hcredit, hother, -, hrd⟩ := (s.refuse n m part code).restDropped_leaves n m
  rw [hout.own] at hledger hqueues hcredit
  exact ⟨hledger, hqueues, hcredit, fun k hk => (hother k hk).trans (hout.other k hk), (hrd _).trans hout.stat⟩

theorem State.takeRequest_invalid {m : Msg} (hcont : (s.niOf n).continues m = false) (hvalid : s.qValid n m.qsel.toNat = false) :
    s.takeRequest n m = ((s.injErr n 1).refuse n m 0 DECODE).restDropped n m := by
  unfold State.takeRequest
  simp only [hcont, hvalid, Bool.not_false, Bool.false_eq_true, if_false, if_true]
  rfl

theorem State.takeRequest_refused {m : Msg} (hcont : (s.niOf n).continues m = false) (hvalid : s.qValid n m.qsel.toNat = true)
    (hheld : s.heldBack n m.qsel.toNat m = false) (hstep : s.step2 n m ≠ OK) :
    s.takeRequest n m = (s.refuse n m (s.qPart n m.qsel.toNat) (s.step2 n m)).restDropped n m := by
  unfold State.takeRequest
  simp only [hcont, hvalid, hheld, Bool.not_true, Bool.false_eq_true, if_false]
  exact if_pos hstep

theorem State.takeRequest_heldBack {m : Msg} (hcont : (s.niOf n).continues m = false) (hvalid : s.qValid n m.qsel.toNat = true)
    (hheld : s.heldBack n m.qsel.toNat m = true) : s.takeRequest n m = s := by
  unfold State.takeRequest
  simp only [hcont, hvalid, hheld, Bool.not_true, Bool.false_eq_true, if_false, if_true]

/-- A refused request that draws no answer is journaled (R238, R499). -/
theorem State.refuse_journals {m : Msg} (h : m.posted = true ∨ m.cls = 8 ∨ noCompletion (chanCls m.cls) m.opc = true)
    (hj : s.jq.length < 64) (part : BitVec 9) (code : Code) :
    ∃ e, (s.refuse n m part code).jq = s.jq ++ [e] ∧ e.code = code ∧ e.kind = kSOURCE ∧ e.where_ = whereNi n := by
  rw [State.refuse_eq, if_pos (by simpa only [Bool.or_eq_true, decide_eq_true_eq, or_assoc] using h), State.sourceJ, State.journal,
    if_pos hj]
  exact ⟨_, rfl, rfl, rfl, rfl⟩

end

/-! The next line of a burst (R250) -/

/-- A message with one more of its lines, taken in fc `fc`. -/
def QItem.withLine (it : QItem) (m : Msg) (fc : Nat) : QItem := { it with body := it.body ++ [(m.sidecar, m.payload)], taken := fc }

/-- What the last line of a message accesses. -/
theorem QItem.accessAt_withLine (it : QItem) (m : Msg) (fc : Nat) :
    (it.withLine m fc).accessAt (it.lidx + it.body.length)
      ((it.withLine m fc).body.getD (it.lidx + it.body.length - (it.withLine m fc).lidx) (0, 0)).1 =
    it.accessAt (it.lidx + it.body.length) m.sidecar := by
  have hlast : (it.withLine m fc).body.getD (it.lidx + it.body.length - (it.withLine m fc).lidx) (0, 0) = (m.sidecar, m.payload) := by
    simp [QItem.withLine]
  rw [hlast]
  rfl

/-- NI `x` once the next line of message `it`, at position `i` of queue `j`, has joined it. -/
def Ni.lineJoined (x : Ni) (j i : Nat) (it : QItem) (m : Msg) (fc : Nat) : Ni :=
  ((x.putItem j i [it.withLine m fc]).burstTaken m.cls (some (it.tag, j))).useCredit m.cls

theorem Ni.lineJoined_keeps (x : Ni) (j i : Nat) (it : QItem) (m : Msg) (fc : Nat) :
    (x.lineJoined j i it m fc).ledger = x.ledger ∧ (x.lineJoined j i it m fc).shadow = x.shadow := ⟨rfl, rfl⟩

theorem Ni.queue_lineJoined (x : Ni) (j i : Nat) (it : QItem) (m : Msg) (fc : Nat) :
    (x.lineJoined j i it m fc).queue j = (x.queue j).take i ++ [it.withLine m fc] ++ (x.queue j).drop (i + 1) := x.queue_putItem _ _ _

theorem Ni.burstOf_lineJoined {x : Ni} {m : Msg} {who : Option (BitVec 12 × Nat)} {left : Nat} (hb : x.burstOf m.cls = (who, left))
    (hl : 0 < left) (j i : Nat) (it : QItem) (fc : Nat) :
    (x.lineJoined j i it m fc).burstOf m.cls = if left = 1 then (none, 0) else (some (it.tag, j), left - 1) := by
  have hleft : ((x.putItem j i [it.withLine m fc]).burstOf m.cls).2 = left := congrArg Prod.snd hb
  refine (Ni.burstOf_setBurst _ _ _).trans ?_
  rw [hleft]
  congr 1
  simp only [eq_iff_iff]
  omega

theorem Ni.inCredit_lineJoined (x : Ni) (j i : Nat) (it : QItem) (m : Msg) (fc : Nat) :
    (x.lineJoined j i it m fc).inCredit m.cls = x.inCredit m.cls - 1 := Ni.inCredit_useCredit _ _

/-- A check that passes leaves the credits and the bursts. -/
theorem Ni.passed_keeps (x : Ni) (k : Nat) (sh : Tbl (Option (BitVec 144))) (first : Option Nat) :
    (∀ c, (x.passed k sh first).inCredit c = x.inCredit c) ∧ ∀ c, (x.passed k sh first).burstOf c = x.burstOf c :=
  ⟨fun _ => rfl, fun _ => rfl⟩

/-- An item that replaces the one at a position is there. -/
theorem head?_drop_putItem {l : List QItem} {i : Nat} (hi : i < l.length) (it : QItem) :
    ((l.take i ++ [it] ++ l.drop (i + 1)).drop i).head? = some it := by
  rw [List.append_assoc, List.drop_left' (by rw [List.length_take]; omega)]
  rfl

section
variable {s : State} {n : Nat} {m : Msg} {tag : BitVec 12} {j left i : Nat}

theorem State.takeLine_waits (hb : (s.niOf n).burstOf m.cls = (some (tag, j), left))
    (hi : ((s.niOf n).queue j).findIdx? (fun it => it.tag = tag && it.pkt.isNone) = some i) (hroom : s.roomFor n j 1 = false) :
    s.takeLine n m = s := by
  unfold State.takeLine
  simp only [hb, hi, hroom, Bool.not_false, if_true]

/-- A line that joins a message of no flow and passes its check. -/
theorem State.takeLine_becomes {it : QItem} (hb : (s.niOf n).burstOf m.cls = (some (tag, j), left))
    (hi : ((s.niOf n).queue j).findIdx? (fun it => it.tag = tag && it.pkt.isNone) = some i)
    (hit : ((s.niOf n).queue j)[i]? = some it) (hflow : it.flow = none) (ho : it.owner = .unit) (hroom : s.roomFor n j 1 = true)
    (hcheck : ∀ a, it.accessAt (it.lidx + it.body.length) m.sidecar = some a →
      (s.check n false it.anyPart it.part (s.node n) a).code = OK) :
    it.tag = tag ∧ ∃ sh first, Becomes n (((s.niOf n).lineJoined j i it m s.fc).passed (tagKey tag) sh first) s (s.takeLine n m) := by
  obtain ⟨hlt, hp, -⟩ := List.findIdx?_eq_some_iff_getElem.mp hi
  have hhead : (((s.niOf n).queue j).drop i).head? = some it := by rw [List.head?_drop, hit]
  have hat : ((s.niOf n).queue j)[i] = it := by
    rw [List.getElem?_eq_getElem hlt] at hit
    exact Option.some.inj hit
  rw [hat, Bool.and_eq_true, decide_eq_true_eq] at hp
  obtain ⟨rfl, -⟩ := hp
  refine ⟨rfl, ?_⟩
  unfold State.takeLine
  extract_lets x
  simp -zeta only [x, hb, hi, hroom, hhead, Bool.not_true, Bool.false_eq_true, if_false]
  extract_lets l it' u v
  have hu : Turns n ((s.niOf n).lineJoined j i it m s.fc) s u := (Turns.setNi s n _).modNi fun x => x.useCredit m.cls
  obtain ⟨-, hshadow⟩ := (s.niOf n).lineJoined_keeps j i it m s.fc
  have hjoined : (((u.niOf n).queue j).drop i).head? = some (it.withLine m s.fc) := by
    rw [hu.own, Ni.queue_lineJoined, head?_drop_putItem hlt]
  obtain ⟨sh, first, hpass⟩ := State.checkLines_passes (l := l) hjoined ho fun a ha => by
    rw [hu.check hshadow, hu.node]
    exact hcheck a ((it.accessAt_withLine m s.fc).symm.trans ha)
  rw [hu.own] at hpass
  have hchecked : (((v.niOf n).queue j).drop i).head? = some (it.withLine m s.fc) := by
    rw [hpass.own, Ni.queue_passed, Ni.queue_lineJoined, head?_drop_putItem hlt]
  have hplain : ((it.withLine m s.fc).flow.isSome && decide ((it.withLine m s.fc).tag = it.tag)) = false := by
    rw [show (it.withLine m s.fc).flow = none from hflow]
    rfl
  rw [hchecked, Option.any_some, hplain, if_neg (by decide)]
  exact ⟨sh, first, hu.becomes.trans hpass⟩

end

/-! The messages of a burst, and answers of no form -/

section
variable {s : State} {n : Nat} {m : Msg}

theorem chanRequest_of_burst (h : m.cls = 1 ∨ m.cls = 0xC) : chanRequest m.cls = true := by
  rcases h with h | h <;> rw [h] <;> decide

/-- A message that continues a burst is of a class that has them, and lines of it are to come. -/
theorem Ni.continues_burst {x : Ni} (h : x.continues m = true) : (m.cls = 1 ∨ m.cls = 0xC) ∧ 0 < (x.burstOf m.cls).2 := by
  unfold Ni.continues at h
  simp only [Bool.and_eq_true, Bool.or_eq_true, decide_eq_true_eq] at h
  exact ⟨h.1.1, h.2⟩

theorem State.takeRequest_continues (h : (s.niOf n).continues m = true) : s.takeRequest n m = s.takeLine n m := by
  unfold State.takeRequest
  exact if_pos h

/-- An answer of a form that R238 does not carry. -/
theorem State.inbound_answerRefused (hu : s.unitUp n = true) (hr : s.runs (niTile n) = true) (ht : s.takesNow n m = true)
    (hh : s.handshake n m = []) (hf : m.cls ≠ 0xF) (hc : chanRequest m.cls = false) (ha : s.answerRefused m = true) :
    s.inbound n m = (s.credUse n m.cls).sourceJ n m none DECODE := by
  simpa [State.inbound, State.iTake, hu, hr, ht, hh, hc, ha] using fun h => absurd h hf

end

/-- Settles O40: a refused request leaves its NI the answers that it draws and a credit less, and the next line of a burst takes the
place of the item that it joins. -/
theorem requestsRefused : Obligations.RequestsRefused := by
  unfold Obligations.RequestsRefused
  refine ⟨?refused, ?held, ?line, ?full, ?answer⟩
  case refused =>
    intro s n m hup hruns htakes hhand hcls hcont hbad hheld
    have hn : n.val < 87 := by omega
    have hin := State.inbound_taken hup hruns htakes hhand hcls
    have hexec : exec (.inboundRequestMessage n m) s = .next (s.takeRequest n.val m) := congrArg Host.Outcome.next hin
    have hmgt : exec (.mgtReqMessage n m) s = .next (s.takeRequest n.val m) := congrArg Host.Outcome.next hin
    refine ⟨_, hexec, hmgt, ?_⟩
    cases hvalid : s.qValid n.val m.qsel.toNat with
    | false =>
      obtain ⟨hni, hup'⟩ : (∀ k, (s.injErr n.val 1).niOf k = s.niOf k) ∧ (s.injErr n.val 1).unitUp n.val = true := by
        obtain ⟨_, _, _, herr⟩ := State.ErrsOnly.injErr s n.val 1
        rw [herr]
        exact ⟨fun _ => rfl, hup⟩
      obtain ⟨hledger, hqueues, hcredit, hother, hstat⟩ := State.refuse_leaves hn hup' m 0 DECODE
      rw [State.takeRequest_invalid hcont hvalid]
      rw [hni] at hledger hqueues hcredit
      exact ⟨hledger, hqueues, fun _ => (State.rbit_congr hstat 1).trans (s.rbit_injErr_self hn (by decide)), nofun, nofun,
        hcredit, fun k hk => (hother k hk).trans (hni k)⟩
    | true =>
      have hstep : s.step2 n.val m ≠ OK := hbad.resolve_left (by rw [hvalid]; decide)
      obtain ⟨hledger, hqueues, hcredit, hother, -⟩ :=
        State.refuse_leaves hn hup m (s.qPart n.val m.qsel.toNat) (s.step2 n.val m)
      obtain ⟨-, -, hout, -, -, hjq, -⟩ :=
        (s.refuse n.val m (s.qPart n.val m.qsel.toNat) (s.step2 n.val m)).restDropped_leaves n.val m
      rw [State.takeRequest_refused hcont hvalid (hheld hvalid) hstep]
      refine ⟨hledger, hqueues, nofun, fun hsilent hroom _ => ?_, fun hwrite _ => ?_, hcredit, hother⟩
      · rw [hjq]
        exact State.refuse_journals hsilent hroom _ _
      · obtain ⟨l, hl, hlen, hall⟩ := State.refuse_write hup hwrite (s.qPart n.val m.qsel.toNat) (s.step2 n.val m)
        rw [hl.own] at hout
        exact ⟨l, hout, hlen, hall⟩
  case held =>
    intro s n m hhand hcls hcont hvalid hheld
    have hin := State.inbound_stays hhand hcls (State.takeRequest_heldBack hcont hvalid hheld)
    exact ⟨congrArg Host.Outcome.next hin, congrArg Host.Outcome.next hin⟩
  case line =>
    intro s n m tag j left i it hup hruns htakes hhand hcont hb hi hit hflow ho hroom hcheck
    obtain ⟨hburst, hleft⟩ := Ni.continues_burst hcont
    rw [hb] at hleft
    have hin : s.inbound n.val m = s.takeLine n.val m := by
      rw [State.inbound_taken hup hruns htakes hhand (.inl (chanRequest_of_burst hburst)), State.takeRequest_continues hcont]
    obtain ⟨rfl, sh, first, hown, hother, hrest⟩ := State.takeLine_becomes hb hi hit hflow ho hroom hcheck
    obtain ⟨hcredits, hbursts⟩ := ((s.niOf n.val).lineJoined j i it m s.fc).passed_keeps (tagKey it.tag) sh first
    have hled (k : Nat) : ((s.niOf n.val).lineJoined j i it m s.fc).led k = (s.niOf n.val).led k :=
      congrArg (Tbl.get _ · k) (Ni.lineJoined_keeps _ _ _ _ _ _).1
    refine ⟨_, congrArg Host.Outcome.next hin, ?_, ?_, ?_, ⟨first, ?_⟩, fun k hk => ?_, hother, hrest⟩
    · rw [hown, Ni.queue_passed]
      exact Ni.queue_lineJoined _ _ _ _ _ _
    · rw [hown, hbursts, Ni.burstOf_lineJoined hb hleft]
    · rw [hown, hcredits, Ni.inCredit_lineJoined]
    · rw [hown, Ni.led_passed_self, hled]
    · rw [hown, Ni.led_passed_ne _ hk, hled]
  case full =>
    intro s n m tag j left i hhand hburst hcont hb hi hroom
    have hstays : s.takeRequest n.val m = s := (State.takeRequest_continues hcont).trans (State.takeLine_waits hb hi hroom)
    exact congrArg Host.Outcome.next (State.inbound_stays hhand (.inl (chanRequest_of_burst hburst)) hstays)
  case answer =>
    intro s n m hup hruns htakes hhand hf hc ha
    exact congrArg Host.Outcome.next (State.inbound_answerRefused hup hruns htakes hhand hf hc ha)

end Sys2Proof.Machine
end


section
/-! Obligations.Barriers (R222 to R225, R240): a barrier that an NI takes, and one that completes. -/

namespace Sys2Proof.Machine

/-! One NI and its unit -/

section
variable {n : Nat} {x : Ni} {s t : State}

theorem State.Turns.unitUp (h : Turns n x s t) (hx : x.started = (s.niOf n).started) : t.unitUp n = s.unitUp n := by
  have hlive : t.niAlive = s.niAlive := (congrArg State.niAlive h.rest :)
  rw [State.unitUp, State.unitUp, h.own, hx, hlive]

/-- A message for a unit that is up joins its outbound messages. -/
theorem State.Turns.toUnit (h : Turns n x s t) (hup : t.unitUp n = true) (m : Msg) :
    Turns n { x with outq := x.outq ++ [{ msg := m }] } s (t.toUnit n m) := by
  rw [State.toUnit, if_pos hup]
  exact h.modNi fun x => { x with outq := x.outq ++ [{ msg := m }] }

end

/-- With no write-combining line in use, none closes (R217). -/
theorem Ni.closeLines_empty {x : Ni} (h : x.wcb = []) (fc : Nat) (p : WLine → Bool) : x.closeLines fc p = x := by
  unfold Ni.closeLines
  rw [h]
  rfl

/-! A barrier is presented -/

section
variable {s : State} {n : Nat} {k : BarKind} {sc : BarScope}

/-- A barrier that the NI takes (R239, R241). -/
theorem State.inboundBarrier_taken {m : Msg} (hup : s.unitUp n = true) (hruns : s.runs (niTile n) = true)
    (hmode : s.carries = true ∨ s.mode = .drain) (hhand : s.handshake n { m with cls := 0xF, ctrl := 0 } = []) :
    s.inboundBarrier n k sc m = s.takeBarrier n k sc m.qsel m.etag := by
  have htakes : (s.carries || decide (s.mode = .drain)) = true := by simpa using hmode
  simp only [State.inboundBarrier, hup, hruns, htakes, hhand, Bool.not_true, Bool.or_self, Bool.false_eq_true, if_false]

/-- A barrier without handshake errors that would change nothing, taken now or not. -/
theorem State.inboundBarrier_stays {m : Msg} (hhand : s.handshake n { m with cls := 0xF, ctrl := 0 } = [])
    (hstay : s.takeBarrier n k sc m.qsel m.etag = s) : s.inboundBarrier n k sc m = s := by
  unfold State.inboundBarrier
  rw [hhand]
  dsimp only
  rw [hstay, ite_self]

/-- A barrier of a kind or scope that R222 does not allow is answered DECODE. -/
theorem State.takeBarrier_refused (hup : s.unitUp n = true) (hok : barrierOk n k sc = false) (q : BitVec 8) (etag : BitVec 16) :
    Turns n { (s.niOf n).useCredit 15 with outq := (s.niOf n).outq ++ [{ msg := { barCpl etag DECODE with src := s.node n } }] }
      s (s.takeBarrier n k sc q etag) := by
  have hcred : Turns n ((s.niOf n).useCredit 15) s (s.credUse n 15) := .setNi s n _
  unfold State.takeBarrier
  rw [hok, Bool.not_false, if_pos rfl]
  exact hcred.toUnit ((hcred.unitUp rfl).trans hup) _

/-- A ninth barrier is not taken (R222). -/
theorem State.takeBarrier_full (hok : barrierOk n k sc = true) (hfull : 8 ≤ (s.niOf n).bars.length) (q : BitVec 8) (etag : BitVec 16) :
    s.takeBarrier n k sc q etag = s := by
  unfold State.takeBarrier
  rw [hok, Bool.not_true, if_neg Bool.false_ne_true, if_pos hfull]

/-- The barrier `b` is the one that a message presented to an NI whose next ordinal is `ord`, no covered write of it having failed. -/
structure Barrier.Presents (b : Barrier) (k : BarKind) (sc : BarScope) (q : BitVec 8) (etag : BitVec 16) (ord : Nat) : Prop where
  kind  : b.kind = k
  scope : b.scope = sc
  queue : b.queue = q
  etag  : b.etag = etag
  ord   : b.ord = ord
  bad   : b.bad = none

/-- The NI once a barrier has joined the pending ones for a credit (R222, R240). -/
def Ni.barTaken (x : Ni) (b : Barrier) : Ni := { x.useCredit 15 with bars := x.bars ++ [b], ordN := x.ordN + 1 }

/-- A barrier joins the pending ones; with no line in use it closes none (R222 to R225). -/
theorem State.takeBarrier_joins (hok : barrierOk n k sc = true) (hroom : (s.niOf n).bars.length < 8) (hlines : (s.niOf n).wcb = [])
    (q : BitVec 8) (etag : BitVec 16) : ∃ b : Barrier, b.Presents k sc q etag (s.niOf n).ordN ∧
      Turns n ((s.niOf n).barTaken b) s (s.takeBarrier n k sc q etag) := by
  unfold State.takeBarrier
  rw [hok, Bool.not_true, if_neg Bool.false_ne_true, if_neg (by omega)]
  extract_lets s1 mine s2 x upto marks b
  have h1 : Turns n ((s.niOf n).useCredit 15) s s1 := .setNi s n _
  have h2 : Turns n ((s.niOf n).useCredit 15) s s2 := by
    have hclose := h1.modNi fun x => x.closeLines s1.fc mine
    rw [Ni.closeLines_empty (by exact hlines)] at hclose
    simp only [s2]
    split
    · exact h1
    · exact hclose
  have hx : x = (s.niOf n).useCredit 15 := h2.own
  exact ⟨b, ⟨rfl, rfl, rfl, rfl, (congrArg Ni.ordN hx :), rfl⟩,
    h2.modNi fun x => { x with bars := x.bars ++ [b], ordN := x.ordN + 1 }⟩

end

/-! A barrier completes -/

/-- The code with which a barrier completes: an ORDER barrier has that of the oldest covered write that failed (R223). -/
def Barrier.code (b : Barrier) : Code := if b.kind = .order then (b.bad.map (·.2)).getD OK else OK

/-- A barrier that completes with a failure code is recorded in BAR_STAT, unless one before it is (R223). -/
def State.barFails (s : State) (n : Nat) (code : Code) : State :=
  if code ≠ OK && !s.rbit (BAR_STAT n) 16 then ((s.setFld (BAR_STAT n) 15 8 code.toNat).setBit (BAR_STAT n) 16).niErr n 14 else s

/-- The NI without the first pending barrier that equals `b`. -/
def Ni.dropBar (x : Ni) (b : Barrier) : Ni := { x with bars := eraseFirst (· = b) x.bars }

section
variable (s : State) {n : Nat}

theorem State.barFails_ok : s.barFails n OK = s := if_neg (by simp)

theorem steady_barStat (hn : n < 87) : steady (BAR_STAT n) := by
  simp only [steady, offTally, BAR_STAT, XING_OVR0, XING_OVR1, JRN_STAT]
  omega

theorem State.barFails_noted (code : Code) : Noted (fun a => steady a ∧ a ≠ BAR_STAT n) s (s.barFails n code) :=
  .ite (((Noted.setFld (fun h => h.2 rfl) 15 8 _).trans (.setBit (fun h => h.2 rfl) 16)).trans
    ((State.niErr_noted _ n 14).mono fun _ h => h.1)) (.refl s)

/-- A failure shows in BAR_STAT. -/
theorem State.rbit_barFails (hn : n < 87) {code : Code} (h : code ≠ OK) : (s.barFails n code).rbit (BAR_STAT n) 16 = true := by
  unfold State.barFails
  split
  · rw [State.rbit_congr ((State.niErr_noted _ n 14).rd _ (steady_barStat hn)), State.rbit_setBit_self _ _ (by decide)]
  · next hset =>
    rw [decide_eq_true h] at hset
    simpa using hset

theorem State.node_barFails (code : Code) (k : Nat) : (s.barFails n code).node k = s.node k :=
  State.node_of_marked (s.barFails_noted code).toMarked ⟨steady_fuseStat, by simp only [FUSE_STAT, BAR_STAT]; omega⟩ k

variable {s}

theorem State.barComplete_none (h : (s.niOf n).bars.find? (s.barrierDone n) = none) : s.barComplete n = s := by
  simp only [State.barComplete, h, ite_self]

/-- A barrier whose condition holds, with a credit left, leaves the pending ones and its completion goes to the unit (R241). -/
theorem State.barComplete_ends {b : Barrier}
    (hcred : ((s.niOf n).outq.filter fun o => o.msg.cls = 15).length < Tbl.get (fun _ => 0) (s.niOf n).outCred 15)
    (hb : (s.niOf n).bars.find? (s.barrierDone n) = some b) : s.barComplete n =
      ((s.modNi n (·.dropBar b)).barFails n b.code).toUnit n { barCpl b.etag b.code with src := s.node n } := by
  have hnode : ((s.modNi n (·.dropBar b)).barFails n b.code).node n = s.node n := State.node_barFails _ _ _
  rw [← hnode]
  unfold State.barComplete
  rw [if_neg (by omega), hb]
  rfl

end

/-- Settles O42: with no line in use a barrier closes none, and one that completes changes its NI alone and, on a failure, BAR_STAT and
the errors of the page. -/
theorem barriers : Obligations.Barriers := by
  unfold Obligations.Barriers
  refine ⟨?taken, ?ninth, ?completes,
    fun s n h => congrArg Host.Outcome.next (State.atTile_of_stays (State.barComplete_none h))⟩
  case taken =>
    intro s n m hup hruns hmode hhand hlines hroom k c hkc
    have hexec : exec c s = .next (s.takeBarrier n.val k (barScope m) m.qsel m.etag) := by
      simp only [List.mem_cons, Prod.mk.injEq, List.not_mem_nil, or_false] at hkc
      rcases hkc with ⟨rfl, rfl⟩ | ⟨rfl, rfl⟩ | ⟨rfl, rfl⟩ <;>
        exact congrArg Host.Outcome.next (State.inboundBarrier_taken hup hruns hmode hhand)
    refine ⟨fun hok => ?_, fun hok => ?_⟩
    · obtain ⟨b, ⟨hkind, hscope, hqueue, hetag, hord, hbad⟩, hown, hother, hrest⟩ :=
        State.takeBarrier_joins hok hroom hlines m.qsel m.etag
      exact ⟨_, b, hexec, hown, hkind, hscope, hqueue, hetag, hord, hbad, hother, hrest⟩
    · obtain ⟨hown, hother, hrest⟩ := State.takeBarrier_refused hup hok m.qsel m.etag
      exact ⟨_, hexec, hown, hother, hrest⟩
  case ninth =>
    intro s n m hfull hhand
    have hstay (k : BarKind) (hok : barrierOk n.val k (barScope m) = true) : s.inboundBarrier n.val k (barScope m) m = s :=
      State.inboundBarrier_stays hhand (State.takeBarrier_full hok hfull _ _)
    exact ⟨fun h => congrArg Host.Outcome.next (hstay _ h), fun h => congrArg Host.Outcome.next (hstay _ h),
      fun h => congrArg Host.Outcome.next (hstay _ h)⟩
  case completes =>
    intro s n b hruns hup hcred hb
    have hn : n.val < 87 := by omega
    have hends := (State.atTile_of_runs hruns fun s => s.barComplete n.val).trans (State.barComplete_ends hcred hb)
    have hdrop : State.Turns n.val ((s.niOf n.val).dropBar b) s (s.modNi n.val (·.dropBar b)) := .setNi s n.val _
    have hmark := (s.modNi n.val (·.dropBar b)).barFails_noted (n := n.val) b.code
    have hup' : ((s.modNi n.val (·.dropBar b)).barFails n.val b.code).unitUp n.val = true := by
      rw [State.unitUp, hmark.niOf, hmark.niAlive]
      exact (hdrop.unitUp rfl).trans hup
    obtain ⟨hown, hother, -, -⟩ := State.toUnit_offers hup' { barCpl b.etag b.code with src := s.node n.val }
    rw [hmark.niOf, hdrop.own] at hown
    refine ⟨_, b.code, congrArg Host.Outcome.next hends, rfl, hown, fun i hi => ?_, fun hcode => ?_, fun hcode => ?_⟩
    · rw [hother i hi, hmark.niOf, hdrop.other i hi]
    · rw [State.toUnit, if_pos hup']
      exact State.rbit_barFails _ hn hcode
    · rw [hcode, State.barFails_ok]
      rw [hcode, State.barFails_ok] at hup'
      exact (hdrop.toUnit hup' _).rest

end Sys2Proof.Machine
end


section
/-! Obligations.CombinedStores (R215 to R219, R223): a store that allocates a write-combining line, and lines whose window ends. -/

namespace Sys2Proof.Machine

/-! Lines that close (R217, R218) -/

/-- The NI once the lines `l` have joined the queues of the stores that allocated them, in order (R218). -/
def Ni.joinLines (x : Ni) (fc : Nat) (l : List WLine) : Ni :=
  l.foldl (fun x l => x.setQueue l.queue.toNat (x.queue l.queue.toNat ++ [l.item fc])) x

theorem Ni.joinLines_keeps (x : Ni) (fc : Nat) (l : List WLine) :
    (x.joinLines fc l).wcb = x.wcb ∧ (x.joinLines fc l).ledger = x.ledger := by
  induction l generalizing x with
  | nil => exact ⟨rfl, rfl⟩
  | cons a l ih => exact ih (x.setQueue a.queue.toNat (x.queue a.queue.toNat ++ [a.item fc]))

theorem Ni.queue_joinLines (x : Ni) (fc : Nat) (l : List WLine) (q : Nat) :
    (x.joinLines fc l).queue q = x.queue q ++ (l.filter fun l => l.queue.toNat = q).map (·.item fc) := by
  induction l generalizing x with
  | nil => exact (List.append_nil _).symm
  | cons a l ih =>
    refine (ih (x.setQueue a.queue.toNat (x.queue a.queue.toNat ++ [a.item fc]))).trans ?_
    by_cases h : a.queue.toNat = q
    · subst h
      rw [Ni.queue_setQueue_self, List.filter_cons_of_pos (by simp), List.map_cons, List.append_assoc]
      rfl
    · rw [Ni.queue_setQueue_ne _ (Ne.symm h), List.filter_cons_of_neg (by simpa using h)]

/-- The first lines close, and those that had not joined their queues do (R217, R218). -/
theorem Ni.closeFirst_closes (x : Ni) (fc k : Nat) :
    (x.closeFirst fc k).wcb = (x.wcb.take k).map (fun l => { l with closed := true, joined := true }) ++ x.wcb.drop k ∧
    (∀ q, (x.closeFirst fc k).queue q =
      x.queue q ++ ((x.wcb.take k).filter fun l => !l.joined && l.queue.toNat = q).map (·.item fc)) ∧
    (x.closeFirst fc k).ledger = x.ledger := by
  obtain ⟨hlines, hledger⟩ := x.joinLines_keeps fc ((x.wcb.take k).filter fun l => !l.joined)
  refine ⟨?_, fun q => (x.queue_joinLines fc _ q).trans ?_, hledger⟩
  · change ((x.joinLines fc _).wcb.take k).map _ ++ (x.joinLines fc _).wcb.drop k = _
    rw [hlines]
  · rw [List.filter_filter]
    simp only [Bool.and_comm]

section
variable {s : State} {n i : Nat}

theorem State.wcbClose_ends {l : WLine} (hl : (s.niOf n).wcb[i]? = some l) (hopen : l.closed = false)
    (hwin : l.alloc + s.fld (WCB_CTRL n) 15 4 ≤ s.fc) (hmode : s.mode ≠ .frozen) :
    s.wcbClose n i = s.modNi n fun x => x.closeFirst s.fc (i + 1) := by
  unfold State.wcbClose
  rw [List.head?_drop, hl]
  exact if_pos (by simp [hopen, hwin, hmode])

/-- A line that is closed, or whose window runs, stays as it is. -/
theorem State.wcbClose_stays (h : ∀ l, (s.niOf n).wcb[i]? = some l → l.closed = true ∨ s.fc < l.alloc + s.fld (WCB_CTRL n) 15 4) :
    s.wcbClose n i = s := by
  unfold State.wcbClose
  rw [List.head?_drop]
  split
  · next l hl =>
    refine if_neg fun hc => ?_
    simp only [Bool.and_eq_true, Bool.not_eq_true', decide_eq_true_eq] at hc
    obtain ⟨⟨hopen, hwin⟩, -⟩ := hc
    rcases h l hl with hclosed | hruns
    · rw [hopen] at hclosed
      contradiction
    · omega
  · rfl

end

/-! A combined store (R215, R216, R219) -/

/-- The hold flag of a message is noted with its requester and target, and nothing else (R198). -/
theorem Ni.noteHold_eq (x : Ni) (part : BitVec 9) (d : NodeId) (hold : Bool) (ord : Nat) :
    ∃ l, x.noteHold part d hold ord = { x with holds := l } := by
  unfold Ni.noteHold
  extract_lets upd
  split <;> exact ⟨_, rfl⟩

/-- The posted entry that backs the line that a store of queue `j` allocates (R219). -/
def wcbEntry (j ord : Nat) (part : BitVec 9) (d : NodeId) (sc : BitVec 128) : LEntry :=
  { st := .notStarted, qsel := BitVec.ofNat 8 j, cls := cRWD, opc := 0x02, part := part, dst := d, dstSet := true, addr := sAddr sc,
    ord := ord, write := true, chan := 1, hdr := sc, stores := noteStore j ord [] }

/-- The line that a store of queue `j` allocates, backed by entry `k` (R216). -/
def wcbLine (j ord fc k : Nat) (key : Key) (part : BitVec 9) (d : NodeId) (sc : BitVec 128) (data : BitVec 512) : WLine :=
  { tag := keyTag k, key := key, queue := BitVec.ofNat 8 j, part := part, dst := d, line := BitVec.ofNat 46 ((sAddr sc).toNat / 64),
    meta_ := sMeta sc, bmask := sBmask sc, data := data, alloc := fc, ord := ord, stores := noteStore j ord [] }

/-- The NI once a store has allocated the line `l`, with entry `k`. -/
def Ni.lineAllocated (x : Ni) (k : Nat) (e : LEntry) (l : WLine) : Ni := { x.setLed k e with wcb := x.wcb ++ [l], ordN := x.ordN + 1 }

/-- The next entry to be allocated is that of the Ledger (R447). -/
theorem Ni.freeKey_congr {x y : Ni} (h : y.ledger = x.ledger) (posted : Bool) : y.freeKey posted = x.freeKey posted := by
  have hled : y.led = x.led := funext fun k => by rw [Ni.led, Ni.led, h]
  unfold Ni.freeKey
  rw [hled, h]

section
variable {s : State} {n j : Nat}

/-- A store taken for the write-combining buffer is answered at once (R219). -/
theorem State.cmpNow_offers (h : s.unitUp n = true) (etag : BitVec 16) (part : BitVec 9) :
    ∃ o : OMsg, o.msg.cls = 3 ∧ o.msg.etag = etag ∧ o.msg.status = OK ∧ Offers n [o] (s.credUse n 1) (s.cmpNow n etag part) := by
  have hcred : State.Turns n ((s.niOf n).useCredit 1) s (s.credUse n 1) := .setNi s n _
  obtain ⟨d, hd⟩ := State.answerUnit_offers (load := 0) ((hcred.unitUp rfl).trans h)
    { cls := 3, etag := etag, vn := 2, part := part, src := (s.credUse n 1).node n }
  rw [hcred.node] at hd
  exact ⟨_, rfl, rfl, rfl, hd⟩

/-- A store of part of a line, at an NI with no line in use, allocates one that stays open. -/
theorem State.wcbStore_allocates {k : Nat} {sc : BitVec 128} (hempty : (s.niOf n).wcb = []) (hk : (s.niOf n).freeKey true = some k)
    (hpart : sBmask sc ≠ BitVec.allOnes 64) (hwin : s.fld (WCB_CTRL n) 15 4 ≠ 0) (key : Key) (etag : BitVec 16) (part : BitVec 9)
    (d : NodeId) (data : BitVec 512) (hold : Bool) : s.wcbStore n j key etag part d sc data hold =
      (s.setNi n (((s.niOf n).lineAllocated k (wcbEntry j (s.niOf n).ordN part d sc)
        (wcbLine j (s.niOf n).ordN s.fc k key part d sc data)).noteHold part d hold (s.niOf n).ordN)).cmpNow n etag part := by
  unfold State.wcbStore
  extract_lets x late x1 m upd e
  have hx1 : x1 = x := Ni.closeLines_empty hempty _ _
  have hx : x.wcb = [] := hempty
  rw [hx1, hx, List.findIdx?_nil]
  dsimp -zeta only
  rw [if_neg (by decide)]
  rw [Ni.alloc_of_freeKey (by exact hk)]
  dsimp -zeta only
  extract_lets l x3 x4
  have hx4 : x4 = x3 := if_neg (by
    rw [Bool.or_eq_true, decide_eq_true_eq, decide_eq_true_eq, not_or]
    exact ⟨hpart, hwin⟩)
  rw [hx4]
  simp only [x3, l, e, hx1]
  rfl

/-- What an NI `x` becomes by a store that allocates the line `l`, backed by entry `k`: its unit has the answer `o`. -/
structure Ni.StoreTaken (x y : Ni) (k : Nat) (e : LEntry) (l : WLine) (o : OMsg) : Prop where
  lines  : y.wcb = x.wcb ++ [l]
  entry  : y.led k = e
  queues : y.queues = x.queues
  outq   : y.outq = x.outq ++ [o]

theorem State.wcbStore_takes {k : Nat} {sc : BitVec 128} (hup : s.unitUp n = true) (hempty : (s.niOf n).wcb = [])
    (hk : (s.niOf n).freeKey true = some k) (hpart : sBmask sc ≠ BitVec.allOnes 64) (hwin : s.fld (WCB_CTRL n) 15 4 ≠ 0) (key : Key)
    (etag : BitVec 16) (part : BitVec 9) (d : NodeId) (data : BitVec 512) (hold : Bool) :
    ∃ o : OMsg, o.msg.cls = 3 ∧ o.msg.etag = etag ∧ o.msg.status = OK ∧
      (s.niOf n).StoreTaken ((s.wcbStore n j key etag part d sc data hold).niOf n) k (wcbEntry j (s.niOf n).ordN part d sc)
        (wcbLine j (s.niOf n).ordN s.fc k key part d sc data) o := by
  rw [State.wcbStore_allocates hempty hk hpart hwin]
  obtain ⟨hs, hhold⟩ := ((s.niOf n).lineAllocated k (wcbEntry j (s.niOf n).ordN part d sc)
    (wcbLine j (s.niOf n).ordN s.fc k key part d sc data)).noteHold_eq part d hold (s.niOf n).ordN
  rw [hhold]
  have hset := State.Turns.setNi s n { (s.niOf n).lineAllocated k (wcbEntry j (s.niOf n).ordN part d sc)
    (wcbLine j (s.niOf n).ordN s.fc k key part d sc data) with holds := hs }
  obtain ⟨o, hcls, hetag, hstatus, hown, -⟩ := State.cmpNow_offers ((hset.unitUp rfl).trans hup) etag part
  have hcred := (hset.modNi fun x => x.useCredit 1).own
  rw [State.credUse, hcred] at hown
  rw [hown]
  exact ⟨o, hcls, hetag, hstatus, rfl, Ni.led_setLed_self (s.niOf n) k (wcbEntry j (s.niOf n).ordN part d sc), rfl, rfl⟩

end

/-! A store on its way to the buffer (R501) -/

section
variable {s : State} {n j : Nat} {m : Msg} {f : Found}

/-- A store that may be combined is a CXL.mem write of no flow. -/
theorem State.combines_class (h : s.combines n m f = true) : m.cls = 1 ∧ m.flowOf = none := by
  simp only [State.combines, Bool.and_eq_true, decide_eq_true_eq, Option.isNone_iff_eq_none] at h
  tauto

theorem State.toWcb_of_checks (hf : s.lookFor n m = f) (hcode : s.stateCode n j = OK) (hcomb : s.combines n m f = true)
    (hpart : s.qAny n j = true ∨ f.part.getD (s.qPart n j) = s.qPart n j)
    (hcheck : ∀ a, s.storeAccess n j m = some a → (s.check n false (s.qAny n j) (s.qPart n j) (s.node n) a).code = OK) :
    s.toWcb n j m = true := by
  have hall : ((s.storeAccess n j m).all fun a => (s.check n false (s.qAny n j) (s.qPart n j) (s.node n) a).code = OK) = true := by
    cases ha : s.storeAccess n j m with
    | none => rfl
    | some a => exact decide_eq_true (hcheck a ha)
  simp only [State.toWcb, hf, hcode, hcomb, hall, decide_true, Bool.true_and, Bool.and_true, Bool.or_eq_true, decide_eq_true_eq]
  exact hpart

/-- A store for the buffer needs no room in its queue; in an active partition nothing holds it back (R186, R338). -/
theorem State.heldBack_toWcb (hp : privileged (s.node n) = true ∨ s.qAny n j = true ∨
    (s.partState (s.qPart n j).toNat = 2 ∧ s.member n (s.qPart n j).toNat = true)) (h : s.toWcb n j m = true) :
    s.heldBack n j m = false := by
  rcases hp with hp | hp | ⟨hp, -⟩ <;> simp [State.heldBack, h, hp]

/-- The state in which the store has read the shadow of its access (R318). -/
def State.storeChecked (s : State) (n j : Nat) (m : Msg) : State :=
  if (s.storeAccess n j m).isNone then s else s.readShadow n false

theorem State.storeChecked_becomes (s : State) (n j : Nat) (m : Msg) :
    ∃ sh, Becomes n ((s.niOf n).withShadow sh) s (s.storeChecked n j m) := by
  unfold State.storeChecked
  split
  · exact ⟨_, .refl s n⟩
  · exact s.readShadow_becomes n false

theorem State.rd_storeChecked (hn : n < 87) {a : Nat} (ha : offTally a) : (s.storeChecked n j m).rd a = s.rd a := by
  unfold State.storeChecked
  split
  · rfl
  · exact (s.readShadow_leaves hn false).2.rd a ha

theorem State.enqueue_toWcb (hf : s.lookFor n m = f) (h : s.toWcb n j m = true) : s.enqueue n j m =
    (s.storeChecked n j m).wcbStore n j ((m.key n).getD (.node 0)) m.etag (f.part.getD (s.qPart n j)) f.dst m.sidecar m.data m.hold := by
  unfold State.enqueue
  extract_lets any qp f0 part code3 x part1 bad need
  simp only [part, f0, hf]
  exact if_pos h

/-- The byte mask of a CXL.mem write stands in its sidecar (R42). -/
theorem Msg.sBmask_sidecar {m : Msg} (h : m.cls = 1) : sBmask m.sidecar = m.bmask := by
  have hsc : ∃ base, m.sidecar = setBmask base m.bmask := by
    unfold Msg.sidecar
    rw [h]
    exact ⟨_, rfl⟩
  obtain ⟨base, hbase⟩ := hsc
  rw [hbase]
  exact extract_putBits_self _ _ (by decide) (by decide)

theorem wcbLine_line (ord fc k : Nat) (key : Key) (part : BitVec 9) (d : NodeId) (sc : BitVec 128) (data : BitVec 512) :
    (wcbLine j ord fc k key part d sc data).line.toNat = (sAddr sc).toNat / 64 := by
  have := (sAddr sc).isLt
  rw [wcbLine, BitVec.toNat_ofNat]
  omega

end

theorem offTally_wcbCtrl {n : Nat} (hn : n < 87) : offTally (WCB_CTRL n) := by
  simp only [offTally, WCB_CTRL]
  omega

/-- Settles O41: the store needs no room in its queue and, with no line in use, closes and merges with none; a line that closes takes with
it those before it, each of which joins its queue in order. -/
theorem combinedStores : Obligations.CombinedStores := by
  unfold Obligations.CombinedStores
  refine ⟨?store, ?closes, fun s n i h => congrArg Host.Outcome.next (State.atTile_of_stays (State.wcbClose_stays h))⟩
  case store =>
    intro s n m j f k hup hruns htakes hhand hcont hj hvalid hstep hmember hfence hf hcomb hpart hcheck hempty hk hmask hwin
    subst hj
    have hn : n.val < 87 := by omega
    obtain ⟨hcls, hflow⟩ := State.combines_class hcomb
    have hlook : s.lookFor n.val m = f := by
      simp only [State.lookFor, hflow]
      exact hf.symm
    have hwcb := State.toWcb_of_checks hlook (State.stateCode_ok hmember hfence) hcomb hpart hcheck
    have htake : s.takeRequest n.val m = s.enqueue n.val m.qsel.toNat m := by
      rw [State.takeRequest_begins hcont hvalid hstep, State.heldBack_toWcb hmember hwcb, if_neg Bool.false_ne_true]
    have hin := ((State.inbound_taken hup hruns htakes hhand (.inl (by rw [hcls]; decide))).trans htake).trans
      (State.enqueue_toWcb hlook hwcb)
    obtain ⟨sh, hown, -, hrest⟩ := s.storeChecked_becomes n.val m.qsel.toNat m
    have hlive : (s.storeChecked n.val m.qsel.toNat m).niAlive = s.niAlive := (congrArg State.niAlive hrest :)
    have hfc : (s.storeChecked n.val m.qsel.toNat m).fc = s.fc := (congrArg State.fc hrest :)
    have hfld : (s.storeChecked n.val m.qsel.toNat m).fld (WCB_CTRL n.val) 15 4 = s.fld (WCB_CTRL n.val) 15 4 :=
      State.fld_congr (State.rd_storeChecked hn (offTally_wcbCtrl hn)) 15 4
    have hup' : (s.storeChecked n.val m.qsel.toNat m).unitUp n.val = true := by
      rw [State.unitUp, hown, hlive]
      exact hup
    have hbmask := Msg.sBmask_sidecar hcls
    obtain ⟨o, hocls, hoetag, hostatus, hlines, hentry, hqueues, houtq⟩ :=
      State.wcbStore_takes (j := m.qsel.toNat) (k := k) (sc := m.sidecar) hup' (by rw [hown]; exact hempty)
        (by rw [hown]; exact (Ni.freeKey_congr (x := s.niOf n.val) (y := (s.niOf n.val).withShadow sh) rfl true).trans hk)
        (by rwa [hbmask]) (by rwa [hfld]) ((m.key n.val).getD (.node 0)) m.etag (f.part.getD (s.qPart n.val m.qsel.toNat)) f.dst
        m.data m.hold
    rw [hown] at hlines hqueues houtq
    exact ⟨_, _, o, congrArg Host.Outcome.next hin, hlines.trans (congrArg (· ++ [_]) hempty), rfl, rfl, hbmask, rfl,
      wcbLine_line _ _ _ _ _ _ _ _, hfc, rfl, by rw [hentry]; rfl, hqueues, houtq, hocls, hoetag, hostatus⟩
  case closes =>
    intro s n i l hruns hl hopen hwin
    have hends := (State.atTile_of_runs hruns fun s => s.wcbClose n.val i.val).trans
      (State.wcbClose_ends hl hopen hwin (State.not_frozen_of_runs hruns))
    obtain ⟨hown, hother, hrest⟩ := State.Turns.setNi s n.val ((s.niOf n.val).closeFirst s.fc (i.val + 1))
    obtain ⟨hlines, hqueue, hledger⟩ := (s.niOf n.val).closeFirst_closes s.fc (i.val + 1)
    rw [← hown] at hlines hledger
    exact ⟨_, congrArg Host.Outcome.next hends, hlines, fun q => (congrArg (Ni.queue · q) hown).trans (hqueue q), hledger, hother, hrest⟩

end Sys2Proof.Machine
end


section
/-! Obligations.OffersToUnits (R229, R240, R245, R252, R262, R502): the lines that an NI offers its unit, and those the unit takes. -/

namespace Sys2Proof.Machine

/-! The next line of a packet (R245, R252, R502) -/

/-- The NI once a line of packet `h`, the message `m`, is offered with PTAG `p`: its last line takes the packet out of the Granary. -/
def Ni.lineOffered (x : Ni) (h : HPkt) (p : Nat) (m : Msg) : Ni :=
  let x : Ni := { (x.setPtag p (some { pid := h.pid, line := h.offered, left := h.answersOf })) with
             outq := x.outq ++ [{ msg := m, pid := h.pid }] }
  let h' := { h with offered := h.offered + 1, arb := if h.arb = 1 then 2 else h.arb }
  if h.lines ≤ h.offered + 1 then { x with gran := x.gran.filter (fun g => g.pid ≠ h.pid), work := x.work ++ [h'] }
  else x.modPkt h.pid fun _ => h'

theorem Ni.ptag_setPtag_ne (x : Ni) {q p : Nat} (h : q ≠ p) (t : Option PTag) : (x.setPtag p t).ptag q = x.ptag q :=
  Tbl.get_set_ne _ h _ _

theorem Ni.lineOffered_keeps (x : Ni) (h : HPkt) (p : Nat) (m : Msg) :
    (x.lineOffered h p m).outq = x.outq ++ [{ msg := m, pid := h.pid }] ∧
    (x.lineOffered h p m).ptags = (x.setPtag p (some { pid := h.pid, line := h.offered, left := h.answersOf })).ptags ∧
    (x.lineOffered h p m).mons = x.mons := by
  unfold Ni.lineOffered
  extract_lets y h'
  split <;> exact ⟨rfl, rfl, rfl⟩

/-- A write of requester `r` to the granules of addresses takes a monitor: it is another requester's, and over one of them (R230). -/
def State.takesMonitor (s : State) (n : Nat) (r : Requester) (addrs : List Nat) (m : Monitor) : Bool :=
  !(m.src = r.src && m.part = r.part) && addrs.any fun a => a / s.granule n * s.granule n = m.base.toNat

theorem State.takesMonitor_eq_false {s : State} {n : Nat} {r : Requester} {addrs : List Nat} {m : Monitor} :
    s.takesMonitor n r addrs m = false ↔
      m.src = r.src ∧ m.part = r.part ∨ ∀ a ∈ addrs, a / s.granule n * s.granule n ≠ m.base.toNat := by
  simp only [State.takesMonitor, Bool.and_eq_false_iff, Bool.not_eq_false', Bool.and_eq_true, decide_eq_true_eq, List.any_eq_false]

/-- From `s` to `t` NI `n` becomes `x`, and nothing else changes but register `a`. -/
structure State.TurnsWith (n a : Nat) (x : Ni) (s t : State) : Prop where
  own   : t.niOf n = x
  other : ∀ k, k ≠ n → t.niOf k = s.niOf k
  rd    : ∀ b, b ≠ a → t.rd b = s.rd b
  rest  : { t with ni := s.ni, regs := s.regs } = s

theorem State.TurnsWith.modNi {n a : Nat} {x : Ni} {s t : State} (h : TurnsWith n a x s t) (f : Ni → Ni) :
    TurnsWith n a (f x) s (t.modNi n f) where
  own := by rw [State.niOf_modNi_self, h.own]
  other k hk := (State.niOf_modNi_ne t hk f).trans (h.other k hk)
  rd := h.rd
  rest := h.rest

/-- The monitors of others go, counted in RSV_STAT (R230). -/
theorem State.loseMonitors_turns (s : State) (n : Nat) (r : Requester) (addrs : List Nat) :
    TurnsWith n (RSV_STAT n) ((s.niOf n).clearMons (s.takesMonitor n r addrs)) s (s.loseMonitors n r addrs) := by
  unfold State.loseMonitors
  extract_lets g hit k u
  have hu : TurnsWith n (RSV_STAT n) (s.niOf n) s u := by
    simp only [u]
    split
    · exact ⟨rfl, fun _ _ => rfl, fun _ _ => rfl, rfl⟩
    · exact ⟨rfl, fun _ _ => rfl, fun _ hb => State.rd_setFld_ne _ hb _ _ _, rfl⟩
  exact hu.modNi (·.clearMons (s.takesMonitor n r addrs))

section
variable {s : State} {n p : Nat} {h : HPkt}

/-- A line that sets no monitor of its own is offered (R245, R252). -/
theorem State.offerLine_turns (hresv : isResvOp (hCls h.hdr) (sOpc h.sc) = false) :
    TurnsWith n (RSV_STAT n) (((s.niOf n).clearMons (s.takesMonitor n h.req (lineAddrs h (s.lineMsg n h h.offered p)))).lineOffered
      h p (s.lineMsg n h h.offered p)) s (s.offerLine n h p) := by
  unfold State.offerLine
  extract_lets m opc u v
  have hu : u = s := if_neg (by simp [opc, hresv])
  have hv : v = s.loseMonitors n h.req (lineAddrs h m) := by rw [← hu]
  rw [hv]
  exact (s.loseMonitors_turns n h.req (lineAddrs h m)).modNi fun x => x.lineOffered h p m

/-- A conditional write whose owner has no monitor leaves the Granary, and is answered RESV_LOST (R229). -/
theorem State.condWrite_lost (hlost : s.hasMonitor n h.req (sAddr h.sc).toNat = false) :
    s.condWrite n h p = (s.modNi n fun x => x.dropPkt h.pid).endReply n h.hdr h.sc RESV_LOST := by
  unfold State.condWrite
  extract_lets a
  rw [hlost, if_neg Bool.false_ne_true]

/-- An RWD that the NI ends itself is answered by an NDR (R39, R499). -/
theorem State.endReply_write {hdr sc : BitVec 128} (hc : hCls hdr = cRWD) (code : Code) :
    ∃ opc, s.endReply n hdr sc code = s.ndrMeta n hdr sc opc code 0 := by
  have hpacked : packed hdr sc = false := by simp [packed, hc, cRWD, cIOP, cMGT]
  unfold State.endReply
  extract_lets opc
  rw [hpacked, if_neg Bool.false_ne_true, hc, if_neg (by decide), if_neg (by decide)]
  exact ⟨_, rfl⟩

/-- The packet that an NI acts on, where its line can be offered. -/
theorem State.offer_eq (hruns : s.runs (niTile n) = true) (hnext : s.nextOffer n = some h)
    (hcode : h.offered = 0 → s.offerCode n h = OK) (hpkt : (s.niOf n).pktOf h.pid = some h) (hptag : (s.niOf n).nextPtag = some p)
    (hoff : s.offerable n h = true) : s.offer n =
      if isResvOp (hCls h.hdr) (sOpc h.sc) && hCls h.hdr = cRWD then s.condWrite n h p else s.offerLine n h p := by
  have hjudged : s.unjudged n h = false := by
    unfold State.offerable at hoff
    simp only [Bool.and_eq_true, Bool.not_eq_true'] at hoff
    obtain ⟨⟨⟨⟨hjudged, -⟩, -⟩, -⟩, -⟩ := hoff
    exact hjudged
  have hok : (if h.offered = 0 then s.offerCode n h else OK) = OK := by
    split
    · next h0 => exact hcode h0
    · rfl
  unfold State.offer
  simp only [hruns, hnext, hok, hjudged, hpkt, hptag, hoff, Bool.not_true, Bool.false_eq_true, if_false, ne_eq, not_true_eq_false]

theorem State.offer_none (h : s.nextOffer n = none) : s.offer n = s := by
  unfold State.offer
  rw [h]
  exact ite_self _

end

/-! The messages that the unit takes (R240, R246, R499) -/

/-- The NI once the unit has taken the message `m` of class `c` for a credit (R240). -/
def Ni.msgTaken (x : Ni) (c : BitVec 4) (m : OMsg) : Ni :=
  { x with outq := eraseFirst (· = m) x.outq,
           outCred := Tbl.set (fun _ => 0) c.toNat (Tbl.get (fun _ => 0) x.outCred c.toNat - 1) x.outCred }

/-- The packet once the unit has taken the line `m` of it: it counts the line, whose taking ends it where no answer is drawn. -/
def HPkt.lineTaken (h : HPkt) (m : Msg) : HPkt :=
  { h with taken := h.taken + 1, ans := if h.silent then h.ans ++ [(m.lidx.toNat, OK, 0, 0)] else h.ans }

/-- The NI once the unit has taken the message `m`, a line of a packet that the NI holds. -/
def Ni.lineTaken (x : Ni) (c : BitVec 4) (m : OMsg) : Ni := (x.msgTaken c m).modPkt m.pid (·.lineTaken m.msg)

section
variable {s : State} {n : Nat} {c : BitVec 4} {m : OMsg} {h : HPkt}

theorem State.outTaken_none (h : Tbl.get (fun _ => 0) (s.niOf n).outCred c.toNat = 0 ∨ ∀ o ∈ (s.niOf n).outq, o.msg.cls ≠ c) :
    s.outTaken n c = s := by
  unfold State.outTaken
  extract_lets x k
  split
  · rfl
  · next hk =>
    rcases h with h | h
    · exact absurd (by simp [k, x, h]) hk
    · rw [List.find?_eq_none.mpr fun o ho => by simpa using h o ho]

/-- The packet that counts its line is there. -/
theorem Ni.pktOf_lineTaken {x : Ni} (hpkt : x.pktOf m.pid = some h) :
    (x.lineTaken c m).pktOf m.pid = some (h.lineTaken m.msg) :=
  Ni.pktOf_modPkt (x := x.msgTaken c m) hpkt rfl

section
variable (hup : s.unitUp n = true) (hcred : 0 < Tbl.get (fun _ => 0) (s.niOf n).outCred c.toNat)
  (hm : (s.niOf n).outq.find? (fun o => o.msg.cls = c) = some m)
include hup hcred hm

/-- A message of no packet that the NI holds. -/
theorem State.outTaken_alone (hpkt : (s.niOf n).pktOf m.pid = none) : s.outTaken n c = s.setNi n ((s.niOf n).msgTaken c m) := by
  unfold State.outTaken
  extract_lets x k
  rw [if_neg (by simp [hup, k, x]; omega), hm]
  dsimp -zeta only
  extract_lets y u
  have hy : y.pktOf m.pid = none := hpkt
  rw [hy]
  rfl

/-- A line of a packet: the packet counts it, its PTAG is free where its taking ends it, and the packet is answered where it awaits
nothing more. -/
theorem State.outTaken_line (hpkt : (s.niOf n).pktOf m.pid = some h) : ∃ u, s.outTaken n c = u.tryAnswer n m.pid ∧
    Turns n (if h.endsTaken then ((s.niOf n).lineTaken c m).setPtag m.msg.ptag.toNat none else (s.niOf n).lineTaken c m) s u := by
  have hid := Ni.pid_of_pktOf hpkt
  unfold State.outTaken
  extract_lets x k
  rw [if_neg (by simp [hup, k, x]; omega), hm]
  dsimp -zeta only
  extract_lets y u
  have hy : y.pktOf m.pid = some h := hpkt
  rw [hy]
  dsimp -zeta only
  extract_lets v w
  have hv : Turns n ((s.niOf n).lineTaken c m) s v := by
    simp only [v, hid]
    exact (Turns.setNi s n y).modNi fun x => x.modPkt m.pid (·.lineTaken m.msg)
  refine ⟨w, by rw [hid], ?_⟩
  simp only [w]
  split
  · exact hv.modNi fun x => x.setPtag m.msg.ptag.toNat none
  · exact hv

end

/-- A PTAG stays free when those of a packet are freed. -/
theorem Ni.ptag_freePtags_setPtag (x : Ni) (t pid : Nat) : ((x.setPtag t none).freePtags pid).ptag t = none := by
  have hlacks : Tbl.lacks t (x.setPtag t none).ptags := by
    rw [Ni.setPtag, Tbl.set, if_pos rfl]
    exact Tbl.erase_lacks t x.ptags
  exact Tbl.get_of_lacks _ fun e he => hlacks e (List.mem_of_mem_filter he)

/-- A posted packet taken whole leaves the NI with its PTAGs; its PACK joins the answers (R39, R246, R499). -/
theorem State.answerPkt_posted (s : State) {n : Nat} (hn : n < 81) (he : h.endsTaken = true) : ∃ a,
    (s.answerPkt n h).niOf n = { ((s.niOf n).dropPkt h.pid).freePtags h.pid with answers := (s.niOf n).answers ++ [a] } := by
  obtain ⟨code, hcode⟩ : ∃ code, s.answerPkt n h =
      (s.modNi n fun x => (x.dropPkt h.pid).freePtags h.pid).ndrMeta n h.hdr h.sc opPACK code 0 := by
    simp only [State.answerPkt, he]
    exact ⟨_, rfl⟩
  obtain ⟨-, a, -, hown⟩ := (s.modNi n fun x => (x.dropPkt h.pid).freePtags h.pid).ndrMeta_answers hn h.hdr h.sc opPACK code 0
  rw [State.niOf_modNi_self] at hown
  exact ⟨a, hcode ▸ hown⟩

end

/-- Settles O35: what the NI acts on is offered or lost as a whole, and a line taken ends its packet only where no answer is awaited. -/
theorem offersToUnits : Obligations.OffersToUnits := by
  unfold Obligations.OffersToUnits
  refine ⟨?offered, ?lost, fun s n h => congrArg Host.Outcome.next (State.offer_none h), ?alone, ?counted, ?ended, ?idle⟩
  case offered =>
    intro s n h p hruns hnext hcode hpkt hptag hoff hresv
    have hoffer := State.offer_eq hruns hnext hcode hpkt hptag hoff
    rw [hresv, Bool.false_and, if_neg Bool.false_ne_true] at hoffer
    obtain ⟨hown, hother, hrd, hrest⟩ := State.offerLine_turns (s := s) (n := n.val) (p := p) hresv
    obtain ⟨houtq, hptags, hmons⟩ := ((s.niOf n.val).clearMons (s.takesMonitor n.val h.req
      (lineAddrs h (s.lineMsg n.val h h.offered p)))).lineOffered_keeps h p (s.lineMsg n.val h h.offered p)
    rw [← hown] at houtq hptags hmons
    refine ⟨_, congrArg Host.Outcome.next hoffer, houtq, ?_, fun q hq => ?_, fun m => ?_, hother, hrd, hrest⟩
    · exact (congrArg (Tbl.get _ · p) hptags).trans (Ni.ptag_setPtag_self _ _ _)
    · exact (congrArg (Tbl.get _ · q) hptags).trans (Ni.ptag_setPtag_ne _ hq _)
    · rw [hmons, Ni.clearMons, List.mem_filter, Bool.not_eq_true', State.takesMonitor_eq_false]
      rfl
  case lost =>
    intro s n h p hruns hnext hcode hpkt hptag hoff hresv hcls hlost
    obtain ⟨opc, hreply⟩ := State.endReply_write (s := s.modNi n.val fun x => x.dropPkt h.pid) (n := n.val) (sc := h.sc) hcls RESV_LOST
    have hoffer := State.offer_eq hruns hnext hcode hpkt hptag hoff
    rw [hresv, hcls, if_pos (by decide), State.condWrite_lost hlost, hreply] at hoffer
    obtain ⟨-, a, -, hown⟩ := (s.modNi n.val fun x => x.dropPkt h.pid).ndrMeta_answers (n := n.val) (by omega) h.hdr h.sc opc
      RESV_LOST 0
    rw [State.niOf_modNi_self] at hown
    refine ⟨_, congrArg Host.Outcome.next hoffer, ?_, ?_, ?_, ?_⟩ <;> rw [hown]
    · exact (s.niOf n.val).pktOf_dropPkt h.pid
    all_goals rfl
  case alone =>
    intro s n c m hruns hup hcred hm hpkt
    exact congrArg Host.Outcome.next ((State.atTile_of_runs hruns _).trans (State.outTaken_alone hup hcred hm hpkt))
  case counted =>
    intro s n c m h hruns hup hcred hm hpkt hsilent hwait
    have hend : h.endsTaken = false := by
      rw [HPkt.silent, Bool.or_eq_false_iff] at hsilent
      exact hsilent.1
    have htaken : h.lineTaken m.msg = { h with taken := h.taken + 1 } := by rw [HPkt.lineTaken, hsilent]; rfl
    have hfound := Ni.pktOf_lineTaken (c := c) hpkt
    obtain ⟨u, htry, hown, hother, hrest⟩ := State.outTaken_line hup hcred hm hpkt
    rw [hend, if_neg Bool.false_ne_true] at hown
    rw [← hown, htaken] at hfound
    rw [State.tryAnswer_waits hfound (.inr hwait)] at htry
    refine ⟨u, congrArg Host.Outcome.next ((State.atTile_of_runs hruns _).trans htry), congrArg Ni.outq hown, ?_, hfound, hother, hrest⟩
    rw [hown]
    exact Tbl.get_set_self _ _ _ _
  case ended =>
    intro s n c m h hruns hup hcred hm hpkt hend hoffered hans
    have hsilent : h.silent = true := by rw [HPkt.silent, hend, Bool.true_or]
    have hneeded : (h.lineTaken m.msg).needed ≤ (h.lineTaken m.msg).ans.length := by
      have hlines : (h.lineTaken m.msg).needed = h.lines := if_pos hsilent
      rw [hlines, HPkt.lineTaken, hsilent, if_pos rfl, List.length_append]
      exact hans
    obtain ⟨u, htry, hown, -, -⟩ := State.outTaken_line hup hcred hm hpkt
    rw [hend, if_pos rfl] at hown
    have hfound : (u.niOf n.val).pktOf m.pid = some (h.lineTaken m.msg) := by
      rw [hown]
      exact Ni.pktOf_lineTaken (c := c) hpkt
    rw [State.tryAnswer_ends hfound hoffered hneeded] at htry
    obtain ⟨a, hleft⟩ := u.answerPkt_posted (n := n.val) (h := h.lineTaken m.msg) (by omega) hend
    rw [hown, Ni.pid_of_pktOf hfound] at hleft
    refine ⟨_, congrArg Host.Outcome.next ((State.atTile_of_runs hruns _).trans htry), ?_, ?_, ?_, ?_⟩ <;> rw [hleft]
    · rfl
    · exact Tbl.get_set_self _ _ _ _
    · exact Ni.pktOf_dropPkt _ m.pid
    · exact Ni.ptag_freePtags_setPtag _ _ _
  case idle =>
    intro s n c h
    exact congrArg Host.Outcome.next (State.atTile_of_stays (State.outTaken_none h))

end Sys2Proof.Machine
end


section
/-! Obligations.ChannelMessages (R240, R241, R243, R260, R263): messages that an NI discards for their handshake errors, sideband
events, and the credits that a unit returns. -/

namespace Sys2Proof.Machine

/-! Bits of a register set one after the other -/

/-- The state with the bits `l` of a register set by hardware. -/
def State.setBits (s : State) (a : Nat) (l : List Nat) : State := l.foldl (fun s b => s.setBit a b) s

theorem State.rbit_setBit_ne (s : State) (a : Nat) {i j : Nat} (h : j ≠ i) : (s.setBit a i).rbit a j = s.rbit a j := by
  rw [State.rbit, State.rd_setBit_self, bit_putBits_ne _ _ _ _ _ (by omega)]
  rfl

/-- A bit is set when it is one of those set, or was set before. -/
theorem State.rbit_setBits {a b : Nat} (hb : b < 32) {l : List Nat} {s : State} (h : b ∈ l ∨ s.rbit a b = true) :
    (s.setBits a l).rbit a b = true := by
  induction l generalizing s with
  | nil => exact h.resolve_left List.not_mem_nil
  | cons x l ih =>
    refine ih (s := s.setBit a x) ?_
    by_cases hx : b = x
    · exact .inr (hx ▸ State.rbit_setBit_self s a hb)
    · rw [State.rbit_setBit_ne _ _ hx]
      exact h.imp_left fun hmem => (List.mem_cons.mp hmem).resolve_left hx

theorem State.RegsOnly.setBits (s : State) (a : Nat) (l : List Nat) : RegsOnly s (s.setBits a l) := by
  induction l generalizing s with
  | nil => exact .refl s
  | cons x l ih => exact (RegsOnly.setBit s a x).trans (ih _)

/-! What an error leaves as it was -/

theorem State.ErrsOnly.ni {s t : State} (h : ErrsOnly s t) : t.ni = s.ni := by obtain ⟨_, _, _, rfl⟩ := h; rfl
theorem State.ErrsOnly.niOf {s t : State} (h : ErrsOnly s t) (k : Nat) : t.niOf k = s.niOf k := congrArg (Tbl.get _ · k) h.ni
theorem State.ErrsOnly.jq {s t : State} (h : ErrsOnly s t) : t.jq = s.jq := by obtain ⟨_, _, _, rfl⟩ := h; rfl

/-! Handshake errors -/

section
variable (s : State) {n : Nat} {m : Msg} (bits : List Nat) (cls : Nat)

theorem State.handshake_lt {s : State} {b : Nat} (h : b ∈ s.handshake n m) : b < 32 := by
  simp only [State.handshake, List.mem_append, List.mem_ite_nil_right, List.mem_singleton] at h
  rcases h with (⟨-, rfl⟩ | ⟨-, rfl⟩) | ⟨-, rfl⟩ <;> decide

/-- Only a PNI has a PMC_STAT. -/
theorem State.pmcErr_other (h : Config.niKind n ≠ .pni) : s.pmcErr n bits cls = s := if_pos h

/-- A PNI may first record the class; then it sets the bits of the errors, and its page's error bit. -/
theorem State.pmcErr_pni (h : Config.niKind n = .pni) :
    ∃ u, RegsOnly s u ∧ s.pmcErr n bits cls = (u.setBits (PMC_STAT n) bits).niErr n 11 :=
  ⟨_, .ite (.setFld s _ 11 8 cls) (.refl s), if_neg (not_not_intro h)⟩

theorem State.pmcErr_errsOnly (n : Nat) : ErrsOnly s (s.pmcErr n bits cls) := by
  by_cases h : Config.niKind n = .pni
  · obtain ⟨u, hu, heq⟩ := s.pmcErr_pni bits cls h
    rw [heq]
    exact (ErrsOnly.of_regsOnly (hu.trans (.setBits u _ bits))).trans (.pageErr _ _ 11)
  · rw [s.pmcErr_other bits cls h]
    exact .refl s

theorem steady_pmcStat (hn : n < 87) : steady (PMC_STAT n) := by
  simp only [steady, offTally, PMC_STAT, XING_OVR0, XING_OVR1, JRN_STAT]
  omega

theorem State.rbit_pmcErr (hn : n < 87) (hk : Config.niKind n = .pni) {b : Nat} (hb : b < 32) (hmem : b ∈ bits) :
    (s.pmcErr n bits cls).rbit (PMC_STAT n) b = true := by
  obtain ⟨u, -, heq⟩ := s.pmcErr_pni bits cls hk
  rw [heq, State.rbit_congr ((State.niErr_noted _ n 11).rd _ (steady_pmcStat hn))]
  exact State.rbit_setBits hb (.inl hmem)

/-- The Journal entry of a message that an NI discards (R448, R449). -/
def State.sourceEntry (n : Nat) (m : Msg) (part : Option (BitVec 9)) (code : Code) : JEntry :=
  { code := code, kind := kSOURCE, where_ := whereNi n, part := part, init := s.node n, addr := m.addr, posted := m.posted, t := s.stamp }

theorem State.sourceJ_eq {s : State} (h : s.jq.length < 64) (part : Option (BitVec 9)) (code : Code) :
    s.sourceJ n m part code = { s with jq := s.jq ++ [s.sourceEntry n m part code] } := if_pos h

/-- While the intake queue has room, a discarded message leaves its errors, an entry of kind SOURCE and a credit less. -/
theorem State.badMessage_eq {s : State} {bits : List Nat} (h : s.jq.length < 64) : ∃ e : JEntry, e.code = DECODE ∧ e.kind = kSOURCE ∧
    s.badMessage n m bits = ({ s.pmcErr n bits m.cls.toNat with jq := s.jq ++ [e] } : State).credUse n m.cls := by
  have hjq := (s.pmcErr_errsOnly bits m.cls.toNat n).jq
  refine ⟨(s.pmcErr n bits m.cls.toNat).sourceEntry n m none DECODE, rfl, rfl, ?_⟩
  rw [State.badMessage, State.sourceJ_eq (hjq ▸ h), hjq]

end

/-! What the channel does with a message -/

section
variable {s : State} {n : Nat} {m : Msg}

/-- A message of a unit that is not up is ignored (R241). -/
theorem State.inbound_down (h : s.unitUp n = false) : s.inbound n m = s := by
  unfold State.inbound State.iTake
  rw [h]
  rfl

theorem State.inboundBarrier_down {k : BarKind} {sc : BarScope} (h : s.unitUp n = false) : s.inboundBarrier n k sc m = s := by
  unfold State.inboundBarrier
  rw [h]
  rfl

theorem State.creditReturn_down {c : BitVec 4} (h : s.unitUp n = false) : s.creditReturn n c = s := by
  unfold State.creditReturn
  rw [h]
  rfl

theorem State.iTake_of (hu : s.unitUp n = true) (hr : s.runs (niTile n) = true) (ht : s.takesNow n m = true) : s.iTake n m = true := by
  rw [State.iTake, hu, hr, ht]
  rfl

/-- A message with handshake errors is discarded (R243). -/
theorem State.inbound_bad (htake : s.iTake n m = true) (hbad : s.handshake n m ≠ []) :
    s.inbound n m = s.badMessage n m (s.handshake n m) := by
  obtain ⟨b, l, hbits⟩ := List.exists_cons_of_ne_nil hbad
  simp only [State.inbound, htake, hbits, Bool.not_true, Bool.false_eq_true, if_false]

theorem State.inbound_event (htake : s.iTake n m = true) (hgood : s.handshake n m = []) (hcls : m.cls = 0xF) (hsub : m.sub = 2) :
    s.inbound n m = s.takeEvent n m := by
  simp only [State.inbound, htake, hgood, hcls, hsub, Bool.not_true, Bool.false_eq_true, if_false, if_true]

/-- The NI with the event of a message behind the events before it (R260). -/
def Ni.eventKept (x : Ni) (m : Msg) : Ni :=
  { x with events := x.events ++ [{ opc := m.ctrl.extractLsb' 8 8, data := m.ctrl.extractLsb' 16 32, ord := x.ordN }],
           ordN := x.ordN + 1 }

/-- An event uses a credit; a PNI with sb_en keeps it (R260). -/
theorem State.takeEvent_turns : Turns n
    (if Config.niKind n = .pni ∧ s.rbit (PNI_CTRL n) 3 = true then ((s.niOf n).useCredit m.cls).eventKept m
      else (s.niOf n).useCredit m.cls) s (s.takeEvent n m) := by
  have hcred : Turns n ((s.niOf n).useCredit m.cls) s (s.credUse n m.cls) := .setNi s n _
  have hbit : (s.credUse n m.cls).rbit (PNI_CTRL n) 3 = s.rbit (PNI_CTRL n) 3 := rfl
  unfold State.takeEvent
  by_cases hkeep : Config.niKind n = .pni ∧ s.rbit (PNI_CTRL n) 3 = true
  · rw [if_pos hkeep, if_neg (by simp [hbit, hkeep])]
    exact hcred.modNi (·.eventKept m)
  · rw [if_neg hkeep, if_pos (by simpa [hbit, imp_iff_not_or] using hkeep)]
    exact hcred

/-- A credit that comes back is counted up to 255 (R241). -/
theorem State.creditReturn_counts {c : BitVec 4} (hu : s.unitUp n = true)
    (hroom : Tbl.get (fun _ => 0) (s.niOf n).outCred c.toNat < 255) : s.creditReturn n c = s.setNi n { s.niOf n with
      outCred := Tbl.set (fun _ => 0) c.toNat (Tbl.get (fun _ => 0) (s.niOf n).outCred c.toNat + 1) (s.niOf n).outCred } := by
  unfold State.creditReturn
  rw [hu, Bool.not_true, if_neg Bool.false_ne_true, if_neg (by omega)]
  rfl

/-- One more than 255 is a handshake error (R243). -/
theorem State.creditReturn_full {c : BitVec 4} (hu : s.unitUp n = true)
    (hfull : 255 ≤ Tbl.get (fun _ => 0) (s.niOf n).outCred c.toNat) : s.creditReturn n c = s.pmcErr n [3] c.toNat := by
  unfold State.creditReturn
  rw [hu, Bool.not_true, if_neg Bool.false_ne_true, if_pos hfull]

end

/-- Settles O43: the errors of a discarded message touch registers, their notes and the faults that are due alone, so that the NIs lose
nothing but its credit. -/
theorem channelMessages : Obligations.ChannelMessages := by
  unfold Obligations.ChannelMessages
  refine ⟨?bad, ?event, ?credit, ?down⟩
  case bad =>
    intro s n m hu hr ht hbad hq
    have hn : n.val < 87 := by omega
    obtain ⟨e, hcode, hkind, heq⟩ := State.badMessage_eq (n := n.val) (m := m) (bits := s.handshake n.val m) hq
    have herr := s.pmcErr_errsOnly (s.handshake n.val m) m.cls.toNat n.val
    have hin := (State.inbound_bad (State.iTake_of hu hr ht) hbad).trans heq
    refine ⟨_, e, congrArg Host.Outcome.next hin, congrArg Host.Outcome.next hin, congrArg Host.Outcome.next hin,
      congrArg Host.Outcome.next hin, ?_, fun i hi => ?_, rfl, hcode, hkind, fun hpni b hb => ?_, fun hother => ?_⟩
    · exact (State.niOf_modNi_self _ _ _).trans (congrArg (·.useCredit m.cls) (herr.niOf n.val))
    · exact (State.niOf_modNi_ne _ hi _).trans (herr.niOf i)
    · exact s.rbit_pmcErr _ _ hn hpni (State.handshake_lt hb) hb
    · exact (congrArg State.regs (s.pmcErr_other _ _ hother) :)
  case event =>
    intro s n m hu hr ht hgood hcls hsub
    obtain ⟨hown, hother, hrest⟩ := State.takeEvent_turns (s := s) (n := n.val) (m := m)
    rw [hcls] at hown
    exact ⟨_, congrArg Host.Outcome.next (State.inbound_event (State.iTake_of hu hr ht) hgood hcls hsub), hown, hother, hrest⟩
  case credit =>
    intro s n c hu
    refine ⟨fun hroom => congrArg Host.Outcome.next (State.creditReturn_counts hu hroom), fun hfull => ?_⟩
    exact ⟨_, congrArg Host.Outcome.next (State.creditReturn_full hu hfull), (s.pmcErr_errsOnly _ _ _).ni,
      fun hpni => s.rbit_pmcErr _ _ (by omega) hpni (by decide) List.mem_cons_self⟩
  case down =>
    intro s n m c hdown
    have hstay (k : BarKind) : s.inboundBarrier n.val k (barScope m) m = s := State.inboundBarrier_down hdown
    have hin : s.inbound n.val m = s := State.inbound_down hdown
    exact ⟨congrArg Host.Outcome.next hin, congrArg Host.Outcome.next hin, congrArg Host.Outcome.next hin,
      congrArg Host.Outcome.next hin, congrArg Host.Outcome.next (hstay .order),
      congrArg Host.Outcome.next (hstay .drain), congrArg Host.Outcome.next (hstay .rule),
      congrArg Host.Outcome.next (State.creditReturn_down hdown)⟩

end Sys2Proof.Machine
end


section
/-! Obligations.QueueKept: what a command answers, by the lemma of the operation that it stands for. -/

namespace Sys2Proof.Machine

/-- The outcome `o` of a command from `s` is a next state, with the queue of `s`, and sound where `s` is. -/
def Continues (s : State) (o : Out) : Prop := ∃ t, o = .next t ∧ Holds s t

theorem Holds.continues {s t : State} (h : Holds s t) : Continues s (.next t) := ⟨t, rfl, h⟩

theorem Keeps.continues {s t : State} (h : Keeps s t) : Continues s (.next t) := h.holds.continues

/-- A command of a tile does its operation or, while the tile's traffic does not run, nothing. -/
theorem Continues.atTile {s : State} {k : Nat} {f : State → State} (hf : ∀ u, Keeps u (f u)) :
    Continues s (.next (s.atTile k f)) := (Keeps.atTile k f hf (.refl s)).continues

theorem State.inject_keeps (s : State) {n : Nat} {f : State → State} (hf : ∀ u, Keeps u (f u)) : Keeps s (s.inject n f) := by
  have h := ((s.takeCredits_keeps n).trans (State.releases_keeps _ n)).trans (hf _)
  exact .ite (.refl s) (.ite h (.ite (h.trans (State.kniDyn_keeps _ _)) (h.trans (State.dynInject_keeps _ _))))

/-- Every command answers a next state with its queue, which is sound where the state given is. -/
theorem exec_continues (c : Instr) (s : State) : Continues s (exec c s) := by
  cases c with
  | warmResetCommand | tileReset | servoEnWrite | rotAcq | setNow | freqWrite | ledgerRelease | ledgerSelect | arbFreeze
  | arbSeedWrite | arbWinWrite | rsvCtrlWrite | registerWrite | pageLock | pageSoftReset | pageIrqTest | rsStageWrite |
  rsCommit | rsErrinjWrite | ruleStageWrite | ruleCommit | ruleErrinjWrite | ruleRangeWrite | queueDescWrite |
  slotTableWrite | swArm | swCancel | swMarkLoaded | schedLoadStart | flowDemoteClear | skwEnable | skwRetrain |
  skwClose | skwTsClr | skwLaneStep | modeRequest | featCommit | partCreate | partOpen | partFreeze | partThaw |
  partResetDrain | partResetSquash | partDestroy | partSave | partRestore | boomQuiesce | boomOff | boomOpen | boomForce
  | jrnSel | counterStageWrite | counterCommit | tallyFreeze | tallyUnfreeze | tallyClrAll | tallySnapshot |
  probeCtrlWrite =>
    exact (s.regWrite_keeps _ _ _).continues
  | latchingRead | rsWindowRead | rsStatRead | ruleWindowRead | counterWindowRead =>
    exact (s.regGet_keeps _ _).continues
  | pwrOkRise => exact s.powerUp_holds.continues
  | pwrOkFall => exact s.offState_holds.continues
  | coldResetAssert => exact s.coldAssert_holds.continues
  | coldResetRelease => exact s.coldRelease_holds.continues
  | warmResetAssert => exact s.warmAssert_holds.continues
  | warmResetRelease => exact s.warmRelease_holds.continues
  | fuseDone => exact (s.fuseDone_keeps _).continues
  | efuseProgram => exact (s.efuseProgram_holds _ _).continues
  | testReadInstruction => exact (s.testRead_keeps _).continues
  | testStateInstruction => exact (s.testDrive_keeps _).continues
  | ppsEdge => exact s.pps_keeps.continues
  | phaseWindowEnd => exact s.phaseEnd_keeps.continues
  | holdoverEntry => exact s.holdover_keeps.continues
  | niAliveRise => exact (s.aliveRise_holds _).continues
  | niAliveFall => exact (s.aliveFall_holds _).continues
  | quiesceAckRise => exact (s.ackRise_keeps _).continues
  | clockStopDetect => exact (s.clockStop_keeps _).continues
  | inboundRequestMessage | inboundAnswerMessage | sidebandEventMessage | mgtReqMessage =>
    exact (s.inbound_keeps _ _).continues
  | barrierOrder | barrierDrain | barrierRule =>
    exact (s.inboundBarrier_keeps _ _ _ _).continues
  | barrierComplete => exact .atTile fun u => u.barComplete_keeps _
  | outboundCreditReturn => exact (s.creditReturn_keeps _ _).continues
  | outboundMessageTaken => exact .atTile fun u => u.outTaken_keeps _ _
  | apertureAccess => exact (s.aperture_keeps _ _ _ _ _).continues
  | routeLookup => exact (s.lookupAt_keeps _ _).continues
  | injectPacket => exact (s.inject_keeps fun u => .ite (u.kniSchedInject_keeps _) (u.schedInject_keeps _)).continues
  | schedInject => exact (s.schedInject_keeps _).continues
  | throttleFrame => exact s.frame_keeps.continues
  | holdRelookup => exact .atTile fun u => u.relook_keeps _ _
  | holdExpire => exact .atTile fun u => (u.relook_keeps _ _).trans (State.holdEnd_keeps _ _ _)
  | routerFlitArrive => exact (s.routerArrive_keeps _ _ _ _).continues
  | routerTraverse => exact (s.traverse_keeps _).continues
  | ageIncrement => exact (s.ageUp_keeps _ _ _).continues
  | creditArrive => exact (s.creditArrive_keeps _ _).continues
  | destFlitArrive => exact (s.ejectArrive_keeps _ _).continues
  | granaryAdmit => exact (s.granAdmit_keeps _ _).continues
  | offerToUnit => exact (s.offer_keeps _).continues
  | answerArrive => exact .atTile fun u => u.answerArrive_keeps _
  | backoffWaitEnd => exact .atTile fun u => u.backoffEnd_keeps _ _
  | ehRdRetry => exact .atTile fun u => u.ehRetry_keeps _ _
  | txnTimeout => exact Keeps.continues (.ite (s.txnTimeout_keeps _ _) (.ite (s.txnTimeout_keeps _ _) (.refl s)))
  | arbDraw => exact .atTile fun u => u.draw_keeps _
  | arbQuotaWindowEnd => exact .atTile fun u => u.quotaEnd_keeps _
  | arbRelArrive => exact .atTile fun u => u.arbRelArrive_keeps _
  | arbBreakPoint => exact .atTile fun u => u.arbBreak_keeps _
  | rsvReqArrive => exact .atTile fun u => u.rsvReqArrive_keeps _
  | rsvGrant => exact (s.rsvGrant_keeps _).continues
  | rsvGrantExpire => exact .atTile fun u => u.rsvGrantExpire_keeps _ _
  | rsvClrArrive => exact .atTile fun u => u.rsvClrArrive_keeps _
  | wcbWindowClose => exact .atTile fun u => u.wcbClose_keeps _ _
  | lniTakeEhWr => exact .atTile fun u => u.ehTakeWr_keeps
  | lniTakeEhRd => exact .atTile fun u => u.ehTakeRd_keeps
  | ehrupCommandTransfer => exact s.ehTransfer_keeps.continues
  | ehrupReturn => exact (s.ehReturn_keeps _ _ _ _ _).continues
  | ehResultExpire => exact .atTile fun u => u.ehExpire_keeps _
  | ehrupTimeout => exact (s.ehTimeout_keeps _).continues
  | hayloftHangTimeout => exact (s.hlHang_keeps _).continues
  | swCommit => exact s.swCommitStep_keeps.continues
  | swSwitch => exact s.swSwitch_keeps.continues
  | swSwitchEnd => exact (s.swEnd_keeps.trans (State.deferredDrain_keeps _)).continues
  | schedLoadDone => exact (s.loadEnded_keeps _ _).continues
  | skwLinkUp => exact (s.linkUp_keeps _).continues
  | skwLinkLoss => exact (s.linkLoss_keeps _).continues
  | skwPhyTrainTimeout | skwAlignTimeout =>
    exact (s.trainTimeout_keeps _ _ _ _).continues
  | skwFrameSend => exact (s.frameSend_keeps _).continues
  | skwFrameReceive => exact (s.frameReceive_keeps _ _).continues
  | skwReplay => exact (s.skwReplay_keeps _).continues
  | param => exact (s.gotParam_keeps _ _).continues
  | ready => exact (s.gotReady_keeps _).continues
  | tsync => exact (s.gotTsync_keeps _ _).continues
  | laneProp => exact (s.gotProp_keeps _ _).continues
  | laneAck => exact (s.gotAck_keeps _ _).continues
  | laneGo => exact (s.gotGo_keeps _ _).continues
  | laneAckDeadline => exact (s.ackDeadline_keeps _).continues
  | close => exact (s.gotClose_keeps _).continues
  | kniEnterPacket => exact (s.kniEnter_keeps _ _).continues
  | kniSchedInject => exact (s.kniSchedInject_keeps _).continues
  | kniSchedLate => exact (s.kniSchedLate_keeps _).continues
  | modeChangeDone => exact s.changeDone_keeps.continues
  | drainComplete => exact s.drainComplete_keeps.continues
  | drainLimitExpire => exact s.drainLimit_keeps.continues
  | frozenApply => exact s.frozenApply_keeps.continues
  | partOpenScanDone => exact (s.openDone_keeps _).continues
  | partDrainDone => exact (s.drainDone_keeps _).continues
  | partSquashDone => exact (s.squashDone_keeps _).continues
  | partSaveDone => exact (s.saveDone_keeps _ _).continues
  | partRestoreDone => exact (s.restoreDone_keeps _ _ _).continues
  | boomFenceDone => exact (s.fenceDone_keeps _).continues
  | boomDrainDone => exact (s.drainEnd_keeps _).continues
  | boomQuiesceDone => exact ((s.quiesceEnd_keeps _).trans (State.escCheck_keeps _ _)).continues
  | boomQackTimeout => exact (s.qackTimeout_keeps _).continues
  | boomWakeDone => exact (s.wakeEnd_keeps _).continues
  | cruiseSweep => exact s.sweepStart_keeps.continues
  | cruiseSweepDone => exact s.sweepDone_keeps.continues
  | foremanEvaluate => exact s.evaluate_keeps.continues
  | foremanVariantArm => exact s.variantArm_keeps.continues
  | gleanerRead => exact (s.glnStep_keeps _ _).continues
  | gleanerPassOverrun => exact (s.glnOverrun_keeps _).continues
  | gleanerReportReread => exact (s.glnReport_keeps _).continues
  | cdcAuditMeasure => exact (s.audMeasure_keeps _ _ _).continues
  | ladderFault => exact (s.ladderFault_keeps _).continues
  | escWindowExpire => exact (s.winExpire_keeps _).continues
  | journalWrite => exact s.journalStep_keeps.continues
  | partitionEventSend => exact (s.eventSend_keeps _).continues
  | counterOverflow => exact (s.cntOverflow_keeps _ _).continues
  | tallyCommandApply => exact s.tlyApply_keeps.continues
  | tallySnapshotDone => exact s.tlyDone_keeps.continues
  | probeRecordWrite => exact (s.probeWrite_keeps _).continues

/-- Settles O4: each command is one operation, and every operation leaves the queue. -/
theorem queueKept : Obligations.QueueKept := by
  unfold Obligations.QueueKept
  intro c s
  obtain ⟨t, ht, hkept⟩ := exec_continues c s
  exact ⟨t, ht, hkept.pending⟩

end Sys2Proof.Machine
end


section
/-! Obligations.AccessOutcomes (R471, R472, R486): the write of a common register that a management port makes. -/

namespace Sys2Proof.Machine

/-- A state in DYNAMIC, all of whose registers read their reset value. -/
def atRest : State := { pwrOk := true, mode := .dynamic }

/-- Management port 0 reaches PAGE_ERR_MASK of the GLEANER page. -/
theorem atRest_takes : atRest.Takes 0 .gleaner 0x1C where
  serves := ⟨rfl, rfl, by decide, by decide +kernel, rfl, rfl, rfl, rfl, by decide, by decide⟩
  enabled := by decide +kernel

/-- PAGE_ERR_MASK is stored, and PAGE_SEQ of its page does not count the write: it counts PAGE_CTRL and the registers from 0x100 on
alone (R471). -/
theorem atRest_write_uncounted (v : Word) : (atRest.regWrite 0 0x301C v).rd 0x3030 = 0 := by
  have hw := State.regWrite_common (p := .gleaner) (o := 0x1C) atRest_takes.serves (by decide) (by decide) v
  have hseq := congrArg (State.rd · 0x3030) hw
  rw [State.rd_answered] at hseq
  exact hseq.trans ((State.rd_wr_ne _ (by decide) v).trans (by decide +kernel))

/-- A write that is counted in PAGE_SEQ leaves one there. -/
theorem atRest_wrote_counted (w : Word) : (atRest.wrote 0 .gleaner 0x1C fun u => u.wr 0x301C w).rd 0x3030 = 1 :=
  (State.rd_wr_ne _ (by decide) w).trans (by decide +kernel)

/-- Refutes O22, in the clause on an aligned write: PAGE_ERR_MASK of the GLEANER page has RW bits alone, and the write that stores them
would be counted in PAGE_SEQ, as one from 0x100 on is. -/
theorem not_accessOutcomes : ¬ Obligations.AccessOutcomes := by
  unfold Obligations.AccessOutcomes
  rintro ⟨-, -, -, -, stores, -⟩
  have hexec := stores atRest 0 0 0x301C 0 .gleaner 0x1C (reg1 0x1C 0 [⟨.rw, 31, 0⟩]) rfl atRest_takes rfl rfl rfl rfl
    (by decide) (by decide +kernel)
  have hseq := congrArg (State.rd · 0x3030) (Host.Outcome.next.inj hexec)
  exact absurd ((atRest_write_uncounted 0).symm.trans (hseq.trans (atRest_wrote_counted _))) (by decide)

end Sys2Proof.Machine
end


section
/-! Obligations.HangTimeout (R281, R282, R284): the one access that waits, when its timeout is due. -/

namespace Sys2Proof.Machine

/-- A saturating counter that counts. -/
theorem State.fld_satFld_self (s : State) (a n : Nat) {hi lo : Nat} (h : lo ≤ hi) (hw : hi < 32) :
    (s.satFld a hi lo n).fld a hi lo = min (s.fld a hi lo + n) (2 ^ (hi + 1 - lo) - 1) := by
  have hpos : 0 < 2 ^ (hi + 1 - lo) := Nat.two_pow_pos _
  rw [State.satFld, s.fld_setFld_self a _ h hw, Nat.mod_eq_of_lt (by omega)]

/-! What is kept of a stop in the GLOBAL page (R478) -/

/-- The page of the first stop of its kind touches its register and the GLOBAL page's errors alone. -/
theorem State.rd_hlFirst (s : State) {reg b : Nat} (hreg : b ≠ reg) (herr : b ≠ 0x018) (hfirst : b ≠ 0x020) (bitNo m : Nat)
    (wr : Bool) (a : Nat) : (s.hlFirst reg bitNo m wr a).rd b = s.rd b := by
  unfold State.hlFirst
  split
  · rfl
  · rw [State.pageErr_untiled _ (p := .global) (by decide)]
    exact (State.rd_errBit (p := .global) _ herr hfirst _).trans
      ((State.rd_setBit_ne _ hreg _).trans (State.rd_wr_ne _ hreg _))

theorem State.RegsOnly.hung {s t : State} (h : RegsOnly s t) : t.hung = s.hung := by obtain ⟨_, _, rfl⟩ := h; rfl
theorem State.RegsOnly.hlPend {s t : State} (h : RegsOnly s t) : t.hlPend = s.hlPend := by obtain ⟨_, _, rfl⟩ := h; rfl

theorem State.hlFirst_regsOnly (s : State) (reg bitNo m : Nat) (wr : Bool) (a : Nat) :
    RegsOnly s (s.hlFirst reg bitNo m wr a) := by
  refine .ite (.refl s) ?_
  rw [State.pageErr_untiled _ (p := .global) (by decide)]
  exact ((RegsOnly.wr s _ _).trans (.setBit _ _ _)).trans (.errBit _ _ _)

/-! The hang -/

/-- The state once a hang of master `m` at address `a` is counted and the first of them kept (R282). -/
def State.hangNoted (s : State) (m a : Nat) : State := (s.satFld HL_STAT 23 16 1).hlFirst HL_HANG 6 m false a

/-- A hang is told to every master, the debug port too. -/
theorem State.hlStop_hang (s : State) (m : Nat) (wr : Bool) (a : Nat) :
    s.hlStop m wr a HANG_ABORT = ({ code := HANG_ABORT }, s.hangNoted m a) := by
  have hnote : s.hlNote m wr a HANG_ABORT = s.hangNoted m a := by
    rw [State.hlNote, if_neg (by decide), if_neg (by decide), if_pos rfl, State.hangNoted]
  simp only [State.hlStop, hnote, ne_eq, not_true_eq_false, decide_false, Bool.and_false, Bool.false_eq_true, if_false]

/-- The state once the hang has been answered, with nothing waiting and the page hung. -/
def State.hangEnded (s : State) (m a : Nat) : State :=
  let s := s.hangNoted m a
  { s.hlReturn m { code := HANG_ABORT } with hung := s.hung ++ [a / 0x1000], hlPend := [] }

theorem State.hangNoted_regsOnly (s : State) (m a : Nat) : RegsOnly s (s.hangNoted m a) :=
  (RegsOnly.setFld s _ _ _ _).trans (State.hlFirst_regsOnly _ _ _ _ _ _)

theorem State.rd_hangNoted (s : State) (m a : Nat) {b : Nat} (hstat : b ≠ HL_STAT) (hhang : b ≠ HL_HANG) (herr : b ≠ 0x018)
    (hfirst : b ≠ 0x020) : (s.hangNoted m a).rd b = s.rd b :=
  (State.rd_hlFirst _ hhang herr hfirst _ _ _ _).trans (s.rd_setFld_ne hstat _ _ _)

theorem State.fld_hangNoted (s : State) (m a : Nat) :
    (s.hangNoted m a).fld HL_STAT 23 16 = min (s.fld HL_STAT 23 16 + 1) 255 := by
  have hkept : (s.hangNoted m a).fld HL_STAT 23 16 = (s.satFld HL_STAT 23 16 1).fld HL_STAT 23 16 :=
    State.fld_congr (State.rd_hlFirst _ (by decide) (by decide) (by decide) _ _ _ _) _ _
  exact hkept.trans (s.fld_satFld_self HL_STAT 1 (by decide) (by decide))

/-! What waits -/

/-- The last answer of a master is the one just returned. -/
theorem State.hlLast_hlReturn (s : State) (m : Nat) (r : HlAnswer) : (s.hlReturn m r).hlLast m = r := by
  rw [State.hlLast, State.hlReturn, Tbl.upd, Tbl.get_set_self, List.getLastD_concat]

/-- Where one access waits and has its answer, the answer is returned and nothing waits any more. -/
theorem State.hlRun_answered {s : State} {e : HlPend} {r : HlAnswer} (hp : s.hlPend = [e]) (ha : e.ans = some r) :
    s.hlRun = { s.hlReturn e.m r with hlPend := [] } := by
  have htry : s.hlTry 0 = s := by simp only [State.hlTry, hp, List.getElem?_cons_zero, ha, Option.isSome_some, Bool.true_or, if_true]
  have hrange : List.range [e].length = [0] := rfl
  simp only [State.hlRun, hp, hrange, List.foldl_cons, List.foldl_nil, htry]
  simp only [hlDeliver, ha, List.any_nil, Bool.false_eq_true, if_false]

section
variable {s : State} {e : HlPend} (hr : s.hlRuns = true) (hp : s.hlPend = [e]) (ha : e.ans = none) (hh : e.held = false)
  (hdue : e.mc + s.hlTmo ≤ s.mc) (hung : s.hung.contains (e.addr / 0x1000) = false)
include hr hp ha hh hdue hung

/-- The one access that waits is due: it ends with HANG_ABORT and its page is hung. -/
theorem State.hlHang_due : s.hlHang e.m = s.hangEnded e.m e.addr := by
  have hfind : s.hlPend.findIdx? (fun x => x.m = e.m && x.ans.isNone && !x.held && x.mc + s.hlTmo ≤ s.mc) = some 0 := by
    rw [hp, List.findIdx?_cons]
    exact if_pos (by simp [ha, hh, hdue])
  have hget : s.hlPend[0]? = some e := by rw [hp]; rfl
  have hnoted := s.hangNoted_regsOnly e.m e.addr
  unfold State.hlHang
  simp only [hr, Bool.not_true, Bool.false_eq_true, if_false, hfind, hget, State.hlStop_hang]
  refine (State.hlRun_answered (e := { e with ans := some { code := HANG_ABORT } }) (r := { code := HANG_ABORT }) ?_ rfl).trans ?_
  · exact congrArg (List.set · 0 _) (hnoted.hlPend.trans hp)
  · rw [hnoted.hung, hung, State.hangEnded, if_neg Bool.false_ne_true, hnoted.hung]
    rfl

end

/-- Settles O23: of the accesses that wait, the one due ends and its answer is returned; its stop touches registers alone. -/
theorem hangTimeout : Obligations.HangTimeout := by
  unfold Obligations.HangTimeout
  refine ⟨?due, ?idle⟩
  case due =>
    intro s m e hpwr hheld hmode hmclk hp hm ha hh hdue hung
    have hr : s.hlRuns = true := by simp [State.hlRuns, hpwr, hheld, hmode, hmclk]
    obtain ⟨_, _, hnoted⟩ := s.hangNoted_regsOnly m.val e.addr
    have hexec := State.hlHang_due hr hp ha hh hdue hung
    rw [hm] at hexec
    refine ⟨_, congrArg Host.Outcome.next hexec, rfl, ?_, ?_, ?_, ?_, ?_⟩
    · exact congrArg (· ++ [e.addr / 0x1000]) (s.hangNoted_regsOnly m.val e.addr).hung
    · exact congrArg HlAnswer.code ((s.hangNoted m.val e.addr).hlLast_hlReturn m.val _)
    · exact s.fld_hangNoted m.val e.addr
    · exact fun b h1 h2 h3 h4 => s.rd_hangNoted m.val e.addr h1 h2 h3 h4
    · rw [State.hangEnded, hnoted]
      rfl
  case idle =>
    intro s m hp
    have hstay : s.hlHang m.val = s := by
      unfold State.hlHang
      rw [hp]
      split <;> rfl
    exact congrArg Host.Outcome.next hstay

end Sys2Proof.Machine
end


section
/-! The answers that the LNI makes (R42, R265, R272, R273), and what a request that it refuses leaves. -/

namespace Sys2Proof.Machine

/-! The sidecar of an answer -/

section
variable (opc : BitVec 8) (maddr : BitVec 32) (status : Code) (mid : BitVec 8) (arg : BitVec 68)

/-- The status of an MGT answer as its sender writes it: no bit of the sidecar is reserved. -/
theorem mStatus_mgt (i : Nat) : mStatus (trimSc cMGT (setFidx (mkMgt opc maddr status mid arg) i)) = status := by
  have hmask (x : BitVec 128) : trimSc cMGT x = x := (BitVec.and_allOnes (x := x) :)
  have hnum : (mkMgt opc maddr status mid arg).toNat = maddr.toNat + status.toNat * 2 ^ 32 + mid.toNat * 2 ^ 40 +
      arg.toNat * 2 ^ 48 + opc.toNat * 2 ^ 116 := by
    rw [mkMgt, BitVec.toNat_ofNat]
    omega
  rw [hmask, mStatus, setFidx, extract_putBits_ne _ _ (by decide)]
  refine BitVec.eq_of_toNat_eq ?_
  rw [BitVec.extractLsb'_toNat, Nat.shiftRight_eq_div_pow, hnum]
  omega

end

/-- The opcode of an NDR as its sender writes it. -/
theorem sOpc_ndr (x : BitVec 128) (opc : BitVec 8) (code : Code) (load i : Nat) (raddr : BitVec 46) :
    sOpc (trimSc cNDR (setFidx (setRaddr (setLoad (setStatus (setOpc x opc) code) load) raddr) i)) = opc := by
  have hmask (y : BitVec 128) : sOpc (trimSc cNDR y) = sOpc y := by
    refine BitVec.eq_of_getLsbD_eq fun i hi => ?_
    have hd : (BitVec.ofNat 128 (scDefined cNDR)).getLsbD (116 + i) = true := by
      interval_cases i <;> decide
    simp only [sOpc, trimSc, BitVec.getLsbD_extractLsb', BitVec.getLsbD_and, hi, decide_true, Bool.true_and, hd, Bool.and_true]
  rw [hmask, sOpc, setFidx, extract_putBits_ne _ _ (by decide), setRaddr, extract_putBits_ne _ _ (by decide), setLoad,
    extract_putBits_ne _ _ (by decide), setStatus, extract_putBits_ne _ _ (by decide), setOpc,
    extract_putBits_self _ _ (by decide) (by decide)]

/-! An answer joins those of the LNI -/

/-- From `s` to `t` the LNI's entries and its Granary stay. -/
structure State.LniStays (s t : State) : Prop where
  lni  : t.lni = s.lni
  gran : (t.niOf lniN).gran = (s.niOf lniN).gran

namespace State.LniStays

variable {s t u : State}

theorem refl (s : State) : LniStays s s := ⟨rfl, rfl⟩

theorem trans (h : LniStays s t) (k : LniStays t u) : LniStays s u := ⟨k.lni.trans h.lni, k.gran.trans h.gran⟩

theorem ite {a b : State} {c : Prop} [Decidable c] (ha : LniStays s a) (hb : LniStays s b) :
    LniStays s (if c then a else b) := by split <;> assumption

theorem of_marked {K : Nat → Prop} (h : Marked K s t) : LniStays s t := ⟨h.lni, congrArg Ni.gran (h.niOf lniN)⟩

end State.LniStays

/-- From `s` to `t` the answer `a` to the request of header `h` joins those of the LNI; its entries and its Granary stay. -/
structure State.LniAnswers (s t : State) (h : BitVec 128) (a : AItem) : Prop extends State.LniStays s t where
  answers : (t.niOf lniN).answers = (s.niOf lniN).answers ++ [a]
  tag     : hTag a.pkt.hdr = hTag h
  dst     : hDst a.pkt.hdr = hSrc h

/-- Marks leave the answer in its place. -/
theorem State.LniAnswers.marked {K : Nat → Prop} {s t u : State} {h : BitVec 128} {a : AItem} (k : LniAnswers s t h a)
    (hm : Marked K t u) : LniAnswers s u h a where
  toLniStays := k.toLniStays.trans (.of_marked hm)
  answers := (congrArg Ni.answers (hm.niOf lniN)).trans k.answers
  tag := k.tag
  dst := k.dst

section
variable (s : State) (h : BitVec 128)

/-- An answer of one flit without data. -/
theorem State.reply_lni (cls : BitVec 4) (x : BitVec 128) : ∃ a : AItem, LniAnswers s (s.reply lniN h cls [(x, 0)]) h a ∧
    a.pkt.body = [(trimSc cls (setFidx x 0), 0)] ∧ a.eh = none := by
  have hreply := State.reply_eq s (n := lniN) (by decide) h cls [(x, 0)]
  have hni := (congrArg (State.niOf · lniN) hreply).trans (State.niOf_modNi_self s lniN _)
  exact ⟨_, ⟨⟨(congrArg State.lni hreply :), (congrArg Ni.gran hni :)⟩, (congrArg Ni.answers hni :), hTag_mkHdr .., hDst_mkHdr ..⟩,
    rfl, rfl⟩

theorem State.reply_stays (cls : BitVec 4) (x : BitVec 128) : LniStays s (s.reply lniN h cls [(x, 0)]) := by
  obtain ⟨_, hjoins, -⟩ := s.reply_lni h cls x
  exact hjoins.toLniStays

/-- An NDR of the LNI. -/
theorem State.ndr_lni (sc : BitVec 128) (opc : BitVec 8) (code : Code) : ∃ a : AItem,
    LniAnswers s (s.ndr lniN h sc opc code) h a ∧ sOpc (a.pkt.body.headD (0, 0)).1 = opc := by
  have hkind : Config.niKind lniN ≠ .pni := by decide
  rw [State.ndr, State.ndrMeta, State.loadNow, if_neg hkind]
  obtain ⟨a, hjoins, hbody, -⟩ := s.reply_lni h cNDR (setRaddr (setLoad (setStatus (setOpc (putBits 0 19 16 0) opc) code)
    (if s.feat fDEVLOAD then s.ownLevel lniN else 0)) (reqRaddr h sc))
  exact ⟨a, hjoins, by rw [hbody]; exact sOpc_ndr _ opc code _ 0 _⟩

/-! Requests that are refused (R39, R254, R321) -/

theorem State.endReply_stays (sc : BitVec 128) (code : Code) : LniStays s (s.endReply lniN h sc code) := by
  have hndr (opc : BitVec 8) : LniStays s (s.ndr lniN h sc opc code) := by
    obtain ⟨_, hjoins, -⟩ := s.ndr_lni h sc opc code
    exact hjoins.toLniStays
  exact .ite (hndr _) (.ite (s.reply_stays h _ _) (.ite (s.reply_stays h _ _) (hndr _)))

theorem State.targetJ_stays (code : Code) (addr split done hi : Nat) :
    LniStays s (s.targetJ lniN h code addr split done hi) := .of_marked (s.journal_marked _)

theorem State.closedAt_stays (sc : BitVec 128) (code : Code) (jnl : Bool) : LniStays s (s.closedAt lniN h sc code jnl) :=
  .ite (s.targetJ_stays h _ _ _ _ _)
    ((LniStays.ite (s.targetJ_stays h _ _ _ _ _) (.refl s)).trans (State.endReply_stays _ h sc code))

theorem State.refuseAt_stays (sc : BitVec 128) (code : Code) (jnl : Bool) : LniStays s (s.refuseAt lniN h sc code jnl) := by
  unfold State.refuseAt
  extract_lets s1 s2
  have h1 : LniStays s s1 := .ite (s.targetJ_stays h _ _ _ _ _) (.refl s)
  have hcount (hit : Nat → Bool) : LniStays s1 ((s1.countN lniN 0x2C 1 hit).sentBackoff lniN) :=
    (LniStays.of_marked (s1.countN_marked (by decide) 0x2C 1 hit)).trans ⟨rfl, rfl⟩
  have h2 : LniStays s s2 := .ite (h1.trans (hcount _)) h1
  exact h2.trans (State.endReply_stays _ h sc code)

theorem State.endRefused_stays (sc : BitVec 128) (code : Code) : LniStays s (s.endRefused lniN h sc code) :=
  .ite (s.closedAt_stays h sc code _) (s.refuseAt_stays h sc code _)

end

/-! The packet that the LNI takes next (R269) -/

/-- A packet leaves the Granary, and this fc takes no other. -/
theorem State.ehTake_lni (s : State) (h : HPkt) : (s.ehTake h).lni = { s.lni with took := s.fc + 1 } := rfl

theorem State.ehTake_gran (s : State) (h : HPkt) :
    ((s.ehTake h).niOf lniN).gran = (s.niOf lniN).gran.filter (fun g => g.pid ≠ h.pid) := by
  rw [State.ehTake, State.niOf_modNi_self]
  rfl

theorem State.ehTake_answers (s : State) (h : HPkt) : ((s.ehTake h).niOf lniN).answers = (s.niOf lniN).answers := by
  rw [State.ehTake, State.niOf_modNi_self]
  rfl

theorem State.ehTake_local (s : State) (h : HPkt) : Local lniN s (s.ehTake h) :=
  Local.trans (t := s.setLni { s.lni with took := s.fc + 1 }) .same (.modNi _)

/-- A refused request leaves no entry behind. -/
theorem State.ehRefuse_leaves (s : State) (h : HPkt) (code : Code) : LniStays (s.ehTake h) (s.ehRefuse h code) :=
  .ite ((s.ehTake h).endRefused_stays _ _ _) ((s.ehTake h).refuseAt_stays _ _ _ _)

/-- Register accesses that the LNI finds in its Granary while it has room for an answer. -/
structure State.Finds (s : State) (h : HPkt) (opc : BitVec 8) : Prop where
  head   : s.ehHead = some h
  room   : s.ehRoom = true
  access : isEh h = true
  kind   : sOpc h.sc = opc

section
variable {s : State} {h : HPkt}

theorem State.Finds.takeWr_refused (hf : s.Finds h 0x00) (hcode : s.ehCode h ≠ OK) : s.ehTakeWr = s.ehRefuse h (s.ehCode h) := by
  simp only [State.ehTakeWr, hf.head, hf.room, hf.access, hf.kind, hcode, Bool.not_true, Bool.false_eq_true, ne_eq, not_true_eq_false,
    not_false_eq_true, if_false, if_true]

theorem State.Finds.takeRd_refused (hf : s.Finds h 0x01) (hcode : s.ehCode h ≠ OK) : s.ehTakeRd = s.ehRefuse h (s.ehCode h) := by
  simp only [State.ehTakeRd, hf.head, hf.room, hf.access, hf.kind, hcode, Bool.not_true, Bool.false_eq_true, ne_eq, not_true_eq_false,
    not_false_eq_true, if_false, if_true]

end

end Sys2Proof.Machine
end


section
/-! The LNI takes register accesses into its entries (R269, R272, R273). -/

namespace Sys2Proof.Machine

section
variable {s : State} {h : HPkt}

/-! Writes (R272) -/

/-- The posted-write entry that an EH_WR takes. -/
def Lni.newWrite (l : Lni) (h : HPkt) : EhWrite :=
  { id := l.wn, addr := mAddr h.sc, two := ehSize h.sc = 8, hdr := h.hdr, slot := l.wrSlot,
    data := ((h.body.headD (0, 0)).2).extractLsb' 0 64 }

/-- The LNI's entries with that one behind the others. -/
def Lni.addWrite (l : Lni) (h : HPkt) : Lni :=
  { l with writes := l.writes ++ [l.newWrite h], order := l.order ++ [(true, l.wn)], wn := l.wn + 1 }

theorem State.Finds.takeWr_posted (hf : s.Finds h 0x00) (hcode : s.ehCode h = OK) (hfree : s.lni.writes.length < 32) :
    s.ehTakeWr = ((s.setLni (s.lni.addWrite h)).ehTake h).ndr lniN h.hdr h.sc opPACK OK := by
  simp only [State.ehTakeWr, hf.head, hf.room, hf.access, hf.kind, hcode, Bool.not_true, Bool.false_eq_true, ne_eq, not_true_eq_false,
    if_false, if_neg (Nat.not_le.mpr hfree)]
  rfl

/-- One that finds all entries taken stays, whether the answer buffer has room or not. -/
theorem State.ehTakeWr_full (hhead : s.ehHead = some h) (haccess : isEh h = true) (hcode : s.ehCode h = OK) (hopc : sOpc h.sc = 0x00)
    (hfull : 32 ≤ s.lni.writes.length) : s.ehTakeWr = s := by
  simp only [State.ehTakeWr, hhead, haccess, hcode, hopc, Bool.not_true, Bool.false_eq_true, ne_eq, not_true_eq_false, if_false,
    if_pos hfull, ite_self]

theorem State.ehTakeWr_none (hhead : s.ehHead = none) : s.ehTakeWr = s := by simp only [State.ehTakeWr, hhead]

theorem State.ehTakeRd_none (hhead : s.ehHead = none) : s.ehTakeRd = s := by simp only [State.ehTakeRd, hhead]

/-! Reads (R273) -/

/-- A result that has been held for less than its 4,096 fc stays, as does a request without a result. -/
theorem State.ehExpire_early {i : Nat} (h : ∀ e d, s.lni.read i = some e → e.done = some d → s.fc < d + 4096) : s.ehExpire i = s := by
  unfold State.ehExpire
  split
  · next e he =>
    split
    · next d hd => exact if_pos (by simp [h e d he hd])
    · rfl
  · rfl

/-- The read entry that an EH_RD takes. -/
def HPkt.newRead (h : HPkt) : EhRead := { hdr := h.hdr, addr := mAddr h.sc, two := ehSize h.sc = 8 }

/-- A read of a new TAG takes the lowest free entry, behind the commands that wait, and is answered RETRY. -/
theorem State.Finds.takeRd_new {i : Nat} (hf : s.Finds h 0x01) (hcode : s.ehCode h = OK) (hmid : mMid h.sc = 0)
    (hnew : ∀ j e, j < 16 → s.lni.read j = some e → e.matches_ h = false) (hfree : (List.range 16).find? s.lni.readFree = some i) :
    s.ehTakeRd = ((s.ehTake h).setLni { (s.ehTake h).lni.setRead i (some h.newRead) with
      order := s.lni.order ++ [(false, i)] }).ehRetryRsp h false := by
  have hread (j : Nat) : (s.ehTake h).lni.read j = s.lni.read j := rfl
  have hslots : (List.range 16).find? (s.ehTake h).lni.readFree = some i := hfree
  unfold State.ehTakeRd
  simp only [hf.head, hf.room, hf.access, hf.kind, hcode, hmid, Bool.not_true, Bool.false_eq_true, ne_eq, not_true_eq_false,
    if_false]
  rw [forN_eq_self (s := s.ehTake h)]
  · split
    · next j hj =>
      have hjm := List.find?_some hj
      have hj16 := List.mem_range.1 (List.mem_of_find?_eq_some hj)
      simp only [hread] at hjm
      split at hjm
      · next e he => rw [hnew j e hj16 he] at hjm; exact absurd hjm Bool.false_ne_true
      · exact absurd hjm Bool.false_ne_true
    · rw [hslots]
      rfl
  · intro j hj
    simp only [hread]
    split
    · next e he => rw [hnew j e hj he, if_neg Bool.false_ne_true]
    · rfl

/-- A read whose result is held is answered with it. -/
theorem State.Finds.takeRd_held {i d : Nat} {e : EhRead} (hf : s.Finds h 0x01) (hcode : s.ehCode h = OK) (hi : i < 16)
    (hread : s.lni.read i = some e) (hmatch : e.matches_ h = true)
    (hother : ∀ j e, j < 16 → j ≠ i → s.lni.read j = some e → e.matches_ h = false)
    (hdone : e.done = some d) (hpast : d < s.fc) (hheld : s.fc < d + 4096) : s.ehTakeRd = (s.ehTake h).ehDeliver h i e := by
  have hentry : (s.ehTake h).lni.read i = some e := hread
  have hearly : (s.ehTake h).ehExpire i = s.ehTake h := State.ehExpire_early fun e' d' he' hd' => by
    obtain rfl : e = e' := Option.some.inj (hentry.symm.trans he')
    obtain rfl : d = d' := Option.some.inj (hdone.symm.trans hd')
    exact hheld
  have hfc : some d ≠ some (s.ehTake h).fc := fun heq => absurd (Option.some.inj heq) (Nat.ne_of_lt hpast)
  unfold State.ehTakeRd
  simp only [hf.head, hf.room, hf.access, hf.kind, hcode, Bool.not_true, Bool.false_eq_true, ne_eq, not_true_eq_false, if_false]
  rw [forN_eq_self (s := s.ehTake h)]
  · split
    · next j hj =>
      have hjm := List.find?_some hj
      have hj16 := List.mem_range.1 (List.mem_of_find?_eq_some hj)
      obtain rfl : j = i := by
        by_contra hne
        split at hjm
        · next e' he' => rw [hother j e' hj16 hne he'] at hjm; exact absurd hjm Bool.false_ne_true
        · exact absurd hjm Bool.false_ne_true
      simp only [hentry, Option.getD_some, hdone, Option.isSome_some, hfc, Bool.true_and, decide_not, decide_false, Bool.not_false, if_true]
    · next hnone =>
      have hno := List.find?_eq_none.1 hnone i (List.mem_range.2 hi)
      simp only [hentry, hmatch, not_true_eq_false] at hno
  · intro j hj
    by_cases hji : j = i
    · subst hji
      simp only [hentry, hmatch, if_true, hearly]
    · split
      · next e' he' => rw [hother j e' hj hji he', if_neg Bool.false_ne_true]
      · rfl

end

end Sys2Proof.Machine
end


section
/-! What the LNI answers to an EH_RD (R265, R269, R273), and the commands it presents on Ehrup (R270, R271). -/

namespace Sys2Proof.Machine

theorem Lni.read_setRead_self (l : Lni) (i : Nat) (e : Option EhRead) : (l.setRead i e).read i = e := Tbl.get_set_self _ _ _ _

/-! Answers to reads -/

section
variable (s : State) (h : HPkt)

/-- EH_RSP without data. -/
theorem State.ehRsp_answers (code : Code) (noEntry : Bool) : ∃ a : AItem, LniAnswers s (s.ehRsp h code noEntry) h.hdr a ∧
    a.eh = none ∧ a.pkt.body.length = 1 ∧ mStatus (a.pkt.body.headD (0, 0)).1 = code ∧ (a.pkt.body.headD (0, 0)).2 = 0 := by
  obtain ⟨a, hjoins, hbody, heh⟩ := s.reply_lni h.hdr cMGT (mkMgt opEH_RSP (mAddr h.sc) code (mMid h.sc)
    (BitVec.ofNat 68 (ehSize h.sc + (if noEntry then 16 else 0))))
  refine ⟨a, hjoins, heh, by rw [hbody]; rfl, ?_, by rw [hbody]; rfl⟩
  rw [hbody]
  exact mStatus_mgt _ _ _ _ _ 0

/-- A RETRY is counted besides. -/
theorem State.ehRetryRsp_answers (noEntry : Bool) : ∃ a : AItem, LniAnswers s (s.ehRetryRsp h noEntry) h.hdr a ∧
    mStatus (a.pkt.body.headD (0, 0)).1 = RETRY := by
  obtain ⟨a, hjoins, -, -, hstatus, -⟩ := s.ehRsp_answers h RETRY noEntry
  exact ⟨a, hjoins.marked (State.countN_marked _ (by decide) _ _ _), hstatus⟩

end

/-- The last answer of the NI is filled from read entry `i` when it is injected (R269). -/
def Ni.fillLast (x : Ni) (i : Nat) : Ni :=
  { x with answers := x.answers.dropLast ++ x.answers.getLast?.toList.map fun a => { a with eh := some i } }

theorem Ni.fillLast_answers {x : Ni} {l : List AItem} {a : AItem} (h : x.answers = l ++ [a]) (i : Nat) :
    (x.fillLast i).answers = l ++ [{ a with eh := some i }] := by
  simp only [Ni.fillLast, h, List.dropLast_concat, List.getLast?_concat, Option.toList_some, List.map_cons, List.map_nil]

theorem State.LniAnswers.fillLast {s t : State} {h : BitVec 128} {a : AItem} (k : LniAnswers s t h a) (i : Nat) :
    LniAnswers s (t.modNi lniN (·.fillLast i)) h { a with eh := some i } where
  lni     := k.lni
  gran    := (congrArg Ni.gran (State.niOf_modNi_self t lniN _) :).trans k.gran
  answers := (congrArg Ni.answers (State.niOf_modNi_self t lniN _) :).trans (Ni.fillLast_answers k.answers i)
  tag     := k.tag
  dst     := k.dst

/-- What is filled in is the result of the entry. -/
theorem State.ehFill_of_read {s : State} {a : AItem} {i : Nat} {e : EhRead} (heh : a.eh = some i) (hread : s.lni.read i = some e)
    (hlen : a.pkt.body.length = 1) : ((s.ehFill a).2.body.headD (0, 0)).2 = ehData e.words := by
  obtain ⟨b, hb⟩ := List.length_eq_one_iff.1 hlen
  simp only [State.ehFill, heh, hread, Option.getD_some, hb, List.map_cons, List.map_nil, List.headD_cons]

section
variable (s : State) (h : HPkt) (i : Nat) {e : EhRead}

/-- The answer to a read whose good result is held takes its data from the entry, which stays until then. -/
theorem State.ehDeliver_data (hcode : e.code = OK) : ∃ a : AItem,
    LniAnswers (s.setLni (s.lni.setRead i (some { e with answered := true }))) (s.ehDeliver h i e) h.hdr a ∧ a.eh = some i ∧
    mStatus (a.pkt.body.headD (0, 0)).1 = OK ∧ (((s.ehDeliver h i e).ehFill a).2.body.headD (0, 0)).2 = ehData e.words := by
  have hdeliver : s.ehDeliver h i e = ((s.setLni (s.lni.setRead i (some { e with answered := true }))).ehRsp h OK false).modNi lniN
      (·.fillLast i) := if_neg (not_not.2 hcode)
  obtain ⟨a, hjoins, -, hlen, hstatus, -⟩ :=
    (s.setLni (s.lni.setRead i (some { e with answered := true }))).ehRsp_answers h OK false
  rw [hdeliver]
  refine ⟨_, hjoins.fillLast i, rfl, hstatus, State.ehFill_of_read (e := { e with answered := true }) rfl ?_ hlen⟩
  exact (congrArg (Lni.read · i) (hjoins.fillLast i).lni).trans (Lni.read_setRead_self _ _ _)

/-- The answer to a read that failed has its code and no data; the entry is freed. -/
theorem State.ehDeliver_failed (hcode : e.code ≠ OK) : ∃ a : AItem,
    LniAnswers (s.setLni (s.lni.setRead i e.freed)) (s.ehDeliver h i e) h.hdr a ∧ a.eh = none ∧
    mStatus (a.pkt.body.headD (0, 0)).1 = e.code ∧ (((s.ehDeliver h i e).ehFill a).2.body.headD (0, 0)).2 = 0 := by
  have hdeliver : s.ehDeliver h i e = (s.setLni (s.lni.setRead i e.freed)).ehRsp h e.code false := if_pos hcode
  obtain ⟨a, hjoins, heh, -, hstatus, hdata⟩ := (s.setLni (s.lni.setRead i e.freed)).ehRsp_answers h e.code false
  rw [hdeliver]
  exact ⟨a, hjoins, heh, hstatus, by simpa only [State.ehFill, heh] using hdata⟩

end

/-! Commands on Ehrup -/

/-- What is looked for is found after the first of its kind is changed, when the change keeps the kind. -/
theorem find?_modFirst {α : Type} {p : α → Bool} {f : α → α} (hf : ∀ x, p x = true → p (f x) = true) (l : List α) :
    (modFirst p f l).find? p = (l.find? p).map f := by
  induction l with
  | nil => rfl
  | cons x l ih =>
    cases hx : p x with
    | true => rw [modFirst, if_pos hx, List.find?_cons_of_pos (hf x hx), List.find?_cons_of_pos hx, Option.map_some]
    | false =>
      have hn : ¬ p x = true := by rw [hx]; exact Bool.false_ne_true
      rw [modFirst, if_neg hn, List.find?_cons_of_neg hn, List.find?_cons_of_neg hn, ih]

/-- A write entry that a change of its own reaches. -/
theorem Lni.find?_modWrite (l : Lni) (id : Nat) {f : EhWrite → EhWrite} (hf : ∀ w, (f w).id = w.id) :
    (l.modWrite id f).writes.find? (fun w => w.id = id) = (l.writes.find? fun w => w.id = id).map f :=
  find?_modFirst (fun w hw => by simpa only [hf w] using hw) l.writes

section
variable {s : State} (hheld : s.held = none) (hon : s.tileOn 55 = true)
include hheld hon

/-- The oldest command is that of a read (R270). -/
theorem State.ehCmd_read {i : Nat} {rest : List (Bool × Nat)} {e : EhRead} (horder : s.lni.order = (false, i) :: rest)
    (hread : s.lni.read i = some e) : s.ehCmd = { cmd := 1, slot := BitVec.ofNat 5 i, a := e.addr.extractLsb' 2 30, w8 := e.two } := by
  simp only [State.ehCmd, hheld, hon, horder, hread, Option.isSome_none, Bool.not_true, Bool.or_self, Bool.false_eq_true, if_false]

/-- The oldest command is that of a word of a write (R271). -/
theorem State.ehCmd_write {id p : Nat} {rest : List (Bool × Nat)} {w : EhWrite} (horder : s.lni.order = (true, id) :: rest)
    (hwrite : s.lni.writes.find? (fun w => w.id = id) = some w) (hslot : w.slot = some p) :
    s.ehCmd = { cmd := 2, slot := BitVec.ofNat 5 p, a := w.addr.extractLsb' 2 30, w8 := w.two, wsel := w.sent = 1,
                wdat := w.data.extractLsb' (32 * w.sent) 32 } := by
  simp only [State.ehCmd, hheld, hon, horder, hwrite, hslot, Option.isSome_none, Bool.not_true, Bool.or_self, Bool.false_eq_true, if_false]

theorem State.ehTransfer_read {i : Nat} {rest : List (Bool × Nat)} {e : EhRead} (horder : s.lni.order = (false, i) :: rest)
    (hread : s.lni.read i = some e) :
    s.ehTransfer = s.setLni (({ s.lni with order := rest } : Lni).setRead i (some { e with sent := true, sentFc := s.fc })) := by
  simp only [State.ehTransfer, horder, State.ehCmd_read hheld hon horder hread, if_true, hread, Option.map_some]
  rfl

theorem State.ehTransfer_write {id p : Nat} {rest : List (Bool × Nat)} {w : EhWrite} (horder : s.lni.order = (true, id) :: rest)
    (hwrite : s.lni.writes.find? (fun w => w.id = id) = some w) (hslot : w.slot = some p) :
    s.ehTransfer = s.setLni { s.lni.modWrite id (fun w => { w with sent := w.sent + 1, sentFc := s.fc }) with
      order := if w.two = true ∧ w.sent ≠ 1 then s.lni.order else rest } := by
  have hcmd := State.ehCmd_write hheld hon horder hwrite hslot
  have hlast : (w.two && !decide (w.sent = 1)) = true ↔ w.two = true ∧ w.sent ≠ 1 := by simp
  simp only [State.ehTransfer, horder, hcmd, hlast]
  rw [if_neg (by decide), if_pos trivial]
  split
  · rw [← horder]
    rfl
  · rfl

end

theorem State.ehTransfer_none {s : State} (horder : s.lni.order = []) : s.ehTransfer = s := by simp only [State.ehTransfer, horder]

end Sys2Proof.Machine
end


section
/-! Returns and timeouts on Ehrup, and results that expire (R271 to R277). -/

namespace Sys2Proof.Machine

/-! Registers of the LNI's page that marks leave -/

theorem steady_ehCnt : steady (EH_CNT lniN) := by unfold steady offTally; decide
theorem steady_ehErr : steady (EH_ERR lniN) := by unfold steady offTally; decide

theorem State.Noted.ehCnt {s t : State} (h : Noted steady s t) (hi lo : Nat) : t.fld (EH_CNT lniN) hi lo = s.fld (EH_CNT lniN) hi lo :=
  State.fld_congr (h.rd _ steady_ehCnt) hi lo

section
variable (s : State)

theorem State.ehJ_noted (h : BitVec 128) (addr : BitVec 32) (kind : BitVec 8) (code : Code) (detail : Nat) :
    Noted steady s (s.ehJ h addr kind code detail) := s.journal_noted _

theorem State.partFault_noted (p : BitVec 9) : Noted steady s (s.partFault p) := .same

/-- A late return is journaled and counted. -/
theorem State.ehLate_eq (h : BitVec 128) (addr : BitVec 32) (flt : Nat) (unmatched : Bool) :
    ∃ u, Noted steady s u ∧ s.ehLate h addr flt unmatched = u.satFld (EH_CNT lniN) 23 16 1 := by
  unfold State.ehLate
  extract_lets code u
  exact ⟨u, .ite (s.journal_noted _) (s.ehJ_noted _ _ _ _ _), rfl⟩

/-- What a late return leaves: the LNI's entries, the NIs, and a count more. -/
theorem State.ehLate_leaves (h : BitVec 128) (addr : BitVec 32) (flt : Nat) (unmatched : Bool) :
    (s.ehLate h addr flt unmatched).lni = s.lni ∧ (s.ehLate h addr flt unmatched).ni = s.ni ∧
    (s.ehLate h addr flt unmatched).fld (EH_CNT lniN) 23 16 = min (s.fld (EH_CNT lniN) 23 16 + 1) 255 := by
  obtain ⟨u, hu, heq⟩ := s.ehLate_eq h addr flt unmatched
  rw [heq]
  refine ⟨hu.lni, hu.ni, ?_⟩
  rw [u.fld_satFld_self _ 1 (by decide) (by decide), hu.ehCnt]
  rfl

/-- The first far-side error: its flag is set, and the LNI's entries stay. -/
theorem State.ehErr_leaves (flt : Nat) (wr : Bool) (slot : Nat) (addr : BitVec 32) :
    (s.ehErr flt wr slot addr).rbit (EH_ERR lniN) 31 = true ∧ (s.ehErr flt wr slot addr).lni = s.lni ∧
    (s.ehErr flt wr slot addr).fc = s.fc := by
  unfold State.ehErr
  extract_lets a u
  have hu : Marked noReg s u := .ite (.refl s) (((Marked.setFld id _ _ _).trans (.setFld id _ _ _)).trans
    ((Marked.setFld id _ _ _).trans (.wr id _)))
  have herr := (u.setBit a 31).niErr_noted lniN 12
  refine ⟨?_, herr.lni.trans hu.lni, herr.fc.trans hu.fc⟩
  rw [State.rbit_congr (herr.rd _ steady_ehErr)]
  exact u.rbit_setBit_self a (by decide)

/-! Timeouts (R276) -/

/-- A request that has been answered, or waits for less than the timeout, stays. -/
theorem State.ehTimeout_read_early {slot : Nat} {e : EhRead} (hslot : slot < 16) (hread : s.lni.read slot = some e)
    (h : s.fc < e.sentFc + s.ehTmo) : s.ehTimeout slot = s := by
  simp only [State.ehTimeout, hslot, hread, h, decide_true, Bool.or_true, if_true, ite_self]

theorem State.ehTimeout_read_none {slot : Nat} (hslot : slot < 16) (hread : s.lni.read slot = none) : s.ehTimeout slot = s := by
  simp only [State.ehTimeout, hslot, hread, if_true, ite_self]

/-- The entry of a read that had no answer for the timeout. -/
def EhRead.timedOut (e : EhRead) (fc : Nat) : EhRead := { e with done := some fc, code := HANG_ABORT, hang := true, flt := 0 }

/-- A read that had no answer for the timeout ends, and is a fault of its partition. -/
theorem State.ehTimeout_read_due {slot : Nat} {e : EhRead} (hmode : s.mode ≠ .frozen) (hslot : slot < 16)
    (hread : s.lni.read slot = some e) (hsent : e.sent = true) (hdone : e.done = none) (hdue : e.sentFc + s.ehTmo ≤ s.fc) :
    s.ehTimeout slot = ((s.setLni (s.lni.setRead slot (some (e.timedOut s.fc)))).niErr lniN 13).partFault (hPart e.hdr) := by
  have hstays : (!e.sent || e.done.isSome || decide (s.fc < e.sentFc + s.ehTmo)) = false := by simp [hsent, hdone, hdue]
  simp only [State.ehTimeout, if_neg hmode, hslot, hread, hstays, if_true, Bool.false_eq_true, if_false, EhRead.timedOut]

/-- So does a posted write, whose entry is kept until its transfer ends. -/
theorem State.ehTimeout_write_due {slot : Nat} {w : EhWrite} (hmode : s.mode ≠ .frozen) (hslot : 16 ≤ slot)
    (hwrite : s.lni.writes.find? (fun w => w.slot = some slot && w.sent = ehWords w.two && !w.hang) = some w)
    (hdue : w.sentFc + s.ehTmo ≤ s.fc) :
    s.ehTimeout slot = (((s.setLni (s.lni.modWrite w.id fun w => { w with hang := true })).niErr lniN 13).ehJ w.hdr w.addr kFAR
      HANG_ABORT 0).partFault (hPart w.hdr) := by
  simp only [State.ehTimeout, if_neg hmode, if_neg (Nat.not_lt.mpr hslot), hwrite, if_neg (Nat.not_lt.mpr hdue)]

/-- A fault of a partition comes behind the faults that are due. -/
theorem State.partFault_due {s t : State} (h : s.due <+: t.due) (p : BitVec 9) :
    ∃ l, ∃ d : DueFault, (t.partFault p).due = s.due ++ l ++ [d] ∧ d.item = .partition p := by
  obtain ⟨l, hl⟩ := h
  exact ⟨l, _, congrArg (· ++ [_]) hl.symm, rfl⟩

/-- What the fault of a write without an answer leaves: the LNI's entries, and the faults that are due before it. -/
theorem State.hangs_leaves (h : BitVec 128) (addr : BitVec 32) :
    (((s.niErr lniN 13).ehJ h addr kFAR HANG_ABORT 0).partFault (hPart h)).lni = s.lni ∧
    ∃ l, ∃ d : DueFault, (((s.niErr lniN 13).ehJ h addr kFAR HANG_ABORT 0).partFault (hPart h)).due = s.due ++ l ++ [d] ∧
      d.item = .partition (hPart h) := by
  have hmarks := (s.niErr_noted lniN 13).trans (State.ehJ_noted _ h addr kFAR HANG_ABORT 0)
  exact ⟨hmarks.lni, State.partFault_due ((s.pageErr_spares (niPage lniN) 13).trans (State.journal_spares _ _)).due (hPart h)⟩

/-! Returns -/

/-- The kind of a far-side error as it is kept: a reserved one counts as the first. -/
def fltKept (flt : Nat) : Nat := if flt = 3 then 1 else flt

theorem fltKept_eq_zero {flt : Nat} : fltKept flt = 0 ↔ flt = 0 := by
  unfold fltKept
  split <;> omega

/-- A return for a slot that no reset has lost: a far-side error first finds its slot timed out. -/
theorem State.ehReturn_taken {rtype slot flt : Nat} (word : Word) (fin : Bool) (hr : rtype ≠ 0)
    (hz : rtype = 3 ∨ s.lni.zombie.any (fun z => z.1 = slot) = false) :
    s.ehReturn rtype slot word fin flt =
      (if s.lni.faulted slot (fltKept flt) then s.ehTimeout slot else s).ehTaken rtype slot word fin (fltKept flt) := by
  have hlost : ((if slot < 16 then rtype = 1 else rtype = 2) && s.lni.zombie.any fun z => z.1 = slot) = false := by
    rcases hz with rfl | hz
    · simp
    · rw [hz, Bool.and_false]
  unfold State.ehReturn
  simp only [hlost]
  rw [if_neg hr, if_neg Bool.false_ne_true]
  rfl

/-- It finds its slot as it is where it completes no far-side error, or comes before the timeout is due. -/
theorem State.ehReturn_read_early {slot flt : Nat} {e : EhRead} (word : Word) (fin : Bool) (hslot : slot < 16)
    (hz : s.lni.zombie.any (fun z => z.1 = slot) = false) (hread : s.lni.read slot = some e)
    (h : flt = 0 ∧ e.flt = 0 ∨ s.fc < e.sentFc + s.ehTmo) :
    s.ehReturn 1 slot word fin flt = s.ehTaken 1 slot word fin (fltKept flt) := by
  have hstays : (if s.lni.faulted slot (fltKept flt) then s.ehTimeout slot else s) = s := by
    rcases h with ⟨rfl, he⟩ | h
    · have hnone : s.lni.faulted slot (fltKept 0) = false := by simp [Lni.faulted, fltKept, hread, he]
      rw [hnone, if_neg Bool.false_ne_true]
    · rw [s.ehTimeout_read_early hslot hread h, ite_self]
  rw [s.ehReturn_taken word fin Nat.one_ne_zero (.inr hz), hstays]

theorem State.ehReturn_none (slot : Nat) (word : Word) (fin : Bool) (flt : Nat) : s.ehReturn 0 slot word fin flt = s := rfl

/-- The entry of a read that a return of `word` reaches. -/
def EhRead.returned (e : EhRead) (fc : Nat) (word : Word) (fin : Bool) (flt : Nat) : EhRead :=
  let f := if e.flt ≠ 0 then e.flt else flt
  { e with words := e.words ++ [word], flt := f,
           done := if fin || ehWords e.two ≤ (e.words ++ [word]).length then some fc else none, code := if f = 0 then OK else FAR }

theorem EhRead.returned_good (e : EhRead) (fc : Nat) (word : Word) (fin : Bool) : e.returned fc word fin 0 =
    { e with words := e.words ++ [word],
             done := if fin || decide (ehWords e.two ≤ e.words.length + 1) then some fc else none,
             code := if e.flt = 0 then OK else FAR } := by
  have hflt : (if e.flt ≠ 0 then e.flt else 0) = e.flt := by split <;> omega
  simp only [EhRead.returned, hflt, List.length_append, List.length_cons, List.length_nil]

theorem EhRead.returned_fault (e : EhRead) (fc : Nat) (word : Word) (fin : Bool) {flt : Nat} (h : flt ≠ 0) :
    (e.returned fc word fin flt).code = FAR := by
  have hflt : ¬ (if e.flt ≠ 0 then e.flt else flt) = 0 := by split <;> assumption
  exact if_neg hflt

/-- A return completes the read that waits for it. -/
theorem State.ehTaken_read {slot : Nat} {e : EhRead} (word : Word) (fin : Bool) (flt : Nat) (hread : s.lni.read slot = some e)
    (hsent : e.sent = true) (hdone : e.done = none) (hhang : e.hang = false) :
    ∃ u, u = (if flt ≠ 0 then s.ehErr flt false slot e.addr else s) ∧
      s.ehTaken 1 slot word fin flt = u.setLni (u.lni.setRead slot (some (e.returned u.fc word fin flt))) := by
  refine ⟨_, rfl, ?_⟩
  simp only [State.ehTaken, hread, hsent, hdone, hhang, if_true, Bool.not_true, Option.isSome_none, Bool.false_and, Bool.or_self,
    Bool.false_eq_true, if_false, EhRead.returned]

/-- A return for a read that has timed out is late; its entry, the last of them once come, awaits none any more. -/
theorem State.ehTaken_hung {slot : Nat} {e : EhRead} (word : Word) (fin : Bool) (flt : Nat) (hread : s.lni.read slot = some e)
    (hsent : e.sent = true) (hhang : e.hang = true) (hgone : e.gone = false) :
    ∃ r : EhRead, r.done = e.done ∧ r.code = e.code ∧ s.ehTaken 1 slot word fin flt =
      (s.ehLate e.hdr e.addr flt false).setLni ((s.ehLate e.hdr e.addr flt false).lni.setRead slot (some r)) := by
  simp only [State.ehTaken, hread, hsent, hhang, hgone, if_true, Bool.not_true, Bool.and_false, Bool.or_self, Bool.false_eq_true, if_false]
  split
  · refine ⟨_, ?_, ?_, rfl⟩ <;> rfl
  · refine ⟨_, ?_, ?_, rfl⟩ <;> rfl

/-- A far-side error in an fc in which the timeout is due finds its read ended with HANG_ABORT, and is late (R276, R277). -/
theorem State.ehReturn_read_late {slot flt : Nat} {e : EhRead} (word : Word) (fin : Bool) (hslot : slot < 16)
    (hz : s.lni.zombie.any (fun z => z.1 = slot) = false) (hread : s.lni.read slot = some e) (hsent : e.sent = true)
    (hdone : e.done = none) (hgone : e.gone = false) (hflt : fltKept flt ≠ 0) (hmode : s.mode ≠ .frozen)
    (hdue : e.sentFc + s.ehTmo ≤ s.fc) :
    (s.ehReturn 1 slot word fin flt).fld (EH_CNT lniN) 23 16 = min (s.fld (EH_CNT lniN) 23 16 + 1) 255 ∧
      ∃ r : EhRead, (s.ehReturn 1 slot word fin flt).lni.read slot = some r ∧ r.done = some s.fc ∧ r.code = HANG_ABORT := by
  have hfault : s.lni.faulted slot (fltKept flt) = true := by simp [Lni.faulted, hflt]
  have hret := s.ehReturn_taken (rtype := 1) (flt := flt) word fin (by decide) (.inr hz)
  rw [hfault, if_pos rfl, s.ehTimeout_read_due hmode hslot hread hsent hdone hdue] at hret
  generalize hu : State.partFault _ _ = u at hret
  have hmarks : Noted steady (s.setLni (s.lni.setRead slot (some (e.timedOut s.fc)))) u :=
    hu ▸ (State.niErr_noted _ lniN 13).trans (State.partFault_noted _ _)
  have hentry : u.lni.read slot = some (e.timedOut s.fc) := by
    rw [hmarks.lni]
    exact Lni.read_setRead_self _ _ _
  obtain ⟨r, hrdone, hrcode, htaken⟩ := u.ehTaken_hung word fin (fltKept flt) hentry hsent rfl hgone
  obtain ⟨-, -, hcnt⟩ := u.ehLate_leaves (e.timedOut s.fc).hdr (e.timedOut s.fc).addr (fltKept flt) false
  rw [hret, htaken]
  refine ⟨hcnt.trans ?_, r, Lni.read_setRead_self _ _ _, hrdone, hrcode⟩
  rw [hmarks.ehCnt]
  rfl

theorem State.ehTaken_unknown (slot : Nat) (word : Word) (fin : Bool) (flt : Nat) :
    s.ehTaken 3 slot word fin flt = s.ehLate 0 0 flt true := rfl

/-- A return completes the write that waits for it. -/
theorem State.ehTaken_write {slot : Nat} {w : EhWrite} (word : Word) (fin : Bool)
    (hwrite : s.lni.writes.find? (fun w => w.slot = some slot && w.sent = ehWords w.two) = some w) (hhang : w.hang = false) :
    s.ehTaken 2 slot word fin 0 = s.setLni ({ s.lni with writes := s.lni.writes.filter fun v => v.id ≠ w.id } : Lni).giveSlot := by
  simp only [State.ehTaken, hwrite, hhang, Bool.false_eq_true, if_false, if_true]
  rfl

/-! Results that expire (R273) -/

/-- A result unread for 4,096 fc is freed and counted. -/
theorem State.ehExpire_due {i d : Nat} {e : EhRead} (hread : s.lni.read i = some e) (hdone : e.done = some d) (hgone : e.gone = false)
    (hans : e.answered = false) (hdue : d + 4096 ≤ s.fc) : (s.ehExpire i).lni = s.lni.setRead i e.freed ∧ (s.ehExpire i).ni = s.ni ∧
      (s.ehExpire i).fld (EH_CNT lniN) 15 8 = min (s.fld (EH_CNT lniN) 15 8 + 1) 255 := by
  have hstays : (e.gone || e.answered || decide (s.fc < d + 4096)) = false := by simp [hgone, hans, hdue]
  simp only [State.ehExpire, hread, hdone, hstays, Bool.false_eq_true, if_false]
  generalize hu : (s.setLni (s.lni.setRead i e.freed)).ehJ _ _ _ _ _ = u
  have hj : Noted steady (s.setLni (s.lni.setRead i e.freed)) u := hu ▸ State.ehJ_noted _ _ _ _ _ _
  refine ⟨hj.lni, hj.ni, ?_⟩
  rw [u.fld_satFld_self _ 1 (by decide) (by decide), hj.ehCnt]
  rfl

end

end Sys2Proof.Machine
end


section
/-! Obligations.EhrupBridge (R265 to R276). -/

namespace Sys2Proof.Machine

/-- Settles O51: an access is taken, answered or refused as the packet that the LNI finds and its entries say, the oldest command
transfers, and a return or a timeout ends the request of its slot; marks leave the LNI's entries and the counts of its page. -/
theorem ehrupBridge : Obligations.EhrupBridge := by
  unfold Obligations.EhrupBridge
  refine ⟨?posted, ?full, ?refused, ?new, ?held, ?empty, ?readMoves, ?writeMoves, ?noCommand, ?noReturn, ?unknown, ?readReturns,
    ?writeReturns, ?expires, ?unexpired, ?readHangs, ?writeHangs, ?noRead⟩
  case posted =>
    intro s h hruns hhead hroom haccess hopc hcode hfree
    have hf : s.Finds h 0x00 := ⟨hhead, hroom, haccess, hopc⟩
    obtain ⟨a, hjoins, hpack⟩ := ((s.setLni (s.lni.addWrite h)).ehTake h).ndr_lni h.hdr h.sc opPACK OK
    have hlocal := ((State.Local.same (n := lniN) (t := s.setLni (s.lni.addWrite h))).trans (State.ehTake_local _ h)).trans
      (State.ndr_local _ (by decide) h.hdr h.sc opPACK OK)
    refine ⟨_, s.lni.newWrite h, a, congrArg Host.Outcome.next ((State.atTile_of_runs hruns _).trans (hf.takeWr_posted hcode hfree)),
      hjoins.lni, rfl, rfl, rfl, rfl, rfl, rfl, rfl, ?_, hjoins.tag, hjoins.dst, hpack, ?_, hlocal.other⟩
    · exact hjoins.answers.trans (congrArg (· ++ [a]) (State.ehTake_answers _ h))
    · exact hjoins.gran.trans (State.ehTake_gran _ h)
  case full =>
    intro s h hhead haccess hcode hopc hfull
    exact congrArg Host.Outcome.next (State.atTile_of_stays (State.ehTakeWr_full hhead haccess hcode hopc hfull))
  case refused =>
    intro s h hruns hhead hroom haccess hcode
    have hleaves := s.ehRefuse_leaves h (s.ehCode h)
    have hgran := hleaves.gran.trans (s.ehTake_gran h)
    refine ⟨fun hopc => ⟨_, congrArg Host.Outcome.next ((State.atTile_of_runs hruns _).trans ?_), hleaves.lni, hgran⟩,
      fun hopc => ⟨_, congrArg Host.Outcome.next ((State.atTile_of_runs hruns _).trans ?_), hleaves.lni, hgran⟩⟩
    · exact State.Finds.takeWr_refused ⟨hhead, hroom, haccess, hopc⟩ hcode
    · exact State.Finds.takeRd_refused ⟨hhead, hroom, haccess, hopc⟩ hcode
  case new =>
    intro s h i hruns hhead hroom haccess hopc hcode hmid hnew hfree
    have hf : s.Finds h 0x01 := ⟨hhead, hroom, haccess, hopc⟩
    obtain ⟨a, hjoins, hstatus⟩ := ((s.ehTake h).setLni { (s.ehTake h).lni.setRead i (some h.newRead) with
      order := s.lni.order ++ [(false, i)] }).ehRetryRsp_answers h false
    refine ⟨_, a, congrArg Host.Outcome.next ((State.atTile_of_runs hruns _).trans (hf.takeRd_new hcode hmid hnew hfree)),
      hjoins.lni, ?_, hjoins.tag, hstatus⟩
    exact hjoins.answers.trans (congrArg (· ++ [a]) (s.ehTake_answers h))
  case held =>
    intro s h i e d hruns hhead hroom haccess hopc hcode hi hread hmatch hother hdone hpast hheld
    have hf : s.Finds h 0x01 := ⟨hhead, hroom, haccess, hopc⟩
    have hexec := congrArg (Host.Outcome.next (φ := Fault) (ρ := Refusal)) ((State.atTile_of_runs hruns State.ehTakeRd).trans
      (hf.takeRd_held hcode hi hread hmatch hother hdone hpast hheld))
    by_cases hok : e.code = OK
    · obtain ⟨a, hjoins, heh, hstatus, hdata⟩ := (s.ehTake h).ehDeliver_data h i hok
      simp only [if_pos hok]
      exact ⟨_, a, hexec, hjoins.lni, hjoins.answers.trans (congrArg (· ++ [a]) (s.ehTake_answers h)), heh, hjoins.tag, hjoins.dst,
        hstatus.trans hok.symm, hdata⟩
    · obtain ⟨a, hjoins, heh, hstatus, hdata⟩ := (s.ehTake h).ehDeliver_failed h i hok
      simp only [if_neg hok]
      exact ⟨_, a, hexec, hjoins.lni, hjoins.answers.trans (congrArg (· ++ [a]) (s.ehTake_answers h)), heh, hjoins.tag, hjoins.dst,
        hstatus, hdata⟩
  case empty =>
    intro s hhead
    exact ⟨congrArg Host.Outcome.next (State.atTile_of_stays (State.ehTakeWr_none hhead)),
      congrArg Host.Outcome.next (State.atTile_of_stays (State.ehTakeRd_none hhead))⟩
  case readMoves =>
    intro s i rest e hheld hon horder hread
    exact congrArg Host.Outcome.next (State.ehTransfer_read hheld hon horder hread)
  case writeMoves =>
    intro s id rest w p hheld hon horder hwrite hslot _
    have hfound := (Lni.find?_modWrite s.lni id (f := fun w => { w with sent := w.sent + 1, sentFc := s.fc }) fun _ => rfl).trans
      (congrArg (Option.map _) hwrite)
    exact ⟨_, congrArg Host.Outcome.next (State.ehTransfer_write hheld hon horder hwrite hslot),
      congrArg EhCmd.wdat (State.ehCmd_write hheld hon horder hwrite hslot), hfound, rfl, rfl⟩
  case noCommand =>
    intro s horder
    exact congrArg Host.Outcome.next (State.ehTransfer_none horder)
  case noReturn =>
    intro s slot word fin flt
    exact congrArg Host.Outcome.next (s.ehReturn_none slot.toNat word fin flt.toNat)
  case unknown =>
    intro s slot word fin flt hstays
    have hret : s.ehReturn 3 slot.toNat word fin flt.toNat = s.ehLate 0 0 (fltKept flt.toNat) true := by
      rw [s.ehReturn_taken word fin (by decide) (.inl rfl), hstays, ite_self, State.ehTaken_unknown]
    exact ⟨_, congrArg Host.Outcome.next hret, s.ehLate_leaves _ _ _ _⟩
  case readReturns =>
    intro s slot word fin flt e hslot hzombie hread hsent hdone hhang hgone
    have hflt (h : flt ≠ 0) : flt.toNat ≠ 0 := fun h0 => h (BitVec.eq_of_toNat_eq h0)
    refine ⟨?good, ?fault, ?late⟩
    case good =>
      rintro rfl hearly
      obtain ⟨u, hu, htaken⟩ := s.ehTaken_read word fin (fltKept 0) hread hsent hdone hhang
      obtain rfl : u = s := hu
      have hret := u.ehReturn_read_early (flt := 0) word fin hslot hzombie hread (hearly.imp_left fun h => ⟨rfl, h⟩)
      exact congrArg Host.Outcome.next (hret.trans (htaken.trans (by rw [← e.returned_good]; rfl)))
    case fault =>
      intro hne hearly
      have hkept : fltKept flt.toNat ≠ 0 := mt fltKept_eq_zero.1 (hflt hne)
      obtain ⟨u, hu, htaken⟩ := s.ehTaken_read word fin (fltKept flt.toNat) hread hsent hdone hhang
      rw [if_pos hkept] at hu
      obtain ⟨hbit, -⟩ := s.ehErr_leaves (fltKept flt.toNat) false slot.toNat e.addr
      have hret := s.ehReturn_read_early (flt := flt.toNat) word fin hslot hzombie hread (.inr hearly)
      exact ⟨_, congrArg Host.Outcome.next (hret.trans htaken), hu ▸ hbit, _, Lni.read_setRead_self _ _ _, rfl,
        e.returned_fault _ word fin hkept⟩
    case late =>
      intro hne hmode hdue
      exact ⟨_, rfl, s.ehReturn_read_late word fin hslot hzombie hread hsent hdone hgone (mt fltKept_eq_zero.1 (hflt hne)) hmode hdue⟩
  case writeReturns =>
    intro s slot word fin w hzombie hwrite hhang hfault
    have hret : s.ehReturn 2 slot.toNat word fin 0 = _ := s.ehReturn_taken word fin (by decide) (.inr hzombie)
    have hkept : fltKept 0 = 0 := rfl
    rw [hkept, hfault, if_neg Bool.false_ne_true, s.ehTaken_write word fin hwrite hhang] at hret
    exact congrArg Host.Outcome.next hret
  case expires =>
    intro s i e d hruns hread hdone hgone hans hdue
    obtain ⟨hlni, hni, hcnt⟩ := s.ehExpire_due hread hdone hgone hans hdue
    exact ⟨_, congrArg Host.Outcome.next (State.atTile_of_runs hruns _), hlni, hcnt, hni⟩
  case unexpired =>
    intro s i hearly
    exact congrArg Host.Outcome.next (State.atTile_of_stays (State.ehExpire_early hearly))
  case readHangs =>
    intro s slot e hmode hslot hread hsent hdone hdue
    have hmarks := (s.setLni (s.lni.setRead slot.val (some (e.timedOut s.fc)))).niErr_noted lniN 13
    obtain ⟨l, d, hd, hitem⟩ := State.partFault_due ((s.setLni (s.lni.setRead slot.val (some (e.timedOut s.fc)))).pageErr_spares
      (niPage lniN) 13).due (hPart e.hdr)
    exact ⟨_, l, d, congrArg Host.Outcome.next (s.ehTimeout_read_due hmode hslot hread hsent hdone hdue), hmarks.lni, hd, hitem⟩
  case writeHangs =>
    intro s slot w hmode hslot hwrite hdue
    obtain ⟨hlni, l, d, hd, hitem⟩ := State.hangs_leaves (s.setLni (s.lni.modWrite w.id fun w => { w with hang := true })) w.hdr w.addr
    exact ⟨_, l, d, congrArg Host.Outcome.next (s.ehTimeout_write_due hmode hslot hwrite hdue), hlni, hd, hitem⟩
  case noRead =>
    intro s slot hslot hread
    exact congrArg Host.Outcome.next (s.ehTimeout_read_none hslot hread)

end Sys2Proof.Machine
end
